-- ==== Sys2Proof/Word.lean ====
section
/-! DEFINITION. Words of the Creatrum V4 and the one sparse array type that register files and memories use. -/

namespace Sys2Proof

/-- A byte of memory. -/
abbrev Byte := BitVec 8
/-- A 32-bit register word (R29). -/
abbrev W32 := BitVec 32
/-- A 64-bit value: a pair, a scalar register, a latch, an address. -/
abbrev W64 := BitVec 64
/-- A 64-byte line as one number, byte 0 in the low bits (R9). -/
abbrev LineData := BitVec 512

/-- A sparse array: (index, value) pairs with rising indices and no zero value. An index that is not
listed reads as zero. Memories are `Cells 8`, which is a list of `Host.Cell`. -/
abbrev Cells (w : Nat) := List (Nat × BitVec w)

end Sys2Proof
end

