-- ==== Sys2Proof/Machine/Cells.lean ====
section
/-! DEFINITION. Reading and writing sparse arrays, and bytes and words in them (R9: the lowest byte at the lowest
address). -/

namespace Sys2Proof

/-- The value at index k; zero where nothing is listed. -/
def Cells.get {w : Nat} : Cells w → Nat → BitVec w
  | [], _ => 0
  | (j, v) :: t, k => if k < j then 0 else if k = j then v else Cells.get t k

/-- Every listed index lies above k. -/
def Cells.above {w : Nat} (k : Nat) : Cells w → Bool
  | [] => true
  | (j, _) :: _ => k < j

/-- Writes v at index k; writing zero removes the entry. -/
def Cells.set {w : Nat} : Cells w → Nat → BitVec w → Cells w
  | [], k, v => if v = 0 then [] else [(k, v)]
  | (j, u) :: t, k, v =>
    if k < j then (if v = 0 then (j, u) :: t else (k, v) :: (j, u) :: t)
    else if k = j then (if v = 0 && Cells.above k t then t else (k, v) :: t)
    else (j, u) :: Cells.set t k v

/-- Several writes, first to last. -/
def Cells.setAll {w : Nat} (c : Cells w) (l : List (Nat × BitVec w)) : Cells w :=
  l.foldl (fun c p => Cells.set c p.1 p.2) c

/-- The canonical form: rising indices, no zero value. -/
def Cells.wf {w : Nat} : Cells w → Bool
  | [] => true
  | (j, v) :: t => v != 0 && Cells.above j t && Cells.wf t

/-- Drops every entry whose index satisfies p. -/
def Cells.clear {w : Nat} (c : Cells w) (p : Nat → Bool) : Cells w := c.filter (fun e => !p e.1)

/-- The n bytes from a upward. -/
def Cells.bytes (c : Cells 8) (a n : Nat) : List Byte := (List.range n).map (fun k => Cells.get c (a + k))

/-- Stores bytes from a upward. -/
def Cells.setBytes (c : Cells 8) (a : Nat) : List Byte → Cells 8
  | [] => c
  | b :: t => Cells.setBytes (Cells.set c a b) (a + 1) t

/-- The number that little-endian bytes write (R9). -/
def leNat : List Byte → Nat
  | [] => 0
  | b :: t => b.toNat + 256 * leNat t

/-- The n little-endian bytes of a number (R9). -/
def natBytes : Nat → Nat → List Byte
  | 0, _ => []
  | n + 1, x => BitVec.ofNat 8 x :: natBytes n (x / 256)

/-- The little-endian number of n bytes at a. -/
def Cells.le (c : Cells 8) (a n : Nat) : Nat := leNat (Cells.bytes c a n)

/-- Stores a number as n little-endian bytes at a. -/
def Cells.setLe (c : Cells 8) (a n x : Nat) : Cells 8 := Cells.setBytes c a (natBytes n x)

/-- The 64-byte line at a. -/
def Cells.line (c : Cells 8) (a : Nat) : LineData := BitVec.ofNat 512 (Cells.le c a 64)

/-- Byte k of a line. -/
def lineByte (l : LineData) (k : Nat) : Byte := l.extractLsb' (8 * k) 8

/-- Line l with the bytes at k onward replaced. -/
def lineSet (l : LineData) (k : Nat) : List Byte → LineData
  | [] => l
  | b :: t =>
    let m := (BitVec.setWidth 512 0xFF#8) <<< (8 * k)
    lineSet ((l &&& ~~~m) ||| ((BitVec.setWidth 512 b) <<< (8 * k))) (k + 1) t

/-- n bytes of a line from k. -/
def lineBytes (l : LineData) (k n : Nat) : List Byte := (List.range n).map (fun j => lineByte l (k + j))

/-- Bits [hi:lo] of a number. -/
def bits (x hi lo : Nat) : Nat := x / 2 ^ lo % 2 ^ (hi - lo + 1)

/-- Sign extension of an n-bit number to an integer. -/
def sext (n x : Nat) : Int := if x % 2 ^ n < 2 ^ (n - 1) then (x % 2 ^ n : Nat) else (x % 2 ^ n : Nat) - (2 ^ n : Nat)

/-- Puts x before the first element that it precedes. -/
def insertBy {α : Type} (lt : α → α → Bool) (x : α) : List α → List α
  | [] => [x]
  | y :: t => if lt x y then x :: y :: t else y :: insertBy lt x t

/-- Bit b of a number. -/
def bitOf (x b : Nat) : Bool := x.testBit b

/-- 1 or 0. -/
def boolNat (b : Bool) : Nat := if b then 1 else 0

end Sys2Proof

/-- A list in an order; elements that neither precedes keep their places. -/
def List.sortBy {α : Type} (l : List α) (lt : α → α → Bool) : List α := l.foldl (fun acc x => Sys2Proof.insertBy lt x acc) []
end

