-- ==== Sys2Proof/Syntax.lean ====
section
/-! DEFINITION. The instruction type: one constructor per row of spec/opcode_table.json.
A row that is a 96-bit Pevor word carries its format's fields (R21); a device event, host access, command or
message carries what identifies the step. -/

namespace Sys2Proof

/-- Format X fields (R21); bit [25] is reserved and not kept. -/
structure XForm where
  gn : BitVec 1
  gp : BitVec 3
  d : BitVec 9
  w : BitVec 1
  a : BitVec 9
  b : BitVec 9
  c : BitVec 9
  m : BitVec 12
  t : BitVec 4
  rm : BitVec 3
  sat : BitVec 1
  imm : BitVec 24
  deriving DecidableEq, Repr

/-- Format I fields (R21, R23); bits [21:0] are reserved. -/
structure IForm where
  gn : BitVec 1
  gp : BitVec 3
  d : BitVec 9
  w : BitVec 1
  a : BitVec 9
  b : BitVec 9
  imm : W32
  deriving DecidableEq, Repr

/-- Format M fields (R21, R24, R147). -/
structure MForm where
  gn : BitVec 1
  gp : BitVec 3
  d : BitVec 9
  sat : BitVec 1
  a : BitVec 9
  b : BitVec 9
  c : BitVec 9
  m : BitVec 12
  t : BitVec 4
  rm : BitVec 3
  ord : BitVec 2
  imm : BitVec 24
  deriving DecidableEq, Repr

/-- Format B fields (R21, R25); bits [72] and [44:24] are reserved. -/
structure BForm where
  gn : BitVec 1
  gp : BitVec 3
  d : BitVec 9
  a : BitVec 9
  b : BitVec 9
  c : BitVec 9
  loff : BitVec 21
  slot : BitVec 3
  deriving DecidableEq, Repr

/-- Format E fields (R21, R26); bits [72] and [44:24] are reserved. -/
structure EForm where
  gn : BitVec 1
  gp : BitVec 3
  d : BitVec 9
  a : BitVec 9
  b : BitVec 9
  c : BitVec 9
  cmd : BitVec 24
  deriving DecidableEq, Repr

/-- The head of a Tuinko command (R437): the issuing function (0 is the PF), FLG and TAG. -/
structure CmdHead where
  fn : Nat
  flg : BitVec 16
  tag : W32
  deriving DecidableEq, Repr

/-- A detected error in a storage structure (R256). `double` is a double error, or a parity error. -/
inductive SoftError where
  | l1 (core asid line : Nat) (double : Bool)
  | storeBuffer (op lane : Nat) (double : Bool)
  | scratchpad (wid off : Nat) (double : Bool)
  | homeData (asid line granule : Nat) (double : Bool)
  | rdcData (die asid line granule : Nat) (double : Bool)
  | tags (die set : Nat) (double : Bool)
  | l1Tags (core set : Nat) (double : Bool)
  | rdcTags (die set : Nat) (double : Bool)
  | hbm (addr : Nat) (double : Bool)
  | vreg (gid lane reg : Nat)
  | sreg (gid reg : Nat)
  | latch (gid lane idx : Nat)
  | fetch (asid line : Nat) (persists : Bool)
  deriving DecidableEq, Repr

/-- What the ROM finds of an image in flash (R447): whether its RSASSA-PSS signature verifies, its security version, and
whether its ML-DSA-87 signature verifies, where it has one. -/
structure ImageCheck where
  rsaOk : Bool
  version : Nat
  mldsa : Option Bool
  deriving DecidableEq, Repr

/-- What the boot steps of one reset find (R470): the images, the units whose step fails in this boot with which
alternative, and the width that the PCIe link trains at. -/
structure BootResults where
  imageA : ImageCheck
  imageB : ImageCheck
  patch : Option ImageCheck
  /-- die pair k at full width, and 6 + k at half width -/
  linkFail : List Nat
  /-- stack and rate in Mb/s -/
  hbmFail : List (Nat × Nat)
  coreFail : List Nat
  engineFail : List Nat
  portFail : List Nat
  /-- rates in GT/s -/
  pcieFail : List Nat
  /-- the link trains at ×8 (R433) -/
  pcieX8 : Bool
  deriving DecidableEq, Repr

/-- The binding a management message arrives on (R449): PCIe VDM, or SMBus with the 7-bit address it names. -/
inductive MctpBus where
  | pcieVdm
  | smbus (addr : BitVec 7)
  deriving DecidableEq, Repr

/-- A configuration access (R434): the byte offset of the register, and what is written. -/
structure ConfigAccess where
  reg : Nat
  write : Option W32
  deriving DecidableEq, Repr

/-- A member as it announces itself: its station and its rank (R459, R462). -/
structure MemberName where
  station : BitVec 10
  rank : Nat
  deriving DecidableEq, Repr

/-- What a peer request does (R459, R461). -/
inductive PeerOp where
  | read (len : Nat)
  | write (data : List Byte)
  | atomic (kind : BitVec 3) (t : BitVec 4) (rm : BitVec 3) (sat : Bool) (data : W64)
  | cas (len : Nat) (compare data : BitVec 128)
  deriving DecidableEq, Repr

/-- A UALink request from a peer package: the tag's station and partition, the group, the rank it names,
the window offset, the operation (R459, R461). -/
structure PeerRequest where
  station : BitVec 10
  part : Nat
  group : Nat
  rank : Nat
  offset : Nat
  op : PeerOp
  deriving DecidableEq, Repr

/-- A member's arrival in a round (R453, R464): what it announces and the elements the receiver reads from it.
`kind` is 0 MLDRED, 1 COLL, 2 HALO. -/
structure ArrivalMsg where
  part : Nat
  group : Nat
  kind : Nat
  off : W64
  round : Nat
  rank : Nat
  cmd : BitVec 24
  count : W32
  root : BitVec 16
  /-- the bytes that the receiving engine reads from this member after its arrival -/
  data : List Byte
  /-- the member's line lies beyond its window, or the member refuses the read -/
  beyond : Bool
  refuses : Bool
  /-- the ranks a HALO member lists -/
  lists : List Nat
  /-- those of them to which it has a send -/
  sends : List Nat
  deriving DecidableEq, Repr

/-- One row of the table of operations and events. -/
inductive Instr where
  /-- Opcode 0x000 always raises Illegal instruction, whatever its guard and fields (R54). -/
  | ill (rest : BitVec 86)
  /-- Opcode 0x3FF always raises Illegal instruction, exactly as ILL at 0x000 does (R54). -/
  | ill3ff (rest : BitVec 86)
  /-- Raises Illegal instruction for an instruction whose opcode is not assigned, exactly as ILL does (R64). -/
  | unassignedOpcode (op : BitVec 10) (rest : BitVec 86)
  /-- Produces no result and leaves all state, latches included, unchanged (R54). -/
  | nop (x : XForm)
  /-- Adds integer elements per active lane, wrapping or saturating under SAT (R74). -/
  | iadd (x : XForm)
  /-- Subtracts integer elements per active lane, wrapping or saturating under SAT (R74). -/
  | isub (x : XForm)
  /-- Adds two unsigned values and a carry in, and writes the sum and a carry-out predicate (R77). -/
  | iaddc (x : XForm)
  /-- Multiplies integer elements and keeps the low w bits, or saturates under SAT (R74). -/
  | imul (x : XForm)
  /-- Returns the high half of an integer product (R75). -/
  | imulh (x : XForm)
  /-- Computes a times b plus c per element, wrapping or saturating (R74). -/
  | imad (x : XForm)
  /-- Multiplies two 32-bit elements and adds a 64-bit addend into a 64-bit result (R76). -/
  | imadw (x : XForm)
  /-- Writes the absolute value of signed integer elements (R74). -/
  | iabs (x : XForm)
  /-- Writes the integer minimum per element (R74). -/
  | imin (x : XForm)
  /-- Writes the integer maximum per element (R74). -/
  | imax (x : XForm)
  /-- Shifts elements left by a control count, giving zero for counts at or above the width (R78). -/
  | shl (x : XForm)
  /-- Shifts unsigned elements right by a control count (R78). -/
  | shr (x : XForm)
  /-- Shifts signed elements right arithmetically by a control count (R78). -/
  | sar (x : XForm)
  /-- Rotates elements left by the count modulo the width (R78). -/
  | rot (x : XForm)
  /-- Computes a three-input bitwise function given by an 8-bit truth table (R79). -/
  | logic (x : XForm)
  /-- Extracts a bit field of given position and length, sign-extending under a signed type (R80). -/
  | bfe (x : XForm)
  /-- Inserts the low bits of B into a field of A (R81). -/
  | bfi (x : XForm)
  /-- Counts the 1 bits of A (R82). -/
  | popc (x : XForm)
  /-- Counts the leading zero bits of A (R82). -/
  | clz (x : XForm)
  /-- Counts the trailing zero bits of A (R82). -/
  | ctz (x : XForm)
  /-- Reverses the bit order of A (R82). -/
  | brev (x : XForm)
  /-- Builds each byte of D from a selected and transformed byte of A and B (R83). -/
  | prmt (x : XForm)
  /-- Compares integers under a condition code and writes a predicate (R84). -/
  | icmp (x : XForm)
  /-- Compares integers under a condition code and writes 1 or 0 to a register (R84). -/
  | iset (x : XForm)
  /-- Selects A or B by a nonzero control operand (R85). -/
  | sel (x : XForm)
  /-- Combines three predicates through a truth table into a predicate (R86). -/
  | plog (x : XForm)
  /-- Copies any source operand, with optional permutation, into D (R87). -/
  | mov (x : XForm)
  /-- Writes a 32-bit immediate into D (R88). -/
  | movi (x : IForm)
  /-- Computes base plus scaled index plus offset without accessing memory (R89). -/
  | lea (x : XForm)
  /-- Converts between integer types, optionally saturating (R90). -/
  | icvt (x : XForm)
  /-- Moves A between lanes within segments by index, rotation, XOR or shift (R92). -/
  | shfl (x : XForm)
  /-- Forms a 64-bit mask of active home lanes whose A is nonzero (R93). -/
  | ballot (x : XForm)
  /-- Summarises A over the active lanes as all, any, same, count or majority (R94). -/
  | vote (x : XForm)
  /-- Writes A of one uniform home lane into D (R95). -/
  | readlane (x : XForm)
  /-- Branches active threads to a line-relative target and splits the path (R99). -/
  | bra (x : BForm)
  /-- Branches each active lane to a 64-bit target from a register after checking every target (R100). -/
  | brx (x : XForm)
  /-- Branches to a fixed target and writes the link address (R101). -/
  | call (x : BForm)
  /-- Branches to a register target and writes the link address (R101). -/
  | callx (x : XForm)
  /-- Branches to a register target as BRX does, hinting a return (R100). -/
  | ret (x : XForm)
  /-- Terminates each active thread and removes it from meetings, convergence sets and barrier counts (R102). -/
  | exit (x : XForm)
  /-- Sets, saves, restores or clears the meeting address of active threads (R103). -/
  | setmeet (x : BForm)
  /-- Sets the path priority of active threads (R106). -/
  | setprio (x : XForm)
  /-- Demotes the issuing path below every other path of its group (R107). -/
  | yield (x : XForm)
  /-- Offers active threads to the Flock unit for a bounded window (R108). -/
  | regroup (x : XForm)
  /-- Marks a switch point, clears latches and waits there when a variant order is pending (R110). -/
  | switchpt (x : XForm)
  /-- Declares the members of a convergence register once its pending set is empty (R109). -/
  | cvdecl (x : XForm)
  /-- Blocks each active thread for an LFSR-drawn number of cycles (R111). -/
  | backoff (x : XForm)
  /-- Blocks each active thread until an absolute TIME deadline (R112). -/
  | sleep (x : XForm)
  /-- Raises Software trap for the group with a 16-bit code (R113). -/
  | trap (x : XForm)
  /-- Raises Breakpoint for the group with EPC at the BKPT (R113). -/
  | bkpt (x : XForm)
  /-- Samples CYCLE or TIME into every active lane (R114). -/
  | clock (x : XForm)
  /-- Adds floating elements with one rounding (R130). -/
  | fadd (x : XForm)
  /-- Subtracts floating elements with one rounding (R130). -/
  | fsub (x : XForm)
  /-- Multiplies floating elements with one rounding (R130). -/
  | fmul (x : XForm)
  /-- Computes a fused multiply-add with one rounding (R130). -/
  | ffma (x : XForm)
  /-- Computes the IEEE minimum of two floating elements (R133). -/
  | fmin (x : XForm)
  /-- Computes the IEEE maximum of two floating elements (R133). -/
  | fmax (x : XForm)
  /-- Computes minimumNumber of two floating elements (R133). -/
  | fminnm (x : XForm)
  /-- Computes maximumNumber of two floating elements (R133). -/
  | fmaxnm (x : XForm)
  /-- Compares floating values under a condition and writes a predicate (R134). -/
  | fcmp (x : XForm)
  /-- Compares floating values and writes 1.0 or +0 per element (R134). -/
  | fset (x : XForm)
  /-- Writes a one-hot class mask of a floating value (R136). -/
  | fclass (x : XForm)
  /-- Rebuilds a value from A's magnitude and a selected sign (R135). -/
  | fsgn (x : XForm)
  /-- Divides with correct rounding (R131). -/
  | fdiv (x : XForm)
  /-- Takes a correctly rounded square root (R131). -/
  | fsqrt (x : XForm)
  /-- Estimates a reciprocal to 14 significant bits (R132). -/
  | frcpe (x : XForm)
  /-- Estimates a reciprocal square root to 14 significant bits (R132). -/
  | frsqe (x : XForm)
  /-- Rounds each element to an integral value in its own format (R138). -/
  | frnd (x : XForm)
  /-- Scales a value by 2 to a signed integer power with rounding (R139). -/
  | fldexp (x : XForm)
  /-- Writes floor of log2 of the magnitude as a signed integer (R140). -/
  | fgetexp (x : XForm)
  /-- Converts one element between floating formats, merging into B for narrow destinations (R141). -/
  | fcvt (x : XForm)
  /-- Converts a floating value to an integer with saturation on overflow (R142). -/
  | f2i (x : XForm)
  /-- Converts an integer to a floating value with rounding (R143). -/
  | i2f (x : XForm)
  /-- Sums two exact 16-bit products with an FP32 addend and rounds once (R144). -/
  | dot2 (x : XForm)
  /-- Sums four exact 16-bit products with an FP32 addend and rounds once (R144). -/
  | dot4 (x : XForm)
  /-- Multiplies packed 16-bit elements into two FP32 accumulators (R145). -/
  | hfma2 (x : XForm)
  /-- Clamps each element to the range +0 to 1.0 (R137). -/
  | fsat (x : XForm)
  /-- Loads n bytes per active lane from global memory (R154). -/
  | ld (x : MForm)
  /-- Stores n bytes per active lane to global memory through the store buffer (R154). -/
  | st (x : MForm)
  /-- Loads from own or cluster scratchpad (R154). -/
  | lds (x : MForm)
  /-- Stores to own or cluster scratchpad (R154). -/
  | sts (x : MForm)
  /-- Loads 16 bytes per lane into four registers (R154). -/
  | ldq (x : MForm)
  /-- Stores 16 bytes per lane from four registers (R154). -/
  | stq (x : MForm)
  /-- Loads from the frame that covers a named step of a tracked page (R156). -/
  | ldv (x : MForm)
  /-- Prefetches a line into L1 or the die cache, dropping faults silently (R157). -/
  | pref (x : MForm)
  /-- Sends per-address atomic chains that return old values (R158). -/
  | atom (x : MForm)
  /-- Sends compare-and-swap chains that return old values (R158). -/
  | cas (x : MForm)
  /-- Sends atomic reduction chains with no return (R158). -/
  | red (x : MForm)
  /-- Waits for the group's earlier loads or stores to complete at a scope (R160). -/
  | fence (x : MForm)
  /-- Waits on producer engine paths and holds consumer paths (R161). -/
  | fencex (x : MForm)
  /-- Drains store-buffer entries and invalidates L1 lines of a range (R163). -/
  | drop (x : MForm)
  /-- Drains a victim core, waits for its writes and widens a line's scope record (R164). -/
  | promote (x : MForm)
  /-- Cleans or evicts a range of the home cache and remote-data cache (R165). -/
  | cctl (x : MForm)
  /-- Arrives at a workgroup barrier and waits for the phase (R170). -/
  | bar (x : XForm)
  /-- Arrives at a workgroup barrier without waiting (R170). -/
  | bara (x : XForm)
  /-- Waits for the phase of the group's last arrival at a barrier (R170). -/
  | barw (x : XForm)
  /-- Arrives and waits at a cluster barrier (R171). -/
  | cbar (x : XForm)
  /-- Arrives at the launch-wide superstep barrier after its writes and commands complete (R172). -/
  | sstep (x : XForm)
  /-- Declares a scratchpad queue and sets every group's allowance (R175). -/
  | qdecl (x : XForm)
  /-- Pushes a slot into a queue, blocking on allowance or a full queue (R175). -/
  | qpush (x : XForm)
  /-- Pops the oldest slot of a queue, blocking when empty (R175). -/
  | qpop (x : XForm)
  /-- Writes a queue status word without waiting (R175). -/
  | qtry (x : XForm)
  /-- Sends a chain that pushes an entry at a deque's bottom (R178). -/
  | dqpush (x : XForm)
  /-- Sends a chain that pops an entry from a deque's bottom (R178). -/
  | dqpop (x : XForm)
  /-- Sends a chain that takes an entry from a deque's top (R178). -/
  | dqsteal (x : XForm)
  /-- Creates one task per active lane from a task record (R180). -/
  | launch (x : EForm)
  /-- Waits for named tasks and returns their status (R181). -/
  | twait (x : XForm)
  /-- Moves the group to a landing slot on the die that homes an address (R182). -/
  | migrate (x : MForm)
  /-- Sets the workgroup priority (R183). -/
  | priowg (x : XForm)
  /-- Queues a strided copy command and returns its tag (R187). -/
  | cpy (x : EForm)
  /-- Issues a copy and waits for DONE, returning the status word (R187). -/
  | cpyw (x : EForm)
  /-- Queues a gather of indexed rows into a contiguous destination (R187). -/
  | gath (x : EForm)
  /-- Queues a scatter of contiguous rows to indexed rows (R187). -/
  | scat (x : EForm)
  /-- Queues a snapshot command that freezes step N and advances the writers (R226). -/
  | publish (x : EForm)
  /-- Queues a snapshot command that adds a hold on a step (R228). -/
  | vhold (x : EForm)
  /-- Queues a snapshot command that removes a hold on a step and releases uncovered frames (R228). -/
  | vrel (x : EForm)
  /-- Queues a collective all-reduce, reduce-scatter, all-gather or broadcast (R463). -/
  | coll (x : EForm)
  /-- Queues a reduction of one line from every collective member in rank order (R453). -/
  | mldred (x : EForm)
  /-- Waits for a tagged command, or all commands, to reach DONE and returns status (R189). -/
  | cwait (x : EForm)
  /-- Queues halo sends to neighbour windows (R465). -/
  | halo (x : EForm)
  /-- Returns a command's current status word without waiting (R189). -/
  | estat (x : EForm)
  /-- Writes a tile's shape register (R288). -/
  | tshape (x : XForm)
  /-- Loads a tile from memory line by line (R289). -/
  | tld (x : MForm)
  /-- Stores a tile to memory line by line in one step (R289). -/
  | tst (x : MForm)
  /-- Zeroes a tile's data and resets its scale array (R290). -/
  | tzero (x : XForm)
  /-- Writes a tile line from vector registers (R291). -/
  | tmovv (x : XForm)
  /-- Reads a tile line into vector registers (R291). -/
  | tmovt (x : XForm)
  /-- Requests C plus A times B on the quad's matrix engine (R292). -/
  | mma (x : XForm)
  /-- Signs a convergence register for a recorded matrix multiply (R295). -/
  | mmas (x : XForm)
  /-- Multiplies gathered rows of A and scatters results into C by a list (R296). -/
  | gmma (x : XForm)
  /-- Converts a tile element-wise to another format with scales (R297). -/
  | tcvt (x : XForm)
  /-- Copies E8M0 elements of a tile into another tile's scale array (R290). -/
  | mxscl (x : XForm)
  /-- Fills all 512 scale entries of a tile with one value (R290). -/
  | mxsclFill (x : XForm)
  /-- Adds two tiles element-wise (R298). -/
  | tadd (x : XForm)
  /-- Multiplies a tile by an FP64 factor element-wise (R298). -/
  | tscale (x : XForm)
  /-- Reduces a tile along rows or columns by sum or maximum (R299). -/
  | tred (x : XForm)
  /-- Starts a hierarchy traversal per active lane (R344). -/
  | trace (x : XForm)
  /-- Accepts, ends or continues a traversal suspended at a candidate (R346). -/
  | tresume (x : XForm)
  /-- Returns origin, direction, normal or references of the last hit record (R347). -/
  | hitget (x : XForm)
  /-- Checks a hierarchy record and returns a defect code (R348). -/
  | bvhchk (x : XForm)
  /-- Sets each active thread's Philox key (R350). -/
  | rngkey (x : XForm)
  /-- Computes Philox4x32-10 of a counter under the lane's key (R351). -/
  | rng (x : XForm)
  /-- Converts the top 24 bits of a word to an FP32 value in [0, 1) (R352). -/
  | rngf (x : XForm)
  /-- Reads a system register into registers (R193). -/
  | mfsr (x : XForm)
  /-- Writes a system register (R193). -/
  | mtsr (x : XForm)
  /-- Returns the group from its handler and restores every thread from the trap frame (R425). -/
  | eret (x : XForm)
  /-- Performs a logged entry's lanes from the logged operands (R194). -/
  | opreplay (x : XForm)
  /-- Frees a logged entry without performing it (R194). -/
  | opdrop (x : XForm)
  /-- Ends the workgroup from handler or firmware level (R195). -/
  | halt (x : XForm)
  /-- Blocks active threads until a group event or a time limit (R195). -/
  | idle (x : XForm)
  /-- Raises Software trap with the SYSCALL flag (R195). -/
  | syscall (x : XForm)
  /-- Takes a pending Memory-class trap or TRAP action at the group's next instruction boundary (R422). -/
  | deferredTrap (gid : Nat)
  /-- Returns load data to its destination and grants an L1 lease on fill (R244). -/
  | loadReturn (op lane : Nat)
  /-- Applies a write at the line's applying party and returns its write completion time (R246). -/
  | storeApply (op lane : Nat)
  /-- Receives a write acknowledgement and raises the group's completion horizon (R248). -/
  | storeAck (ack : Nat)
  /-- Performs an atomic chain at the home atomic unit or target scratchpad (R158). -/
  | atomicUnitChain (op : Nat) (addr : W64)
  /-- Performs a deque chain on header and buffer at the header's atomic unit (R388). -/
  | dequeChain (op : Nat) (addr : W64)
  /-- Completes a waiting fence or release once its components hold (R160). -/
  | fenceComplete (gid hold : Nat)
  /-- Serves a shared request from a remote-data cache at the directory (R250). -/
  | gets (die asid line : Nat)
  /-- Serves an exclusive request from a remote-data cache at the directory (R250). -/
  | getm (die asid line : Nat)
  /-- Serves a read miss from a core of the home die (R250). -/
  | homeReadMiss (asid line : Nat)
  /-- Recalls a line from every remote-data cache to the home (R250). -/
  | recallLine (asid line : Nat)
  /-- Handles a forward or invalidation arriving at a remote-data cache (R250). -/
  | rdcForward (die asid line : Nat)
  /-- Removes a sharer on a shared replacement notice (R251). -/
  | puts (die asid line : Nat)
  /-- Sets the line invalid on an exclusive replacement notice (R251). -/
  | pute (die asid line : Nat)
  /-- Writes data home and invalidates on a modified replacement notice (R251). -/
  | putm (die asid line : Nat)
  /-- Writes data home and leaves the sharers on an owned replacement notice (R251). -/
  | puto (die asid line : Nat)
  /-- Drops an L1 line when TIME reaches its lease expiry (R244). -/
  | leaseExpiry (core asid line : Nat)
  /-- Walks both page-table stages on a home-cache miss and checks frame ownership (R361). -/
  | translationWalk (op lane : Nat)
  /-- Delivers a fetched line to a path stalled on it and makes the line checks (R377). -/
  | fetchLineArrival (gid : Nat) (line : W64)
  /-- Performs a serviced logged entry's lanes exactly once when its group is active (R370). -/
  | oplogReplay (op : Nat)
  /-- Performs a chain withdrawn at a slot edge once its group is next active (R396). -/
  | replayEntry (op : Nat)
  /-- Stops writes at every home, advances WSTEP and resumes after the drain (R226). -/
  | publishCut (gid slot : Nat)
  /-- Finishes copying a released frame's lines forward and frees it to the pool (R227). -/
  | fillForwardComplete (part fset asid page : Nat)
  /-- Marks an engine command DONE once its writes complete, with its status code (R186). -/
  | engineCommandDone (gid slot : Nat)
  /-- Releases threads held at a meeting address at the end of a cycle (R104). -/
  | meetRelease (gid : Nat) (addr : W64)
  /-- Makes a thread issuable when CYCLE reaches its back-off deadline (R111). -/
  | backoffExpiry (gid lane : Nat)
  /-- Makes a thread issuable when TIME reaches its sleep deadline (R112). -/
  | sleepExpiry (gid lane : Nat)
  /-- Rebuilds Flock bins at the end of a cycle and releases full or expired bins (R210). -/
  | flockBinRelease (wid : Nat) (addr : W64)
  /-- Forces a path passed over in 64 counted issues to issue next (R209). -/
  | passedOverGuard (gid : Nat)
  /-- Forces a group passed over for 4,096 partition cycles to issue (R321). -/
  | partitionStarvation (core ipart : Nat)
  /-- Completes a workgroup barrier phase and releases its waiters (R170). -/
  | barrierPhaseComplete (wid bar : Nat)
  /-- Completes a cluster barrier phase (R171). -/
  | cbarPhaseComplete (cid bar : Nat)
  /-- Completes a superstep phase, advances the counter and releases every group (R172). -/
  | sstepRelease (lid : Nat)
  /-- Performs a blocked push once allowance and a slot are available (R175). -/
  | qpushProceed (cid q : Nat)
  /-- Performs a blocked pop once a slot is occupied (R175). -/
  | qpopProceed (cid q : Nat)
  /-- Writes a waiting CVDECL's member set once the pending set empties (R109). -/
  | cvdeclWrite (gid tok : Nat)
  /-- Gives a waiting LAUNCH lane a freed launch-queue entry and its task id (R180). -/
  | launchEntryGrant (op lane : Nat)
  /-- Completes TWAIT once every named task has completed (R181). -/
  | twaitComplete (gid tok : Nat)
  /-- Moves a waiting group into a granted landing slot (R182). -/
  | migrateLand (gid : Nat)
  /-- Completes CWAIT when its command or commands reach DONE (R189). -/
  | cwaitComplete (gid tok : Nat)
  /-- Unblocks IDLE threads on an engine, task, log or time event (R195). -/
  | idleWake (gid lane : Nat)
  /-- Retires a group whose threads have exited once its long-class operations complete (R102). -/
  | groupRetire (gid : Nat)
  /-- Admits every workgroup of an eligible launch at once, choosing cores and variants (R311). -/
  | launchAdmit (vf id : Nat) (cores : List Nat)
  /-- Moves a workgroup to its new variant once every condition of the rendezvous holds (R316). -/
  | switchRendezvous (wid : Nat)
  /-- Promotes an issuable group into the active set, demoting others to make room (R320). -/
  | contextPromote (core : Nat)
  /-- Promotes a group left outside the active set for 65,536 cycles ahead of priority (R320). -/
  | contextAgeing (core : Nat)
  /-- Grants a pass to the best competing reservation-table entry and ages the others (R327). -/
  | matrixGrant (quad : Nat)
  /-- Completes a matrix pass and frees its reservation-table entry (R323). -/
  | matrixPassComplete (quad : Nat)
  /-- Ends a lane's traversal and writes its hit record (R344). -/
  | traversalComplete (op lane : Nat)
  /-- Stops issue for a leaving partition 20 µs before a boundary (R409). -/
  | issueStop (quad : Nat)
  /-- Starts the save when every outstanding operation of the stopped groups has landed (R410). -/
  | quiescenceComplete (quad : Nat)
  /-- Finishes writing images and clears the quad's structures for the entering partition (R429). -/
  | contextSaveComplete (quad : Nat)
  /-- Begins the next slot-table row and hands quads between partitions (R408). -/
  | slotBoundary
  /-- Records an Overrun when a save is unfinished 10 µs after the boundary (R413). -/
  | overrun (quad : Nat)
  /-- Passes a quad to a donation target after 10 µs with no runnable work (R411). -/
  | slackDonation (quad : Nat)
  /-- Resumes a saved workgroup on a core of a held quad (R317). -/
  | workgroupResume (wid core : Nat)
  /-- Completes re-encryption under a new key and discards the old one (R445). -/
  | keyRotateComplete (part : Nat)
  /-- Creates a partition with its context area and key (R439). -/
  | partCreate (h : CmdHead) (part parent : BitVec 8) (area : W64) (frames : W32)
  /-- Accepts a deferred deletion of a partition (R439). -/
  | partDelete (h : CmdHead) (part : BitVec 8)
  /-- Accepts a deferred slot table with new parents (R439). -/
  | partMode (h : CmdHead) (table : W64) (nrows : BitVec 16) (children : List (BitVec 8 × BitVec 8))
  /-- Accepts a deferred new slot table (R415). -/
  | slotWrite (h : CmdHead) (table : W64) (nrows : BitVec 16)
  /-- Binds a VF to a partition with its fault ring (R439). -/
  | vfBind (h : CmdHead) (vf : BitVec 16) (part : BitVec 8) (ring : W64) (log : BitVec 8)
  /-- Unbinds a VF (R439). -/
  | vfUnbind (h : CmdHead) (vf : BitVec 16)
  /-- Creates an ASID for a VF with its stage-1 root and lease length (R439). -/
  | asidCreate (h : CmdHead) (asid vf : BitVec 16) (root : W64) (len : BitVec 16)
  /-- Deletes an idle ASID (R439). -/
  | asidDelete (h : CmdHead) (asid : BitVec 16)
  /-- Changes a region-table entry after evicting its lines and waiting out leases (R241). -/
  | regionSet (h : CmdHead) (asid : BitVec 16) (region : BitVec 8) (entry : W32)
  /-- Sets an ASID's lease length (R243). -/
  | leaseSet (h : CmdHead) (asid len : BitVec 16)
  /-- Maps pages under the ordered remap procedure (R367). -/
  | map (h : CmdHead) (asid : BitVec 16) (size attrs : BitVec 8) (count : W32) (va gpa : W64)
  /-- Unmaps pages and ends the frame chains of tracked pages (R477). -/
  | unmap (h : CmdHead) (asid : BitVec 16) (size : BitVec 8) (count : W32) (va : W64)
  /-- Grants frames to a partition's stage 2 or a field-set pool (R364). -/
  | frameGrant (h : CmdHead) (part dest fset attrs : BitVec 8) (count : W32) (hpa gpa : W64)
  /-- Revokes frames that are neither mapped, pinned nor in a chain (R364). -/
  | frameRevoke (h : CmdHead) (part : BitVec 8) (count : W32) (hpa : W64)
  /-- Loads and checks a code object and returns its KOBJ (R306). -/
  | codeLoad (h : CmdHead) (asid : BitVec 16) (source : W64) (length : W32) (dest : W64)
  /-- Unloads a code object with no queued or admitted launch (R439). -/
  | codeUnload (h : CmdHead) (asid : BitVec 16) (kobj : W64)
  /-- Creates a VF's launch rings and launch completion ring (R439). -/
  | lqCreate (h : CmdHead) (base : W64) (log : BitVec 8) (cring : W64) (clog : BitVec 8)
  /-- Deletes a VF's launch queue when no task is queued or running (R439). -/
  | lqDelete (h : CmdHead)
  /-- Creates a field set with its ranges and initial writers' step (R219). -/
  | fsetCreate (h : CmdHead) (part fset nr : BitVec 8) (wstep : W32) (ranges : W64)
  /-- Deletes a field set with no tracked mapping, aborting its commands (R233). -/
  | fsetDelete (h : CmdHead) (part fset : BitVec 8)
  /-- Accepts a deferred rotation of a partition's key (R445). -/
  | keyRotate (h : CmdHead) (part : BitVec 8)
  /-- Services a fault record by replaying its entry or continuing its command or fetch (R374). -/
  | fqServiceReplay (h : CmdHead) (fid : W32)
  /-- Services a fault record by dropping its entry (R374). -/
  | fqServiceDrop (h : CmdHead) (fid : W32)
  /-- Services a fault record by trapping the group to its handler (R374). -/
  | fqServiceTrap (h : CmdHead) (fid : W32)
  /-- Joins a partition to a collective group with its window and announces it (R462). -/
  | collJoin (h : CmdHead) (part : BitVec 8) (group rank members : BitVec 16) (timeout : W32) (wasid : BitVec 16) (wbase wlen : W64)
  /-- Removes a member from a collective group (R467). -/
  | collLeave (h : CmdHead) (part : BitVec 8) (group : BitVec 16)
  /-- Returns a signed measurement report for a nonce (R448). -/
  | attest (h : CmdHead) (nonce : List Byte) (report : W64)
  /-- Writes the 1,024-byte health report (R450). -/
  | health (h : CmdHead) (report : W64)
  /-- Ends an open command with PEER_ABSENT on receiving a closure (R454). -/
  | roundClosure (part group kind round : Nat) (off : W64)
  /-- Closes a round at a member whose timeout expires before every arrival (R454). -/
  | collectiveTimeout (part group kind round : Nat) (off : W64)
  /-- Completes a function-level reset within 100 ms, setting FSTAT.FLRDONE and signalling PF vector 4 (R444). -/
  | functionLevelResetDone (vf : Nat)
  /-- Starts issue on a quad that an overrun partition enters once the recorded excess x has elapsed after the row begins (R413). -/
  | overrunDelayEnd (quad : Nat)
  /-- Handles a detected ECC or parity error in a storage structure (R256). -/
  | softError (e : SoftError)
  /-- Scrubs home caches hourly and HBM daily, correcting single errors (R256). -/
  | scrubPass (hbm : Bool) (unit : Nat)
  /-- Stops lease grants on a die that cannot be kept within 4 ns (R242). -/
  | timeSyncLoss (die : Nat)
  /-- Halves a die's clock in steps at 105 °C until below 100 °C (R475). -/
  | thermalThrottle (die : Nat) (temp : BitVec 16)
  /-- Removes main power at 120 °C (R475). -/
  | thermalShutdown
  /-- Restores a die's arithmetic clock when its junction temperature falls below 100 °C (R475). -/
  | throttlingEnd (die : Nat) (temp : BitVec 16)
  /-- Resets the whole device and runs every boot step (R468). -/
  | coldReset (b : BootResults)
  /-- Resets from step 0x05, keeping TIME, training and health counts (R468). -/
  | warmReset (b : BootResults)
  /-- Resets a VF, ending its work and deleting its rings and queues (R444). -/
  | functionLevelReset (vf : Nat)
  /-- Resets every VF and deletes every partition at once (R444). -/
  | pfReset
  /-- Answers a PCIe configuration request, a read or a write, from the signed table image (R434). -/
  | configRequest (fn : Nat) (access : ConfigAccess)
  /-- Submits command-ring entries up to a new producer index (R435). -/
  | cqdb (fn : Nat) (value : W32)
  /-- Submits launch records of one level and copies them into the launch queue (R441). -/
  | lqdb (fn level : Nat) (value : W32)
  /-- Advances the host's completion-ring consumer index, freeing completion entries (R435). -/
  | cpci (fn : Nat) (value : W32)
  /-- Advances the fault-queue consumer index and lets held records post (R443). -/
  | fqci (fn : Nat) (value : W32)
  /-- Reads 0 and acknowledges earlier aperture writes of the function (R436). -/
  | apsync (fn : Nat)
  /-- Clears RINGERR or FLRDONE by writing 1 (R435). -/
  | fstat (fn : Nat) (value : W32)
  /-- Writes a register-block register that has no behaviour of its own (R435). -/
  | registerWrite (fn off : Nat) (value : W64)
  /-- Performs a host BAR2 access as a host-DMA LSU access in the partition (R436). -/
  | apertureAccess (fn : Nat) (off : W64) (write : Bool) (data : List Byte)
  /-- Answers an MCTP control message (R449). -/
  | mctpControl (bus : MctpBus) (body : List Byte)
  /-- Answers an unsupported MCTP message type with ERROR_UNSUPPORTED_CMD (R449). -/
  | mctpUnsupported (bus : MctpBus) (type : Byte)
  /-- Returns the HEALTH report over a vendor-defined PCI message (R449). -/
  | healthVdm (bus : MctpBus)
  /-- Starts a warm reset from the management controller's message (R468). -/
  | vendorResetMessage (b : BootResults)
  /-- Answers the SPDM version request (R448). -/
  | getVersion
  /-- Answers the SPDM capabilities request (R448). -/
  | getCapabilities
  /-- Negotiates RSASSA-4096 and SHA-512 (R448). -/
  | negotiateAlgorithms (asym hash : W32)
  /-- Returns certificate digests (R448). -/
  | getDigests
  /-- Returns a certificate chain (R448). -/
  | getCertificate (offset length : BitVec 16)
  /-- Answers an SPDM challenge with a signed response (R448). -/
  | challenge (nonce : List Byte)
  /-- Returns the six measurement blocks (R448). -/
  | getMeasurements (block : Byte) (nonce : List Byte)
  /-- Serves or refuses a UALink memory request from a peer package (R461). -/
  | peerRequest (r : PeerRequest)
  /-- Ends requests in flight on a UALink port that cannot replay (R467). -/
  | linkReplayFailure (port : Nat)
  /-- Brings a UALink port back up after loss, updating ULUP and signalling the link state change on PF vector 5 (R433). -/
  | ualinkLinkUp (port : Nat)
  /-- Records a member announcement and forms or conflicts the group (R462). -/
  | collAnnounce (part group : Nat) (rank : MemberName) (members : Nat) (leave : Bool)
  /-- Records a member's arrival in a round and starts the reads and folds when all have arrived (R453). -/
  | memberArrival (a : ArrivalMsg)
  /-- Records a halo send acknowledged at the neighbour (R466). -/
  | haloSendAck (part group round rank : Nat) (refused : Bool)
  /-- Records a neighbour's report of its sends and completes the HALO when all hold (R466). -/
  | haloReport (part group round rank : Nat)
  deriving DecidableEq, Repr

end Sys2Proof
end

