-- ==== Sys2Proof/Machine/Shape.lean ====
section
/-! DEFINITION. The field use of every opcode as one table (R53 to R63, R69, R98, R128, R147, R148, R168, R175, R178,
R180 to R185, R193 to R195, R286, R338), and the encoding checks that read it (R21 to R30, R33, R34, R39 to R44, R65). -/

namespace Sys2Proof

/-- Pipe classes (R53); `none` is for NOP and ILL. -/
inductive Pipe where
  | ia | xl | fa | fx | ct | ls | sy | en | mx | tr | ss | none
  deriving DecidableEq, Repr

/-- A word's operand fields in one of the five formats (R21). -/
inductive Form where
  | x (f : XForm)
  | i (f : IForm)
  | m (f : MForm)
  | b (f : BForm)
  | e (f : EForm)
  deriving DecidableEq, Repr

/-- The operand codes a field may hold and how they are read (R29 to R34). `k` is the highest constant code allowed,
zero for none; `ty` is the T code under which the operand is read, `ity` the one that expands IMM. -/
structure Opnd where
  v : Bool := false
  span : Nat := 1
  al : Nat := 1
  s : Bool := false
  l : Bool := false
  p : Bool := false
  vs : Bool := false
  us : Bool := false
  k : Nat := 0
  n : Bool := false
  ty : Nat := 0
  ity : Nat := 0
  deriving DecidableEq, Repr

/-- What a D, A, B or C field holds. -/
inductive Use where
  /-- must be zero (R22) -/
  | zero
  /-- must be 0x1FF (R148) -/
  | ones
  /-- a control code lo to hi (R72) -/
  | code (lo hi : Nat)
  /-- a tile number (R62) -/
  | tile
  /-- a convergence register number (R62, R109) -/
  | cv
  /-- an operand -/
  | opnd (o : Opnd)
  deriving DecidableEq, Repr

/-- What IMM holds: the immediate of 0x1FF sources (R34), or `own` low bits of the opcode's own. -/
inductive ImmUse where
  | r34
  | own (bits : Nat)
  deriving DecidableEq, Repr

/-- The field use of one instruction. `ts` lists the T codes accepted; empty means T must be zero. -/
structure Shape where
  pipe : Pipe
  long : Bool := false
  d : Use := .zero
  a : Use := .zero
  b : Use := .zero
  c : Use := .zero
  /-- D supplies data -/
  dsrc : Bool := false
  imm : ImmUse := .own 0
  ts : List Nat := []
  rm : Bool := false
  sat : Bool := false
  w : Bool := false
  /-- M is the modifier of R39 -/
  mods : Bool := false
  /-- an s destination makes the instruction scalar (R33) -/
  scal : Bool := true
  /-- produces a latch result (R35) -/
  result : Bool := false
  /-- group-wide (R212) -/
  wide : Bool := false
  /-- a control transfer of R56 -/
  xfer : Bool := false
  deriving DecidableEq, Repr

/-- T codes of 64-bit types (R30). -/
def wideT (t : Nat) : Bool := t = 2 || t = 3 || t = 5

/-- T codes of floating types (R43). -/
def floatT (t : Nat) : Bool := 4 <= t && t <= 9

/-- Element width of a T code (R43). -/
def elemW (t : Nat) : Nat :=
  if wideT t then 64 else if t <= 4 then 32 else if t <= 9 then 16 else if t <= 11 then 8 else 4

/-- Number of elements of a T code (R43). -/
def elemN (t : Nat) : Nat :=
  if t <= 7 then 1 else if t <= 9 then 2 else if t <= 11 then 4 else 8

/-- Signed integer T codes (R43). -/
def signedT (t : Nat) : Bool := t = 1 || t = 3 || t = 10 || t = 12

/-- The highest constant code with a value under a type (R32): 8 and 16 have none under SI4, 16 none under UI4. -/
def constMax (t : Nat) : Nat := if floatT t then 0x16F else if t = 12 then 0x165 else if t = 13 then 0x166 else 0x167

/-- Registers of an operand of type t (R30). -/
def spanT (t : Nat) : Nat := if wideT t then 2 else 1

namespace Opnd

/-- Any source of R29 under type t. -/
def src (t : Nat) : Opnd :=
  { v := true, span := spanT t, al := spanT t, s := true, l := true, p := true, vs := true, us := true,
    k := constMax t, n := true, ty := t, ity := t }

/-- A control operand (R71). -/
def ctl : Opnd := src 0

/-- A uniform operand (R167) read under type t. -/
def unif (t : Nat) : Opnd := { s := true, us := true, k := constMax t, n := true, ty := t, ity := t }

/-- An even v pair or an s register. -/
def pairS : Opnd := { v := true, span := 2, al := 2, s := true, ty := 2, ity := 2 }

/-- v registers only. -/
def vregs (span al : Nat) : Opnd := { v := true, span := span, al := al, ty := if span = 2 then 2 else 0 }

/-- A destination of R29 under type t. -/
def dst (t : Nat) : Opnd := { v := true, span := spanT t, al := spanT t, s := true, p := true, n := true, ty := t }

/-- A v or s register under type t. -/
def vs' (t : Nat) : Opnd := { v := true, span := spanT t, al := spanT t, s := true, ty := t }

/-- A predicate. -/
def pred : Opnd := { p := true }

/-- Only the uniform codes of the operand (R33). -/
def uniform (o : Opnd) : Opnd := { o with v := false, l := false, p := false, vs := false }

/-- Whether the operand may hold a code, with `.regs` = regs (R29 to R31). -/
def accepts (o : Opnd) (regs code : Nat) : Bool :=
  if code < 0x100 then o.v && code % o.al == 0 && code + o.span <= regs
  else if code < 0x140 then o.s
  else if code < 0x144 then o.l
  else if code < 0x14C then o.p
  else if code < 0x160 then
    if code = 0x15F then false
    else if code = 0x14C || code = 0x14D || code = 0x157 || code = 0x158 then o.vs else o.us
  else if code < 0x170 then code <= o.k
  else code = 0x1FF && o.n

end Opnd

/-- A source use under type t. -/
abbrev Use.src (t : Nat) : Use := .opnd (.src t)
/-- A control operand use. -/
abbrev Use.ctl : Use := .opnd .ctl
/-- A uniform use of 32 bits. -/
abbrev Use.unif : Use := .opnd (.unif 0)
/-- A uniform use of 64 bits. -/
abbrev Use.unif64 : Use := .opnd (.unif 2)
/-- A destination use under type t. -/
abbrev Use.dst (t : Nat) : Use := .opnd (.dst t)

/-- Opcode and fields of an instruction word (R54 to R63); none for ILL, an unassigned opcode, and a row that is not a
word. -/
def Instr.form : Instr → Option (Nat × Form)
  | .nop x => some (0x001, .x x)
  | .iadd x => some (0x002, .x x)
  | .isub x => some (0x003, .x x)
  | .iaddc x => some (0x004, .x x)
  | .imul x => some (0x005, .x x)
  | .imulh x => some (0x006, .x x)
  | .imad x => some (0x007, .x x)
  | .imadw x => some (0x008, .x x)
  | .iabs x => some (0x009, .x x)
  | .imin x => some (0x00A, .x x)
  | .imax x => some (0x00B, .x x)
  | .shl x => some (0x010, .x x)
  | .shr x => some (0x011, .x x)
  | .sar x => some (0x012, .x x)
  | .rot x => some (0x013, .x x)
  | .logic x => some (0x014, .x x)
  | .bfe x => some (0x015, .x x)
  | .bfi x => some (0x016, .x x)
  | .popc x => some (0x017, .x x)
  | .clz x => some (0x018, .x x)
  | .ctz x => some (0x019, .x x)
  | .brev x => some (0x01A, .x x)
  | .prmt x => some (0x01B, .x x)
  | .icmp x => some (0x020, .x x)
  | .iset x => some (0x021, .x x)
  | .sel x => some (0x022, .x x)
  | .plog x => some (0x023, .x x)
  | .mov x => some (0x028, .x x)
  | .movi x => some (0x029, .i x)
  | .lea x => some (0x02A, .x x)
  | .shfl x => some (0x030, .x x)
  | .ballot x => some (0x031, .x x)
  | .vote x => some (0x032, .x x)
  | .readlane x => some (0x033, .x x)
  | .icvt x => some (0x038, .x x)
  | .bra x => some (0x080, .b x)
  | .brx x => some (0x081, .x x)
  | .call x => some (0x082, .b x)
  | .callx x => some (0x083, .x x)
  | .ret x => some (0x084, .x x)
  | .exit x => some (0x085, .x x)
  | .setmeet x => some (0x088, .b x)
  | .setprio x => some (0x089, .x x)
  | .yield x => some (0x08A, .x x)
  | .regroup x => some (0x08B, .x x)
  | .switchpt x => some (0x08C, .x x)
  | .cvdecl x => some (0x08D, .x x)
  | .backoff x => some (0x090, .x x)
  | .sleep x => some (0x091, .x x)
  | .trap x => some (0x092, .x x)
  | .bkpt x => some (0x093, .x x)
  | .clock x => some (0x094, .x x)
  | .fadd x => some (0x0C0, .x x)
  | .fsub x => some (0x0C1, .x x)
  | .fmul x => some (0x0C2, .x x)
  | .ffma x => some (0x0C3, .x x)
  | .fmin x => some (0x0C4, .x x)
  | .fmax x => some (0x0C5, .x x)
  | .fminnm x => some (0x0C6, .x x)
  | .fmaxnm x => some (0x0C7, .x x)
  | .fcmp x => some (0x0C8, .x x)
  | .fset x => some (0x0C9, .x x)
  | .fclass x => some (0x0CA, .x x)
  | .fsgn x => some (0x0CB, .x x)
  | .fdiv x => some (0x0D0, .x x)
  | .fsqrt x => some (0x0D1, .x x)
  | .frcpe x => some (0x0D2, .x x)
  | .frsqe x => some (0x0D3, .x x)
  | .frnd x => some (0x0D8, .x x)
  | .fldexp x => some (0x0D9, .x x)
  | .fgetexp x => some (0x0DA, .x x)
  | .fcvt x => some (0x0E0, .x x)
  | .f2i x => some (0x0E1, .x x)
  | .i2f x => some (0x0E2, .x x)
  | .dot2 x => some (0x0E8, .x x)
  | .dot4 x => some (0x0E9, .x x)
  | .hfma2 x => some (0x0EA, .x x)
  | .fsat x => some (0x0EB, .x x)
  | .ld x => some (0x140, .m x)
  | .st x => some (0x141, .m x)
  | .lds x => some (0x142, .m x)
  | .sts x => some (0x143, .m x)
  | .ldq x => some (0x144, .m x)
  | .stq x => some (0x145, .m x)
  | .ldv x => some (0x146, .m x)
  | .pref x => some (0x147, .m x)
  | .atom x => some (0x148, .m x)
  | .cas x => some (0x149, .m x)
  | .red x => some (0x14A, .m x)
  | .fence x => some (0x150, .m x)
  | .fencex x => some (0x151, .m x)
  | .drop x => some (0x152, .m x)
  | .promote x => some (0x153, .m x)
  | .cctl x => some (0x154, .m x)
  | .bar x => some (0x180, .x x)
  | .bara x => some (0x181, .x x)
  | .barw x => some (0x182, .x x)
  | .cbar x => some (0x183, .x x)
  | .sstep x => some (0x184, .x x)
  | .qdecl x => some (0x188, .x x)
  | .qpush x => some (0x189, .x x)
  | .qpop x => some (0x18A, .x x)
  | .qtry x => some (0x18B, .x x)
  | .dqpush x => some (0x18C, .x x)
  | .dqpop x => some (0x18D, .x x)
  | .dqsteal x => some (0x18E, .x x)
  | .launch x => some (0x190, .e x)
  | .twait x => some (0x191, .x x)
  | .migrate x => some (0x198, .m x)
  | .priowg x => some (0x199, .x x)
  | .cpy x => some (0x1C0, .e x)
  | .cpyw x => some (0x1C1, .e x)
  | .gath x => some (0x1C4, .e x)
  | .scat x => some (0x1C5, .e x)
  | .publish x => some (0x1C8, .e x)
  | .vhold x => some (0x1C9, .e x)
  | .vrel x => some (0x1CA, .e x)
  | .coll x => some (0x1D0, .e x)
  | .mldred x => some (0x1D1, .e x)
  | .cwait x => some (0x1D2, .e x)
  | .halo x => some (0x1D8, .e x)
  | .estat x => some (0x1DC, .e x)
  | .tshape x => some (0x200, .x x)
  | .tld x => some (0x201, .m x)
  | .tst x => some (0x202, .m x)
  | .tzero x => some (0x203, .x x)
  | .tmovv x => some (0x204, .x x)
  | .tmovt x => some (0x205, .x x)
  | .mma x => some (0x208, .x x)
  | .mmas x => some (0x209, .x x)
  | .gmma x => some (0x20A, .x x)
  | .tcvt x => some (0x210, .x x)
  | .mxscl x => some (0x211, .x x)
  | .mxsclFill x => some (0x211, .x x)
  | .tadd x => some (0x212, .x x)
  | .tscale x => some (0x213, .x x)
  | .tred x => some (0x214, .x x)
  | .trace x => some (0x240, .x x)
  | .tresume x => some (0x241, .x x)
  | .hitget x => some (0x242, .x x)
  | .bvhchk x => some (0x243, .x x)
  | .rngkey x => some (0x248, .x x)
  | .rng x => some (0x249, .x x)
  | .rngf x => some (0x24A, .x x)
  | .mfsr x => some (0x260, .x x)
  | .mtsr x => some (0x261, .x x)
  | .eret x => some (0x262, .x x)
  | .opreplay x => some (0x263, .x x)
  | .opdrop x => some (0x264, .x x)
  | .halt x => some (0x268, .x x)
  | .idle x => some (0x269, .x x)
  | .syscall x => some (0x26A, .x x)
  | _ => none

/-- Guard inversion, guard predicate and D of any format. -/
def Form.head : Form → BitVec 1 × BitVec 3 × BitVec 9
  | .x f => (f.gn, f.gp, f.d)
  | .i f => (f.gn, f.gp, f.d)
  | .m f => (f.gn, f.gp, f.d)
  | .b f => (f.gn, f.gp, f.d)
  | .e f => (f.gn, f.gp, f.d)

/-- The A, B and C fields; zero where the format has none. -/
def Form.abc : Form → BitVec 9 × BitVec 9 × BitVec 9
  | .x f => (f.a, f.b, f.c)
  | .i f => (f.a, f.b, 0)
  | .m f => (f.a, f.b, f.c)
  | .b f => (f.a, f.b, f.c)
  | .e f => (f.a, f.b, f.c)

/-- The T field; zero where the format has none. -/
def Form.t : Form → Nat
  | .x f => f.t.toNat
  | .m f => f.t.toNat
  | _ => 0

/-- IMM; zero where the format has none. -/
def Form.imm : Form → BitVec 24
  | .x f => f.imm
  | .m f => f.imm
  | _ => 0

/-- W; zero where the format has none (R27). -/
def Form.w : Form → BitVec 1
  | .x f => f.w
  | .i f => f.w
  | _ => 0

/-! ### Shapes -/

/-- T lists of R69 and R128. -/
def tI8 : List Nat := [0, 1, 2, 3, 11, 10, 13, 12]
def tI4 : List Nat := [0, 1, 2, 3]
def tU2 : List Nat := [0, 2]
def tF : List Nat := [4, 5, 6, 7, 8, 9]
def tS : List Nat := [4, 5, 6, 7]
def tH : List Nat := [8, 9]

/-- An integer opcode (R69, R70). -/
def shapeI (d a b c : Use) (imm : ImmUse) (ts : List Nat) (sat : Bool) : Shape :=
  { pipe := .ia, d := d, a := a, b := b, c := c, imm := imm, ts := ts, sat := sat, w := true, mods := true,
    result := true }

/-- A lane-exchange opcode (R69, R73). -/
def shapeL (d a b c : Use) (ts : List Nat) : Shape :=
  { pipe := .xl, d := d, a := a, b := b, c := c, imm := .r34, ts := ts, w := true, mods := true, scal := false,
    result := true }

/-- A floating opcode (R128). -/
def shapeF (d a b c : Use) (imm : ImmUse) (ts : List Nat) (rm : Bool) (pipe : Pipe := .fa) : Shape :=
  { pipe := pipe, d := d, a := a, b := b, c := c, imm := imm, ts := ts, rm := rm, w := true, mods := true,
    result := true }

/-- The address operands A and B of format M (R150). -/
def addrA : Use := .opnd (.src 2)
def addrB (x : MForm) : Use := .opnd (.src (if x.m.extractLsb' 3 2 = 0#2 then 2 else 0))
/-- Uniform address operands (R162). -/
def addrUA : Use := .unif64
def addrUB (x : MForm) : Use := .opnd (.unif (if x.m.extractLsb' 3 2 = 0#2 then 2 else 0))

/-- KIND of a format-M word (R147). -/
def MForm.kind (x : MForm) : Nat := (x.m.extractLsb' 5 3).toNat
/-- SCOPE of a format-M word (R147). -/
def MForm.scope (x : MForm) : BitVec 3 := x.m.extractLsb' 8 3
/-- FLAG of a format-M word (R147). -/
def MForm.flag (x : MForm) : Bool := x.m.getLsbD 11
/-- TR of a TLD or TST (R286). -/
def MForm.tr (x : MForm) : Bool := x.m.getLsbD 5
/-- IX of a format-M word (R147). -/
def MForm.ix (x : MForm) : Nat := (x.m.extractLsb' 3 2).toNat
/-- SH of a format-M word (R147). -/
def MForm.sh (x : MForm) : Nat := (x.m.extractLsb' 0 3).toNat

/-- A memory opcode of the LSU (R148). -/
def shapeM (d a b c : Use) (dsrc : Bool := false) (scal : Bool := true) : Shape :=
  { pipe := .ls, long := true, d := d, a := a, b := b, c := c, dsrc := dsrc, imm := .own 24, scal := scal }

/-- A synchronisation opcode. -/
def shapeY (d a : Use) (imm : ImmUse) : Shape := { pipe := .sy, long := true, d := d, a := a, imm := imm }

/-- An engine opcode (R184, R185); D is an s register or 0x1FF. -/
def shapeE (a b c : Use) : Shape :=
  { pipe := .en, long := true, d := .opnd { s := true, n := true, ty := 0 }, a := a, b := b, c := c, scal := false,
    wide := true }

/-- A matrix opcode of format X (R286). -/
def shapeX (d a b c : Use) (imm : ImmUse) (rm sat : Bool) : Shape :=
  { pipe := .mx, long := true, d := d, a := a, b := b, c := c, imm := imm, rm := rm, sat := sat, scal := false,
    wide := true }

/-- A control opcode (R98). -/
def shapeC (a : Use) (imm : ImmUse) (xfer : Bool) : Shape := { pipe := .ct, a := a, imm := imm, xfer := xfer }

/-- A system opcode (R193 to R195). -/
def shapeS (d a : Use) (imm : ImmUse) : Shape := { pipe := .ss, long := true, d := d, a := a, imm := imm }

/-- Load destination: v or s register of the access size (R154). -/
def ldDst (kind : Nat) : Use := .opnd (Opnd.vs' (if kind = 5 then 2 else 0))
/-- Store data: as a load destination, or 0x1FF (R154). -/
def stData (kind : Nat) : Use := .opnd { Opnd.vs' (if kind = 5 then 2 else 0) with n := true }

/-- Width in bits of a listed system register; none for an index not listed (R191). -/
def sysWidth (i : Nat) : Option Nat :=
  if i ∈ [0x000, 0x002, 0x003, 0x004, 0x006, 0x010, 0x011, 0x018, 0x030, 0x090] then some 64
  else if i ∈ [0x001, 0x005, 0x008, 0x009, 0x020, 0x021, 0x080] then some 32
  else if 0x040 ≤ i ∧ i ≤ 0x05F then some 32
  else if 0x060 ≤ i ∧ i ≤ 0x067 then some 64
  else if 0x070 ≤ i ∧ i ≤ 0x07F then some 64
  else none

/-- The field use of an instruction word; none where `Instr.form` is none. A of LEA is any 64-bit source, as the operand table of
R69 has it, where the pseudocode of R89 names an even pair, an s register or 0x1FF (DEDUCED, log entry 63). D = 0x1FF of VOTE and FSET, which R94
and R134 do not name, discards the result as R29 has it for every destination, and the latches still receive it, the count under
VOTE.CNT (DEDUCED, log entry 14). -/
def Instr.shape : Instr → Option Shape
  | .nop _ => some { pipe := .none }
  | .iadd x | .isub x =>
    let t := x.t.toNat; some (shapeI (.dst t) (.src t) (.src t) .zero .r34 tI8 true)
  | .iaddc x => let t := x.t.toNat; some (shapeI (.dst t) (.src t) (.src t) .ctl (.own 3) tU2 false)
  | .imul x => let t := x.t.toNat; some (shapeI (.dst t) (.src t) (.src t) .zero .r34 [0, 1, 2, 3, 11, 10] true)
  | .imulh x => let t := x.t.toNat; some (shapeI (.dst t) (.src t) (.src t) .zero .r34 tI4 false)
  | .imad x => let t := x.t.toNat; some (shapeI (.dst t) (.src t) (.src t) (.src t) .r34 tI4 true)
  | .imadw x =>
    let t := x.t.toNat
    some (shapeI (.dst 2) (.src t) (.src t) (.src (if t = 1 then 3 else 2)) .r34 [0, 1] false)
  | .iabs x => let t := x.t.toNat; some (shapeI (.dst t) (.src t) .zero .zero .r34 [1, 3, 10, 12] true)
  | .imin x | .imax x => let t := x.t.toNat; some (shapeI (.dst t) (.src t) (.src t) .zero .r34 tI8 false)
  | .shl x | .shr x | .rot x => let t := x.t.toNat; some (shapeI (.dst t) (.src t) .ctl .zero .r34 [0, 2, 11, 13] false)
  | .sar x => let t := x.t.toNat; some (shapeI (.dst t) (.src t) .ctl .zero .r34 [1, 3, 10, 12] false)
  | .logic x => let t := x.t.toNat; some (shapeI (.dst t) (.src t) (.src t) (.src t) (.own 8) tU2 false)
  | .bfe x => let t := x.t.toNat; some (shapeI (.dst t) (.src t) .ctl .zero .r34 tI4 false)
  | .bfi x => let t := x.t.toNat; some (shapeI (.dst t) (.src t) (.src t) .ctl .r34 tU2 false)
  | .popc x | .clz x | .ctz x | .brev x | .mov x =>
    let t := x.t.toNat; some (shapeI (.dst t) (.src t) .zero .zero .r34 tU2 false)
  | .prmt _ => some (shapeI (.dst 0) (.src 0) (.src 0) .ctl .r34 [0] false)
  | .icmp x => let t := x.t.toNat; some (shapeI (.opnd .pred) (.src t) (.src t) (.code 0 5) .r34 tI4 false)
  | .iset x => let t := x.t.toNat; some (shapeI (.dst t) (.src t) (.src t) (.code 0 5) .r34 tI4 false)
  | .sel x => let t := x.t.toNat; some (shapeI (.dst t) (.src t) (.src t) .ctl .r34 tU2 false)
  | .plog _ =>
    let q : Use := .opnd { p := true, n := true }
    some (shapeI (.opnd .pred) q q q (.own 8) [0] false)
  | .movi _ => some { pipe := .ia, d := .dst 0, w := true, result := true }
  | .lea x =>
    some (shapeI (.opnd .pairS) (.src 2) (.src (if x.t.toNat = 2 then 2 else 0)) (.code 0 3) (.own 24) [2, 0, 1] false)
  | .icvt x =>
    let t := x.t.toNat
    some (shapeI (.dst t) (.src x.c.toNat) .zero (.code 0 3) .r34 tI4 true)
  | .shfl x =>
    let t := x.t.toNat
    some (shapeL (.opnd (.vregs (spanT t) (spanT t))) (.opnd { Opnd.src t with l := false }) .ctl (.code 0 31) tU2)
  | .ballot _ => some (shapeL (.opnd .pairS) .ctl .zero .zero [2])
  | .vote x => let t := x.t.toNat; some (shapeL (.dst t) (.src t) .zero (.code 0 4) tU2)
  | .readlane x =>
    let t := x.t.toNat; some (shapeL (.dst t) (.opnd { Opnd.src t with l := false }) .unif .zero tU2)
  | .bra _ => some { pipe := .ct, imm := .own 24, xfer := true }
  | .brx _ | .ret _ => some (shapeC (.opnd .pairS) (.own 0) true)
  | .call _ => some { pipe := .ct, d := .opnd { Opnd.pairS with n := true }, imm := .own 24, xfer := true, result := true }
  | .callx _ =>
    some { pipe := .ct, d := .opnd { Opnd.pairS with n := true }, a := .opnd .pairS, w := true, xfer := true,
           result := true }
  | .exit _ => some (shapeC .zero (.own 0) true)
  | .setmeet x =>
    let a : Use := if x.c = 1 ∨ x.c = 2 then .opnd (.vregs 2 2) else .zero
    some { pipe := .ct, a := a, c := .code 0 3, imm := .own 24 }
  | .setprio _ | .backoff _ | .sleep _ => some (shapeC .ctl .r34 false)
  | .yield _ => some (shapeC .zero (.own 0) false)
  | .regroup _ => some (shapeC .zero (.own 16) false)
  | .switchpt _ => some (shapeC .zero (.own 8) false)
  | .cvdecl _ =>
    some { pipe := .ct, long := true, d := .cv, a := .opnd { s := true, n := true, ty := 2 }, scal := false }
  | .trap _ | .bkpt _ => some (shapeC .zero (.own 16) true)
  | .clock x =>
    let d : Opnd := if x.t.toNat = 2 then { Opnd.pairS with n := true } else .dst 0
    some { pipe := .ia, d := .opnd d, c := .code 0 1, ts := tU2, w := true, result := true }
  | .fadd x | .fsub x | .fmul x => let t := x.t.toNat; some (shapeF (.dst t) (.src t) (.src t) .zero .r34 tF true)
  | .ffma x => let t := x.t.toNat; some (shapeF (.dst t) (.src t) (.src t) (.src t) .r34 tF true)
  | .fmin x | .fmax x | .fminnm x | .fmaxnm x =>
    let t := x.t.toNat; some (shapeF (.dst t) (.src t) (.src t) .zero .r34 tF false)
  | .fcmp x => let t := x.t.toNat; some (shapeF (.opnd .pred) (.src t) (.src t) (.code 0 11) .r34 tS false)
  | .fset x => let t := x.t.toNat; some (shapeF (.opnd { Opnd.dst t with p := false }) (.src t) (.src t) (.code 0 11) .r34 tF false)
  | .fclass x | .fgetexp x => let t := x.t.toNat; some (shapeF (.dst 0) (.src t) .zero .zero .r34 tS false)
  | .fsgn x =>
    let t := x.t.toNat
    let b : Use := if x.c = 3 ∨ x.c = 4 then .zero else .src t
    some (shapeF (.dst t) (.src t) b (.code 0 4) .r34 tF false)
  | .fdiv x => let t := x.t.toNat; some (shapeF (.dst t) (.src t) (.src t) .zero .r34 tS true .fx)
  | .fsqrt x => let t := x.t.toNat; some (shapeF (.dst t) (.src t) .zero .zero .r34 tS true .fx)
  | .frcpe x | .frsqe x => let t := x.t.toNat; some (shapeF (.dst t) (.src t) .zero .zero .r34 [4, 5] false .fx)
  | .frnd x => let t := x.t.toNat; some (shapeF (.dst t) (.src t) .zero .zero .r34 tF true)
  | .fldexp x => let t := x.t.toNat; some (shapeF (.dst t) (.src t) .ctl .zero .r34 tS true)
  | .fsat x => let t := x.t.toNat; some (shapeF (.dst t) (.src t) .zero .zero .r34 tF false)
  | .fcvt x =>
    let dst := x.c.toNat % 16
    let sf := x.c.toNat / 16 % 16
    let t (f : Nat) := if f = 0 then 5 else if f = 1 then 4 else if f = 2 then 8 else if f = 3 then 9 else 0
    let a : Opnd := { Opnd.src (t sf) with k := if 4 ≤ sf then 0 else 0x16F }
    let b : Use := if dst = 0 ∨ dst = 1 then .ones else .src 0
    some { shapeF (.dst (t dst)) (.opnd a) b (.code 0 0xFF) (.own 6) [0] true with sat := true }
  | .f2i x =>
    let t := x.t.toNat; some (shapeF (.dst t) (.src x.c.toNat) .zero (.code 4 7) (.own 0) tI4 true)
  | .i2f x =>
    let t := x.t.toNat; some (shapeF (.dst t) (.src x.c.toNat) .zero (.code 0 3) (.own 0) tS true)
  | .dot2 x => let t := x.t.toNat; some (shapeF (.dst 4) (.src t) (.src t) (.src 4) (.own 0) tH true)
  | .dot4 _ =>
    let p : Use := .opnd { Opnd.pairS with n := true }
    some (shapeF (.dst 4) p p (.src 4) (.own 0) tH true)
  | .hfma2 x =>
    let t := x.t.toNat
    some (shapeF (.opnd .pairS) (.src t) (.src t) (.opnd { Opnd.pairS with n := true }) (.own 0) tH true)
  | .ld x | .lds x => some (shapeM (ldDst x.kind) addrA (addrB x) .ones)
  | .st x | .sts x => some (shapeM (stData x.kind) addrA (addrB x) .ones true false)
  | .ldq x => some (shapeM (.opnd (.vregs 4 4)) addrA (addrB x) .ones)
  | .stq x => some (shapeM (.opnd (.vregs 4 4)) addrA (addrB x) .ones true)
  | .ldv x => some (shapeM (ldDst x.kind) addrA (addrB x) (.opnd { s := true, n := true, ty := 2 }))
  | .pref x => some (shapeM .zero addrA (addrB x) .zero)
  | .atom x =>
    let t := x.t.toNat
    some { shapeM (.opnd (.vs' t)) addrA (addrB x) (.src t) with ts := [0, 1, 2, 3, 4, 5, 8, 9], rm := true, sat := true }
  | .red x =>
    let t := x.t.toNat
    some { shapeM .zero addrA (addrB x) (.src t) with ts := [0, 1, 2, 3, 4, 5, 8, 9], rm := true, sat := true }
  | .cas x =>
    if x.kind = 2 then some (shapeM (.opnd (.vregs 4 4)) addrA (addrB x) (.opnd (.vregs 4 4)))
    else
      let t := if x.kind = 1 then 2 else 0
      some (shapeM (.opnd (.vs' t)) addrA (addrB x) (.src t))
  | .fence _ | .fencex _ => some (shapeM .zero .zero .zero .zero)
  | .drop x | .cctl x => some (shapeM .zero addrUA (addrUB x) .unif64)
  | .promote x => some (shapeM .zero addrUA (addrUB x) (.opnd { Opnd.unif 0 with n := false }))
  | .bar _ | .bara _ => some (shapeY .zero .zero (.own 10))
  | .barw _ => some (shapeY .zero .zero (.own 4))
  | .cbar _ => some (shapeY .zero .zero (.own 2))
  | .sstep _ => some { shapeY (.opnd { s := true, n := true, ty := 2 }) .zero (.own 0) with scal := false }
  | .qdecl _ => some (shapeY .zero .unif64 (.own 4))
  | .qpush _ => some (shapeY .zero (.opnd (.vregs 1 1)) (.own 4))
  | .qpop _ => some (shapeY (.opnd (.vregs 1 1)) .zero (.own 4))
  | .qtry _ => some { shapeY (.opnd { Opnd.vs' 0 with n := true }) .zero (.own 4) with scal := false }
  | .dqpush _ => some { shapeY .zero (.src 2) (.own 7) with c := .src 2 }
  | .dqpop _ | .dqsteal _ => some (shapeY (.dst 2) (.src 2) (.own 7))
  | .launch _ =>
    some { shapeY (.opnd { v := true, n := true }) (.opnd .pairS) (.own 24) with scal := false }
  | .twait _ =>
    some { shapeY (.opnd { Opnd.vs' 0 with n := true }) (.opnd { Opnd.unif 0 with v := true }) .r34 with scal := false }
  | .migrate x =>
    some { pipe := .sy, long := true, a := addrUA, b := addrUB x, c := .ones, imm := .own 24, wide := true }
  | .priowg _ => some (shapeY .zero .unif .r34)
  | .cpy _ | .cpyw _ | .gath _ | .scat _ => some (shapeE .unif64 .unif64 .unif64)
  | .publish _ | .vhold _ | .vrel _ => some (shapeE .unif64 .zero .zero)
  | .coll _ => some (shapeE .unif64 .zero .unif)
  | .mldred _ => some (shapeE .unif64 .unif64 .unif)
  | .cwait _ | .estat _ => some (shapeE .unif .zero .zero)
  | .halo _ => some (shapeE .unif64 .zero .zero)
  | .tshape _ => some (shapeX .tile .unif .zero .zero .r34 false false)
  | .tld x => some { shapeM .tile addrUA (addrUB x) .unif64 with pipe := .mx, scal := false, wide := true }
  | .tst x => some { shapeM .tile addrUA (addrUB x) .unif64 true with pipe := .mx, scal := false, wide := true }
  | .tzero _ => some (shapeX .tile .zero .zero .zero (.own 0) false false)
  | .tmovv _ => some (shapeX .tile (.opnd (.vregs 1 1)) .zero .unif .r34 false false)
  | .tmovt _ => some (shapeX (.opnd (.vregs 1 1)) .tile .zero .unif .r34 false false)
  | .mma _ => some (shapeX .tile .tile .tile .zero (.own 0) true true)
  | .mmas _ => some { shapeX .tile .tile .tile .cv (.own 0) true true with wide := false }
  | .gmma x =>
    let c : Use := .opnd (if x.imm.getLsbD 6 then { s := true, ty := 2 } else .vregs 1 1)
    some (shapeX .tile .tile .tile c (.own 8) true true)
  | .tcvt _ => some (shapeX .tile .tile .zero .zero (.own 1) true true)
  | .mxscl _ => some (shapeX .tile .tile .zero .zero (.own 9) false false)
  | .mxsclFill _ => some (shapeX .tile .zero .zero .zero (.own 9) false false)
  | .tadd _ => some (shapeX .tile .tile .tile .zero (.own 0) true true)
  | .tscale _ => some (shapeX .tile .tile .zero (.opnd (.unif 5)) .r34 true false)
  | .tred _ => some (shapeX .tile .tile .zero .zero (.own 2) true true)
  | .trace _ =>
    some { pipe := .tr, long := true, d := .opnd (.vregs 6 1), a := .opnd (.vregs 8 1), b := .opnd .pairS,
           imm := .own 13 }
  | .tresume _ => some { pipe := .tr, long := true, d := .opnd (.vregs 6 1), a := .ctl, imm := .r34 }
  | .hitget _ => some { pipe := .tr, long := true, d := .opnd (.vregs 3 1), c := .code 0 3 }
  | .bvhchk _ => some { pipe := .tr, long := true, d := .opnd (.vs' 0), a := .opnd .pairS, c := .code 0 2 }
  | .rngkey _ => some { pipe := .ia, long := true, a := .ctl, b := .ctl, imm := .r34 }
  | .rng _ => some { pipe := .ia, long := true, d := .opnd (.vregs 4 4), a := .opnd (.vregs 4 4) }
  | .rngf _ => some { pipe := .ia, d := .opnd (.vs' 0), a := .src 0, imm := .r34, ts := [0], result := true }
  | .mfsr x =>
    let i := x.imm.toNat % 4096
    let d : Opnd :=
      if i = 0x009 then .vregs 1 1 else Opnd.vs' (if sysWidth i = some 64 then 2 else 0)
    some { shapeS (.opnd d) .zero (.own 12) with scal := false }
  | .mtsr x =>
    let i := x.imm.toNat % 4096
    let t := if sysWidth i = some 64 then 2 else 0
    some (shapeS .zero (.opnd (if i = 0x009 then .src 0 else .unif t)) (.own 12))
  | .eret _ => some { shapeS .zero .zero (.own 0) with wide := true }
  | .opreplay _ | .opdrop _ => some (shapeS .zero .unif .r34)
  | .halt _ | .syscall _ => some (shapeS .zero .zero (.own 16))
  | .idle _ => some (shapeS .zero .ctl .r34)
  | _ => none

/-! ### Illegal instruction from the word alone (R45 step 2) -/

/-- A field holds what its use asks, as far as Illegal instruction goes (R22, R72, R148). -/
def Use.fieldOk (u : Use) (code : Nat) : Bool :=
  match u with
  | .zero => code == 0
  | .ones => code == 0x1FF
  | .code lo hi => lo <= code && code <= hi
  | _ => true

/-- Whether a field is a source read under R29. -/
def Use.isSrc : Use → Bool
  | .opnd _ => true
  | _ => false

/-- Number of IMM bits that a 0x1FF source may use under a T code (R34). -/
def immBits (t : Nat) : Nat :=
  if t <= 5 then 24 else if t <= 9 then 16 else if t <= 11 then 8 else 4

/-- IMM holds only bits that the opcode uses (R22, R34). -/
def immOk (sh : Shape) (t : Nat) (imm : Nat) (a b c : Nat) : Bool :=
  match sh.imm with
  | .own n => imm < 2 ^ n
  | .r34 =>
    let reads := (sh.a.isSrc && a == 0x1FF) || (sh.b.isSrc && b == 0x1FF) || (sh.c.isSrc && c == 0x1FF)
    imm < 2 ^ (if reads then immBits t else 0)

/-- Format-X checks that need neither the code object nor the group: fields, T, RM, SAT, W, IMM (R65). -/
def xOk (sh : Shape) (x : XForm) : Bool :=
  sh.d.fieldOk x.d.toNat && sh.a.fieldOk x.a.toNat && sh.b.fieldOk x.b.toNat && sh.c.fieldOk x.c.toNat
  && (if sh.ts = [] then x.t == 0 else sh.ts.contains x.t.toNat)
  && (if sh.rm then x.rm.toNat <= 4 else x.rm == 0)
  && (sh.sat || x.sat == 0) && (sh.w || x.w == 0) && (sh.mods || x.m == 0)
  && immOk sh x.t.toNat x.imm.toNat x.a.toNat x.b.toNat x.c.toNat

/-- KIND, FLAG, ORD and SCOPE of a format-M opcode (R147, R148). `scope`: 0 must be zero, 1 when ordered, 2 when
ordered and at most 2, 3 required, 4 from 3 to 5. -/
def mModOk (x : MForm) (kinds : List Nat) (flag : Bool) (ords : List Nat) (scope : Nat) : Bool :=
  let sc := x.scope.toNat
  kinds.contains x.kind && (flag || !x.flag) && ords.contains x.ord.toNat && sc <= 5
  && match scope with
    | 0 => sc == 0
    | 1 => x.ord != 0 || sc == 0
    | 2 => sc <= 2 && (x.ord != 0 || sc == 0)
    | 3 => true
    | _ => 3 <= sc

/-- T, RM and SAT of an atomic (R158). -/
def atomOk (x : MForm) : Bool :=
  let t := x.t.toNat
  (match x.kind with
    | 0 => [0, 1, 2, 3, 4, 5, 8, 9].contains t
    | 1 | 2 => [0, 1, 2, 3, 4, 5].contains t
    | _ => [0, 2].contains t)
  && (x.rm == 0 || (x.kind == 0 && floatT t && x.rm.toNat <= 4))
  && (x.sat == 0 || (x.kind == 0 && !floatT t))

/-- Format-M checks (R24, R147, R148, R158, R161, R182, R286). -/
def mOk (i : Instr) (sh : Shape) (x : MForm) : Bool :=
  sh.d.fieldOk x.d.toNat && sh.a.fieldOk x.a.toNat && sh.b.fieldOk x.b.toNat && sh.c.fieldOk x.c.toNat
  && x.sh <= 3 && x.ix <= 2
  && (x.b != 0x1FF || (x.sh == 0 && x.ix == 0))
  && (sh.rm || (x.t == 0 && x.rm == 0 && x.sat == 0))
  && match i with
    | .ld _ => mModOk x [0, 1, 2, 3, 4, 5] true [0, 1] 1
    | .st _ => mModOk x [0, 2, 4, 5] false [0, 2] 1
    | .lds _ => mModOk x [0, 1, 2, 3, 4, 5] false [0, 1] 2
    | .sts _ => mModOk x [0, 2, 4, 5] false [0, 2] 2
    | .ldq _ => mModOk x [0] true [0, 1] 1
    | .stq _ => mModOk x [0] false [0, 2] 1
    | .ldv _ => mModOk x [0, 1, 2, 3, 4, 5] true [0] 0
    | .pref _ => mModOk x [0, 1] false [0] 0
    | .atom _ | .red _ =>
      mModOk x [0, 1, 2, 3, 4, 5, 6] true [0, 1, 2, 3] 3 && atomOk x && (!x.flag || x.scope.toNat <= 2)
    | .cas _ => mModOk x [0, 1, 2] true [0, 1, 2, 3] 3 && (!x.flag || x.scope.toNat <= 2)
    | .fence _ => mModOk x [0] false [1, 2, 3] 3 && x.sh == 0 && x.ix == 0 && x.imm == 0
    | .fencex _ =>
      mModOk x [0] false [0] 3 && x.sh == 0 && x.ix == 0 && x.imm.toNat < 0x8000 && x.imm.toNat % 256 != 0
      && x.imm.toNat / 256 != 0
    | .drop _ | .migrate _ => mModOk x [0] false [0] 0
    | .promote _ => mModOk x [0] false [0] 4
    | .cctl _ => mModOk x [0, 1] false [0] 0
    | _ => x.m.toNat < 64 && x.ord == 0

/-- Element bytes of the collective element codes (R185). -/
def collElemBytes (e : Nat) : Nat := match e with | 0 => 8 | 1 => 4 | 2 => 2 | 3 => 2 | _ => 4

/-- Element, accumulator and reduction codes of COLL and MLDRED (R185). -/
def collCodesOk (el acc red : Nat) : Bool :=
  el <= 5 && acc <= 2 && red <= 2
  && (acc == 0 || (el <= 3 && collElemBytes el <= (if acc == 2 then 8 else 4)))

/-- CMD of a format-E opcode (R180, R185, R463). -/
def eOk (i : Instr) (sh : Shape) (x : EForm) : Bool :=
  let c := x.cmd.toNat
  sh.d.fieldOk x.d.toNat && sh.a.fieldOk x.a.toNat && sh.b.fieldOk x.b.toNat && sh.c.fieldOk x.c.toNat
  && match i with
    | .launch _ => c < 8
    | .cpy _ | .cpyw _ => c < 4
    | .gath _ | .scat _ => c < 2 ^ 23
    | .coll _ =>
      c < 2 ^ 11 && c % 8 <= 3 && collCodesOk (c / 8 % 16) (c / 128 % 4) (c / 512)
      && (c % 8 <= 1 || c / 128 == 0)
    | .mldred _ => c < 256 && collCodesOk (c % 16) (c / 16 % 4) (c / 64)
    | _ => c == 0

/-- Format-B checks (R25, R98, R103). -/
def bOk (i : Instr) (sh : Shape) (x : BForm) : Bool :=
  sh.d.fieldOk x.d.toNat && sh.a.fieldOk x.a.toNat && sh.b.fieldOk x.b.toNat && sh.c.fieldOk x.c.toNat
  && x.slot.toNat <= 4
  && match i with
    | .setmeet _ => x.c.toNat <= 1 || (x.loff == 0 && x.slot == 0)
    | _ => true

/-- Index range of the FCVT formats (R141). -/
def fcvtRange (f : Nat) : Nat := if f <= 1 then 1 else if f <= 3 then 2 else if f = 8 then 8 else 4

/-- Checks of single format-X opcodes. -/
def xExtraOk (i : Instr) : Bool :=
  match i with
  | .shfl x => x.c.toNat / 4 <= 5
  | .fcvt x =>
    let dst := x.c.toNat % 16
    let sf := x.c.toNat / 16
    let im := x.imm.toNat
    dst <= 8 && sf <= 9 && dst != sf && im % 8 < fcvtRange dst && im / 8 % 8 < fcvtRange sf
  | .bar x | .bara x => x.imm.toNat / 16 <= 32
  | .dqpush x | .dqpop x | .dqsteal x => x.imm.toNat / 8 % 2 == 0 && x.imm.toNat / 16 <= 5
  | .mfsr x | .mtsr x => (sysWidth x.imm.toNat).isSome
  | .mxsclFill x => x.imm.getLsbD 8
  | _ => true

/-- The word raises no Illegal instruction from its own fields (R45 step 2), the modifier field of R39 and a segment
above the group width apart, which need the code object. ILL and unassigned opcodes are words too (R54, R64). -/
def Instr.fieldsOk (i : Instr) : Bool :=
  match i.shape, i.form with
  | some sh, some (_, .x x) => xOk sh x && xExtraOk i
  | some sh, some (_, .i x) => sh.a.fieldOk x.a.toNat && sh.b.fieldOk x.b.toNat
  | some sh, some (_, .m x) => mOk i sh x
  | some sh, some (_, .b x) => bOk i sh x
  | some sh, some (_, .e x) => eOk i sh x
  | _, _ => true

/-! ### Illegal instruction under the code object: the modifier field -/

/-- Sub-word selector codes of an element width (R40). -/
def selOk (w s : Nat) : Bool :=
  match w with
  | 16 => s <= 3
  | 8 => s <= 7
  | 4 => s <= 2 || 8 <= s
  | _ => s == 0

/-- M in sub-word mode (R39, R40, R128). -/
def subOk (i : Instr) (sh : Shape) (x : XForm) : Bool :=
  let sa := x.m.toNat % 16
  let sb := x.m.toNat / 16 % 16
  let sc := x.m.toNat / 256
  let w := elemW x.t.toNat
  let one (u : Use) (s : Nat) := s == 0 || (u.isSrc && selOk w s)
  match i with
  | .fcvt _ | .f2i _ | .i2f _ | .dot4 _ | .hfma2 _ => x.m == 0
  | .dot2 _ => one sh.a sa && one sh.b sb && sc == 0
  | _ => one sh.a sa && one sh.b sb && one sh.c sc

/-- M in permute mode for a group of the given width (R41). -/
def permOk (sh : Shape) (x : XForm) (width : Nat) : Bool :=
  let m := x.m.toNat
  let seg := m / 4 % 8
  m == 0 ||
  (m % 4 != 0 && seg <= 5 && 2 ^ (seg + 1) <= width && m / 32 % 64 < 2 ^ (seg + 1)
    && (if m / 2048 = 0 then sh.a.isSrc else sh.b.isSrc))

/-- The modifier field and a SHFL segment (R39 to R42, R92). -/
def Instr.modOk (i : Instr) (modsel : Bool) (width : Nat) : Bool :=
  match i.shape, i.form with
  | some sh, some (_, .x x) =>
    (!sh.mods || (if modsel then permOk sh x width else subOk i sh x))
    && match i with
      | .shfl x => 2 ^ (x.c.toNat / 4 + 1) <= width
      | _ => true
  | _, _ => true

/-- An s destination of an instruction that executes once for the path: a scalar one, and BALLOT, VOTE and READLANE (R33,
R73). -/
def Instr.once (i : Instr) : Bool :=
  match i.shape, i.form with
  | some sh, some (_, f) =>
    let d := f.head.2.2.toNat
    let exchange : Bool := match i with
      | .ballot _ | .vote _ | .readlane _ => true
      | _ => false
    (sh.scal || exchange) && sh.d.isSrc && !sh.dsrc && 0x100 <= d && d < 0x140
  | _, _ => false

/-! ### Illegal operand (R45 step 3) -/

/-- An s destination that makes the instruction scalar (R33). -/
def Instr.scalar (i : Instr) : Bool :=
  match i.shape, i.form with
  | some sh, some (_, f) =>
    let d := f.head.2.2.toNat
    sh.scal && sh.d.isSrc && !sh.dsrc && 0x100 <= d && d < 0x140
  | _, _ => false

/-- A field raises no Illegal operand. -/
def Use.operandOk (u : Use) (regs tiles code : Nat) (uniform : Bool) : Bool :=
  match u with
  | .tile => code < 32 && code < tiles
  | .cv => code < 8
  | .opnd o => (if uniform then o.uniform else o).accepts regs code
  | _ => true

/-- The field that raises Illegal operand, in the order of R421: 0 D, 1 A, 2 B, 3 C. -/
def Instr.badOperand (i : Instr) (modsel : Bool) (regs tiles : Nat) : Option Nat :=
  match i.shape, i.form with
  | some sh, some (_, f) =>
    let (_, _, d) := f.head
    let (a, b, c) := f.abc
    let uni := i.scalar
    let latch (x : BitVec 9) : Bool := 0x140 <= x.toNat && x.toNat < 0x144
    let perm : Option Nat := match f with
      | .x x => if modsel && sh.mods && x.m.toNat % 4 != 0 then some (1 + x.m.toNat / 2048) else none
      | _ => none
    let same : Bool := match i with
      | .mma _ | .mmas _ | .gmma _ => d == a || d == b
      | .tcvt _ | .tred _ => d == a
      | _ => false
    if !sh.d.operandOk regs tiles d.toNat false || same then some 0
    else if !sh.a.operandOk regs tiles a.toNat uni || (perm == some 1 && latch a) then some 1
    else if !sh.b.operandOk regs tiles b.toNat uni || (perm == some 2 && latch b) then some 2
    else if !sh.c.operandOk regs tiles c.toNat uni then some 3
    else none
  | _, _ => none

/-! ### Registers read and written, for pairing and the scoreboard (R19, R152) -/

/-- The registers and predicates an instruction reads or writes, as operand codes. -/
structure RegUse where
  reads : List Nat
  writes : List Nat
  deriving DecidableEq, Repr

/-- Codes a register operand names; a span covers the registers that follow. -/
def Use.names (u : Use) (code : Nat) : List Nat :=
  match u with
  | .opnd o => if code < 0x100 then (List.range o.span).map (code + ·) else if code < 0x140 then [code]
    else if 0x144 ≤ code ∧ code < 0x14B then [code] else []
  | _ => []

/-- D is read as well as, or instead of, written. -/
def Instr.readsD (i : Instr) : Bool :=
  match i with
  | .cas _ => true
  | _ => i.shape.any (·.dsrc)

/-- Registers read and written by an instruction word; W = 1 writes no register (R27). -/
def Instr.regUse (i : Instr) : RegUse :=
  match i.shape, i.form with
  | some sh, some (_, f) =>
    let (_, gp, d) := f.head
    let (a, b, c) := f.abc
    let g := if gp = 7 then [] else [0x144 + gp.toNat]
    let dn := if f.w = 1 then [] else sh.d.names d.toNat
    let an := sh.a.names a.toNat
    let rest := sh.b.names b.toNat ++ sh.c.names c.toNat
    match i with
    | .cas _ => ⟨g ++ dn ++ an ++ rest, dn⟩
    | .setmeet x => if x.c = 1 then ⟨g, an⟩ else ⟨g ++ an, []⟩
    | .iaddc x | .dqpush x | .dqpop x | .dqsteal x =>
      let q := x.imm.toNat % 8
      ⟨g ++ an ++ rest, dn ++ (if q = 7 then [] else [0x144 + q])⟩
    | _ => if sh.dsrc then ⟨g ++ dn ++ an ++ rest, []⟩ else ⟨g ++ an ++ rest, dn⟩
  | _, _ => ⟨[], []⟩

/-- Pipe classes that may stand second after a first of the given class (R67). -/
def pairSecond : Pipe → List Pipe
  | .ia => [.fa, .fx, .xl, .ls, .mx, .en, .tr, .ct]
  | .xl => [.ia, .fa, .ls, .ct]
  | .fa => [.ia, .fx, .xl, .ls, .mx, .en, .tr, .ct]
  | .fx => [.ia, .fa, .ct]
  | .ls => [.ia, .fa, .xl]
  | .mx | .en | .tr => [.ia, .fa]
  | .ct | .sy | .ss => []
  | .none => [.ia, .xl, .fa, .fx, .ct, .ls, .sy, .en, .mx, .tr, .ss, .none]

/-- The two instructions, with the registers they use, may issue as a pair (R19, R67). -/
def pairLegal (i j : Instr) (ui uj : RegUse) : Bool :=
  match i.shape, j.shape with
  | some si, some sj =>
    !si.xfer && si.pipe != .ct
    && (sj.pipe == .none || (pairSecond si.pipe).contains sj.pipe)
    && uj.reads.all (fun r => !ui.writes.contains r)
    && uj.writes.all (fun r => !ui.writes.contains r)
  | _, _ => false

end Sys2Proof
end

