-- ==== Sys2Proof/WellFormed.lean ====
section
/-! DEFINITION. Which instruction terms are well formed: an instruction word whose own fields raise no Illegal
instruction (R45 step 2 as far as the word alone decides it). A row that is not a word is always well formed. -/

namespace Sys2Proof

/-- The checks of R21 to R27, R34, R43, R44, R65, R72 and of the opcode's own rule. -/
def Instr.wellFormed (i : Instr) : Bool := i.fieldsOk && match i with
  | .mxscl x => !x.imm.getLsbD 8
  | .mxsclFill x => x.imm.getLsbD 8
  | .unassignedOpcode op _ => !assignedOp op.toNat
  | _ => true
where
  /-- Opcodes assigned by R54 to R63 (R64). -/
  assignedOp (op : Nat) : Bool :=
    let runs : List (Nat × Nat) :=
      [(0x000, 0x00B), (0x010, 0x01B), (0x020, 0x023), (0x028, 0x02A), (0x030, 0x033), (0x038, 0x038),
       (0x080, 0x085), (0x088, 0x08D), (0x090, 0x094), (0x0C0, 0x0CB), (0x0D0, 0x0D3), (0x0D8, 0x0DA),
       (0x0E0, 0x0E2), (0x0E8, 0x0EB), (0x140, 0x14A), (0x150, 0x154), (0x180, 0x184), (0x188, 0x18E),
       (0x190, 0x191), (0x198, 0x199), (0x1C0, 0x1C1), (0x1C4, 0x1C5), (0x1C8, 0x1CA), (0x1D0, 0x1D2),
       (0x1D8, 0x1D8), (0x1DC, 0x1DC), (0x200, 0x205), (0x208, 0x20A), (0x210, 0x214), (0x240, 0x243),
       (0x248, 0x24A), (0x260, 0x264), (0x268, 0x26A), (0x3FF, 0x3FF)]
    runs.any (fun r => r.1 <= op && op <= r.2)

end Sys2Proof
end

