-- ==== Sys2Proof/Decode.lean ====
section
/-! DEFINITION. Decoding a 96-bit instruction word and encoding it again (R15, R21, R54 to R64), and fetch lines
(R15, R17, R20). -/

namespace Sys2Proof

/-- Why a word is rejected (R45 step 2). -/
inductive Reject where
  /-- a reserved bit of the format is set (R21, R22) -/
  | reservedBit
  /-- a field of the opcode holds what R22 to R27, R34, R43, R44, R65 or R72 refuses -/
  | illFormedField
  deriving DecidableEq, Repr

/-- A 96-bit instruction word. -/
abbrev Word96 := BitVec 96

/-- The fields of format X (R21). -/
def XForm.ofWord (w : Word96) : XForm where
  gn := w.extractLsb' 85 1
  gp := w.extractLsb' 82 3
  d := w.extractLsb' 73 9
  w := w.extractLsb' 72 1
  a := w.extractLsb' 63 9
  b := w.extractLsb' 54 9
  c := w.extractLsb' 45 9
  m := w.extractLsb' 33 12
  t := w.extractLsb' 29 4
  rm := w.extractLsb' 26 3
  sat := w.extractLsb' 24 1
  imm := w.extractLsb' 0 24

/-- The fields of format I (R21, R23). -/
def IForm.ofWord (w : Word96) : IForm where
  gn := w.extractLsb' 85 1
  gp := w.extractLsb' 82 3
  d := w.extractLsb' 73 9
  w := w.extractLsb' 72 1
  a := w.extractLsb' 63 9
  b := w.extractLsb' 54 9
  imm := w.extractLsb' 22 32

/-- The fields of format M (R21, R24). -/
def MForm.ofWord (w : Word96) : MForm where
  gn := w.extractLsb' 85 1
  gp := w.extractLsb' 82 3
  d := w.extractLsb' 73 9
  sat := w.extractLsb' 72 1
  a := w.extractLsb' 63 9
  b := w.extractLsb' 54 9
  c := w.extractLsb' 45 9
  m := w.extractLsb' 33 12
  t := w.extractLsb' 29 4
  rm := w.extractLsb' 26 3
  ord := w.extractLsb' 24 2
  imm := w.extractLsb' 0 24

/-- The fields of format B (R21, R25). -/
def BForm.ofWord (w : Word96) : BForm where
  gn := w.extractLsb' 85 1
  gp := w.extractLsb' 82 3
  d := w.extractLsb' 73 9
  a := w.extractLsb' 63 9
  b := w.extractLsb' 54 9
  c := w.extractLsb' 45 9
  loff := w.extractLsb' 3 21
  slot := w.extractLsb' 0 3

/-- The fields of format E (R21, R26). -/
def EForm.ofWord (w : Word96) : EForm where
  gn := w.extractLsb' 85 1
  gp := w.extractLsb' 82 3
  d := w.extractLsb' 73 9
  a := w.extractLsb' 63 9
  b := w.extractLsb' 54 9
  c := w.extractLsb' 45 9
  cmd := w.extractLsb' 0 24

/-- A form as a word under an opcode, every reserved bit zero (R21). -/
def Form.toWord (op : BitVec 10) : Form → Word96
  | .x f => op ++ f.gn ++ f.gp ++ f.d ++ f.w ++ f.a ++ f.b ++ f.c ++ f.m ++ f.t ++ f.rm ++ 0#1 ++ f.sat ++ f.imm
  | .i f => op ++ f.gn ++ f.gp ++ f.d ++ f.w ++ f.a ++ f.b ++ f.imm ++ 0#22
  | .m f => op ++ f.gn ++ f.gp ++ f.d ++ f.sat ++ f.a ++ f.b ++ f.c ++ f.m ++ f.t ++ f.rm ++ f.ord ++ f.imm
  | .b f => op ++ f.gn ++ f.gp ++ f.d ++ 0#1 ++ f.a ++ f.b ++ f.c ++ 0#21 ++ f.loff ++ f.slot
  | .e f => op ++ f.gn ++ f.gp ++ f.d ++ 0#1 ++ f.a ++ f.b ++ f.c ++ 0#21 ++ f.cmd

/-- The reserved bits of a form's format are zero in a word (R21). -/
def Form.reservedOk (w : Word96) : Form → Bool
  | .x _ => w.extractLsb' 25 1 == 0
  | .i _ => w.extractLsb' 0 22 == 0
  | .m _ => true
  | .b _ => w.extractLsb' 72 1 == 0 && w.extractLsb' 24 21 == 0
  | .e _ => w.extractLsb' 72 1 == 0 && w.extractLsb' 24 21 == 0

/-- The instruction that a word's opcode selects, its fields as they stand (R54 to R64). -/
def instrOfWord (w : Word96) : Instr :=
  match (w.extractLsb' 86 10).toNat with
  | 0x000 => .ill (w.extractLsb' 0 86)
  | 0x3FF => .ill3ff (w.extractLsb' 0 86)
  | 0x001 => .nop (.ofWord w)
  | 0x002 => .iadd (.ofWord w)
  | 0x003 => .isub (.ofWord w)
  | 0x004 => .iaddc (.ofWord w)
  | 0x005 => .imul (.ofWord w)
  | 0x006 => .imulh (.ofWord w)
  | 0x007 => .imad (.ofWord w)
  | 0x008 => .imadw (.ofWord w)
  | 0x009 => .iabs (.ofWord w)
  | 0x00A => .imin (.ofWord w)
  | 0x00B => .imax (.ofWord w)
  | 0x010 => .shl (.ofWord w)
  | 0x011 => .shr (.ofWord w)
  | 0x012 => .sar (.ofWord w)
  | 0x013 => .rot (.ofWord w)
  | 0x014 => .logic (.ofWord w)
  | 0x015 => .bfe (.ofWord w)
  | 0x016 => .bfi (.ofWord w)
  | 0x017 => .popc (.ofWord w)
  | 0x018 => .clz (.ofWord w)
  | 0x019 => .ctz (.ofWord w)
  | 0x01A => .brev (.ofWord w)
  | 0x01B => .prmt (.ofWord w)
  | 0x020 => .icmp (.ofWord w)
  | 0x021 => .iset (.ofWord w)
  | 0x022 => .sel (.ofWord w)
  | 0x023 => .plog (.ofWord w)
  | 0x028 => .mov (.ofWord w)
  | 0x029 => .movi (.ofWord w)
  | 0x02A => .lea (.ofWord w)
  | 0x030 => .shfl (.ofWord w)
  | 0x031 => .ballot (.ofWord w)
  | 0x032 => .vote (.ofWord w)
  | 0x033 => .readlane (.ofWord w)
  | 0x038 => .icvt (.ofWord w)
  | 0x080 => .bra (.ofWord w)
  | 0x081 => .brx (.ofWord w)
  | 0x082 => .call (.ofWord w)
  | 0x083 => .callx (.ofWord w)
  | 0x084 => .ret (.ofWord w)
  | 0x085 => .exit (.ofWord w)
  | 0x088 => .setmeet (.ofWord w)
  | 0x089 => .setprio (.ofWord w)
  | 0x08A => .yield (.ofWord w)
  | 0x08B => .regroup (.ofWord w)
  | 0x08C => .switchpt (.ofWord w)
  | 0x08D => .cvdecl (.ofWord w)
  | 0x090 => .backoff (.ofWord w)
  | 0x091 => .sleep (.ofWord w)
  | 0x092 => .trap (.ofWord w)
  | 0x093 => .bkpt (.ofWord w)
  | 0x094 => .clock (.ofWord w)
  | 0x0C0 => .fadd (.ofWord w)
  | 0x0C1 => .fsub (.ofWord w)
  | 0x0C2 => .fmul (.ofWord w)
  | 0x0C3 => .ffma (.ofWord w)
  | 0x0C4 => .fmin (.ofWord w)
  | 0x0C5 => .fmax (.ofWord w)
  | 0x0C6 => .fminnm (.ofWord w)
  | 0x0C7 => .fmaxnm (.ofWord w)
  | 0x0C8 => .fcmp (.ofWord w)
  | 0x0C9 => .fset (.ofWord w)
  | 0x0CA => .fclass (.ofWord w)
  | 0x0CB => .fsgn (.ofWord w)
  | 0x0D0 => .fdiv (.ofWord w)
  | 0x0D1 => .fsqrt (.ofWord w)
  | 0x0D2 => .frcpe (.ofWord w)
  | 0x0D3 => .frsqe (.ofWord w)
  | 0x0D8 => .frnd (.ofWord w)
  | 0x0D9 => .fldexp (.ofWord w)
  | 0x0DA => .fgetexp (.ofWord w)
  | 0x0E0 => .fcvt (.ofWord w)
  | 0x0E1 => .f2i (.ofWord w)
  | 0x0E2 => .i2f (.ofWord w)
  | 0x0E8 => .dot2 (.ofWord w)
  | 0x0E9 => .dot4 (.ofWord w)
  | 0x0EA => .hfma2 (.ofWord w)
  | 0x0EB => .fsat (.ofWord w)
  | 0x140 => .ld (.ofWord w)
  | 0x141 => .st (.ofWord w)
  | 0x142 => .lds (.ofWord w)
  | 0x143 => .sts (.ofWord w)
  | 0x144 => .ldq (.ofWord w)
  | 0x145 => .stq (.ofWord w)
  | 0x146 => .ldv (.ofWord w)
  | 0x147 => .pref (.ofWord w)
  | 0x148 => .atom (.ofWord w)
  | 0x149 => .cas (.ofWord w)
  | 0x14A => .red (.ofWord w)
  | 0x150 => .fence (.ofWord w)
  | 0x151 => .fencex (.ofWord w)
  | 0x152 => .drop (.ofWord w)
  | 0x153 => .promote (.ofWord w)
  | 0x154 => .cctl (.ofWord w)
  | 0x180 => .bar (.ofWord w)
  | 0x181 => .bara (.ofWord w)
  | 0x182 => .barw (.ofWord w)
  | 0x183 => .cbar (.ofWord w)
  | 0x184 => .sstep (.ofWord w)
  | 0x188 => .qdecl (.ofWord w)
  | 0x189 => .qpush (.ofWord w)
  | 0x18A => .qpop (.ofWord w)
  | 0x18B => .qtry (.ofWord w)
  | 0x18C => .dqpush (.ofWord w)
  | 0x18D => .dqpop (.ofWord w)
  | 0x18E => .dqsteal (.ofWord w)
  | 0x190 => .launch (.ofWord w)
  | 0x191 => .twait (.ofWord w)
  | 0x198 => .migrate (.ofWord w)
  | 0x199 => .priowg (.ofWord w)
  | 0x1C0 => .cpy (.ofWord w)
  | 0x1C1 => .cpyw (.ofWord w)
  | 0x1C4 => .gath (.ofWord w)
  | 0x1C5 => .scat (.ofWord w)
  | 0x1C8 => .publish (.ofWord w)
  | 0x1C9 => .vhold (.ofWord w)
  | 0x1CA => .vrel (.ofWord w)
  | 0x1D0 => .coll (.ofWord w)
  | 0x1D1 => .mldred (.ofWord w)
  | 0x1D2 => .cwait (.ofWord w)
  | 0x1D8 => .halo (.ofWord w)
  | 0x1DC => .estat (.ofWord w)
  | 0x200 => .tshape (.ofWord w)
  | 0x201 => .tld (.ofWord w)
  | 0x202 => .tst (.ofWord w)
  | 0x203 => .tzero (.ofWord w)
  | 0x204 => .tmovv (.ofWord w)
  | 0x205 => .tmovt (.ofWord w)
  | 0x208 => .mma (.ofWord w)
  | 0x209 => .mmas (.ofWord w)
  | 0x20A => .gmma (.ofWord w)
  | 0x210 => .tcvt (.ofWord w)
  | 0x212 => .tadd (.ofWord w)
  | 0x213 => .tscale (.ofWord w)
  | 0x214 => .tred (.ofWord w)
  | 0x240 => .trace (.ofWord w)
  | 0x241 => .tresume (.ofWord w)
  | 0x242 => .hitget (.ofWord w)
  | 0x243 => .bvhchk (.ofWord w)
  | 0x248 => .rngkey (.ofWord w)
  | 0x249 => .rng (.ofWord w)
  | 0x24A => .rngf (.ofWord w)
  | 0x260 => .mfsr (.ofWord w)
  | 0x261 => .mtsr (.ofWord w)
  | 0x262 => .eret (.ofWord w)
  | 0x263 => .opreplay (.ofWord w)
  | 0x264 => .opdrop (.ofWord w)
  | 0x268 => .halt (.ofWord w)
  | 0x269 => .idle (.ofWord w)
  | 0x26A => .syscall (.ofWord w)
  | 0x211 => if w.getLsbD 8 then .mxsclFill (.ofWord w) else .mxscl (.ofWord w)
  | _ => .unassignedOpcode (w.extractLsb' 86 10) (w.extractLsb' 0 86)

/-- Decodes a word. ILL and unassigned opcodes are instructions whose meaning is to raise Illegal instruction. -/
def decode (w : Word96) : Except Reject Instr :=
  let i := instrOfWord w
  let ok := match i.form with
    | some (_, f) => f.reservedOk w
    | none => true
  if !ok then .error .reservedBit
  else if !i.wellFormed then .error .illFormedField
  else .ok i

/-- The word of an instruction; none for a row that is not a word. -/
def encode (i : Instr) : Option Word96 :=
  match i.form with
  | some (op, f) => some (f.toWord (BitVec.ofNat 10 op))
  | none =>
    match i with
    | .ill rest => some (0x000#10 ++ rest)
    | .ill3ff rest => some (0x3FF#10 ++ rest)
    | .unassignedOpcode op rest => some (op ++ rest)
    | _ => none

/-- The instruction that the decoder reads from the bits w of an opcode-table row. -/
def decodeTableWord (nbits w : Nat) : Option Instr :=
  if nbits ≤ 96 then (decode (BitVec.ofNat 96 w)).toOption else none

/-! ### Fetch lines -/

/-- The line base of an address (R15). -/
def lineBase (a : W64) : W64 := a &&& ~~~63#64

/-- The slot of an instruction address; none for any other address (R15). -/
def slotOf (a : W64) : Option Nat :=
  match (a &&& 63#64).toNat with
  | 4 => some 0
  | 16 => some 1
  | 28 => some 2
  | 40 => some 3
  | 52 => some 4
  | _ => none

/-- The instruction address that follows in sequence (R16). -/
def nextPc (a : W64) : W64 := if a &&& 63#64 = 52#64 then a + 16#64 else a + 12#64

/-- The target of a format-B branch at pc (R25). -/
def branchTarget (pc : W64) (loff : BitVec 21) (slot : BitVec 3) : W64 :=
  lineBase pc + (loff.signExtend 64 <<< 6) + BitVec.ofNat 64 (4 + 12 * slot.toNat)

/-- The instruction word in slot k of a line (R15). -/
def lineSlot (l : LineData) (k : Nat) : Word96 := l.extractLsb' (8 * (4 + 12 * k)) 96

/-- The line word (R17). -/
def lineWord (l : LineData) : W32 := l.extractLsb' 0 32

/-- Parity of a number's low n bits. -/
def parity : Nat → Nat → Bool
  | 0, _ => false
  | n + 1, x => (x % 2 == 1) != parity n (x / 2)

/-- The parity byte that R20 asks of a line. -/
def linePar (l : LineData) : Byte :=
  let z := l &&& ~~~(BitVec.setWidth 512 0xFF000000#32)
  (List.range 8).foldl (fun r i => if parity 64 (z.extractLsb' (64 * i) 64).toNat then r ||| (1#8 <<< i) else r) 0#8

/-- A line passes its parity check (R20). -/
def lineParOk (l : LineData) : Bool := (lineWord l).extractLsb' 24 8 == linePar l

/-- Slot k of a line is a legal branch target (R17). -/
def lineTgt (l : LineData) (k : Nat) : Bool := (lineWord l).getLsbD k

/-- PAIR bit j of a line (R17). -/
def linePair (l : LineData) (j : Nat) : Bool := j < 4 && (lineWord l).getLsbD (5 + j)

/-- A line with the given words, PAIR and TGT bits, and its parity (R15, R17, R20). -/
def makeLine (words : List Word96) (pair : BitVec 4) (tgt : BitVec 5) : LineData :=
  let body := words.zipIdx.foldl (fun l p => l ||| ((BitVec.setWidth 512 p.1) <<< (8 * (4 + 12 * p.2)))) 0#512
  let l := body ||| BitVec.setWidth 512 (pair ++ tgt)
  l ||| ((BitVec.setWidth 512 (linePar l)) <<< 24)

end Sys2Proof
end

