-- ==== Sys2Proof/Machine/Float.lean ====
section
/-! DEFINITION. Number formats and exact floating arithmetic (R46, R117 to R124, R130 to R145). A finite value is a
sign and m × 2^e with m a natural number; results are exact until one rounding. Formats and helpers only: the
instructions stand in FloatOps. -/

namespace Sys2Proof

/-- A floating format (R117, R118). -/
structure FFmt where
  width : Nat
  eb : Nat
  fb : Nat
  bias : Nat
  /-- the top exponent code holds infinity and NaN -/
  inf : Bool
  /-- signalling NaNs exist -/
  snan : Bool
  /-- 0x7F and 0xFF are NaN (E4M3) -/
  nan7f : Bool
  deriving DecidableEq, Repr

def fp64 : FFmt := ⟨64, 11, 52, 1023, true, true, false⟩
def fp32 : FFmt := ⟨32, 8, 23, 127, true, true, false⟩
def fp16 : FFmt := ⟨16, 5, 10, 15, true, true, false⟩
def bf16 : FFmt := ⟨16, 8, 7, 127, true, true, false⟩
def e5m2 : FFmt := ⟨8, 5, 2, 15, true, false, false⟩
def e4m3 : FFmt := ⟨8, 4, 3, 7, false, false, true⟩
def e3m2 : FFmt := ⟨6, 3, 2, 3, false, false, false⟩
def e2m3 : FFmt := ⟨6, 2, 3, 1, false, false, false⟩
def e2m1 : FFmt := ⟨4, 2, 1, 1, false, false, false⟩

/-- The format of a floating T code (R43). -/
def fmtT (t : Nat) : FFmt := if t = 5 then fp64 else if t = 4 then fp32 else if t = 6 || t = 8 then fp16 else bf16

/-- The format of an R141 code or an R281 FMT code from 0x0 to 0x8. -/
def fmtCode (c : Nat) : FFmt :=
  match c with
  | 0 => fp64
  | 1 => fp32
  | 2 => fp16
  | 3 => bf16
  | 4 => e4m3
  | 5 => e5m2
  | 6 => e3m2
  | 7 => e2m3
  | _ => e2m1

/-- A value: NaN (signalling or not), infinity, or (-1)^neg × m × 2^e. -/
inductive FVal where
  | nan (sig : Bool)
  | inf (neg : Bool)
  | fin (neg : Bool) (m : Nat) (e : Int)
  deriving DecidableEq, Repr

/-- Flags NV, DZ, OF, UF, NX of FPSTAT in bits 4 to 0 (R125). -/
abbrev Flags := BitVec 5
def fNV : Flags := 16
def fDZ : Flags := 8
def fOF : Flags := 4
def fUF : Flags := 2
def fNX : Flags := 1

/-- A flag set when a condition holds. -/
def flagIf (f : Flags) (b : Bool) : Flags := if b then f else 0

/-- Exponent of the smallest subnormal (R117). -/
def FFmt.qmin (f : FFmt) : Int := 1 - (f.bias : Int) - (f.fb : Int)

/-- Bits of the largest finite magnitude (R117, R118). -/
def FFmt.maxBits (f : FFmt) : Nat :=
  if f.inf then 2 ^ (f.width - 1) - 1 - 2 ^ f.fb
  else if f.nan7f then 0x7E
  else 2 ^ (f.width - 1) - 1

/-- The default NaN (R32, R118); formats without a NaN receive +0 (R123). -/
def FFmt.nanBits (f : FFmt) : Nat :=
  if f.inf then (if f.snan then (2 ^ (f.eb + 1) - 1) * 2 ^ (f.fb - 1) else 0x7E)
  else if f.nan7f then 0x7F else 0

/-- The format has a NaN. -/
def FFmt.hasNan (f : FFmt) : Bool := f.inf || f.nan7f

/-- The sign bit in place. -/
def FFmt.sign (f : FFmt) (neg : Bool) : Nat := if neg then 2 ^ (f.width - 1) else 0

/-- Bits of infinity. -/
def FFmt.infBits (f : FFmt) (neg : Bool) : Nat := f.sign neg + (2 ^ f.eb - 1) * 2 ^ f.fb

/-- The value of an encoding (R117, R118); bits above the format are ignored (R120). -/
def FFmt.unpack (f : FFmt) (x : Nat) : FVal :=
  let neg := x.testBit (f.width - 1)
  let e := x / 2 ^ f.fb % 2 ^ f.eb
  let fr := x % 2 ^ f.fb
  if f.inf && e == 2 ^ f.eb - 1 then
    if fr = 0 then .inf neg else .nan (f.snan && fr < 2 ^ (f.fb - 1))
  else if f.nan7f && x % 128 == 127 then .nan false
  else if e = 0 then .fin neg fr f.qmin
  else .fin neg (2 ^ f.fb + fr) ((e : Int) - f.bias - f.fb)

/-- The value of an E8M0 code (R119). -/
def unpackE8m0 (x : Nat) : FVal := if x % 256 = 255 then .nan false else .fin false 1 ((x % 256 : Nat) - 127)

/-- m × 2^s for a possibly negative s, rounded down. -/
def shiftInt (m : Nat) (s : Int) : Nat := if 0 ≤ s then m <<< s.toNat else m >>> (-s).toNat

/-- Whether a rounding away from zero takes place: `odd` last kept bit, `cmp` the dropped part against one half
(0 none, 1 below, 2 equal, 3 above) (R44, R46). -/
def roundUp (rm : Nat) (neg odd : Bool) (cmp : Nat) : Bool :=
  match rm with
  | 0 => cmp == 3 || (cmp == 2 && odd)
  | 2 => cmp != 0 && !neg
  | 3 => cmp != 0 && neg
  | 4 => 2 <= cmp
  | _ => false

/-- Rounds m × 2^e (plus a little more when sticky) to a multiple of 2^q: the multiple and whether it is inexact. -/
def roundAt (rm : Nat) (neg : Bool) (m : Nat) (e : Int) (sticky : Bool) (q : Int) : Nat × Bool :=
  if q ≤ e then (m <<< (e - q).toNat, sticky)
  else
    let s := (q - e).toNat
    let k := m >>> s
    let r := m % 2 ^ s
    let half := 2 ^ (s - 1)
    let cmp := if r = 0 && !sticky then 0 else if r < half then 1 else if r = half && !sticky then 2 else 3
    (if roundUp rm neg (k % 2 == 1) cmp then k + 1 else k, cmp != 0)

/-- Encodes a value m × 2^e that the format holds exactly. -/
def FFmt.encodeExact (f : FFmt) (neg : Bool) (m : Nat) (e : Int) : Nat :=
  if m = 0 then f.sign neg
  else
    let top : Int := (Nat.log2 m : Int) + e
    let q := max (top - f.fb) f.qmin
    let n := shiftInt m (e - q)
    f.sign neg + ((q - f.qmin).toNat * 2 ^ f.fb + n)

/-- The result that R46 and the table of R121 give on overflow. -/
def FFmt.overflowBits (f : FFmt) (rm : Nat) (sat neg : Bool) : Nat :=
  let big := f.sign neg + f.maxBits
  let toInf := rm == 0 || rm == 4 || (rm == 2 && !neg) || (rm == 3 && neg)
  if sat || !toInf || !f.hasNan then big
  else if f.inf then f.infBits neg else f.sign neg + 0x7F

/-- RoundFmt of a finite value that is m × 2^e, plus less than one unit of m when sticky (R46, R121, R122). -/
def FFmt.roundFin (f : FFmt) (rm : Nat) (sat neg : Bool) (m : Nat) (e : Int) (sticky : Bool) : Nat × Flags :=
  if m = 0 && !sticky then (f.sign neg, 0)
  else
    let top : Int := (Nat.log2 m : Int) + e
    let q := max (top - f.fb) f.qmin
    let (n, nx) := roundAt rm neg m e sticky q
    let (u, _) := roundAt rm neg m e sticky (top - f.fb)
    let tiny := u == 0 || (Nat.log2 u : Int) + (top - f.fb) < f.qmin + f.fb
    let pat := (q - f.qmin).toNat * 2 ^ f.fb + n
    if n != 0 && f.maxBits < pat then (f.overflowBits rm sat neg, fOF ||| fNX)
    else (f.sign neg + pat, flagIf fNX nx ||| flagIf fUF (nx && tiny))

/-- RoundFmt of any value (R121). A NaN gives the default NaN, or +0 with Invalid where the format has none. -/
def FFmt.round (f : FFmt) (rm : Nat) (sat : Bool) : FVal → Nat × Flags
  | .nan _ => (f.nanBits, flagIf fNV (!f.hasNan))
  | .inf neg =>
    if sat || !f.hasNan then (f.sign neg + f.maxBits, 0)
    else if f.inf then (f.infBits neg, 0) else (f.sign neg + 0x7F, 0)
  | .fin neg m e => f.roundFin rm sat neg m e false

/-! ### Exact operations -/

def FVal.isNan : FVal → Bool
  | .nan _ => true
  | _ => false

def FVal.isSig : FVal → Bool
  | .nan s => s
  | _ => false

def FVal.isInf : FVal → Bool
  | .inf _ => true
  | _ => false

def FVal.isZero : FVal → Bool
  | .fin _ m _ => m == 0
  | _ => false

def FVal.neg : FVal → Bool
  | .nan _ => false
  | .inf n => n
  | .fin n _ _ => n

/-- The value with its sign changed. -/
def FVal.negate : FVal → FVal
  | .nan s => .nan s
  | .inf n => .inf (!n)
  | .fin n m e => .fin (!n) m e

/-- Product of two values that are not NaN; none for ∞ × 0 (R130). -/
def FVal.mulExact : FVal → FVal → Option FVal
  | .fin n m e, .fin n' m' e' => some (.fin (n != n') (m * m') (e + e'))
  | .inf n, .inf n' => some (.inf (n != n'))
  | .inf n, .fin n' m _ => if m = 0 then none else some (.inf (n != n'))
  | .fin n m _, .inf n' => if m = 0 then none else some (.inf (n != n'))
  | _, _ => none

/-- A finite value as an integer multiple of 2^q, for q at or below its exponent. -/
def FVal.scaled (q : Int) : FVal → Int
  | .fin n m e => let k : Int := (m <<< (e - q).toNat : Nat); if n then -k else k
  | _ => 0

/-- Exponent of a finite value. -/
def FVal.exp : FVal → Int
  | .fin _ _ e => e
  | _ => 0

/-- Exact sum of finite terms with the zero sign of R124. -/
def sumFin (rm : Nat) (ts : List FVal) : FVal :=
  let q := ts.foldl (fun q t => min q t.exp) ((ts.head?.map FVal.exp).getD 0)
  let x := ts.foldl (fun x t => x + t.scaled q) (0 : Int)
  if x = 0 then
    if ts.all (fun t => t.isZero && t.neg) then .fin true 0 0
    else if ts.all (fun t => t.isZero && !t.neg) then .fin false 0 0
    else .fin (rm == 3) 0 0
  else .fin (x < 0) x.natAbs q

/-- Exact sum of products and addends, with the special cases of R124, R130 and R144: the value and NV. -/
def sumProducts (rm : Nat) (prods : List (FVal × FVal)) (adds : List FVal) : FVal × Flags :=
  let all := prods.foldl (fun l p => p.1 :: p.2 :: l) adds
  let bad := prods.any (fun p => (p.1.isInf && p.2.isZero) || (p.1.isZero && p.2.isInf))
  if bad then (.nan false, fNV)
  else if all.any FVal.isNan then (.nan false, flagIf fNV (all.any FVal.isSig))
  else
    let terms := prods.map (fun p => (p.1.mulExact p.2).getD (.nan false)) ++ adds
    let pos := terms.any (fun t => t.isInf && !t.neg)
    let neg := terms.any (fun t => t.isInf && t.neg)
    if pos && neg then (.nan false, fNV)
    else if pos || neg then (.inf neg, 0)
    else (sumFin rm terms, 0)

/-- Integer square root, rounded down, of a number below 4^(b+1). -/
def isqrt (n : Nat) : Nat → Nat
  | 0 => if n = 0 then 0 else 1
  | b + 1 =>
    let r := isqrt (n / 4) b
    let r2 := 2 * r
    if (r2 + 1) * (r2 + 1) ≤ n then r2 + 1 else r2

/-- Square root rounded down. -/
def natSqrt (n : Nat) : Nat := isqrt n (Nat.log2 n / 2 + 1)

/-- FDIV (R131). -/
def FFmt.div (f : FFmt) (rm : Nat) (a b : FVal) : Nat × Flags :=
  if a.isNan || b.isNan then (f.nanBits, flagIf fNV (a.isSig || b.isSig))
  else
    let neg := a.neg != b.neg
    match a, b with
    | .inf _, .inf _ => (f.nanBits, fNV)
    | .inf _, _ => (f.infBits neg, 0)
    | _, .inf _ => (f.sign neg, 0)
    | .fin _ m e, .fin _ m' e' =>
      if m' = 0 then (if m = 0 then (f.nanBits, fNV) else (f.infBits neg, fDZ))
      else
        let k := f.fb + 4 + Nat.log2 m'
        let n := m <<< k
        f.roundFin rm false neg (n / m') (e - e' - k) (n % m' != 0)
    | _, _ => (f.nanBits, 0)

/-- FSQRT (R131). -/
def FFmt.sqrt (f : FFmt) (rm : Nat) (a : FVal) : Nat × Flags :=
  match a with
  | .nan s => (f.nanBits, flagIf fNV s)
  | .inf neg => if neg then (f.nanBits, fNV) else (f.infBits false, 0)
  | .fin neg m e =>
    if m = 0 then (f.sign neg, 0)
    else if neg then (f.nanBits, fNV)
    else
      let k := 2 * (f.fb + 4) + (e % 2).toNat
      let n := m <<< k
      let r := natSqrt n
      f.roundFin rm false false r ((e - k) / 2) (r * r != n)

/-- Rounds to 14 significant bits, or the format's precision where coarser, ties to even; overflow sets OF only
(R132). -/
def FFmt.round14 (f : FFmt) (neg : Bool) (m : Nat) (e : Int) (sticky : Bool) : Nat × Flags :=
  let top : Int := (Nat.log2 m : Int) + e
  let q := max (top - 13) f.qmin
  let (n, _) := roundAt 0 neg m e sticky q
  let b := f.encodeExact false n q
  if f.maxBits < b then (f.infBits neg, fOF) else (f.sign neg + b, 0)

/-- FRCPE (R132). -/
def FFmt.recip (f : FFmt) (a : FVal) : Nat × Flags :=
  match a with
  | .nan s => (f.nanBits, flagIf fNV s)
  | .inf neg => (f.sign neg, 0)
  | .fin neg m e =>
    if m = 0 then (f.infBits neg, fDZ)
    else
      let k := 20 + Nat.log2 m
      f.round14 neg (2 ^ k / m) (-e - k) (2 ^ k % m != 0)

/-- FRSQE (R132). -/
def FFmt.rsqrt (f : FFmt) (a : FVal) : Nat × Flags :=
  match a with
  | .nan s => (f.nanBits, flagIf fNV s)
  | .inf neg => if neg then (f.nanBits, fNV) else (f.sign false, 0)
  | .fin neg m e =>
    if m = 0 then (f.infBits neg, fDZ)
    else if neg then (f.nanBits, fNV)
    else
      let odd := (e % 2).toNat
      let m' := m <<< odd
      let k := 20 + Nat.log2 m'
      let r := natSqrt (2 ^ (2 * k) / m')
      f.round14 false r (-((e - odd) / 2) - k) (r * r * m' != 2 ^ (2 * k))

/-- An integral value in direction rm: magnitude (R138, R142). -/
def roundIntegral (rm : Nat) (neg : Bool) (m : Nat) (e : Int) : Nat := (roundAt rm neg m e false 0).1

/-- FRND (R138). -/
def FFmt.rnd (f : FFmt) (rm : Nat) (x : Nat) : Nat × Flags :=
  match f.unpack x with
  | .nan s => (f.nanBits, flagIf fNV s)
  | .inf neg => (f.infBits neg, 0)
  | .fin neg m e => if 0 ≤ e then (x, 0) else (f.encodeExact neg (roundIntegral rm neg m e) 0, 0)

/-- Order of two finite or infinite values: -1, 0 or 1. -/
def FVal.cmp (a b : FVal) : Int :=
  match a, b with
  | .inf n, .inf n' => if n = n' then 0 else if n then -1 else 1
  | .inf n, _ => if n then -1 else 1
  | _, .inf n => if n then 1 else -1
  | _, _ =>
    let q := min a.exp b.exp
    let x := a.scaled q
    let y := b.scaled q
    if x < y then -1 else if x = y then 0 else 1

/-- Minimum (mx = false) or maximum of two encodings, −0 below +0; `number` selects the minimumNumber and
maximumNumber forms (R133). -/
def FFmt.minMax (f : FFmt) (mx number : Bool) (x y : Nat) : Nat × Flags :=
  let a := f.unpack x
  let b := f.unpack y
  let nv := flagIf fNV (a.isSig || b.isSig)
  if a.isNan && b.isNan then (f.nanBits, nv)
  else if a.isNan then (if number then y else f.nanBits, nv)
  else if b.isNan then (if number then x else f.nanBits, nv)
  else
    let c := a.cmp b
    let less := c < 0 || (c = 0 && a.neg && !b.neg)
    (if less != mx then x else y, 0)

/-- The comparison conditions of R134: the truth value and NV. -/
def fcompare (cond : Nat) (a b : FVal) : Bool × Flags :=
  let un := a.isNan || b.isNan
  let sig := a.isSig || b.isSig
  let c := a.cmp b
  let quiet := flagIf fNV sig
  let loud := flagIf fNV un
  match cond with
  | 0 => (!un && c == 0, quiet)
  | 1 => (un || c != 0, quiet)
  | 2 => (!un && c < 0, loud)
  | 3 => (!un && c ≤ 0, loud)
  | 4 => (!un && 0 < c, loud)
  | 5 => (!un && 0 ≤ c, loud)
  | 6 => (!un, quiet)
  | 7 => (un, quiet)
  | 8 => (un || c < 0, quiet)
  | 9 => (un || c ≤ 0, quiet)
  | 10 => (un || 0 < c, quiet)
  | _ => (un || 0 ≤ c, quiet)

/-- FCLASS (R136). -/
def FFmt.classBit (f : FFmt) (x : Nat) : Nat :=
  match f.unpack x with
  | .nan s => if s then 8 else 9
  | .inf neg => if neg then 0 else 7
  | .fin neg m e =>
    if m = 0 then (if neg then 3 else 4)
    else if e = f.qmin && m < 2 ^ f.fb then (if neg then 2 else 5)
    else (if neg then 1 else 6)

/-- FSAT (R137). -/
def FFmt.clamp (f : FFmt) (x : Nat) : Nat × Flags :=
  match f.unpack x with
  | .nan s => (0, flagIf fNV s)
  | .inf neg => (if neg then 0 else f.encodeExact false 1 0, 0)
  | .fin neg m e =>
    if neg || m = 0 then (0, 0)
    else if 0 < (FVal.fin false m e).cmp (.fin false 1 0) then (f.encodeExact false 1 0, 0)
    else (x, 0)

/-- FGETEXP as a signed 32-bit integer (R140). -/
def fgetexp (a : FVal) : Int × Flags :=
  match a with
  | .nan _ => (0x7FFFFFFF, fNV)
  | .inf _ => (0x7FFFFFFF, fNV)
  | .fin _ m e => if m = 0 then (-0x80000000, fNV) else ((Nat.log2 m : Int) + e, 0)

/-- F2I into [lo, hi] (R142). -/
def f2int (rm : Nat) (lo hi : Int) (a : FVal) : Int × Flags :=
  match a with
  | .nan _ => (0, fNV)
  | .inf neg => (if neg then lo else hi, fNV)
  | .fin neg m e =>
    let k : Int := (roundIntegral rm neg m e : Nat)
    let n := if neg then -k else k
    if n < lo then (lo, fNV) else if hi < n then (hi, fNV) else (n, 0)

/-- An integer as an exact value. -/
def FVal.ofInt (x : Int) : FVal := .fin (x < 0) x.natAbs 0

/-- Sat (R46). -/
def satInt (x lo hi : Int) : Int := if x < lo then lo else if hi < x then hi else x

/-- The constants of R32 under a floating format with four bit patterns for π, ln 2 and log₂ e. -/
def FFmt.const (f : FFmt) (c : Nat) : Nat :=
  let tbl (a b h x : Nat) := if f.width = 64 then a else if f.width = 32 then b else if f.eb = 5 then h else x
  match c with
  | 0x160 => 0
  | 0x161 => f.encodeExact false 1 0
  | 0x162 => f.encodeExact true 1 0
  | 0x163 => f.encodeExact false 2 0
  | 0x164 => f.encodeExact true 2 0
  | 0x165 => f.encodeExact false 4 0
  | 0x166 => f.encodeExact false 8 0
  | 0x167 => f.encodeExact false 16 0
  | 0x168 => f.encodeExact false 1 (-1)
  | 0x169 => f.encodeExact true 1 (-1)
  | 0x16A => f.encodeExact false 1 (-2)
  | 0x16B => tbl 0x400921FB54442D18 0x40490FDB 0x4248 0x4049
  | 0x16C => tbl 0x3FE62E42FEFA39EF 0x3F317218 0x398C 0x3F31
  | 0x16D => tbl 0x3FF71547652B82FE 0x3FB8AA3B 0x3DC5 0x3FB9
  | 0x16E => f.infBits false
  | _ => f.nanBits

/-- The constants of R32 as integers. -/
def intConst (c : Nat) : Int :=
  match c with
  | 0x161 => 1
  | 0x162 => -1
  | 0x163 => 2
  | 0x164 => -2
  | 0x165 => 4
  | 0x166 => 8
  | 0x167 => 16
  | _ => 0

end Sys2Proof
end

