-- ==== Sys2Proof/Config.lean ====
section
/-! DEFINITION. Values the manual leaves open. Each is opaque: nothing can evaluate it or prove a value of it.
The counter argument is `State.freeCtr` (log entry 4). -/

namespace Sys2Proof.Config

/-- A line read under a key that is not the one it was sealed with (R255), by counter. -/
opaque scrambledLine : Nat → LineData
/-- A byte that a mixture of two contents, or a lost granule, reads as (R256, R349), by counter. -/
opaque freeLine : Nat → LineData
/-- Bytes of the signed table image that a configuration read returns (R434, R447), by function and register. -/
opaque configWord : Nat → Nat → W32
/-- Bytes of certificates, digests and signatures (R448), by message kind, request and byte index. -/
opaque mgmtByte : Nat → Nat → Nat → Byte
/-- The Vendor ID of the signed table image (R434). -/
opaque vendorId : BitVec 16
/-- The fused public-key digests (R447). -/
opaque fuseDigest : Nat → Byte
/-- Nanoseconds and cycles that an attempt of a boot step takes (R469 to R471), by counter. -/
opaque bootNs : Nat → Nat
opaque bootCycles : Nat → Nat
/-- The SMBus address that the table image gives (R449). -/
opaque smbusAddress : BitVec 7
/-- Lanes of a Filley link at full and at half width (R470, R471). -/
opaque filleyLanes : Bool → W32
/-- Coolant inlet and outlet temperatures (R473), by counter. -/
opaque coolant : Nat → BitVec 32
/-- Average package power over the last second in mW (R473), by counter. -/
opaque powerMw : Nat → W64
/-- Length of the certificate chain (R448). -/
opaque certLength : Nat
/-- The UALink station id of a package (R459). -/
opaque stationId : BitVec 10
/-- The port of the collective engines for a peer station and line address, modulo 16 (R460). -/
opaque enginePort : BitVec 10 → Nat → Nat

end Sys2Proof.Config
end

