-- ==== Sys2Proof/Machine/State.lean ====
section
/-! DEFINITION. The state of one CRV4-A package as plain data, its reset value, and the two closed types of stops.
A comment names the rule of spec/ that gives the field. -/

namespace Sys2Proof.Machine

/-- Model stops. No instruction of the table raises one: the step raises it. -/
inductive Fault where
  /-- Raised by `step` when main power is off (R475) and the next turn is not a cold reset. Safe. -/
  | powerOff
  deriving DecidableEq, Repr

/-- Instructions without a meaning. Raised by an arm of `exec` only. Safe. -/
inductive Refusal where
  /-- The instruction of that mnemonic has no meaning yet. Safe. -/
  | notModelled (mnemonic : String)
  deriving DecidableEq, Repr

/-! ### Threads -/

/-- The four latches of a thread; `none` is a cleared latch (R35, R37). -/
structure Latches where
  l0 : Option W64
  l1 : Option W64
  l2 : Option W64
  l3 : Option W64
  /-- bit k: latch k fails its parity check (R256). -/
  bad : BitVec 4
  deriving DecidableEq, Repr

/-- An exact fraction with a positive denominator (R341, R342). -/
structure Frac where
  num : Int
  den : Nat
  deriving DecidableEq, Repr

/-- A ray: origin and direction as FP32 words (R339). -/
structure Ray where
  ox : W32
  oy : W32
  oz : W32
  dx : W32
  dy : W32
  dz : W32
  deriving DecidableEq, Repr

/-- A hit found by R342, with what HITGET returns (R347). -/
structure Hit where
  t : Frac
  u : Frac
  v : Frac
  iid : W32
  prim : W32
  ray : Ray
  nx : W32
  ny : W32
  nz : W32
  user : W32
  tri : W64
  deriving DecidableEq, Repr

/-- An entered child of a node, with its key and far bound (R341). -/
structure ChildEnt where
  slot : Nat
  key : Frac
  far : Option Frac
  kind : Nat
  cnt : Nat
  target : Nat
  deriving DecidableEq, Repr

/-- A deferred entry of the traversal engine: a child still to take, with the level and ray of its node (R345, R354). -/
structure TravEntry where
  level : Nat
  ray : Ray
  iid : W32
  user : W32
  child : ChildEnt
  deriving DecidableEq, Repr

/-- What the traversal engine does next: take a deferred entry; fetch a node; fetch an instance; test the triangles of a leaf,
then take the remaining children of its node; take children; or follow the restart trail through a node or an instance (R344,
R345, R354). -/
inductive TravTodo where
  | pop
  | node (level addr : Nat) (ray : Ray) (iid user : W32)
  | inst (level addr : Nat) (ray : Ray)
  | tris (level : Nat) (ray : Ray) (iid user : W32) (addr left : Nat) (rest : List ChildEnt)
  | kids (level : Nat) (ray : Ray) (iid user : W32) (rest : List ChildEnt)
  | follow (level addr : Nat) (ray : Ray) (iid user : W32)
  | followInst (level addr : Nat) (ray : Ray)
  deriving DecidableEq, Repr

/-- A traversal in progress (R344, R345): deferred entries, newest first; the child slot taken at each level from the top-level
root, and the levels of the marked nodes. -/
structure TravWalk where
  root : Nat
  org : Ray
  tmin : Frac
  tlim : Option Frac
  flags : BitVec 13
  view : Option W64
  best : Option Hit
  stack : List TravEntry
  trail : List Nat
  marks : List Nat
  todo : TravTodo
  deriving DecidableEq, Repr

/-- A traversal suspended at a candidate (R346). -/
structure Suspended where
  walk : TravWalk
  cand : Hit
  deriving DecidableEq, Repr

/-- Traversal state of a thread: the suspended traversal, and the last record with its ray (R346). -/
structure Trav where
  susp : Option Suspended
  last : Option Hit
  deriving DecidableEq, Repr

/-- What a thread waits for (R214, R423). `tok` is the tick of the instruction that began the wait. -/
inductive Wait where
  | none
  | backoff
  | sleep
  | regroup (issued stop : W64) (addr : W64)
  /-- barrier 0–15 of the workgroup, 16–19 of the cluster, 20 of the launch; the phase waited for, none until the
  group's arrival is made; D of SSTEP, 0x1FF otherwise -/
  | bar (tok bar : Nat) (phase : Option Nat) (d : BitVec 9)
  /-- queue, first register, the cycle of the issue, and the words that a slot of any size would take -/
  | qpush (tok q a : Nat) (since : W64) (words : List W32)
  | qpop (tok q : Nat) (since : W64) (d : BitVec 9)
  | cvdecl (tok cv : Nat) (mask : W64)
  | mmas (cv : Nat)
  /-- the operation signed for has issued in this cycle (R213) -/
  | signed
  | twait (tok : Nat) (id : W32) (d : BitVec 9)
  /-- `queued` once step 1 of R182 is done: the cycle from which it waits for a slot -/
  | migrate (tok : Nat) (ea : W64) (queued : Option W64)
  | cwait (tok : Nat) (tag : Option W32) (d : BitVec 9) (upto : Nat)
  | idle (tok : Nat) (limit : Option W64)
  | switchpt (point : Nat)
  | fetch (line : W64) (fid : Option W32)
  | opDone (op : Nat)
  deriving DecidableEq, Repr

/-- How a thread came to its PC, for the entry checks of R18: in sequence, by a transfer whose target check is owed, by
ERET to a saved EPC, whose latches its frame keeps (R38), or otherwise without a target check. -/
inductive Arrival where
  | sequence
  | noCheck
  | transfer (source : W64)
  | resume
  deriving DecidableEq, Repr

/-- Thread state (R97, R35, R125, R346, R350). -/
structure Thread where
  pc : W64
  exited : Bool
  meet : W64
  prio : BitVec 4
  blockedUntil : W64
  wait : Wait
  latches : Latches
  /-- p0 to p6 in bits 0 to 6; p7 reads true whatever bit 7 holds (R28). -/
  preds : BitVec 8
  /-- NV DZ OF UF NX in bits 4 to 0 (R125). -/
  fpstat : BitVec 5
  key0 : W32
  key1 : W32
  trav : Trav
  /-- line of the last instruction issued; none makes the next issue an entry (R18). -/
  lastLine : Option W64
  arrival : Arrival
  /-- tick of the last issue (R208). -/
  lastIssue : Nat
  /-- counted issues in which the thread's path was passed over (R209). -/
  passed : Nat
  /-- the path was demoted by YIELD (R107). -/
  demoted : Bool
  deriving DecidableEq, Repr

/-! ### Groups -/

/-- The thread control state a trap saves (R423). -/
structure TrapFrame where
  threads : List Thread
  /-- home lanes of the trapping path; zero for a deferred trap. -/
  path : W64
  /-- tick of the entry: operations from this identifier on are the handler's. -/
  since : Nat
  /-- threads that still owe the single step of an earlier ERET (R427). -/
  step : W64
  deriving DecidableEq, Repr

/-- One of a group's 16 command slots (R184, R186). STATE is 0 free, 1 queued, 2 running, 3 DONE; `performed` says that
the command's effects are made and its code known, `w` is the apply TIME of its last write (R267). -/
structure CmdSlot where
  tag : W32
  st : Nat
  code : Byte
  /-- tick at which the slot was freed: the least recently freed slot is reused first -/
  freed : Nat
  /-- tick of the issue -/
  tick : Nat
  pc : W64
  instr : Instr
  a : W64
  b : W64
  c : W64
  /-- where a paused command goes on: row and byte of the row (R190) -/
  row : Nat
  off : Nat
  /-- the open record of its fault -/
  fid : Option W32
  /-- an earlier record of the command was serviced (R374) -/
  again : Bool
  /-- address of a write that waits for its page's frame chain to shorten (R224) -/
  depth : Option W64
  performed : Bool
  w : W64
  /-- the round of a collective command that has arrived, and its deadline (R453, R454, R466) -/
  round : Option Nat
  deadline : W64
  /-- the group that a HALO's header names, once it is read (R465) -/
  group : Option Nat
  /-- the number of the round that it belongs to (R453) -/
  num : Option Nat
  /-- its arrival has been sent to the members: its group's earlier stores had completed (R453) -/
  told : Bool
  /-- the destination and the bytes that it writes, once they are folded (R453) -/
  data : Option (Nat × List Byte)
  deriving DecidableEq, Repr

/-- A fence or acquire that holds the group's later work (R155, R160, R161).
`mask` is the consumer mask of FENCEX; 0xFF holds every path. -/
structure Hold where
  id : Nat
  ord : BitVec 2
  scope : BitVec 3
  producers : BitVec 8
  consumers : BitVec 8
  deriving DecidableEq, Repr

/-- A destination register still pending (R152): operand code and home lanes. -/
structure Pend where
  op : Nat
  reg : Nat
  lanes : W64
  deriving DecidableEq, Repr

/-- A trap waiting for the group's next instruction boundary (R422). -/
structure DefTrap where
  op : Nat
  cause : Byte
  epc : W64
  faddr : W64
  finfo : W32
  entry : Option Nat
  /-- stalled path of a fetch fault under a TRAP action, whose trap has a trapping path (R377); zero otherwise -/
  path : W64
  deriving DecidableEq, Repr

/-- An MMAS round (R295): the recorded fields and the home lanes that have signed with their addresses. -/
structure MmasRound where
  cv : Nat
  x : XForm
  signers : W64
  firstPc : W64
  deriving DecidableEq, Repr

/-- A register tier (R318). -/
inductive Tier where
  | active
  | pending
  | parked
  deriving DecidableEq, Repr

/-- A landing of a migrated group: core and slot (R392). -/
structure Landing where
  core : Nat
  slot : Nat
  deriving DecidableEq, Repr

/-- Group state. -/
structure Group where
  gid : Nat
  wid : Nat
  grp : Nat
  gslot : Nat
  ipart : Nat
  width : Nat
  threads : List Thread
  /-- v registers: index 256 × lane + n (R29). -/
  vregs : Cells 32
  sregs : Cells 64
  /-- v registers, indexed as in `vregs`, and s registers that fail their parity check (R256); a write ends the failure. -/
  badV : List Nat
  badS : List Nat
  inh : Bool
  deferred : Bool
  stepFlag : Bool
  blv : BitVec 2
  lvl : BitVec 2
  cause : Byte
  epc : W64
  faddr : W64
  finfo : W32
  oplogTv : Bool
  oplogTent : BitVec 5
  asid : BitVec 16
  viewcur : W64
  cvs : Cells 64
  mmas : List MmasRound
  ch : W64
  /-- largest lease record of the lines that engine operations of the group wrote (R267). -/
  eh : W64
  /-- latest apply TIME of the group's TST writes (R267). -/
  tw : W64
  /-- tick of the last event that ends an IDLE (R195). -/
  wakeTick : Nat
  /-- the cycle since which the group has been stalled on a full reservation table (R325). -/
  mxStall : Option W64
  /-- the point of the latest SWITCHPT that the group reached without a pending order, and its cycle (R110, R301). -/
  atSwitch : Option (Nat × W64)
  /-- tick of the last fault-queue service for the group (R195). -/
  serviceTick : Nat
  cmds : List CmdSlot
  cmdSeq : BitVec 28
  /-- the code kept for CWAIT of all, and the tick of the command that it is of (R189). -/
  keptCode : Byte
  keptTick : Nat
  pend : List Pend
  holds : List Hold
  traps : List DefTrap
  frame : Option TrapFrame
  /-- threads that take the single step of R427. -/
  stepPath : W64
  landing : Option Landing
  landDie : Option Nat
  /-- the cycle from which a saved group waits to land again (R392, R394) -/
  landSince : W64
  tier : Tier
  tierSince : W64
  notIssuableSince : W64
  passed : Nat
  lastIssue : Nat
  stopped : Bool
  retired : Bool
  /-- a passed-over path issues at the group's next issue (R209) -/
  forced : Bool
  /-- the group issues at the partition's next issue (R321) -/
  starved : Bool
  deriving DecidableEq, Repr

/-! ### Workgroups, clusters, launches -/

/-- A barrier (R169): phases completed so far, the count fixed by the first arrival, group arrivals of the open phase
as (group, tick), arrivals made for the next phase as (group, tick, n), per-thread marks of groups that have not arrived
yet, and the n each such group named first. -/
structure Barrier where
  phase : Nat
  count : Option Nat
  arrived : List (Nat × Nat)
  next : List (Nat × Nat × Nat)
  marks : List (Nat × W64)
  firstN : List (Nat × Nat)
  deriving DecidableEq, Repr

/-- A tile: its bits, its scale array as differences from 0x7F, its shape (R280, R282). -/
structure Tile where
  bits : Nat
  /-- entry e holds its E8M0 code XOR 0x7F, so that an unlisted entry reads 0x7F. -/
  scales : Cells 8
  tsh : W32
  deriving DecidableEq, Repr

/-- A pending variant order (R314). -/
structure SwitchOrder where
  target : Nat
  deriving DecidableEq, Repr

/-- Workgroup state. -/
structure Workgroup where
  wid : Nat
  lid : Nat
  cid : Nat
  index : Nat
  wgx : Nat
  wgy : Nat
  wgz : Nat
  cwg : Nat
  /-- the core it is placed on; none while it is saved (R429). -/
  core : Option Nat
  variant : Nat
  ngrp : Nat
  prio : BitVec 3
  bars : List Barrier
  scratch : Cells 8
  scratchSize : Nat
  tiles : List Tile
  order : Option SwitchOrder
  /-- cause and code that ended it (R195, R426). -/
  ended : Bool
  retired : Bool
  savedTick : Nat
  deriving DecidableEq, Repr

/-- Cluster state (R171, R174). -/
structure Cluster where
  cid : Nat
  lid : Nat
  index : Nat
  cbars : List Barrier
  qbs : List W64
  /-- (queue, gid, allowance counter). -/
  allow : List (Nat × Nat × Nat)
  /-- for each queue, the pushers of the occupied slots, oldest first. -/
  pushers : List (List Nat)
  /-- scratchpad and offset of slot 0 of each declared queue: (queue, workgroup, offset). -/
  qslots : List (Nat × Nat × Nat)
  /-- cycle of the latest write of a queue's register under waiters: they look at it again in the next one (R196, R387). -/
  qbSet : List (Nat × W64)
  deriving DecidableEq, Repr

/-- A launch or task record (R179, R441). -/
structure LaunchRec where
  kobj : W64
  args : W64
  nx : Nat
  ny : Nat
  nz : Nat
  reads : List (Nat × Nat)
  writes : List (Nat × Nat)
  k : Nat
  asid : BitVec 16
  ngrp : List Nat
  fpctl : W32
  viewcur : W64
  tvec : W64
  user : W64
  fromHost : Bool
  malformed : Bool
  deriving DecidableEq, Repr

/-- An entry of a VF's launch queue (R383, R385); `after` holds the ids it is ordered after, `entered` the cycle of its
entry (R310). -/
structure QEntry where
  vf : Nat
  id : W32
  level : Nat
  record : LaunchRec
  after : List W32
  entered : W64
  admitted : Bool
  /-- group whose LAUNCH created it (R195). -/
  creator : Option Nat
  /-- TIME at which the host's earlier writes have completed at system scope; 0 when it follows none (R262, R267). -/
  lease : W64
  /-- the firmware's own service created it: its base level is 2 (R418). -/
  firmware : Bool
  deriving DecidableEq, Repr

/-- The status of a finished task (R181). -/
structure TaskDone where
  vf : Nat
  id : W32
  status : Byte
  creator : Option Nat
  tick : Nat
  deriving DecidableEq, Repr

/-- An admitted launch. -/
structure Launch where
  lid : Nat
  vf : Nat
  id : W32
  part : Nat
  level : Nat
  record : LaunchRec
  fpctl : W32
  /-- base level (R418). -/
  baseLevel : BitVec 2
  superstep : W32
  sstep : Barrier
  status : Byte
  deriving DecidableEq, Repr

/-- A variant descriptor (R307). -/
structure Variant where
  entry : Nat
  regs : Nat
  tiles : Nat
  tngrp : Nat
  scratch : Nat
  mxmin : List Nat
  deriving DecidableEq, Repr

/-- A switch-map entry (R309). -/
structure SwitchEnt where
  point : Nat
  kind : Nat
  locs : List Nat
  abs : BitVec 8
  deriving DecidableEq, Repr

/-- A loaded code object (R306). -/
structure CodeObj where
  asid : BitVec 16
  kobj : W64
  width : Nat
  modsel : Bool
  vmask : BitVec 8
  variants : List Variant
  switches : List SwitchEnt
  /-- SWITCHPT instructions of each variant: (variant, point, byte offset from the object base) (R309). -/
  points : List (Nat × Nat × Nat)
  deriving DecidableEq, Repr

/-! ### Outstanding memory operations and the operand log -/

/-- A Memory-class fault met by a lane (R152, R368). -/
structure LaneFault where
  cause : Byte
  reason : Nat
  s2 : Bool
  wr : Bool
  addr : W64
  gpa : W64
  fset : Option Nat
  info : W32
  deriving DecidableEq, Repr

/-- Where a lane's access stands. `waiting` marks a LAUNCH lane without a queue entry. -/
inductive LaneStage where
  | todo
  | waiting
  | logged (f : LaneFault)
  deriving DecidableEq, Repr

/-- One lane of an outstanding operation with the source values it read (R370). -/
structure LaneReq where
  lane : Nat
  addr : W64
  data : BitVec 128
  cmp : BitVec 128
  view : W64
  srcs : List W32
  stage : LaneStage
  deriving DecidableEq, Repr

/-- Where an operation stands in the operand log (R369, R374): nothing reported, a record open, owned by the handler, or
allowed to replay. -/
inductive LogState where
  | raised
  | reported
  | handler
  | replay
  deriving DecidableEq, Repr

/-- An outstanding operation of the load-store unit, the deque unit, the launch path or the traversal engine, and the
operand-log entry it holds (R369, R370). -/
structure MemOp where
  id : Nat
  gid : Nat
  core : Nat
  ipart : Nat
  entry : Nat
  pc : W64
  instr : Instr
  asid : BitVec 16
  scratch : Bool
  /-- home lanes of the issuing path. -/
  path : W64
  /-- a load that DROP or PROMOTE met in flight allocates no line (R163, R166). -/
  noAlloc : Bool
  lanes : List LaneReq
  fid : Option W32
  log : LogState
  /-- the cycle of its issue (R388) -/
  since : W64
  /-- the issue that it is of, and that issue is of a formed issue group (R386, R390) -/
  agg : Nat
  joint : Bool
  /-- what the registers that its lanes have written held before: index 256 × lane + n of a v register, 2^16 + n of an s register
  (R428) -/
  undo : List (Nat × W64)
  deriving DecidableEq, Repr

/-- A write acknowledgement on its way to the group, with the write completion time w (R246, R248). -/
structure Ack where
  id : Nat
  gid : Nat
  op : Nat
  core : Nat
  asid : Nat
  line : Nat
  w : W64
  system : Bool
  deriving DecidableEq, Repr

/-! ### Caches, directory, translation -/

/-- A scope record (R269). -/
structure ScopeRec where
  valid : Bool
  sc : BitVec 3
  core : Nat
  die : Nat
  wid : Nat
  cid : Nat
  gid : Nat
  deriving DecidableEq, Repr

/-- An L1 line with its lease expiry (R244). -/
structure L1Line where
  core : Nat
  asid : Nat
  line : Nat
  data : LineData
  poison : BitVec 8
  expiry : W64
  scope : ScopeRec
  deriving DecidableEq, Repr

/-- A line in a path cache of a core: path 2 the gather cache, 3 a tile-load buffer, 4 the node cache (R161). -/
structure PathLine where
  path : Nat
  core : Nat
  asid : Nat
  line : Nat
  data : LineData
  poison : BitVec 8
  deriving DecidableEq, Repr

/-- A lane of a traversal operation in progress: its engine state, once it has begun, and granules that it has read ahead, as
(address ÷ 8, bytes) (R344, R349). -/
structure TravRun where
  op : Nat
  lane : Nat
  walk : Option TravWalk
  seen : List (Nat × List Byte)
  deriving DecidableEq, Repr

/-- Directory states (R249). -/
inductive DirState where
  | i
  | s
  | e
  | m
  | o
  deriving DecidableEq, Repr

/-- Requests that reach a directory (R250); GetS and GetM name the requesting die. -/
inductive DirReq where
  | getS (die : Nat)
  | getM (die : Nat)
  | readMiss
  | recall
  deriving DecidableEq, Repr

/-- A request in progress at a busy line: the dies still to report and the dies that answered gone (R249, R252). -/
structure Busy where
  req : DirReq
  waitFor : List Nat
  gone : List Nat
  deriving DecidableEq, Repr

/-- A home-cache line (R245, R249). `way` 32 is no way of the set but its fill buffer (log entry 23); `queue` holds the
requests not yet begun, each with the cycle of its arrival. -/
structure HomeLine where
  asid : Nat
  line : Nat
  die : Nat
  way : Nat
  data : LineData
  dirty : BitVec 8
  poison : BitVec 8
  backing : Nat
  dir : DirState
  sv : BitVec 4
  owner : Nat
  lr : W64
  scope : ScopeRec
  busy : Option Busy
  queue : List (W64 × DirReq)
  deriving DecidableEq, Repr

/-- A remote-data-cache line; its state is s, e, m or o (R249). `way` 16 is the fill buffer of its set. -/
structure RdcLine where
  die : Nat
  asid : Nat
  line : Nat
  way : Nat
  st : DirState
  data : LineData
  poison : BitVec 8
  gr : W64
  scope : ScopeRec
  deriving DecidableEq, Repr

/-- A replacement notice in flight (R251). -/
structure Notice where
  die : Nat
  asid : Nat
  line : Nat
  st : DirState
  data : LineData
  poison : BitVec 8
  gr : W64
  scope : ScopeRec
  deriving DecidableEq, Repr

/-- A combined TLB entry (R362). -/
structure TlbEnt where
  die : Nat
  ctl : Nat
  asid : Nat
  page : Nat
  size : Nat
  hpa : Nat
  w : Bool
  x : Bool
  trk : Bool
  deriving DecidableEq, Repr

/-- An entry of a stage's tables, held under its level and the address bits that index it from the root on (R359, R360). It
lies at the table that the entry above it, or the root, names. -/
structure Pte where
  level : Nat
  index : Nat
  word : W64
  deriving DecidableEq, Repr

/-- An ASID context (R358). `root` is the guest-physical root of its stage-1 table. -/
structure AsidCtx where
  asid : Nat
  part : Nat
  vf : Nat
  root : W64
  len : BitVec 13
  regions : Cells 32
  table : List Pte
  deriving DecidableEq, Repr

/-- A partition (R402, R439). `root` is the host-physical root of its stage-2 table (R358). -/
structure Partition where
  num : Nat
  parent : Nat
  keyGen : Nat
  area : Nat
  areaFrames : Nat
  root : Nat
  table : List Pte
  overruns : W32
  excessUs : W32
  /-- delay in ns that the partition still owes at its next entry (R413). -/
  carry : Nat
  rotating : Bool
  deriving DecidableEq, Repr

/-- Frame states of a tracked page (R221). -/
inductive FrameState where
  | current
  | retained
  | released
  deriving DecidableEq, Repr

/-- A frame of a tracked page (R221); `stop` is the end step of a retained frame. -/
structure Frame where
  hpa : Nat
  base : W32
  bitmap : BitVec 1024
  state : FrameState
  stop : Option W32
  deriving DecidableEq, Repr

/-- A tracked page with its frame chain, newest first (R221). -/
structure TrackedPage where
  part : Nat
  fset : Nat
  asid : Nat
  page : Nat
  gpa : Nat
  frames : List Frame
  deriving DecidableEq, Repr

/-- A field set (R218, R219). -/
structure FieldSet where
  part : Nat
  num : Nat
  ranges : List (Nat × Nat)
  wstep : W32
  pool : List Nat
  holds : List (W32 × Nat)
  deriving DecidableEq, Repr

/-- A frame that has left its chain and waits to be unpinned: where it then goes, and the untracked stage-1 leaves that pin
it, as (ASID, level, index); `fset` none is the partition's free memory (R231, R233). -/
structure PinnedFrame where
  part : Nat
  fset : Option Nat
  hpa : Nat
  pins : List (Nat × Nat × Nat)
  deriving DecidableEq, Repr

/-! ### Matrix engines -/

/-- A reservation-table entry (R325, R326) with the operands and shapes read at entry (R323). -/
structure MxEntry where
  id : Nat
  /-- the cycle of its core in which it entered (R326). -/
  entered : W64
  quad : Nat
  core : Nat
  gid : Nat
  gslot : Nat
  age : Nat
  granted : Bool
  pc : W64
  instr : Instr
  shapeD : W32
  shapeA : W32
  shapeB : W32
  vals : List W64
  words : List W32
  deriving DecidableEq, Repr

/-- A formed issue group (R210): members as (gid, home lane). -/
structure Formed where
  igid : W32
  /-- the first cycle of its core in which it may issue (R210) -/
  start : W64
  wid : Nat
  members : List (Nat × Nat)
  deriving DecidableEq, Repr

/-! ### Slot table -/

/-- A partition entry of a row (R405). -/
structure RowEnt where
  part : Nat
  donTo : Option Nat
  hcw : W32
  rdcw : BitVec 16
  hbms : Nat
  uls : Nat
  deriving DecidableEq, Repr

/-- A slot-table row (R404); `none` in qmap is an idle quad. -/
structure Row where
  durUs : Nat
  qmap : List (Option Nat)
  ents : List RowEnt
  deriving DecidableEq, Repr

/-- The progress of a slot edge on one quad (R409). -/
inductive Edge where
  | running
  | stopped
  | quiesced
  | saved
  deriving DecidableEq, Repr

/-- A quad as the sequencer sees it: its owner now, its edge progress, the time until which it is idle, donation. -/
structure QuadState where
  owner : Option Nat
  edge : Edge
  idleUntil : W64
  idleSince : W64
  donor : Option Nat
  /-- the partition that leaves, or last left, the quad, and the boundary at which it leaves (R409) -/
  leaver : Option Nat
  bound : W64
  /-- the cycle in which that boundary passed while contexts were still to be saved (R398) -/
  crossed : W64
  overran : Bool
  deriving DecidableEq, Repr

/-- A new table or new parents waiting for its boundary (R415, R438). -/
structure PendingTable where
  head : CmdHead
  rows : List Row
  children : List (Nat × Nat)
  accepted : W64
  deriving DecidableEq, Repr

/-- Deferred commands other than a table change (R438). -/
inductive Deferred where
  | partDelete (h : CmdHead) (part : Nat) (accepted : W64)
  | keyRotate (h : CmdHead) (part : Nat) (accepted : W64)
  deriving DecidableEq, Repr

/-- A command that has evicted lines and takes effect once TIME passes their largest lease record; accesses to its ranges, as
(ASID, first address, end), wait until then (R241, R367, R438). -/
structure FwWait where
  head : CmdHead
  cmd : Instr
  shut : List (Nat × Nat × Nat)
  lease : W64
  deriving DecidableEq, Repr

/-! ### Host interface -/

/-- A fault-queue record (R373). -/
structure FaultRec where
  fid : W32
  cause : Byte
  reason : Byte
  kind : Byte
  flags : Byte
  va : W64
  gpa : W64
  lanes : W64
  asid : BitVec 16
  part : Byte
  core : Byte
  gslot : Byte
  entry : Byte
  fset : BitVec 16
  epc : W64
  time : W64
  tag : W32
  deriving DecidableEq, Repr

/-- What an open FID refers to (R374). -/
inductive FidRef where
  | op (id : Nat)
  | command (gid slot : Nat)
  | fetch (gid : Nat) (line : W64) (finfo : W32)
  deriving DecidableEq, Repr

/-- A function: 0 is the PF. Register block of R435, binding, rings and queues. -/
structure Func where
  fn : Nat
  bound : Option Nat
  cqBase : W64
  cqCfg : W32
  cqPi : BitVec 16
  cqCi : BitVec 16
  cpBase : W64
  cpCfg : W32
  cpCi : BitVec 16
  cpPi : BitVec 16
  lqPi : List (BitVec 16)
  lqCi : List (BitVec 16)
  fqPi : W32
  fqCi : W32
  apAsid : BitVec 16
  apBase : W64
  /-- the addresses that configuration writes gave BAR0 and BAR2 (R434) -/
  bar0 : W64
  bar2 : W64
  fstat : BitVec 2
  resetting : Bool
  /-- commands submitted and not yet taken, in ring order. -/
  cmds : List (List Byte)
  fqRing : W64
  fqLog : Nat
  heldRecs : List FaultRec
  nextFid : W32
  openFids : List (W32 × FidRef)
  lqMade : Bool
  lqBase : W64
  lqLog : Nat
  lqSubmitted : List (Nat × Nat)
  lcRing : W64
  lcLog : Nat
  lcPi : BitVec 16
  /-- entries of the launch completion ring that the host has taken, and entries that wait for room: id, status, USER (R442) -/
  lcCi : BitVec 16
  lcHeld : List (W32 × Nat × W64)
  nextId : W32
  deriving DecidableEq, Repr

/-- A message that leaves the package: a management response (R448, R449, kinds below 0x200), UALink traffic that the
collective engines and the peer port send (R453, R454, R461, R462, R466), or a PCIe read completion (R434, R436, kinds
from 0x300). -/
structure MgmtMsg where
  kind : Nat
  body : List Byte
  deriving DecidableEq, Repr

/-! ### Multi-package -/

/-- An announcement of a member: its station, rank and member count, and whether it conflicted when it came (R462). -/
structure Announced where
  station : BitVec 10
  rank : Nat
  members : Nat
  conflicts : Bool
  deriving DecidableEq, Repr

/-- A row of a HALO that has left and is not acknowledged: the round, the neighbour, the command, the port, and what it
writes in the neighbour's window (R460, R465, R466). -/
structure PeerSend where
  part : Nat
  group : Nat
  round : Nat
  rank : Nat
  gid : Nat
  slot : Nat
  port : Nat
  addr : Nat
  data : List Byte
  deriving DecidableEq, Repr

/-- A collective membership (R462). -/
structure CollGroup where
  part : Nat
  group : Nat
  rank : Nat
  members : Nat
  timeoutMs : Nat
  wasid : Nat
  wbase : Nat
  wlen : Nat
  /-- what each member announced, this one first. -/
  announced : List Announced
  conflicted : Bool
  /-- commands issued so far per kind and offset, for the round numbers (R453, R464, R466). -/
  issued : List (Nat × W64 × Nat)
  deriving DecidableEq, Repr

/-- A round of a collective group (R453, R454, R466): its arrivals, whether it is closed, and whether it completed; what
came in this cycle and counts at its end: a closure, the own timeout (R458); a member has left while it was in progress
(R467); a HALO's sends are all made, refusals, reports. -/
structure Round where
  part : Nat
  group : Nat
  kind : Nat
  off : W64
  num : Nat
  arrivals : List ArrivalMsg
  closed : Bool
  ok : Bool
  closing : Bool
  expired : Bool
  dead : Bool
  sent : Bool
  refusedAcks : List Nat
  reported : List Nat
  deriving DecidableEq, Repr

/-! ### Reset, boot, health -/

/-- One boot-record entry (R471). -/
structure BootEntry where
  boot : W32
  step : Byte
  out : Byte
  unit : BitVec 16
  set : W32
  time : W32
  deriving DecidableEq, Repr

/-- A boot in progress (R469): what its steps find, whether it is a cold one, the steps and units still to run, the
alternative of a retry at once, and what has been seen: a marked step, a unit with an alternative or left out. -/
structure BootRun where
  results : BootResults
  cold : Bool
  todo : List (Nat × Nat)
  retry : Option Nat
  marked : Bool
  degraded : Bool
  deriving DecidableEq, Repr

/-- Values fixed by fuses (R5, R284, R447). No event changes them (R332). -/
structure Fuses where
  /-- M64, M32, M16, M8, M4 of each quad. -/
  mxcap : List (List Nat)
  fusedOff : BitVec 256
  secVersion : Nat
  pqReq : Bool
  deriving DecidableEq, Repr

/-- One compute die and its base die. -/
structure Die where
  time : W64
  synced : Bool
  /-- when synchronisation was lost (R242, R474) -/
  lostAt : W64
  /-- sixteenths by which the arithmetic clock is lowered (R475) -/
  clockSteps : Nat
  tempC : BitVec 16
  corrected : W64
  uncorrected : W64
  deriving DecidableEq, Repr

/-- One core: CYCLE, the back-off register, the formation count modulo 0xFF00 (R210), and for each issue partition the
first cycle in which it may issue again (R203, R204). -/
structure Core where
  cycle : W64
  lfsr : W32
  formed : BitVec 16
  free : List W64
  deriving DecidableEq, Repr

/-- The part of an issue that one architectural group carries. -/
structure Part where
  gid : Nat
  /-- home lanes of the issuing path. -/
  mask : W64
  /-- lane offset in a packed issue (R206). -/
  offset : Nat
  deriving DecidableEq, Repr

/-- The issue being executed: its core, its parts, its address, and what R31 and R68 need. -/
structure Issue where
  /-- the tick of the issue -/
  id : Nat
  core : Nat
  parts : List Part
  pc : W64
  igid : W32
  igsize : Nat
  formed : Bool
  /-- the second instruction of a pair. -/
  second : Bool
  /-- the first instruction of the pair pushed a latch (R68). -/
  pushed : Bool
  /-- latches before the pair, per (gid, lane) (R19). -/
  before : List (Nat × Nat × Latches)
  deriving DecidableEq, Repr

/-- What comes next, chosen by the world outside the model (log entry 3). -/
inductive Turn where
  /-- a step of the table that is not a fetched instruction -/
  | event (i : Instr)
  /-- the partition of the core issues -/
  | issue (core ipart : Nat)
  /-- cycles and nanoseconds pass on every core and die -/
  | advance (cycles ns : Nat)
  /-- the RDC of a die replaces a line (R251) -/
  | rdcEvict (die asid line : Nat)
  /-- a home cache evicts a line (R245) -/
  | homeEvict (asid line : Nat)
  /-- an L1 replaces a line (R244) -/
  | l1Evict (core asid line : Nat)
  /-- a path cache of a core takes a line (R161) -/
  | pathFill (path core asid line : Nat)
  /-- the traversal engine makes its next step for a lane of an operation (R344, R349) -/
  | travStep (op lane : Nat)
  /-- the traversal engine reads an aligned 8-byte granule ahead for a lane of an operation (R349) -/
  | travRead (op lane addr : Nat)
  /-- host software writes its own memory -/
  | hostWrite (addr : Nat) (data : List Byte)
  /-- SPDM messages come by a binding from now on (R449) -/
  | bindTo (bus : MctpBus)
  /-- the host takes entries of a VF's launch completion ring (R442) -/
  | launchRead (vf n : Nat)
  /-- the firmware launches a service of its own through a VF's queue (R418) -/
  | firmLaunch (vf level : Nat) (record : LaunchRec)
  /-- a peer's window changes -/
  | peerWrite (addr : Nat) (data : List Byte)
  /-- a peer's window has a length, or starts or stops refusing requests (R461) -/
  | peerState (key rank len : Nat) (refuses : Bool)
  deriving DecidableEq, Repr

/-- The machine. -/
structure State where
  powered : Bool
  fuses : Fuses
  coreMap : BitVec 256
  dies : List Die
  cores : List Core
  launches : List Launch
  clusters : List Cluster
  wgs : List Workgroup
  groups : List Group
  formed : List Formed
  ops : List MemOp
  acks : List Ack
  mx : List MxEntry
  l1 : List L1Line
  pathLines : List PathLine
  travRuns : List TravRun
  home : List HomeLine
  rdc : List RdcLine
  notices : List Notice
  evictBound : List (Nat × W64)
  tlb : List TlbEnt
  hbm : Cells 8
  /-- key generation plus one under which each 64-byte line is sealed; zero is unsealed (R253, R255). -/
  seals : Cells 32
  poison : List Nat
  /-- scope records kept with lines of HBM: line, ASID, record (R269, R357). -/
  hbmScope : List (Nat × Nat × ScopeRec)
  hostMem : Cells 8
  /-- windows of peers: address 2^49 × (65536 × partition + group) + 2^39 × rank + offset (R461). -/
  peerMem : Cells 8
  /-- peers that refuse requests: (65536 × partition + group, rank) (R461). -/
  peerRefuse : List (Nat × Nat)
  /-- lengths of peers' windows: (65536 × partition + group, rank, length); 2^39 where not listed (R461, R462). -/
  peerLen : List (Nat × Nat × Nat)
  frameOwners : Cells 8
  asids : List AsidCtx
  parts : List Partition
  fsets : List FieldSet
  pages : List TrackedPage
  codes : List CodeObj
  /-- released frames waiting to be unpinned (R231). -/
  pinnedFree : List PinnedFrame
  rows : List Row
  curRow : Nat
  rowStart : W64
  quads : List QuadState
  pendingTable : Option PendingTable
  /-- table changes in force whose leaving quads are not all saved: command and boundary (R415) -/
  tableWait : List (CmdHead × W64)
  deferredCmds : List Deferred
  /-- the immediate command that firmware is about (R241, R438) -/
  fwWait : Option FwWait
  funcs : List Func
  queue : List QEntry
  done : List TaskDone
  nextCmdFn : Nat
  vectors : List (Nat × Nat)
  mgmt : List MgmtMsg
  /-- the binding by which SPDM messages come (R448, R449) -/
  binding : MctpBus
  colls : List CollGroup
  /-- announcements received from other stations: partition, group, announcement (R462) -/
  heard : List (Nat × Nat × Announced)
  /-- groups that a partition has been a member of and has left (R467) -/
  collLeft : List (Nat × Nat)
  rounds : List Round
  /-- rows of HALOs that are not acknowledged, oldest first (R466) -/
  sends : List PeerSend
  portUp : BitVec 16
  bootCount : W32
  bootRecord : List BootEntry
  /-- the boot that runs (R469) -/
  boot : Option BootRun
  /-- a patch image is loaded (R448, R470) -/
  patched : Bool
  /-- a step that only a cold boot runs used an alternative or left a unit out (R470, R473) -/
  earlyDegraded : Bool
  recovery : Bool
  replReq : Bool
  degraded : Bool
  /-- die 0's TIME when the last throttling ended (R473, R475) -/
  throtEnd : Option W64
  /-- HSTAT as the host was last told (R433) -/
  hstat : W32
  hbmRate : List (BitVec 16)
  pcie : BitVec 16
  mchk : W64
  keyGen : Nat
  /-- scratchpad granules that hold a double error: workgroup and offset div 8 (R256). -/
  badScratch : List (Nat × Nat)
  /-- fetch lines whose parity fails again on a refetch: (ASID, line) (R20). -/
  badFetch : List (Nat × Nat)
  /-- apply TIME of the latest host DMA write, and the largest lease record of the lines that host DMA wrote (R267). -/
  dmaW : W64
  dmaLr : W64
  /-- the same of the writes of peers into this package (R161, R267). -/
  peerW : W64
  peerLr : W64
  /-- latest write completion time that each core's stores were acknowledged with: core, ASID, w (R164). -/
  coreW : List (Nat × Nat × W64)
  /-- requests of the load-store units that lines have served in this cycle: ASID, line, place in the order of R249 and R388. -/
  lineTurns : List (Nat × Nat × Nat)
  issue : Issue
  turns : List Turn
  tick : Nat
  freeCtr : Nat
  deriving DecidableEq, Repr

/-! ### Reset -/

/-- A barrier with nothing arrived (R169). -/
def Barrier.fresh : Barrier := ⟨0, none, [], [], [], []⟩

/-- Cleared latches (R37). -/
def Latches.cleared : Latches := ⟨none, none, none, none, 0⟩

/-- No issue in progress. -/
def Issue.idle : Issue := ⟨0, 0, [], 0, 0, 0, false, false, false, []⟩

/-- A scope record of a line never written by a synchronising access (R269). -/
def ScopeRec.none : ScopeRec := ⟨false, 0, 0, 0, 0, 0, 0⟩

/-- Core c after cold reset (R111, R210, R114). -/
def Core.reset (c : Nat) : Core := ⟨0, 0x80000001#32 ^^^ (BitVec.ofNat 32 c <<< 8), 0, [0, 0, 0, 0]⟩

/-- A die after cold reset (R242). -/
def Die.reset : Die := ⟨0, true, 0, 0, 0, 0, 0⟩

/-- Fuses of an unharvested part (R3, R284). -/
def Fuses.unharvested : Fuses := ⟨List.replicate 64 [32, 32, 32, 32, 32], 0, 0, false⟩

/-- A function with nothing bound and every register zero (R435). -/
def Func.reset (fn : Nat) : Func :=
  ⟨fn, none, 0, 0, 0, 0, 0, 0, 0, 0, List.replicate 8 0, List.replicate 8 0, 0, 0, 0, 0, 0, 0, 0, false, [],
   0, 0, [], 0, [], false, 0, 0, [], 0, 0, 0, 0, [], 0⟩

/-- A quad that no partition holds. -/
def QuadState.idle : QuadState := ⟨none, .running, 0, 0, none, none, 0, 0, false⟩

/-- The one idle row of 1,000 µs (R444, R468). -/
def Row.idle : Row := ⟨1000, List.replicate 64 none, []⟩

/-- The machine after cold reset and boot (R468, R470). -/
def State.reset : State where
  powered := true
  fuses := Fuses.unharvested
  coreMap := BitVec.allOnes 256
  dies := List.replicate 4 Die.reset
  cores := (List.range 256).map Core.reset
  launches := []
  clusters := []
  wgs := []
  groups := []
  formed := []
  ops := []
  acks := []
  mx := []
  l1 := []
  pathLines := []
  travRuns := []
  home := []
  rdc := []
  notices := []
  evictBound := []
  tlb := []
  hbm := []
  seals := []
  poison := []
  hbmScope := []
  hostMem := []
  peerMem := []
  peerRefuse := []
  peerLen := []
  frameOwners := []
  asids := []
  parts := []
  fsets := []
  pages := []
  codes := []
  pinnedFree := []
  rows := [Row.idle]
  curRow := 0
  rowStart := 0
  quads := List.replicate 64 QuadState.idle
  pendingTable := none
  tableWait := []
  deferredCmds := []
  fwWait := none
  funcs := [Func.reset 0]
  queue := []
  done := []
  nextCmdFn := 0
  vectors := []
  mgmt := []
  binding := .pcieVdm
  colls := []
  heard := []
  collLeft := []
  rounds := []
  sends := []
  portUp := BitVec.allOnes 16
  bootCount := 1
  bootRecord := []
  boot := none
  patched := false
  earlyDegraded := false
  recovery := false
  replReq := false
  degraded := false
  throtEnd := none
  hstat := 0
  hbmRate := List.replicate 16 11000
  pcie := 0x1080
  mchk := 0
  keyGen := 0
  badScratch := []
  badFetch := []
  dmaW := 0
  dmaLr := 0
  peerW := 0
  peerLr := 0
  coreW := []
  lineTurns := []
  issue := Issue.idle
  turns := []
  tick := 0
  freeCtr := 0

end Sys2Proof.Machine
end

