-- ==== Sys2Proof/Machine/Operands.lean ====
section
/-! DEFINITION. Looking up the units of the machine, the context in which one architectural group executes an issued
instruction, and every way an operand is read or written (R28 to R42, R71, R96). -/

namespace Sys2Proof.Machine

/-! ### Units -/

/-- The group of an identifier. -/
def State.group? (s : State) (gid : Nat) : Option Group := s.groups.find? (fun g => g.gid == gid)

/-- Replaces a group by f of it. -/
def State.modGroup (s : State) (gid : Nat) (f : Group → Group) : State :=
  { s with groups := s.groups.map (fun g => if g.gid = gid then { f g with gid := gid } else g) }

/-- The workgroup of an identifier. -/
def State.wg? (s : State) (wid : Nat) : Option Workgroup := s.wgs.find? (fun w => w.wid == wid)

/-- Replaces a workgroup by f of it. -/
def State.modWg (s : State) (wid : Nat) (f : Workgroup → Workgroup) : State :=
  { s with wgs := s.wgs.map (fun w => if w.wid = wid then { f w with wid := wid } else w) }

/-- The cluster of an identifier. -/
def State.cluster? (s : State) (cid : Nat) : Option Cluster := s.clusters.find? (fun c => c.cid == cid)

/-- Replaces a cluster by f of it. -/
def State.modCluster (s : State) (cid : Nat) (f : Cluster → Cluster) : State :=
  { s with clusters := s.clusters.map (fun c => if c.cid = cid then { f c with cid := cid } else c) }

/-- The launch of an identifier. -/
def State.launch? (s : State) (lid : Nat) : Option Launch := s.launches.find? (fun l => l.lid == lid)

/-- Replaces a launch by f of it. -/
def State.modLaunch (s : State) (lid : Nat) (f : Launch → Launch) : State :=
  { s with launches := s.launches.map (fun l => if l.lid = lid then { f l with lid := lid } else l) }

/-- The core of a number. -/
def State.core? (s : State) (c : Nat) : Option Core := s.cores[c]?

/-- CYCLE of a core. -/
def State.cycle (s : State) (c : Nat) : W64 := match s.cores[c]? with
  | some k => k.cycle
  | none => 0

/-- TIME on a die (R242). -/
def State.time (s : State) (d : Nat) : W64 := match s.dies[d]? with
  | some k => k.time
  | none => 0

/-- The die of a core (R192). -/
def dieOf (core : Nat) : Nat := core / 64

/-- The quad of a core (R192). -/
def quadOf (core : Nat) : Nat := core / 4

/-- The code object of a launch (R306). -/
def State.codeOf (s : State) (l : Launch) : Option CodeObj :=
  s.codes.find? (fun c => c.asid == l.record.asid && c.kobj == l.record.kobj)

/-- Variant k of a code object; variants are listed in the order of VMASK's bits (R307). -/
def CodeObj.variant? (c : CodeObj) (k : Nat) : Option Variant :=
  if c.vmask.getLsbD k then c.variants[((List.range k).filter c.vmask.getLsbD).length]? else none

/-- The running variant of a workgroup (R307). -/
def State.variantOf (s : State) (w : Workgroup) : Option Variant :=
  ((s.launch? w.lid).bind s.codeOf).bind (fun c => c.variant? w.variant)

/-- The core a group issues on: its landing core, or its workgroup's (R182); none while it is saved (R394, R414). -/
def State.coreOf (s : State) (g : Group) : Option Nat :=
  match g.landing, g.landDie with
  | some l, _ => some l.core
  | none, some _ => none
  | none, none => (s.wg? g.wid).bind (·.core)

/-- The group is placed on a core, neither saved nor waiting to land again (R394, R414). -/
def State.resident (s : State) (gid : Nat) : Bool := (s.group? gid).any (fun g => (s.coreOf g).isSome)

/-! ### The context of an execution -/

/-- One architectural group's part of an issue with everything it reads. -/
structure Ctx where
  s : State
  g : Group
  w : Workgroup
  la : Launch
  code : CodeObj
  vd : Variant
  part : Part
  i : Instr
  sh : Shape
  f : Form

/-- The context of a part of the current issue; none when the group, its code or the word's fields are missing. -/
def mkCtx (s : State) (i : Instr) (p : Part) : Option Ctx := do
  let g ← s.group? p.gid
  let w ← s.wg? g.wid
  let la ← s.launch? w.lid
  let code ← s.codeOf la
  let vd ← code.variant? w.variant
  let sh ← i.shape
  let (_, f) ← i.form
  some ⟨s, g, w, la, code, vd, p, i, sh, f⟩

/-- Bit h of a lane mask. -/
def laneIn (m : W64) (h : Nat) : Bool := m.getLsbD h

/-- The mask of a list of lanes. -/
def maskOf (l : List Nat) : W64 := l.foldl (fun m h => m ||| ((1 : W64) <<< h)) 0

/-- The lanes of a mask below n, in increasing order. -/
def lanesOf (m : W64) (n : Nat) : List Nat := (List.range n).filter (laneIn m)

/-- Thread of a home lane. -/
def Group.thread? (g : Group) (h : Nat) : Option Thread := g.threads[h]?

/-- Replaces the threads of the lanes that satisfy p. -/
def Group.modThreads (g : Group) (p : Nat → Bool) (f : Nat → Thread → Thread) : Group :=
  { g with threads := g.threads.mapIdx (fun h t => if p h then f h t else t) }

/-- Non-exited home lanes. -/
def Group.live (g : Group) : List Nat :=
  (List.range g.threads.length).filter (fun h => match g.threads[h]? with
    | some t => !t.exited
    | none => false)

/-- Predicate pn of a thread; p7 is true (R28). -/
def Thread.pred (t : Thread) (n : Nat) : Bool := n == 7 || t.preds.getLsbD n

/-- Writes predicate pn; p7 discards (R28). -/
def Thread.setPred (t : Thread) (n : Nat) (b : Bool) : Thread :=
  if n = 7 then t
  else { t with preds := if b then t.preds ||| ((1 : BitVec 8) <<< n) else t.preds &&& ~~~((1 : BitVec 8) <<< n) }

/-- A thread's guard holds (R28). -/
def Thread.guard (t : Thread) (gn : BitVec 1) (gp : BitVec 3) : Bool := t.pred gp.toNat != (gn == 1)

/-- Register vn of a lane. -/
def Group.vreg (g : Group) (h n : Nat) : W32 := g.vregs.get (h * 256 + n)

/-- Writes register vn of a lane. -/
def Group.setVreg (g : Group) (h n : Nat) (v : W32) : Group :=
  { g with vregs := g.vregs.set (h * 256 + n) v, badV := g.badV.filter (fun i => i != h * 256 + n) }

/-- Writes v registers by index (R29). -/
def Group.setVregs (g : Group) (l : List (Nat × W32)) : Group :=
  { g with vregs := g.vregs.setAll l, badV := g.badV.filter (fun i => l.all (fun p => p.1 != i)) }

/-- Register sn. -/
def Group.sreg (g : Group) (n : Nat) : W64 := g.sregs.get n

/-- Writes register sn. -/
def Group.setSreg (g : Group) (n : Nat) (v : W64) : Group :=
  { g with sregs := g.sregs.set n v, badS := g.badS.filter (fun i => i != n) }

/-- The latch of an index. -/
def Latches.get (l : Latches) (k : Nat) : Option W64 :=
  match k with
  | 0 => l.l0
  | 1 => l.l1
  | 2 => l.l2
  | _ => l.l3

/-- The latches move down and l0 receives a result, or is cleared (R35, R36). -/
def Latches.push (l : Latches) (r : Option W64) : Latches := ⟨r, l.l0, l.l1, l.l2, l.bad <<< 1⟩

/-- Only l0 stays (R68). -/
def Latches.keepFirst (l : Latches) : Latches := ⟨l.l0, none, none, none, l.bad &&& 1⟩

/-- The latches that an instruction reads: in the second slot of a pair, as they stood before the pair (R19). -/
def Ctx.latches (c : Ctx) (h : Nat) : Latches :=
  let now := match c.g.threads[h]? with
    | some t => t.latches
    | none => Latches.cleared
  if c.s.issue.second then
    match c.s.issue.before.find? (fun e => e.1 == c.g.gid && e.2.1 == h) with
    | some e => e.2.2
    | none => now
  else now

/-- Home lanes of the issuing path. -/
def Ctx.path (c : Ctx) : List Nat := lanesOf c.part.mask c.g.width

/-- Active home lanes, in increasing order (R28). -/
def Ctx.act (c : Ctx) : List Nat :=
  let (gn, gp, _) := c.f.head
  c.path.filter (fun h => match c.g.threads[h]? with
    | some t => t.guard gn gp && !t.exited
    | none => false)

/-- The mask of the active lanes. -/
def Ctx.actMask (c : Ctx) : W64 := maskOf c.act

/-- The address of the instruction. -/
def Ctx.pc (c : Ctx) : W64 := c.s.issue.pc

/-- The core that issues. -/
def Ctx.core (c : Ctx) : Nat := c.s.issue.core

/-- TIME on the issuing core's die. -/
def Ctx.time (c : Ctx) : W64 := c.s.time (dieOf c.core)

/-! ### Reading operands -/

/-- A special value of R31 in home lane h. Through a permutation (R41) it may be one of a home lane that the issue does not carry:
lane is then the group's offset plus that home lane, igid and igsize those of the issue (DESIGN CHOICE, log entry 64). -/
def Ctx.special (c : Ctx) (code h : Nat) : W32 :=
  let n (x : Nat) : W32 := BitVec.ofNat 32 x
  match code with
  | 0x14C => n (c.part.offset + h)
  | 0x14D => n h
  | 0x14E => n c.g.grp
  | 0x14F => n c.w.wgx
  | 0x150 => n c.w.wgy
  | 0x151 => n c.w.wgz
  | 0x152 => n (c.w.index / c.la.record.k)
  | 0x153 => n c.w.cwg
  | 0x154 => n c.core
  | 0x155 => n (dieOf c.core)
  | 0x156 => c.g.viewcur.setWidth 32
  | 0x157 => c.s.issue.igid
  | 0x158 => n c.s.issue.igsize
  | 0x159 => n c.g.width
  | 0x15A => n c.w.variant
  | 0x15B => n c.w.ngrp
  | 0x15C => n c.la.record.nx
  | 0x15D => n c.la.record.ny
  | _ => n c.la.record.nz

/-- Every w-bit element of a 32-bit word holds v. -/
def splat (w v : Nat) : W64 :=
  match w with
  | 16 => BitVec.ofNat 64 (v % 2 ^ 16 * 0x10001)
  | 8 => BitVec.ofNat 64 (v % 2 ^ 8 * 0x1010101)
  | _ => BitVec.ofNat 64 (v % 2 ^ 4 * 0x11111111)

/-- A constant of R32 under a T code. -/
def constVal (t code : Nat) : W64 :=
  if floatT t then
    let v := (fmtT t).const code
    if t = 8 || t = 9 then splat 16 v else BitVec.ofNat 64 v
  else if wideT t then BitVec.ofInt 64 (intConst code)
  else if t = 10 || t = 11 then splat 8 ((BitVec.ofInt 8 (intConst code)).toNat)
  else if t = 12 || t = 13 then splat 4 ((BitVec.ofInt 4 (intConst code)).toNat)
  else (BitVec.ofInt 32 (intConst code)).setWidth 64

/-- IMM expanded under a T code (R34). -/
def immVal (t : Nat) (imm : BitVec 24) : W64 :=
  match t with
  | 0 | 2 => imm.setWidth 64
  | 1 | 3 => imm.signExtend 64
  | 4 => imm.setWidth 64 <<< 8
  | 5 => imm.setWidth 64 <<< 40
  | 6 | 7 => imm.setWidth 64 &&& 0xFFFF
  | 8 | 9 => splat 16 imm.toNat
  | 10 | 11 => splat 8 imm.toNat
  | _ => splat 4 imm.toNat

/-- Zero-extension to the width of a T code: 64 bits or 32. -/
def narrow (t : Nat) (v : W64) : W64 := if wideT t then v else v &&& 0xFFFFFFFF

/-- Element i of a sub-word selection is element `selIdx w sel i` of the source (R40); single 16-bit types have one
element, which is element 0 of the selection. -/
def selIdx (w sel i : Nat) : Nat :=
  match w with
  | 16 => match sel with
    | 0 => i
    | 1 => 1 - i
    | 2 => 0
    | _ => 1
  | 8 => match sel with
    | 0 => i
    | 1 => 3 - i
    | 2 => i ^^^ 1
    | 3 => i ^^^ 2
    | k => k - 4
  | _ => match sel with
    | 0 => i
    | 1 => 7 - i
    | 2 => i ^^^ 1
    | k => k - 8

/-- Applies a sub-word selector under a T code to a 32-bit value (R40). Under F16 and BF16 the value selected has one
element, the bits above which are zero (log entry 14). -/
def subWord (t sel : Nat) (v : W64) : W64 :=
  let w := elemW t
  if w ≥ 32 || sel = 0 then v
  else
    let n := elemN t
    BitVec.ofNat 64 ((List.range n).foldl (fun r i => r + (v.toNat / 2 ^ (w * selIdx w sel i) % 2 ^ w) * 2 ^ (w * i)) 0)

/-- The home lane that lane h reads under a permutation (R41). -/
def permLane (m : BitVec 12) (h : Nat) : Nat :=
  let m := m.toNat
  let sz := 2 ^ (m / 4 % 8 + 1)
  let d := m / 32 % 64
  let b := h - h % sz
  match m % 4 with
  | 1 => b + (h - b + d) % sz
  | 2 => h ^^^ d
  | 3 => b + d
  | _ => h

/-- The home lane that SHFL reads, none outside the segment under .SHIFT (R92). -/
def shflLane (mode seg h n : Nat) : Option Nat :=
  let sz := 2 ^ (seg + 1)
  let b := h - h % sz
  match mode with
  | 0 => some (b + n % sz)
  | 1 => some (b + (h - b + n) % sz)
  | 2 => some (h ^^^ (n % sz))
  | _ =>
    let j : Int := (h : Int) + sext 32 n
    if (b : Int) ≤ j ∧ j < (b + sz : Nat) then some j.toNat else none

/-- The operand of a code at lane h, before any modifier (R29 to R34). A cleared latch reads as zero: an active lane
that reads one never gets here (R37). -/
def Ctx.raw (c : Ctx) (o : Opnd) (code h : Nat) : W64 :=
  if code < 0x100 then
    let lo := (c.g.vreg h code).setWidth 64
    if wideT o.ty then lo ||| ((c.g.vreg h (code + 1)).setWidth 64 <<< 32) else lo
  else if code < 0x140 then narrow o.ty (c.g.sreg (code - 0x100))
  else if code < 0x144 then narrow o.ty (((c.latches h).get (code - 0x140)).getD 0)
  else if code < 0x14C then
    match c.g.threads[h]? with
    | some t => if t.pred (code - 0x144) then 1 else 0
    | none => 0
  else if code < 0x160 then (c.special code h).setWidth 64
  else if code < 0x170 then constVal o.ty code
  else
    match c.f, c.sh.imm with
    | .x x, .r34 => narrow o.ty (immVal o.ity x.imm)
    | _, _ => 0

/-- The code of field k: 0 D, 1 A, 2 B, 3 C. -/
def Ctx.fieldCode (c : Ctx) (k : Nat) : Nat :=
  let (_, _, d) := c.f.head
  let (a, b, cc) := c.f.abc
  (match k with
    | 0 => d
    | 1 => a
    | 2 => b
    | _ => cc).toNat

/-- The use of field k. -/
def Ctx.fieldUse (c : Ctx) (k : Nat) : Use :=
  match k with
  | 0 => c.sh.d
  | 1 => c.sh.a
  | 2 => c.sh.b
  | _ => c.sh.c

/-- The value of field k at lane h with its modifier (R39 to R42). R42 names v, s, constant and immediate sources; a special value or
a predicate takes modifiers as they do (DESIGN CHOICE, log entry 64). -/
def Ctx.val (c : Ctx) (k h : Nat) : W64 :=
  match c.fieldUse k with
  | .opnd o =>
    let code := c.fieldCode k
    match c.f with
    | .x x =>
      if !c.sh.mods then c.raw o code h
      else if c.code.modsel then
        let on := x.m.toNat % 4 != 0 && k = 1 + x.m.toNat / 2048
        c.raw o code (if on then permLane x.m h else h)
      else subWord x.t.toNat (x.m.toNat / 16 ^ (k - 1) % 16) (c.raw o code h)
    | _ => c.raw o code h
  | _ => 0

/-- A uniform operand's value; it is the same in every lane. -/
def Ctx.uval (c : Ctx) (k : Nat) : W64 := c.val k ((c.act.head?).getD 0)

/-- v registers from the code of field k on, at lane h, n of them. -/
def Ctx.vregsAt (c : Ctx) (k h n : Nat) : List W32 :=
  (List.range n).map (fun j => c.g.vreg h (c.fieldCode k + j))

/-- Active lanes that read a cleared latch through field k. -/
def Ctx.staleLanes (c : Ctx) (k : Nat) : List Nat :=
  let code := c.fieldCode k
  match c.fieldUse k with
  | .opnd _ =>
    if 0x140 ≤ code ∧ code < 0x144 then c.act.filter (fun h => ((c.latches h).get (code - 0x140)).isNone) else []
  | _ => []

/-- A read of a cleared latch in an active lane (R37): the latch and field of the first field in the order A, B, C, and
the mask of every lane that reads a cleared latch (R421). -/
def Ctx.stale (c : Ctx) : Option (Nat × Nat × W64) :=
  match [1, 2, 3].find? (fun k => c.staleLanes k != []) with
  | some k => some (c.fieldCode k - 0x140, k, maskOf ([1, 2, 3].flatMap c.staleLanes))
  | none => none

/-! ### Element access -/

/-- Element i of a value under a T code, as a number. -/
def elemNat (t i : Nat) (v : W64) : Nat := v.toNat / 2 ^ (elemW t * i) % 2 ^ elemW t

/-- Element i of a value under a T code, as the integer its signedness gives (R43). -/
def elemInt (t i : Nat) (v : W64) : Int := if signedT t then sext (elemW t) (elemNat t i v) else (elemNat t i v : Nat)

/-- A value built from its elements under a T code, each taken modulo its width. -/
def ofElems (t : Nat) (f : Nat → Nat) : W64 :=
  BitVec.ofNat 64 ((List.range (elemN t)).foldl (fun r i => r + (f i % 2 ^ elemW t) * 2 ^ (elemW t * i)) 0)

/-- An integer modulo 2^w as a number. -/
def intMod (w : Nat) (x : Int) : Nat := (BitVec.ofInt w x).toNat

/-- Smallest and largest integer of a T code (R74). -/
def loT (t : Nat) : Int := if signedT t then -(2 ^ (elemW t - 1) : Nat) else 0
def hiT (t : Nat) : Int := if signedT t then (2 ^ (elemW t - 1) : Nat) - 1 else (2 ^ elemW t : Nat) - 1

/-! ### Writing destinations -/

/-- The writes of a value to vn (and v(n+1) for a pair) of lane h. -/
def vWrites (wide : Bool) (h n : Nat) (v : W64) : List (Nat × W32) :=
  if wide then [(h * 256 + n, v.setWidth 32), (h * 256 + n + 1, (v >>> 32).setWidth 32)]
  else [(h * 256 + n, v.setWidth 32)]

/-- Writes per-lane values to the D code: a v register in each lane, a predicate's bit 0, an s register from the first
value, or nothing (R29, R33). -/
def Group.writeDest (g : Group) (wide : Bool) (code : Nat) (vals : List (Nat × W64)) : Group :=
  if code < 0x100 then
    g.setVregs (vals.flatMap (fun p => vWrites wide p.1 code p.2))
  else if code < 0x140 then
    match vals with
    | [] => g
    | p :: _ => g.setSreg (code - 0x100) p.2
  else if 0x144 ≤ code ∧ code < 0x14C then
    g.modThreads (fun h => vals.any (fun p => p.1 == h)) (fun h t =>
      match vals.find? (fun p => p.1 == h) with
      | some p => t.setPred (code - 0x144) (p.2.getLsbD 0)
      | none => t)
  else g

/-- Whether D is written as a pair. -/
def Ctx.dWide (c : Ctx) : Bool :=
  match c.sh.d with
  | .opnd o => wideT o.ty
  | _ => false

/-- W is set: the register write is dropped (R27). -/
def Ctx.noWrite (c : Ctx) : Bool := c.f.w == 1

end Sys2Proof.Machine
end

