-- ==== Sys2Proof/Machine/Table.lean ====
section
/-! DEFINITION. The slot table as cores see it: the row in force, the boundary at which a partition leaves a quad, and whether a quad
runs now (R403, R404, R408, R409, R411, R415, R438, R439, R445, R474). -/

namespace Sys2Proof.Machine

/-- The partition of a number. -/
def State.part? (s : State) (p : Nat) : Option Partition := s.parts.find? (fun x => x.num == p)

/-- The row in force. -/
def State.row (s : State) : Row := (s.rows[s.curRow]?).getD Row.idle

/-- Die 0's TIME at which the current row ends (R403). -/
def State.rowEnd (s : State) : Nat := s.rowStart.toNat + s.row.durUs * 1000

/-- A deferred command accepted at a time takes effect at a boundary (R415, R438). -/
def dueBy (accepted : W64) (b : Nat) : Bool := accepted.toNat + 40000 ≤ b

/-- Whether a partition may hold quads from a boundary on: it exists then, and no rotation of its key keeps it out (R439,
R445). -/
def State.mayHold (s : State) (b p : Nat) : Bool :=
  (match s.part? p with
    | some x => !x.rotating
    | none => false) &&
  !s.deferredCmds.any (fun d => match d with
    | .partDelete _ q t => q == p && dueBy t b
    | .keyRotate _ q t => q == p && dueBy t b)

/-- The die of a quad keeps TIME, or lost it too late for a boundary (R474). -/
def State.dieHolds (s : State) (b q : Nat) : Bool :=
  match s.dies[q / 16]? with
  | some d => d.synced || !dueBy d.lostAt b
  | none => false

/-- The partition that a row gives a quad from a boundary on. -/
def State.entitled (s : State) (b : Nat) (r : Row) (q : Nat) : Option Nat :=
  match (r.qmap[q]?).join with
  | some p => if s.mayHold b p && s.dieHolds b q then some p else none
  | none => none

/-- Rows and row number that begin at a boundary after row k of some rows (R403, R415). -/
def State.rowsAt (s : State) (b : Nat) (rows : List Row) (k : Nat) : List Row × Nat :=
  match s.pendingTable with
  | some t => if dueBy t.accepted b then (t.rows, 0) else (rows, (k + 1) % rows.length)
  | none => (rows, (k + 1) % rows.length)

/-- The first boundary, of those within the next 20 µs and the next one, at which a quad's owner leaves it (R408, R409,
R411). -/
def State.leaveScan (s : State) (q : Nat) (k : QuadState) : Nat → Nat → List Row → Nat → Option Nat
  | 0, _, _, _ => none
  | fuel + 1, b, rows, n =>
    let (rows', n') := s.rowsAt b rows n
    match rows'[n']? with
    | none => none
    | some r =>
      if k.donor.isSome || s.entitled b r q != k.owner then some b
      else if (s.time 0).toNat + 20000 < b then none
      else s.leaveScan q k fuel (b + r.durUs * 1000) rows' n'

/-- The boundary at which the owner of a quad leaves it next. -/
def State.leavesAt (s : State) (q : Nat) : Option Nat :=
  match s.quads[q]? with
  | some k => if k.owner.isNone then none else s.leaveScan q k 24 s.rowEnd s.rows s.curRow
  | none => none

/-- Issue on a quad must stop now: its owner leaves it within 20 µs (R409). -/
def State.stopDue (s : State) (q : Nat) : Bool := (s.leavesAt q).any (fun b => b ≤ (s.time 0).toNat + 20000)

/-- No slot edge is in progress on a quad (R409). -/
def State.quadOpen (s : State) (q : Nat) : Bool := (s.quads[q]?).any (fun k => k.edge == .running) && !s.stopDue q

/-- No slot edge is in progress on the quad of a core. -/
def State.edgeOpen (s : State) (core : Nat) : Bool := s.quadOpen (quadOf core)

/-- No slot edge stops a group: neither on the quad where it issues nor on its workgroup's (R409). -/
def State.unstopped (s : State) (g : Group) : Bool :=
  (s.coreOf g).any s.edgeOpen && ((s.wg? g.wid).bind (·.core)).any s.edgeOpen

/-- The core is mapped and its quad runs a partition now (R5, R409). -/
def State.coreRuns (s : State) (core part : Nat) : Bool :=
  s.coreMap.getLsbD core && s.edgeOpen core &&
    (s.quads[quadOf core]?).any (fun q => q.owner == some part && q.idleUntil ≤ s.time 0)

/-- The boundary of the slot edge on a core's quad has passed in an earlier cycle, and its contexts are not saved yet (R398). -/
def State.edgePassed (s : State) (core : Nat) : Bool :=
  (s.quads[quadOf core]?).any (fun k =>
    (k.edge == .stopped || k.edge == .quiesced) && k.bound ≤ s.rowStart && k.crossed < s.cycle core)

/-- The partition of a group's launch. -/
def State.partOfGroup (s : State) (g : Group) : Option Nat :=
  ((s.wg? g.wid).bind (fun w => s.launch? w.lid)).map (·.part)

end Sys2Proof.Machine
end

