-- ==== Sys2Proof/Machine/Flags.lean ====
section
/-! DEFINITION. Floating-point flags: which arise, which trap, and how FPSTAT takes them (R125 to R127, R424). -/

namespace Sys2Proof.Machine

/-- What one lane of a computation yields: the value for D, the flags that arise, and a value for a second predicate. -/
structure LaneOut where
  val : W64
  flags : Flags := 0
  pq : Bool := false
  deriving DecidableEq, Repr

/-- Trap enables in force for a group: FPCTL, or none in a handler (R126, R424). -/
def Ctx.enables (c : Ctx) : Flags := if c.g.inh then 0 else c.la.fpctl.setWidth 5

/-- The OR of the flags of every lane. -/
def orFlags (outs : List (Nat × LaneOut)) : Flags := outs.foldl (fun f p => f ||| p.2.flags) 0

/-- Home lanes that raised an enabled flag (R127). -/
def enabledLanes (en : Flags) (outs : List (Nat × LaneOut)) : W64 :=
  maskOf ((outs.filter (fun p => p.2.flags &&& en != 0)).map (·.1))

/-- ORs each lane's flags into its FPSTAT (R127). -/
def Group.orFpstat (g : Group) (outs : List (Nat × LaneOut)) : Group :=
  g.modThreads (fun h => outs.any (fun p => p.1 == h)) (fun h t =>
    match outs.find? (fun p => p.1 == h) with
    | some p => { t with fpstat := t.fpstat ||| p.2.flags }
    | none => t)

end Sys2Proof.Machine
end

