-- ==== Sys2Proof/Machine/Lists.lean ====
section
/-! DEFINITION. Tile shapes, queue base registers, and the register lists whose length they give (R175, R281 to R283,
R289, R291, R296). -/

namespace Sys2Proof.Machine

/-! ### Shapes -/

/-- A shape: FMT, rows and columns (R282). -/
structure TShape where
  fmt : Nat
  rows : Nat
  cols : Nat
  deriving DecidableEq, Repr

/-- The shape that a TSH value gives (R282). -/
def tshape (v : W32) : TShape := ⟨bits v.toNat 3 0, bits v.toNat 10 4 + 1, bits v.toNat 17 11 + 1⟩

/-- Element width of a FMT code (R281). -/
def fmtW (f : Nat) : Nat :=
  match f with
  | 0 => 64
  | 1 => 32
  | 2 => 16
  | 3 => 16
  | 4 => 8
  | 5 => 8
  | 6 => 6
  | 7 => 6
  | 8 => 4
  | 9 => 8
  | 10 => 8
  | 11 => 8
  | 12 => 4
  | _ => 32

/-- Element width. -/
def TShape.w (t : TShape) : Nat := fmtW t.fmt
/-- Elements of a shape. -/
def TShape.count (t : TShape) : Nat := t.rows * t.cols
/-- The shape fits a tile and its format is not reserved (R283 CAP). -/
def TShape.capOk (t : TShape) : Bool := t.fmt < 14 && t.count * t.w ≤ 65536
/-- Two shapes have the same rows and columns. -/
def TShape.sameDims (a b : TShape) : Bool := a.rows == b.rows && a.cols == b.cols
/-- Scaled class (R281). -/
def fmtScaled (f : Nat) : Bool := 4 ≤ f && f ≤ 8
/-- Integer class (R281). -/
def fmtInt (f : Nat) : Bool := 10 ≤ f && f ≤ 12
/-- FP64, FP32, FP16 and BF16. -/
def fmtIeee (f : Nat) : Bool := f ≤ 3
/-- 4- and 6-bit scaled formats. -/
def fmtNarrow (f : Nat) : Bool := 6 ≤ f && f ≤ 8

/-- A tile with every bit zero, every scale 0x7F and TSH 0 (R280). -/
def Tile.fresh : Tile := ⟨0, [], 0⟩

/-- Tile k of a workgroup. -/
def Workgroup.tile (w : Workgroup) (k : Nat) : Tile := (w.tiles[k]?).getD Tile.fresh

/-- Bits of a tile line, with TR the column line (R289). -/
def TShape.lineBits (t : TShape) (tr : Bool) : Nat := (if tr then t.rows else t.cols) * t.w
/-- Lines of a tile (R289). -/
def TShape.lines (t : TShape) (tr : Bool) : Nat := if tr then t.cols else t.rows

/-- Element index of element k of line m (R289). -/
def TShape.lineElem (t : TShape) (tr : Bool) (m k : Nat) : Nat := if tr then k * t.cols + m else m * t.cols + k

/-! ### Queues -/

/-- Fields of a queue base register (R174). -/
def qDcl (v : W64) : Bool := v.getLsbD 63
def qCnt (v : W64) : Nat := bits v.toNat 60 54
def qHead (v : W64) : Nat := bits v.toNat 53 48
def qAlw (v : W64) : Nat := bits v.toNat 45 40
def qNs (v : W64) : Nat := bits v.toNat 37 32
def qSb (v : W64) : Nat := bits v.toNat 27 24
def qAddr (v : W64) : W64 := v &&& 0x3FFFFF
/-- Slot bytes of a queue (R174). -/
def qBytes (v : W64) : Nat := 16 * (qSb v + 1)

/-- QBq of a cluster. -/
def Cluster.qb (c : Cluster) (q : Nat) : W64 := (c.qbs[q]?).getD 0

/-- The queue base register that an instruction of the context names. -/
def Ctx.qb (c : Ctx) (q : Nat) : W64 := ((c.s.cluster? c.w.cid).map (·.qb q)).getD 0

/-! ### Register lists -/

/-- The shape of a tile of the context's workgroup. -/
def Ctx.shapeOf (c : Ctx) (k : Nat) : TShape := tshape (c.w.tile k).tsh

/-- The (lane, register) pairs of the words of a line or slot (R175, R291). -/
def slotRegs (width base n : Nat) : List (Nat × Nat) := (List.range n).map (fun j => (j % width, base + j / width))

/-- Lane and register of each word that TMOVV, GMMA or QPUSH reads, or TMOVT or QPOP writes (R175, R291, R296). -/
def Ctx.listRegs (c : Ctx) : List (Nat × Nat) :=
  let line (t base : Nat) := slotRegs c.g.width base (((c.shapeOf t).lineBits false + 31) / 32)
  match c.i with
  | .tmovv x => line x.d.toNat x.a.toNat
  | .tmovt x => line x.a.toNat x.d.toNat
  | .gmma x => if x.imm.getLsbD 6 then [] else slotRegs c.g.width x.c.toNat (x.imm.toNat % 64 + 1)
  | .qpush x => slotRegs c.g.width x.a.toNat (qBytes (c.qb (x.imm.toNat % 16)) / 4)
  | .qpop x => slotRegs c.g.width x.d.toNat (qBytes (c.qb (x.imm.toNat % 16)) / 4)
  | _ => []

/-- The list of the instruction is written. -/
def Ctx.listWritten (c : Ctx) : Bool :=
  match c.i with
  | .tmovt _ => true
  | .qpop _ => true
  | _ => false

/-- Registers and predicates that the instruction reads and writes, its list included (R19, R152). -/
def Ctx.uses (c : Ctx) : RegUse :=
  let u := c.i.regUse
  let l := (c.listRegs.map (·.2)).eraseDups
  if c.listWritten then ⟨u.reads, u.writes ++ l⟩ else ⟨u.reads ++ l, u.writes⟩

end Sys2Proof.Machine
end

