-- ==== Sys2Proof/Machine/Ready.lean ====
section
/-! DEFINITION. Effective addresses, and whether an instruction may issue now: the scoreboard, the holds of memory
ordering, the operand log, the matrix table and the command slots (R91, R150, R152, R153, R155, R159 to R161, R184, R287,
R325, R369, R371). -/

namespace Sys2Proof

/-- The format-M fields of an instruction. -/
def Form.m? : Form → Option MForm
  | .m fm => some fm
  | _ => none

/-- The word is an opcode of the LSU range (R58). -/
def Shape.isMem (sh : Shape) : Bool := sh.pipe = .ls

/-- The instruction is one of the matrix range (R58). -/
def Shape.isMatrix (sh : Shape) : Bool := sh.pipe = .mx

/-- The instruction addresses a scratchpad (R151). -/
def Instr.isScratch : Instr → Bool
  | .lds _ => true
  | .sts _ => true
  | .atom x => x.flag
  | .cas x => x.flag
  | .red x => x.flag
  | .gmma x => x.imm.getLsbD 6
  | _ => false

/-- Instructions that take an operand-log entry (R369). -/
def Instr.loggable : Instr → Bool
  | .ld _ => true
  | .st _ => true
  | .lds _ => true
  | .sts _ => true
  | .ldq _ => true
  | .stq _ => true
  | .ldv _ => true
  | .atom _ => true
  | .cas _ => true
  | .red _ => true
  | .dqpush _ => true
  | .dqpop _ => true
  | .dqsteal _ => true
  | .launch _ => true
  | .tld _ => true
  | .tst _ => true
  | .trace _ => true
  | .tresume _ => true
  | .bvhchk _ => true
  | .promote _ => true
  | _ => false

/-- Loads, atomics with a result and others that a later acquire fence waits for (R160). -/
def Instr.isLoad : Instr → Bool
  | .ld _ => true
  | .lds _ => true
  | .ldq _ => true
  | .ldv _ => true
  | .atom _ => true
  | .cas _ => true
  | .dqpop _ => true
  | .dqsteal _ => true
  | _ => false

/-- Stores and atomics that a later release waits for (R160). -/
def Instr.isStore : Instr → Bool
  | .st _ => true
  | .sts _ => true
  | .stq _ => true
  | .atom _ => true
  | .cas _ => true
  | .red _ => true
  | .dqpush _ => true
  | .dqpop _ => true
  | .dqsteal _ => true
  | _ => false

/-- Plain and release stores, which pass through the store buffer (R247). -/
def Instr.isPlainStore : Instr → Bool
  | .st _ => true
  | .stq _ => true
  | _ => false

/-- ORD of a memory instruction: bit 0 acquire, bit 1 release (R147, R164, R175, R178, R180, R259). -/
def Instr.order : Instr → Nat
  | .ld x => x.ord.toNat
  | .st x => x.ord.toNat
  | .lds x => x.ord.toNat
  | .sts x => x.ord.toNat
  | .ldq x => x.ord.toNat
  | .stq x => x.ord.toNat
  | .atom x => x.ord.toNat
  | .cas x => x.ord.toNat
  | .red x => x.ord.toNat
  | .promote _ => 1
  | .dqpush _ => 2
  | .dqpop _ => 3
  | .dqsteal _ => 3
  | .launch _ => 2
  | .qpush _ => 2
  | .qpop _ => 1
  | _ => 0

/-- SCOPE of a memory instruction (R147, R175, R178, R180). -/
def Instr.scopeOf : Instr → Nat
  | .ld x => x.scope.toNat
  | .st x => x.scope.toNat
  | .lds x => x.scope.toNat
  | .sts x => x.scope.toNat
  | .ldq x => x.scope.toNat
  | .stq x => x.scope.toNat
  | .atom x => x.scope.toNat
  | .cas x => x.scope.toNat
  | .red x => x.scope.toNat
  | .promote x => x.scope.toNat
  | .fence x => x.scope.toNat
  | .fencex x => x.scope.toNat
  | .dqpush x => x.imm.toNat / 16 % 8
  | .dqpop x => x.imm.toNat / 16 % 8
  | .dqsteal x => x.imm.toNat / 16 % 8
  | .launch _ => 4
  | .qpush _ => 2
  | .qpop _ => 2
  | _ => 0

/-- An instruction that R153 holds until every logged entry of the group is gone. A fence holds by its own wait (R159). -/
def Instr.waitsForLog : Instr → Bool
  | .atom _ => true
  | .cas _ => true
  | .red _ => true
  | .drop _ => true
  | .promote _ => true
  | .cctl _ => true
  | i => i.order != 0

/-- The engine path of R161 that an operation enters; the slot accesses of QPUSH and QPOP are scratchpad events of the group's
load-store path (R258). -/
def Instr.enginePath : Instr → Option Nat
  | .cpy _ => some 1
  | .cpyw _ => some 1
  | .gath _ => some 2
  | .scat _ => some 2
  | .tld _ => some 3
  | .tst _ => some 3
  | .gmma x => if x.imm.getLsbD 6 then some 0 else none
  | .trace _ => some 4
  | .tresume _ => some 4
  | .bvhchk _ => some 4
  | .publish _ => some 5
  | .vhold _ => some 5
  | .vrel _ => some 5
  | .coll _ => some 6
  | .mldred _ => some 6
  | .halo _ => some 6
  | .dqpush _ => some 0
  | .dqpop _ => some 0
  | .dqsteal _ => some 0
  | .launch _ => some 0
  | .qpush _ => some 0
  | .qpop _ => some 0
  | i =>
    match i.shape with
    | some sh => if sh.isMem then some 0 else none
    | none => none

/-- Engine commands that take a slot (R184). -/
def Instr.isCommand (i : Instr) : Bool :=
  match i with
  | .cwait _ => false
  | .estat _ => false
  | _ => match i.shape with
    | some sh => sh.pipe = .en
    | none => false

/-- Tiles that an instruction names (R62, R287). -/
def Instr.tiles (i : Instr) : List Nat :=
  let fields : List Nat := match i.shape, i.form with
    | some sh, some (_, f) =>
      (if sh.d = .tile then [f.head.2.2.toNat] else []) ++ (if sh.a = .tile then [f.abc.1.toNat] else [])
      ++ (if sh.b = .tile then [f.abc.2.1.toNat] else [])
    | _, _ => []
  match i with
  | .mtsr x => let k := x.imm.toNat % 4096; if 0x040 ≤ k ∧ k ≤ 0x05F then [k - 0x040] else []
  | .mfsr x => let k := x.imm.toNat % 4096; if 0x040 ≤ k ∧ k ≤ 0x05F then [k - 0x040] else []
  | _ => fields

end Sys2Proof

namespace Sys2Proof.Machine

/-- Effective address of R150 at lane h. -/
def Ctx.ea (c : Ctx) (h : Nat) : W64 :=
  match c.f with
  | .m x =>
    let b := c.val 2 h
    let idx : W64 := match x.ix with
      | 0 => b
      | 1 => (b.setWidth 32).setWidth 64
      | _ => (b.setWidth 32).signExtend 64
    c.val 1 h + (idx <<< x.sh) + x.imm.signExtend 64
  | _ => c.val 1 h

/-- A pending mark holds an instruction. While a handler runs, the marks of waits that its trap frame keeps do not: those
move data only after ERET (R424, R425). -/
def Ctx.pendHolds (c : Ctx) (p : Pend) : Bool :=
  p.lanes != 0 &&
    match c.g.frame with
    | none => true
    | some f => f.since ≤ p.op || c.s.ops.any (fun o => o.id == p.op) || c.s.mx.any (fun e => e.id == p.op)

/-- A register that the instruction reads or writes is pending in some lane (R91, R152, R371). -/
def Ctx.regPending (c : Ctx) : Bool :=
  let u := c.uses
  c.g.pend.any (fun p => c.pendHolds p && (u.reads.contains p.reg || u.writes.contains p.reg))

/-- Operations of the group that hold a logged entry (R369). -/
def MemOp.logged (o : MemOp) : Bool := o.lanes.any (fun l => match l.stage with
  | .logged _ => true
  | _ => false)

/-- The operation's entry is open: it holds logged lanes, or its lanes replay and have not all performed (R153, R159). -/
def MemOp.openEntry (o : MemOp) : Bool :=
  o.logged || (o.log != .raised && o.lanes.any (fun l => l.stage == .todo || o.instr.enginePath == some 0))

/-- The addresses an instruction touches in its active lanes, as regions of 64 KiB (R153). -/
def Ctx.regions (c : Ctx) : List Nat := c.act.map (fun h => (c.ea h).toNat / 65536)

/-- A lane of an operation that is logged, or that replays in the load-store unit, lies in one of the instruction's regions, in the
same space (R153). -/
def Ctx.inRegion (c : Ctx) (o : MemOp) : Bool :=
  o.scratch == c.i.isScratch && o.lanes.any (fun l => match l.stage with
    | .logged f => c.regions.contains (f.addr.toNat / 65536)
    | _ => o.instr.enginePath == some 0 && c.regions.contains (l.addr.toNat / 65536))

/-- R153 holds the instruction while the group holds open entries: one that synchronises behind every entry, another behind one
that touches its regions. -/
def Ctx.logHold (c : Ctx) : Bool :=
  let mine := c.s.ops.filter (fun o => o.gid == c.g.gid && o.openEntry)
  if mine = [] || c.i.enginePath != some 0 then false
  else
    match c.i with
    | .fence _ => false
    | .fencex _ => false
    | _ => c.i.waitsForLog || mine.any c.inRegion

/-- A thread waits in an instruction that is an acquire: QPOP or TWAIT (R155, R259). -/
def Thread.acquires (t : Thread) : Bool :=
  match t.wait with
  | .qpop _ _ _ _ => !t.exited
  | .twait _ _ _ => !t.exited
  | _ => false

/-- DROP (R163). -/
def isDrop : Instr → Bool
  | .drop _ => true
  | _ => false

/-- A fence of the group holds the instruction, or an acquire or a DROP has not completed (R155, R160, R161, R163, R164). A wait that
the group's trap frame keeps stands still until ERET and holds nothing (R425, log entry 17). -/
def Ctx.orderHold (c : Ctx) : Bool :=
  match c.i.enginePath with
  | none => false
  | some p =>
    c.g.holds.any (fun h => h.consumers.getLsbD p)
    || (p == 0 && (c.s.ops.any (fun o => o.gid == c.g.gid && (o.instr.order % 2 == 1 || isDrop o.instr))
      || c.g.threads.any Thread.acquires))

/-- Lines that the store buffer of a core holds (R234): those of the stores of its groups that are not yet applied. -/
def State.storeLines (s : State) (core : Nat) : List (Nat × Nat) :=
  ((s.ops.filter (fun o => o.core == core && o.instr.isPlainStore)).flatMap (fun o =>
    (o.lanes.filter (fun l => l.stage = .todo)).map (fun l => (o.asid.toNat, l.addr.toNat / 64)))).eraseDups

/-- The lines that a store would put into the store buffer. -/
def Ctx.newLines (c : Ctx) : List (Nat × Nat) :=
  if c.i.isPlainStore then c.act.map (fun h => (c.g.asid.toNat, (c.ea h).toNat / 64)) else []

/-- A store finds no room in the store buffer, which holds 128 lines (R234, R247), beside the stores of other groups of its
issue. -/
def Ctx.storeFull (c : Ctx) (before : List Ctx) : Bool :=
  c.newLines != [] && 128 < (c.s.storeLines c.core ++ before.flatMap Ctx.newLines ++ c.newLines).eraseDups.length

/-- Free entries of the operand log of a partition of a core: a saved group's entries are saved with it (R369, R412). -/
def State.freeEntries (s : State) (core ipart : Nat) : List Nat :=
  (List.range 32).filter (fun e => !s.ops.any (fun o => o.core == core && o.ipart == ipart && o.entry == e && s.resident o.gid))

/-- A loggable instruction finds no entry it may take, beside those that other groups of its issue take (R369). -/
def Ctx.logFull (c : Ctx) (before : List Ctx) : Bool :=
  c.i.loggable &&
    (let taken := (before.filter (fun x => x.i.loggable && x.g.ipart == c.g.ipart && x.act != [])).length
     let free := (c.s.freeEntries c.core c.g.ipart).length - taken
     let held := (c.s.ops.filter (fun o => o.gid == c.g.gid && o.logged)).length
     free == 0 || 4 ≤ held || (free ≤ 4 && 0 < held))

/-- TLD and TST. -/
def isTileMem : Instr → Bool
  | .tld _ => true
  | .tst _ => true
  | _ => false

/-- A TLD or TST of a group has issued and not entered the reservation table yet; a logged one enters at its replay
(R323). -/
def State.tileWalks (s : State) (gid : Nat) : Bool :=
  s.ops.any (fun o => o.gid == gid && isTileMem o.instr && o.lanes.any (fun l => l.stage == .todo))

/-- An earlier matrix instruction of the group that names a tile of this one has not taken effect, or an earlier one has yet
to reach the engine: a group's requests enter in issue order (R287, R327). -/
def Ctx.tileBusy (c : Ctx) : Bool :=
  let ts := c.i.tiles
  (c.sh.isMatrix && c.s.tileWalks c.g.gid) || ts != [] &&
    (c.s.mx.any (fun e => e.gid == c.g.gid && e.instr.tiles.any ts.contains)
     || c.s.ops.any (fun o => o.gid == c.g.gid && o.instr.tiles.any ts.contains))

/-- Entries of the reservation table that a group holds (R325). -/
def State.mxHeld (s : State) (gid : Nat) : Nat := (s.mx.filter (fun e => e.gid == gid)).length

/-- A group stalled on the full table of a quad before another: the earlier cycle, then the lower core, then the lower slot
(R325). -/
def State.stalledBefore (s : State) (quad : Nat) (x g : Group) (core : Nat) : Bool :=
  match x.mxStall, s.coreOf x with
  | some t, some c => !x.retired && x.gid != g.gid && quadOf c == quad && s.mxHeld x.gid < 8 &&
      (match g.mxStall with
      | none => true
      | some u => if t != u then t < u else if c != core then c < core else x.gslot < g.gslot)
  | _, _ => false

/-- n requests of a group may enter the table of its quad: the table and the group's share have room, and no group has waited
longer for it (R325). -/
def State.mxRooms (s : State) (g : Group) (core n : Nat) : Bool :=
  (s.mx.filter (fun e => e.quad == quadOf core)).length + n ≤ 32 && s.mxHeld g.gid + n ≤ 8
    && !s.groups.any (fun x => s.stalledBefore (quadOf core) x g core)

/-- One request of a group may enter. -/
def State.mxRoom (s : State) (g : Group) (core : Nat) : Bool := s.mxRooms g core 1

/-- A matrix instruction finds no room in the reservation table (R325). -/
def Ctx.matrixFull (c : Ctx) : Bool := c.sh.isMatrix && !c.s.mxRoom c.g c.core

/-- A GMMA list in scratchpad waits for the group's earlier scratchpad stores, as an LDS would (R155, R296). -/
def Ctx.listHold (c : Ctx) : Bool :=
  match c.i with
  | .gmma x => x.imm.getLsbD 6 && c.s.ops.any (fun o => o.gid == c.g.gid && o.scratch && o.instr.isStore)
  | _ => false

/-- The rounds whose pending sets the instruction would empty after a signature: EXIT, and MTSR of zero (R109, R295). -/
def Ctx.emptyRounds (c : Ctx) : List MmasRound :=
  let left (r : MmasRound) : Bool := match c.i with
    | .exit _ => c.g.cvs.get r.cv &&& ~~~c.actMask == 0
    | .mtsr x => x.imm.toNat == 0x060 + r.cv && c.act != [] && c.uval 1 == 0
    | _ => false
  c.g.mmas.filter (fun r => r.signers != 0 && c.g.cvs.get r.cv != 0 && left r)

/-- Entries of the reservation table that the instruction needs (R323, R325). -/
def Ctx.mxNeed (c : Ctx) : Nat := if c.sh.isMatrix then 1 else c.emptyRounds.length

/-- The instruction would empty convergence registers' pending sets after a signature, and the recorded multiplies may not
enter the table yet (R109, R287, R295, R325). -/
def Ctx.signHold (c : Ctx) : Bool :=
  c.emptyRounds != [] &&
    (!c.s.mxRooms c.g c.core c.emptyRounds.length || c.s.tileWalks c.g.gid || c.emptyRounds.any (fun r =>
      let ts := Instr.tiles (.mmas r.x)
      c.s.mx.any (fun e => e.gid == c.g.gid && e.instr.tiles.any ts.contains)
        || c.s.ops.any (fun o => o.gid == c.g.gid && o.instr.tiles.any ts.contains)))

/-- MFSR and MTSR of FPSTAT wait for the flags of the group's earlier floating atomics (R125, R158). -/
def Ctx.flagHold (c : Ctx) : Bool :=
  let fp : Bool := match c.i with
    | .mfsr x => x.imm.toNat == 9
    | .mtsr x => x.imm.toNat == 9
    | _ => false
  fp && c.s.ops.any (fun o => o.gid == c.g.gid && match o.instr with
    | .atom x => floatT x.t.toNat
    | _ => false)

/-- All 16 command slots are occupied (R184). -/
def Ctx.slotsFull (c : Ctx) : Bool :=
  c.i.isCommand && c.g.cmds.all (fun k => k.st == 1 || k.st == 2) && 16 ≤ c.g.cmds.length

/-- The instruction may issue now, but for the room that a matrix instruction needs in the reservation table. -/
def Ctx.ready (c : Ctx) : Bool :=
  !c.regPending && !c.logHold && !c.orderHold && !c.logFull [] && !c.tileBusy && !c.slotsFull
    && !c.listHold && !c.signHold && !c.flagHold && !c.storeFull []

/-- A group's part of an issue finds room beside the parts before it: log entries, lines of the store buffer, and entries of
the reservation table (R234, R325, R369). -/
def Ctx.fits (c : Ctx) (before : List Ctx) : Bool :=
  !c.logFull before && !c.storeFull before &&
    (c.mxNeed = 0 || c.s.mxRooms c.g c.core (before.foldl (fun n x => n + x.mxNeed) c.mxNeed))

/-- Every part of an issue after the first finds room beside those before it. -/
def partsFit (before : List Ctx) : List Ctx → Bool
  | [] => true
  | c :: cs => (before = [] || c.fits before) && partsFit (before ++ [c]) cs

end Sys2Proof.Machine
end

