-- ==== Sys2Proof/Machine/Ops.lean ====
section
/-! DEFINITION. The named operations every meaning is written with: fault-queue records, taking an exception and returning
from one (R418 to R427), ending a workgroup (R195, R426), and the frame of an issue: decode faults in the order of R45,
effects, latches and program counters. -/

namespace Sys2Proof.Machine

/-- The outcome of an instruction: a next state. The fuses stay as they are (R284, R332). -/
def done (s s' : State) : Host.Outcome State Fault Refusal := .next { s' with fuses := s.fuses }

/-- The least number above every number of a list. -/
def fresh (l : List Nat) : Nat := l.foldl (fun m x => max m (x + 1)) 0

/-! ### Interrupt vectors, functions and fault-queue records -/

/-- The element of a list with the least tick. -/
def earliest {α : Type} (key : α → Nat) (l : List α) : Option α :=
  match l with
  | [] => none
  | x :: t => some (t.foldl (fun m y => if key y < key m then y else m) x)

/-- Signals an MSI-X vector of a function (R433). -/
def State.signal (s : State) (fn v : Nat) : State := { s with vectors := s.vectors ++ [(fn, v)] }

/-- A count that saturates (R473). -/
def satInc (a : W64) (n : Nat) : W64 := if 2 ^ 64 ≤ a.toNat + n then BitVec.allOnes 64 else a + BitVec.ofNat 64 n

/-- Firmware receives a Machine check record (R428). -/
def State.machineRecord (s : State) : State := ({ s with mchk := satInc s.mchk 1 }).signal 0 2

/-- The function of a number. -/
def State.func? (s : State) (fn : Nat) : Option Func := s.funcs.find? (fun f => f.fn == fn)

/-- Replaces a function by f of it. -/
def State.modFunc (s : State) (fn : Nat) (f : Func → Func) : State :=
  { s with funcs := s.funcs.map (fun x => if x.fn = fn then { f x with fn := fn } else x) }

/-- The 64 bytes of a fault-queue record (R373). -/
def FaultRec.bytes (r : FaultRec) : List Byte :=
  natBytes 4 r.fid.toNat ++ [r.cause, r.reason, r.kind, r.flags] ++ natBytes 8 r.va.toNat ++ natBytes 8 r.gpa.toNat
  ++ natBytes 8 r.lanes.toNat ++ natBytes 2 r.asid.toNat ++ [r.part, r.core, r.gslot, r.entry]
  ++ natBytes 2 r.fset.toNat ++ natBytes 8 r.epc.toNat ++ natBytes 8 r.time.toNat ++ natBytes 4 r.tag.toNat
  ++ natBytes 4 0

/-- Posts one held record when the ring has room: position FQPI mod 2^n, FQPI advances, vector 2 (R373, R443). -/
def State.postOne (s : State) (fn : Nat) : State :=
  match s.func? fn with
  | none => s
  | some f =>
    match f.heldRecs with
    | [] => s
    | r :: rest =>
      if f.bound.isSome && (f.fqPi - f.fqCi).toNat < 2 ^ f.fqLog then
        let a := f.fqRing.toNat + 64 * (f.fqPi.toNat % 2 ^ f.fqLog)
        ({ s with hostMem := s.hostMem.setBytes a r.bytes }.modFunc fn
          (fun f => { f with fqPi := f.fqPi + 1, heldRecs := rest })).signal fn 2
      else s

/-- Posts held records in order while the ring has room (R373). -/
def State.postHeld (s : State) (fn : Nat) : State :=
  match s.func? fn with
  | none => s
  | some f => f.heldRecs.foldl (fun s _ => s.postOne fn) s

/-- Makes a record with the function's next FID and posts it; an open FID remembers what it refers to (R373, R374). -/
def State.makeRecord (s : State) (fn : Nat) (r : FaultRec) (ref : Option FidRef) : State × W32 :=
  match s.func? fn with
  | none => (s, 0)
  | some f =>
    let fid := f.nextFid
    let s := s.modFunc fn (fun f => { f with
      nextFid := fid + 1
      heldRecs := f.heldRecs ++ [{ r with fid := fid }]
      openFids := match ref with
        | some x => f.openFids ++ [(fid, x)]
        | none => f.openFids })
    (s.postHeld fn, fid)

/-- Closes a FID (R374). -/
def State.closeFid (s : State) (fn : Nat) (fid : W32) : State :=
  s.modFunc fn (fun f => { f with openFids := f.openFids.filter (fun e => e.1 != fid) })

/-- The partition number of a group as the PART byte of a record. -/
def byteOf (n : Nat) : Byte := BitVec.ofNat 8 n

/-- The fields of a record that the group decides (R373). -/
def State.recordFor (s : State) (g : Group) (la : Launch) (cause kind : Nat) (epc : W64) : FaultRec :=
  let core := (s.coreOf g).getD 0
  { fid := 0, cause := byteOf cause, reason := 0, kind := byteOf kind, flags := 0, va := 0, gpa := 0, lanes := 0,
    asid := g.asid, part := byteOf la.part, core := byteOf core, gslot := byteOf g.gslot, entry := 0xFF, fset := 0,
    epc := epc, time := s.time (dieOf core), tag := 0 }

/-! ### Pending destinations -/

/-- Drops the pending marks of an operation (R152, R194). -/
def State.clearPend (s : State) (gid op : Nat) : State :=
  s.modGroup gid (fun g => { g with pend := g.pend.filter (fun p => p.op != op) })

/-- Drops the pending marks of an operation in one lane. -/
def State.clearPendLane (s : State) (gid op lane : Nat) : State :=
  s.modGroup gid (fun g => { g with pend := g.pend.map (fun p =>
    if p.op = op then { p with lanes := p.lanes &&& ~~~((1 : W64) <<< lane) } else p) })

/-- A lane stands logged. -/
def LaneReq.isLogged (l : LaneReq) : Bool :=
  match l.stage with
  | .logged _ => true
  | _ => false

/-- The operation holds a logged entry (R369). -/
def MemOp.isLogged (o : MemOp) : Bool := o.lanes.any LaneReq.isLogged

/-- Frees an operation's logged lanes without performing them: destinations stop being pending and are unchanged, the
FID is closed (R194, R374). Threads that wait for the operation resume. -/
def State.dropLogged (s : State) (vf : Nat) (o : MemOp) : State :=
  let rest := o.lanes.filter (fun l => !l.isLogged)
  let gone := o.lanes.filter LaneReq.isLogged
  let s := gone.foldl (fun s l => s.clearPendLane o.gid o.id l.lane) s
  let s := match o.fid with
    | some fid => s.closeFid vf fid
    | none => s
  let ops := if rest = [] then s.ops.filter (fun x => x.id != o.id)
    else s.ops.map (fun x => if x.id = o.id then { x with lanes := rest, fid := none, log := .raised } else x)
  let s := { s with ops := ops }
  s.modGroup o.gid (fun g => { g with
    pend := if rest = [] then g.pend.filter (fun p => p.op != o.id) else g.pend
    wakeTick := s.tick
    threads := g.threads.map (fun t => if t.wait = .opDone o.id then { t with wait := .none } else t) })

/-! ### Ending a workgroup -/

/-- Formed issue groups that hold no member of the group (R211, R422). -/
def State.dissolve (s : State) (gid : Nat) : State :=
  { s with formed := s.formed.filter (fun f => f.members.all (fun m => m.1 != gid)) }

/-- Ends a workgroup: every group stops issuing, logged entries are dropped and their FIDs closed, the task status
becomes 1, and a KIND 5 record is made (R195, R426). -/
def State.endWorkgroup (s : State) (g : Group) (cause : Nat) (epc : W64) (haltCode : W32) : State :=
  match s.wg? g.wid with
  | none => s
  | some w =>
    match s.launch? w.lid with
    | none => s
    | some la =>
      let mine := (s.groups.filter (fun x => x.wid == w.wid)).map (·.gid)
      let s : State := { s with
        groups := s.groups.map (fun x => if x.wid = w.wid then { x with stopped := true, traps := [] } else x) }
      let s := (s.ops.filter (fun o => mine.contains o.gid && o.isLogged)).foldl (fun s o => s.dropLogged la.vf o) s
      let s := s.modFunc la.vf (fun f => { f with openFids := f.openFids.filter (fun e =>
        match e.2 with
        | .fetch gid _ _ => !mine.contains gid
        | _ => true) })
      let s := mine.foldl (fun s gid => s.dissolve gid) s
      let s := s.modWg w.wid (fun w => { w with ended := true })
      let s := s.modLaunch la.lid (fun l => { l with status := 1 })
      (s.makeRecord la.vf { s.recordFor g la cause 5 epc with tag := haltCode } none).1

/-! ### Taking an exception -/

/-- A trap to take (R421, R422). `entry` is the log entry it names; `path` the trapping path's home lanes; `clear` says
that the fault kept the path's instruction from completing (R37). -/
structure TrapInfo where
  cause : Nat
  epc : W64
  faddr : W64 := 0
  finfo : W32 := 0
  deferred : Bool := false
  path : W64 := 0
  entry : Option Nat := none
  clear : Bool := true
  /-- the instruction that raises it, where EPC holds another address (R195, R426) -/
  raiser : Option W64 := none
  deriving DecidableEq, Repr

/-- A thread as its trap frame records it: a REGROUP wait has ended, and a fault clears the latches of the path whose
instruction it kept from completing (R37, R423). -/
def Thread.framed (t : Thread) (clear : Bool) : Thread :=
  { t with
    latches := if clear then Latches.cleared else t.latches
    wait := match t.wait with
      | .regroup _ _ _ => .none
      | w => w }

/-- A thread of the handler path at TVEC (R423). -/
def Thread.toHandler (t : Thread) (tvec : W64) : Thread :=
  if t.exited then t
  else { t with pc := tvec, meet := 0, prio := 0, blockedUntil := 0, wait := .none, latches := Latches.cleared,
                lastLine := none, arrival := .noCheck, passed := 0, demoted := false }

/-- The group as trap entry leaves it: trap registers, trap frame, handler path, level (R423). -/
def Group.enterTrap (g : Group) (t : TrapInfo) (tvec : W64) (now : Nat) : Group :=
  { g with
    cause := byteOf t.cause
    epc := t.epc
    faddr := t.faddr
    finfo := t.finfo
    oplogTv := t.entry.isSome
    oplogTent := match t.entry with
      | some e => BitVec.ofNat 5 e
      | none => g.oplogTent
    frame := some ⟨g.threads.mapIdx (fun h x => x.framed (t.clear && !t.deferred && laneIn t.path h)),
                   if t.deferred then 0 else t.path, now, g.stepPath &&& ~~~t.path⟩
    threads := g.threads.map (fun x => x.toHandler tvec)
    inh := true
    deferred := t.deferred
    lvl := if g.blv = 0 then 1 else 2
    stepPath := 0 }

/-- Takes a trap: entry into the handler, or the end of the workgroup when the group is in its handler already or the
launch has none (R423, R426). A formed issue group dissolves first (R422). Firmware has a record of a Machine check (R428). -/
def State.takeTrap (s : State) (gid : Nat) (t : TrapInfo) : State :=
  match s.group? gid with
  | none => s
  | some g =>
    match (s.wg? g.wid).bind (fun w => s.launch? w.lid) with
    | none => s
    | some la =>
      let s := s.dissolve gid
      let s := if t.cause = 0x14 then s.machineRecord else s
      if g.inh || la.record.tvec = 0 then s.endWorkgroup g t.cause (t.raiser.getD t.epc) 0
      else
        { s with tick := s.tick + 1 }.modGroup gid (fun g => g.enterTrap t la.record.tvec (s.tick + 1))

/-- Whether a pending trap may be taken: at once outside the handler; inside it only a trap that the handler's own
operation raised, which ends the workgroup (R422, R426, R431). -/
def Group.trapDue (g : Group) (t : DefTrap) : Bool :=
  match g.frame with
  | none => true
  | some f => t.path = 0 && f.since ≤ t.op

/-- The pending trap whose log entry was made first (R422). -/
def Group.nextTrap (g : Group) : Option DefTrap := earliest (·.op) (g.traps.filter g.trapDue)

/-! ### Leaving a handler -/

/-- The address of the instruction before an instruction address in sequence (R16). -/
def prevPc (a : W64) : W64 := if a &&& 63#64 = 4#64 then a - 16#64 else a - 12#64

/-- A thread restored from its frame: registers, predicates, FPSTAT and keys stay as the handler left them; a wait for a
landing slot issues its MIGRATE again, and one in step 1 of R182 goes on (R425). -/
def Thread.restore (t f : Thread) (pc : W64) : Thread :=
  if t.exited then t
  else
    let mig := match f.wait with
      | .migrate _ _ (some _) => true
      | _ => false
    { t with
      pc := if mig then prevPc pc else pc
      meet := f.meet
      prio := f.prio
      latches := f.latches
      blockedUntil := f.blockedUntil
      wait := if mig then .none else f.wait
      trav := f.trav
      lastLine := f.lastLine
      arrival := f.arrival
      passed := f.passed
      demoted := f.demoted
      exited := f.exited }

/-- The group as ERET leaves it (R425). -/
def Group.leaveTrap (g : Group) (fr : TrapFrame) : Group :=
  let back (h : Nat) (t : Thread) : Thread :=
    match fr.threads[h]? with
    | none => t
    | some f =>
      if laneIn fr.path h && !g.deferred then { t.restore f g.epc with arrival := if t.exited then t.arrival else .resume }
      else t.restore f f.pc
  { g with
    threads := g.threads.mapIdx back
    frame := none
    inh := false
    stepPath := fr.step ||| (if g.stepFlag && !g.deferred then fr.path else 0)
    deferred := false
    lvl := g.blv
    oplogTv := false }

/-! ### One issued instruction -/

/-- The effect of an instruction on one group: the state with its effects, the latch result of each active lane, and
the lanes that take another program counter than the next in sequence. -/
structure Res where
  s : State
  vals : List (Nat × W64) := []
  pcs : List (Nat × W64) := []
  /-- clears the path's latches (R110) -/
  clear : Bool := false
  /-- the effect has set every thread's program counter and latches itself (R425) -/
  keep : Bool := false

/-- A precise trap at the executing instruction. -/
def Ctx.trap (c : Ctx) (cause : Nat) (finfo : W32 := 0) (faddr : W64 := 0) : TrapInfo :=
  { cause := cause, epc := c.pc, faddr := faddr, finfo := finfo, path := c.part.mask }

/-- The decode faults of one instruction in the order of R45: Illegal instruction, Illegal operand, Stale latch. -/
def Ctx.decodeFault (c : Ctx) : Option TrapInfo :=
  if !(c.i.wellFormed && c.i.modOk c.code.modsel c.g.width) then some (c.trap 0x01)
  else
    match c.i.badOperand c.code.modsel c.vd.regs c.vd.tiles with
    | some k => some (c.trap 0x02 (BitVec.ofNat 32 k))
    | none =>
      match c.stale with
      | some (l, k, m) => some (c.trap 0x03 (BitVec.ofNat 32 (l + 4 * k)) m)
      | none => none

/-- Home lanes whose registers the instruction reads through field k: the active ones, or those that SHFL or READLANE names,
through a permutation where the field has one (R41, R92, R95). -/
def Ctx.readLanes (c : Ctx) (k : Nat) : List Nat :=
  let named : List Nat := match c.i with
    | .shfl x =>
      if k = 1 then c.act.filterMap (fun h => shflLane (x.c.toNat % 4) (x.c.toNat / 4 % 8) h ((c.val 2 h).toNat % 2 ^ 32))
      else c.act
    | .readlane _ => if k = 1 ∧ c.act ≠ [] then [(c.uval 2).toNat % 2 ^ 32 % c.g.width] else c.act
    | _ => c.act
  match c.f with
  | .x x =>
    if c.sh.mods && c.code.modsel && x.m.toNat % 4 != 0 && k == 1 + x.m.toNat / 2048 then named.map (permLane x.m) else named
  | _ => named

/-- A register or latch that field k reads fails its parity check (R256). -/
def Ctx.fieldBad (c : Ctx) (k : Nat) : Bool :=
  let code := c.fieldCode k
  let lanes := c.readLanes k
  let latch : Bool := match c.fieldUse k with
    | .opnd _ => 0x140 ≤ code && code < 0x144 && lanes.any (fun h => (c.latches h).bad.getLsbD (code - 0x140))
    | _ => false
  let regs := (c.fieldUse k).names code
  latch || ((k != 0 || c.i.readsD) && lanes != [] && regs.any (fun n => c.i.regUse.reads.contains n &&
    if n < 0x100 then lanes.any (fun h => c.g.badV.contains (h * 256 + n)) else c.g.badS.contains (n - 0x100)))

/-- Machine check on reading a register or latch that fails its parity check (R256, R428). -/
def Ctx.parityTrap (c : Ctx) : Option TrapInfo :=
  if (List.range 4).any c.fieldBad
      || (!c.listWritten && c.act != [] && c.listRegs.any (fun p => c.g.badV.contains (p.1 * 256 + p.2))) then
    some (c.trap 0x14 2)
  else none

/-- The latches after an instruction (R35 to R37, R68). -/
def Ctx.newLatches (c : Ctx) (r : Res) (h : Nat) (l : Latches) : Latches :=
  if r.clear then Latches.cleared
  else if c.sh.long then
    (if c.s.issue.second && c.s.issue.pushed then l.keepFirst else Latches.cleared)
  else if c.sh.result then l.push ((r.vals.find? (fun p => p.1 == h)).map (·.2))
  else l

/-- A thread of the issuing path after the instruction: program counter, latches, line and recency. -/
def Ctx.advance (c : Ctx) (r : Res) (h : Nat) (t : Thread) : Thread :=
  if t.exited then t
  else
    let taken := r.pcs.find? (fun p => p.1 == h)
    { t with
      pc := match taken with
        | some p => p.2
        | none => nextPc c.pc
      arrival := match taken with
        | some _ => .transfer c.pc
        | none => .sequence
      lastLine := some (lineBase c.pc)
      latches := c.newLatches r h t.latches
      lastIssue := c.s.tick }

/-- A group leaves the issue: the second instruction of its pair is cancelled (R19). -/
def State.dropPart (s : State) (gid : Nat) : State :=
  { s with issue := { s.issue with parts := s.issue.parts.filter (fun p => p.gid != gid) } }

/-- Raises the Breakpoint of a single step once the stepped path has issued (R427). -/
def State.stepTrap (s : State) (gid : Nat) (mask : W64) : State :=
  match s.group? gid with
  | none => s
  | some g =>
    if g.stepPath &&& mask = 0 then s
    else
      let live := (lanesOf g.stepPath g.width).filter (fun h => g.live.contains h)
      match live with
      | [] => s.modGroup gid (fun g => { g with stepPath := 0 })
      | h :: _ =>
        let pc := ((g.threads[h]?).map (·.pc)).getD 0
        let path := maskOf (live.filter (fun k => ((g.threads[k]?).map (·.pc)) == some pc))
        ((s.modGroup gid (fun g => { g with stepPath := 0 })).takeTrap gid
          { cause := 0x12, epc := pc, finfo := 0x10000, path := path, clear := false }).dropPart gid

/-- Completes an instruction for its group. One that has set the program counters itself is the last of its issue. -/
def Ctx.finish (c : Ctx) (r : Res) : State :=
  if r.keep then r.s.dropPart c.g.gid
  else (r.s.modGroup c.g.gid (fun g => g.modThreads (laneIn c.part.mask) (c.advance r))).stepTrap c.g.gid c.part.mask

/-- Executes an instruction for one group of the issue (R45, R207). An instruction that may not issue yet stays. -/
def issuePart (i : Instr) (sem : Ctx → Except TrapInfo Res) (s : State) (p : Part) : State :=
  match mkCtx s i p with
  | none => s
  | some c =>
    match c.decodeFault with
    | some t => (s.takeTrap p.gid t).dropPart p.gid
    | none =>
      if !c.ready then s.dropPart p.gid
      else
        match c.parityTrap with
        | some t => (s.takeTrap p.gid t).dropPart p.gid
        | none =>
          match sem c with
          | .error t => (s.takeTrap p.gid t).dropPart p.gid
          | .ok r => c.finish r

/-- Executes an instruction for every group of the issue, in the order packed (R207). -/
def issueWord (i : Instr) (sem : Ctx → Except TrapInfo Res) (s : State) : State :=
  s.issue.parts.foldl (issuePart i sem) s

/-- ILL and unassigned opcodes (R54, R64): Illegal instruction for every group of the issue. -/
def illegalWord (s : State) : State :=
  s.issue.parts.foldl (fun s p =>
    (s.takeTrap p.gid { cause := 0x01, epc := s.issue.pc, path := p.mask }).dropPart p.gid) s

/-- A value as D takes it: bit 0 for a predicate, 32 bits unless D is of a 64-bit type (R29, R33, R35). -/
def Ctx.fit (c : Ctx) (v : W64) : W64 :=
  let d := c.fieldCode 0
  if 0x144 ≤ d ∧ d < 0x14C then v &&& 1 else if c.dWide then v else v &&& 0xFFFFFFFF

/-- Per-lane outcomes of a computation: of every active lane, or computed once for a scalar instruction (R33). -/
def Ctx.outs (c : Ctx) (f : Nat → LaneOut) : List (Nat × LaneOut) :=
  if c.i.scalar then
    match c.act with
    | [] => []
    | h :: _ => let o := f h; c.act.map (fun k => (k, o))
  else c.act.map (fun h => (h, f h))

/-- Latch results: of the active lanes, or of the whole path for an instruction that executes once (R33, R35). -/
def Ctx.latchVals (c : Ctx) (outs : List (Nat × LaneOut)) : List (Nat × W64) :=
  if c.i.once then
    match outs with
    | [] => []
    | p :: _ => c.path.map (fun k => (k, c.fit p.2.val))
  else outs.map (fun p => (p.1, c.fit p.2.val))

/-- Arithmetic exception of the outcomes (R127). -/
def Ctx.arith (c : Ctx) (outs : List (Nat × LaneOut)) : TrapInfo :=
  c.trap 0x0F ((orFlags outs).setWidth 32) (enabledLanes c.enables outs)

/-- The group with the outcomes written to D and FPSTAT (R27, R29, R127). -/
def Ctx.write (c : Ctx) (outs : List (Nat × LaneOut)) (g : Group) : Group :=
  (if c.noWrite then g else g.writeDest c.dWide (c.fieldCode 0) (outs.map (fun p => (p.1, c.fit p.2.val)))).orFpstat outs

/-- A computation that yields one value per active lane, or one value when scalar (R33, R127). -/
def laneOp (f : Ctx → Nat → LaneOut) (c : Ctx) : Except TrapInfo Res :=
  let outs := c.outs (f c)
  if orFlags outs &&& c.enables != 0 then .error (c.arith outs)
  else .ok { s := c.s.modGroup c.g.gid (c.write outs), vals := c.latchVals outs }

/-- No lane computation: an instruction that only moves on. -/
def noEffect (c : Ctx) : Except TrapInfo Res := .ok { s := c.s }

/-- Partial issue for a group-wide instruction: some non-exited thread is not active (R212). -/
def Ctx.partialIssue (c : Ctx) : Option TrapInfo :=
  let miss := c.g.live.filter (fun h => !c.act.contains h)
  if miss = [] then none else some (c.trap 0x0C 0 (maskOf miss))

/-- Privilege fault of a privileged instruction (R194, R195, R421). -/
def Ctx.privilege (c : Ctx) : TrapInfo := c.trap 0x10 0x3000

end Sys2Proof.Machine
end

