-- ==== Sys2Proof/Machine/Translate.lean ====
section
/-! DEFINITION. Region tables, the two-stage walk, frame ownership, and where an address leads (R238, R239, R357 to R368,
R461). -/

namespace Sys2Proof.Machine

/-- What an access needs of a translation (R361). -/
inductive Need where
  | read
  | write
  | fetch
  deriving DecidableEq, Repr

/-- A Page fault of a reason (R368). -/
def pageFault (reason : Nat) (s2 wr : Bool) (va gpa : Nat) : LaneFault :=
  ⟨0x08, reason, s2, wr, BitVec.ofNat 64 va, BitVec.ofNat 64 gpa, none, 0⟩

/-- An Ownership fault (R365, R421). -/
def ownershipFault (wr : Bool) (va : Nat) : LaneFault :=
  ⟨0x09, 0, false, wr, BitVec.ofNat 64 va, 0, none, 0⟩

/-- A Version fault of a reason (R156, R421). -/
def versionFault (reason va : Nat) : LaneFault :=
  ⟨0x0A, reason, false, false, BitVec.ofNat 64 va, 0, none, BitVec.ofNat 32 reason⟩

/-- The context of an ASID (R358). -/
def State.asid? (s : State) (a : Nat) : Option AsidCtx := s.asids.find? (fun c => c.asid == a)

/-- Replaces an ASID context by f of it. -/
def State.modAsid (s : State) (a : Nat) (f : AsidCtx → AsidCtx) : State :=
  { s with asids := s.asids.map (fun c => if c.asid = a then { f c with asid := a } else c) }

/-- Replaces a partition by f of it. -/
def State.modPart (s : State) (p : Nat) (f : Partition → Partition) : State :=
  { s with parts := s.parts.map (fun x => if x.num = p then { f x with num := p } else x) }

/-- Numbers of the set bits of a 4-bit mask, in increasing order. -/
def maskDies (m : Nat) : List Nat := (List.range 4).filter (fun d => m.testBit d)

/-- The region entry of an address: KIND and home die (R238, R239); none is NO_REGION. -/
def regionOf (c : AsidCtx) (va : Nat) : Option (Nat × Nat) :=
  let e := (c.regions.get (bits va 56 49)).toNat
  let kind := bits e 27 26
  let mask := bits e 19 16
  if !e.testBit 31 || (kind == 1 && mask == 0) then none
  else
    match kind with
    | 1 =>
      let l := maskDies mask
      some (1, (l[bits va 48 16 % l.length]?).getD 0)
    | 2 => some (2, 0)
    | k => some (k, bits e 9 8)

/-- Home of an address (R46, R239). -/
def State.homeDie (s : State) (asid va : Nat) : Option Nat :=
  ((s.asid? asid).bind (fun c => regionOf c va)).map (·.2)

/-! ### Page tables -/

/-- Address shift of a level (R359). -/
def levelShift (l : Nat) : Nat :=
  match l with
  | 0 => 43
  | 1 => 29
  | 2 => 21
  | _ => 16

/-- Page-table entry fields (R360). -/
def pteV (w : W64) : Bool := w.getLsbD 0
def pteLeaf (w : W64) : Bool := w.getLsbD 1
def pteW (w : W64) : Bool := w.getLsbD 2
def pteX (w : W64) : Bool := w.getLsbD 3
def pteTrk (w : W64) : Bool := w.getLsbD 4
def pteAddr (w : W64) : Nat := bits w.toNat 51 8 * 256

/-- The entry word of a leaf (R360). -/
def mkPte (addr : Nat) (w x trk : Bool) : W64 :=
  BitVec.ofNat 64 (addr / 256 * 256 + boolNat trk * 16 + boolNat x * 8 + boolNat w * 4 + 3)

/-- The entry word of a pointer to a table (R360). -/
def mkTablePte (addr : Nat) : W64 := BitVec.ofNat 64 (addr / 256 * 256 + 1)

/-- Entries of a table of a level, and its bytes (R359). -/
def tableEntries (l : Nat) : Nat :=
  match l with
  | 0 => 16384
  | 1 => 16384
  | 2 => 256
  | _ => 32
def tableBytes (l : Nat) : Nat := 8 * tableEntries l

/-- A valid entry that R360 calls malformed. -/
def pteBad (stage1 : Bool) (level : Nat) (w : W64) : Bool :=
  bits w.toNat 59 52 != 0 || bits w.toNat 7 5 != 0
  || (pteLeaf w && level == 0) || (!pteLeaf w && level == 3)
  || (pteTrk w && !(stage1 && pteLeaf w && level == 3))
  || pteAddr w % (if pteLeaf w then 2 ^ levelShift level else tableBytes (level + 1)) != 0

/-- The entry of a stage's tables that stands for an address at a level; an entry not listed is not valid. -/
def entryOf (table : List Pte) (level a : Nat) : W64 :=
  match table.find? (fun p => p.level == level && p.index == a >>> levelShift level) with
  | some p => p.word
  | none => 0

/-- Where the entry for an address lies in a table of a level that begins at base (R359). -/
def entryAddr (base level a : Nat) : Nat := base + 8 * (a >>> levelShift level % tableEntries level)

/-- How a walk of one stage ends: at a leaf with its level, at an entry that is not valid or is malformed, or at a table
entry that could not be read. -/
inductive Descent where
  | leaf (level : Nat) (w : W64)
  | absent
  | malformed
  | unread (f : LaneFault)
  deriving DecidableEq, Repr

/-- The walk of one stage from a level on: `read` gives the fault of reading the entry at an address, if any (R359 to R361). -/
def descend (stage1 : Bool) (table : List Pte) (read : Nat → Option LaneFault) (a : Nat) : Nat → Nat → Nat → Descent
  | 0, _, _ => .absent
  | fuel + 1, level, base =>
    match read (entryAddr base level a) with
    | some f => .unread f
    | none =>
      let w := entryOf table level a
      if !pteV w then .absent
      else if pteBad stage1 level w then .malformed
      else if pteLeaf w then .leaf level w
      else descend stage1 table read a fuel (level + 1) (pteAddr w)

/-- A finished translation: the host physical address, guest-physical address, page shift and attributes (R361). `own` marks
a KIND 3 address of the package's own rank, whose line no L1 and no RDC holds (R240, R461). -/
structure Trans where
  hpa : Nat
  gpa : Nat
  shift : Nat
  w : Bool
  x : Bool
  trk : Bool
  own : Bool
  deriving DecidableEq, Repr

/-- The ownership check of a frame for a partition (R364, R365). -/
def State.ownsFrame (s : State) (part hpa : Nat) : Bool :=
  let e := s.frameOwners.get (hpa >>> 16)
  e.getLsbD 7 && !e.getLsbD 6 && (e &&& 0x3F).toNat == part

/-- The ownership check of a table entry's frame: granted, and to firmware (R364, R365). -/
def State.tableFrame (s : State) (hpa : Nat) : Bool :=
  let e := s.frameOwners.get (hpa >>> 16)
  hpa < 2 ^ 40 && e.getLsbD 7 && e.getLsbD 6

/-- The stage-2 walk of a guest-physical address of a partition (R359 to R361, R365). -/
def State.stage2 (s : State) (p : Partition) (wr : Bool) (va gpa : Nat) : Descent :=
  descend false p.table (fun e => if s.tableFrame e then none else some (ownershipFault wr va)) gpa 4 0 p.root

/-- The fault of reading a stage-1 entry at a guest-physical address: that address goes through stage 2 first (R361). -/
def State.tableRead (s : State) (p : Partition) (wr : Bool) (va gpa : Nat) : Option LaneFault :=
  match s.stage2 p wr va gpa with
  | .leaf l w => if s.tableFrame (pteAddr w + gpa % 2 ^ levelShift l) then none else some (ownershipFault wr va)
  | .absent => some (pageFault 2 true wr va gpa)
  | .malformed => some (pageFault 5 true wr va gpa)
  | .unread f => some f

/-- The two-stage walk (R361, R368). -/
def walk (s : State) (c : AsidCtx) (va : Nat) (need : Need) : Except LaneFault Trans :=
  let wr := need = .write
  match s.part? c.part with
  | none => .error (pageFault 2 true wr va 0)
  | some p =>
    match descend true c.table (s.tableRead p wr va) va 4 0 c.root.toNat with
    | .unread f => .error f
    | .absent => .error (pageFault 2 false wr va 0)
    | .malformed => .error (pageFault 5 false wr va 0)
    | .leaf l1 w1 =>
      let gpa := pteAddr w1 + va % 2 ^ levelShift l1
      match s.stage2 p wr va gpa with
      | .unread f => .error f
      | .absent => .error (pageFault 2 true wr va gpa)
      | .malformed => .error (pageFault 5 true wr va gpa)
      | .leaf l2 w2 =>
        if wr && !pteW w1 then .error (pageFault 3 false wr va 0)
        else if wr && !pteW w2 then .error (pageFault 3 true wr va gpa)
        else if need = .fetch && !pteX w1 then .error (pageFault 4 false wr va 0)
        else if need = .fetch && !pteX w2 then .error (pageFault 4 true wr va gpa)
        else
          .ok { hpa := pteAddr w2 + gpa % 2 ^ levelShift l2, gpa := gpa,
                shift := min (levelShift l1) (levelShift l2), w := pteW w1 && pteW w2, x := pteX w1 && pteX w2,
                trk := pteTrk w1, own := false }

/-- A leaf of a stage's tables that maps an address: its level and word. -/
def leafOf (table : List Pte) (a : Nat) : Option (Nat × W64) :=
  match table.find? (fun p => pteLeaf p.word && p.index == a >>> levelShift p.level && pteV p.word) with
  | some p => some (p.level, p.word)
  | none => none

/-! ### Tracked pages -/

/-- The tracked page that holds an address of an ASID (R217). -/
def State.page? (s : State) (asid va : Nat) : Option TrackedPage :=
  s.pages.find? (fun p => p.asid == asid && p.page == va >>> 16)

/-- Replaces a tracked page by f of it. -/
def State.modPage (s : State) (asid page : Nat) (f : TrackedPage → TrackedPage) : State :=
  { s with pages := s.pages.map (fun p => if p.asid = asid ∧ p.page = page then { f p with asid := asid, page := page } else p) }

/-- The current frame of a tracked page (R221). -/
def TrackedPage.current (p : TrackedPage) : Option Frame := p.frames.head?

/-- The field set of a tracked page. -/
def State.fset? (s : State) (part num : Nat) : Option FieldSet :=
  s.fsets.find? (fun f => f.part == part && f.num == num)

/-- Replaces a field set by f of it. -/
def State.modFset (s : State) (part num : Nat) (f : FieldSet → FieldSet) : State :=
  { s with fsets := s.fsets.map (fun x => if x.part = part ∧ x.num = num then { f x with part := part, num := num } else x) }

/-- Old content of line i of a tracked page as the frames give it from frame list position on (R222). -/
def serveFrom (fs : List Frame) (i : Nat) : Option Frame :=
  fs.find? (fun f => f.bitmap.getLsbD i)

/-- The frame that serves line i of a page for the current step (R222). -/
def TrackedPage.serveCurrent (p : TrackedPage) (i : Nat) : Option Frame := serveFrom p.frames i

/-- The HBM line that a fill of a line reads, and the line that a write-back writes: they differ for a tracked line not
yet copied, whose write-back cannot happen before the copy. -/
def State.fillSource (s : State) (asid va hpa : Nat) : Nat :=
  match s.page? asid va with
  | some p =>
    (match p.serveCurrent (va % 65536 / 64) with
      | some f => f.hpa + va % 65536 / 64 * 64
      | none => hpa / 64 * 64)
  | none => hpa / 64 * 64

/-! ### Where an access goes -/

/-- The party that an address leads to: a line homed on a die under the ASID and address that tag it, host memory, or a
peer's window (R239, R240, R461). -/
inductive Target where
  | line (die asid va hpa : Nat) (t : Trans)
  | host (bus : Nat)
  | peer (group rank off : Nat)
  deriving DecidableEq, Repr

/-- The controller of its home die whose TLB translates an address (R362). -/
def tlbCtl (va : Nat) : Nat := bits va 30 29

/-- The translation held for an address, in the home die's TLB beside its controller (R362). -/
def State.tlb? (s : State) (asid va : Nat) : Option TlbEnt :=
  match s.homeDie asid va with
  | some die => s.tlb.find? (fun e => e.die == die && e.ctl == tlbCtl va && e.asid == asid && e.page == va >>> e.size)
  | none => none

/-- Adds an entry to its TLB, which holds 2,048 (R362); the oldest leaves a full one. -/
def State.addTlb (s : State) (e : TlbEnt) : State :=
  let mine (x : TlbEnt) : Bool := x.die == e.die && x.ctl == e.ctl
  let kept := if 2048 ≤ (s.tlb.filter mine).length then
      (match s.tlb.find? mine with
        | some old => s.tlb.erase old
        | none => s.tlb)
    else s.tlb
  { s with tlb := kept ++ [e] }

/-- Resolves an address of a region of KIND 0, 1 or 2: walk, target check, and ownership of the frame and of the frame that
a fill of the line reads (R361, R363, R365). A tracked page leads to its current frame (R217). -/
def State.resolveIn (s : State) (c : AsidCtx) (kind die va : Nat) (need : Need) : Except LaneFault Target :=
  let wr := need = .write
  match walk s c va need with
  | .error f => .error f
  | .ok t =>
    if kind = 2 then
      if 2 ^ 51 ≤ t.hpa then .ok (.host (t.hpa % 2 ^ 51)) else .error (pageFault 5 false wr va 0)
    else if 2 ^ 40 ≤ t.hpa then .error (pageFault 5 false wr va 0)
    else
      let hpa := if t.trk
        then (match (s.page? c.asid va).bind (·.current) with
          | some f => f.hpa + va % 65536
          | none => t.hpa)
        else t.hpa
      if s.ownsFrame c.part hpa && (!t.trk || s.ownsFrame c.part (s.fillSource c.asid va hpa)) then .ok (.line die c.asid va hpa t)
      else .error (ownershipFault wr va)

/-- The package's own membership of a collective group in a partition (R462). -/
def State.coll? (s : State) (part group : Nat) : Option CollGroup :=
  s.colls.find? (fun c => c.part == part && c.group == group)

/-- Every member has announced itself, and none conflicts (R462). -/
def CollGroup.formed (c : CollGroup) : Bool :=
  !c.conflicted && (List.range c.members).all (fun r => c.announced.any (fun a => a.rank == r))

/-- The key of a partition's collective group. -/
def peerKey (part group : Nat) : Nat := 65536 * part + group

/-- The length of a peer's window (R462). -/
def State.peerWindow (s : State) (key rank : Nat) : Nat :=
  match s.peerLen.find? (fun e => e.1 == key && e.2.1 == rank) with
  | some e => e.2.2
  | none => 2 ^ 39

/-- Resolves an address below 2^57 for an access (R239, R361, R363, R365, R461). A KIND 3 address of the package's own
rank leads to its own window; a refused peer request is an Ownership fault, and so is one whose port is down (R460, R467, log
entry 30). -/
def State.resolve (s : State) (asid va : Nat) (need : Need) : Except LaneFault Target :=
  let wr := need = .write
  match s.asid? asid with
  | none => .error (pageFault 1 false wr va 0)
  | some c =>
    match regionOf c va with
    | none => .error (pageFault 1 false wr va 0)
    | some (3, die) =>
      let group := bits va 56 49
      let rank := bits va 48 39
      let off := bits va 38 0
      match s.coll? c.part group with
      | none => .error (ownershipFault wr va)
      | some g =>
        if !g.formed || g.members ≤ rank || s.peerRefuse.contains (peerKey c.part group, rank)
            || (rank != g.rank && s.peerWindow (peerKey c.part group) rank ≤ off) then .error (ownershipFault wr va)
        else if rank = g.rank then
          if g.wlen ≤ off then .error (ownershipFault wr va)
          else
            match s.asid? g.wasid with
            | none => .error (ownershipFault wr va)
            | some wc =>
              match regionOf wc (g.wbase + off) with
              | some (k, die) =>
                if k = 3 then .error (ownershipFault wr va)
                else
                  match s.resolveIn wc k die (g.wbase + off) need with
                  | .ok (.line d a v h t) => .ok (.line d a v h { t with own := true })
                  | .ok t => .ok t
                  | .error _ => .error (ownershipFault wr va)
              | none => .error (ownershipFault wr va)
        else if s.portUp.getLsbD (4 * die + bits va 7 6) then .ok (.peer (peerKey c.part group) rank off)
        else .error (ownershipFault wr va)
    | some (kind, die) => s.resolveIn c kind die va need

/-- The address is at or above 2^57 (R150). -/
def beyond57 (a : W64) : Bool := 2 ^ 57 ≤ a.toNat

/-! ### Ranges that a command is changing -/

/-- n bytes under an ASID meet a range that a command of firmware is changing: their accesses wait (R241, R367). -/
def State.shut (s : State) (asid va n : Nat) : Bool :=
  s.fwWait.any (fun w => w.shut.any (fun r => r.1 == asid && va < r.2.2 && r.2.1 < va + n))

/-- Some range of an ASID is being changed. -/
def State.shutIn (s : State) (asid : Nat) : Bool := s.fwWait.any (fun w => w.shut.any (fun r => r.1 == asid))

end Sys2Proof.Machine
end

