-- ==== Sys2Proof/Machine/Lines.lean ====
section
/-! DEFINITION. HBM under partition keys, the lines of home caches and remote-data caches, and the directory: its actions,
and its transactions as separate steps (R234, R245, R249 to R256, R269). Lines are held as plaintext; what a key changes is
what a line sealed under another key reads as (log entry 8). -/

namespace Sys2Proof.Machine

/-! ### HBM -/

/-- Key generation of an ASID's partition. -/
def State.genOf (s : State) (asid : Nat) : Nat :=
  (((s.asid? asid).bind (fun c => s.part? c.part)).map (·.keyGen)).getD 0

/-- A 64-byte line of HBM read under a key generation (R254, R255). A line sealed under another key has no recoverable
value. -/
def State.hbmLine (s : State) (pa gen : Nat) : LineData :=
  let a := pa / 64 * 64
  let sl := (s.seals.get (a / 64)).toNat
  if sl = 0 || sl = gen + 1 then s.hbm.line a else Config.scrambledLine ((a / 64) * 2 ^ 64 + sl * 2 ^ 32 + gen)

/-- Granules (8 bytes each) of new where the mask is set, of old elsewhere. -/
def mergeGranules (old new : LineData) (mask : BitVec 8) : LineData :=
  (List.range 8).foldl (fun l k =>
    if mask.getLsbD k then
      let m := (BitVec.setWidth 512 (BitVec.allOnes 64)) <<< (64 * k)
      (l &&& ~~~m) ||| (new &&& m)
    else l) old

/-- The 64 bytes of a line. -/
def lineList (l : LineData) : List Byte := lineBytes l 0 64

/-- Writes granules of an HBM line under a key generation, with their poison (R254, R256). -/
def State.writeHbmLine (s : State) (pa gen : Nat) (data : LineData) (mask poison : BitVec 8) : State :=
  let a := pa / 64 * 64
  let new := mergeGranules (s.hbmLine a gen) data mask
  let keep := s.poison.filter (fun p => !(p / 64 = a / 64 && mask.getLsbD (p % 64 / 8)))
  let bad := ((List.range 8).filter (fun k => mask.getLsbD k && poison.getLsbD k)).map (fun k => a + 8 * k)
  { s with hbm := s.hbm.setBytes a (lineList new), seals := s.seals.set (a / 64) (BitVec.ofNat 32 (gen + 1)),
           poison := keep ++ bad }

/-- Poison bits of an HBM line. -/
def State.hbmPoison (s : State) (pa : Nat) : BitVec 8 :=
  (List.range 8).foldl (fun m k => if s.poison.contains (pa / 64 * 64 + 8 * k) then m ||| ((1 : BitVec 8) <<< k) else m) 0

/-- The scope record kept with an HBM line under an ASID (R269, R357). -/
def State.hbmRecord (s : State) (asid pa : Nat) : ScopeRec :=
  match s.hbmScope.find? (fun e => e.1 == pa / 64 && e.2.1 == asid) with
  | some e => e.2.2
  | none => ScopeRec.none

/-! ### Lines of the caches -/

/-- The home-cache line of a tag. -/
def State.home? (s : State) (asid line : Nat) : Option HomeLine :=
  s.home.find? (fun h => h.asid == asid && h.line == line)

/-- Replaces or adds a home-cache line. -/
def State.putHome (s : State) (h : HomeLine) : State :=
  { s with home := h :: s.home.filter (fun x => !(x.asid == h.asid && x.line == h.line)) }

/-- Removes a home-cache line. -/
def State.delHome (s : State) (asid line : Nat) : State :=
  { s with home := s.home.filter (fun x => !(x.asid == asid && x.line == line)) }

/-- The RDC line of a die and tag. -/
def State.rdc? (s : State) (die asid line : Nat) : Option RdcLine :=
  s.rdc.find? (fun r => r.die == die && r.asid == asid && r.line == line)

/-- Removes an RDC line. -/
def State.delRdc (s : State) (die asid line : Nat) : State :=
  { s with rdc := s.rdc.filter (fun x => !(x.die == die && x.asid == asid && x.line == line)) }

/-- Replaces or adds an RDC line. -/
def State.putRdc (s : State) (r : RdcLine) : State :=
  { s with rdc := r :: (s.delRdc r.die r.asid r.line).rdc }

/-- The entry of a partition in the row in force (R404, R405). -/
def State.rowEnt? (s : State) (part : Nat) : Option RowEnt :=
  (s.rows[s.curRow]?).bind (fun r => r.ents.find? (fun e => e.part == part))

/-- The ways of n into which an ASID's partition allocates, by the mask of its row's entry; the fill buffer, way n, where the
row grants it none (R234, R405, log entry 23). -/
def State.waysOf (s : State) (asid n : Nat) (mask : RowEnt → Nat) : List Nat :=
  let granted := match (s.asid? asid).bind (fun c => s.rowEnt? c.part) with
    | some e => (List.range n).filter (fun w => (mask e).testBit w)
    | none => []
  if granted = [] then [n] else granted

/-- The larger of two times. -/
def maxT (a b : W64) : W64 := if a < b then b else a

/-- Granules in which two lines differ. -/
def diffGranules (a b : LineData) : BitVec 8 :=
  (List.range 8).foldl (fun m k =>
    if a.extractLsb' (64 * k) 64 != b.extractLsb' (64 * k) 64 then m ||| ((1 : BitVec 8) <<< k) else m) 0

/-- The home receives a copy that an RDC gives up: its lease record, the data and poison of a dirty state, and the scope record
that an owner holds (R245, R250, R251, R256, R269). -/
def HomeLine.absorb (h : HomeLine) (st : DirState) (data : LineData) (poison : BitVec 8) (gr : W64) (scope : ScopeRec) :
    HomeLine :=
  let h := { h with lr := maxT h.lr gr, scope := if st = .s then h.scope else scope }
  if st = .m || st = .o then
    { h with data := data, dirty := h.dirty ||| diffGranules h.data data ||| h.poison ||| poison, poison := poison }
  else h

/-- Clears or sets the bit of a die in a sharer vector. -/
def svDel (sv : BitVec 4) (d : Nat) : BitVec 4 := sv &&& ~~~((1 : BitVec 4) <<< d)
def svAdd (sv : BitVec 4) (d : Nat) : BitVec 4 := sv ||| ((1 : BitVec 4) <<< d)
/-- Dies of a sharer vector. -/
def svDies (sv : BitVec 4) : List Nat := (List.range 4).filter (fun d => sv.getLsbD d)

/-- Directory state with sharers only: S, or I when none remain (R251). -/
def HomeLine.sharersOnly (h : HomeLine) (sv : BitVec 4) : HomeLine :=
  { h with dir := if sv = 0 then .i else .s, sv := sv, owner := 0 }

/-- The directory's effect of a replacement notice (R251). -/
def HomeLine.notice (h : HomeLine) (n : Notice) : HomeLine :=
  let h := h.absorb n.st n.data n.poison n.gr n.scope
  match n.st with
  | .s => (match h.dir with
    | .o => { h with sv := svDel h.sv n.die }
    | _ => h.sharersOnly (svDel h.sv n.die))
  | .o => h.sharersOnly h.sv
  | _ => { h with dir := .i, sv := 0, owner := 0 }

/-- The notice in flight from a die for a line (R252). -/
def State.notice? (s : State) (die asid line : Nat) : Option Notice :=
  s.notices.find? (fun n => n.die == die && n.asid == asid && n.line == line)

/-- Removes the notice of a die for a line. -/
def State.delNotice (s : State) (die asid line : Nat) : State :=
  { s with notices := s.notices.filter (fun n => !(n.die == die && n.asid == asid && n.line == line)) }

/-- Takes in a notice that is in flight (R251, R252). -/
def State.takeNotice (s : State) (die asid line : Nat) : State :=
  match s.notice? die asid line, s.home? asid line with
  | some n, some h => (s.delNotice die asid line).putHome (h.notice n)
  | some _, none => s.delNotice die asid line
  | none, _ => s

/-- The RDC of a die gives up its copy and reports GR, writing data back when dirty; a die that has sent a notice is
answered for by the notice (R245, R250, R252). -/
def State.rdcGiveUp (s : State) (die asid line : Nat) : State :=
  match s.rdc? die asid line with
  | none => s.takeNotice die asid line
  | some r =>
    match s.home? asid line with
    | none => s.delRdc die asid line
    | some h =>
      (s.delRdc die asid line).putHome (h.absorb r.st r.data r.poison r.gr r.scope)

/-- The owner's RDC becomes a sharer, writing data back when dirty and reporting GR (R250). -/
def State.rdcShare (s : State) (die asid line : Nat) : State :=
  match s.rdc? die asid line with
  | none => s.takeNotice die asid line
  | some r =>
    match s.home? asid line with
    | none => s
    | some h =>
      (s.putRdc { r with st := .s }).putHome (h.absorb r.st r.data r.poison r.gr r.scope)

/-- The dies that a directory request must reach first (R250). -/
def HomeLine.holders (h : HomeLine) : List Nat :=
  match h.dir with
  | .i => []
  | .s => svDies h.sv
  | .e | .m => [h.owner]
  | .o => if svDies h.sv |>.contains h.owner then svDies h.sv else svDies h.sv ++ [h.owner]

/-- An RDC replaces a line and sends its notice (R251). -/
def State.rdcReplace (s : State) (die asid line : Nat) : State :=
  match s.rdc? die asid line with
  | none => s
  | some r => { s.delRdc die asid line with notices := s.notices ++ [⟨die, asid, line, r.st, r.data, r.poison, r.gr, r.scope⟩] }

/-- Recall: every RDC gives its copy up and the directory state becomes I (R250). -/
def State.dirRecall (s : State) (asid line : Nat) : State :=
  match s.home? asid line with
  | none => s
  | some h =>
    let s := h.holders.foldl (fun s d => s.rdcGiveUp d asid line) s
    match s.home? asid line with
    | none => s
    | some h => s.putHome { h with dir := .i, sv := 0, owner := 0 }

/-- Read miss from a core of the home die (R250). -/
def State.dirReadMiss (s : State) (asid line : Nat) : State :=
  match s.home? asid line with
  | none => s
  | some h =>
    match h.dir with
    | .i | .s => s
    | _ =>
      let s := s.rdcShare h.owner asid line
      match s.home? asid line with
      | none => s
      | some h' =>
        let sv := if (s.rdc? h.owner asid line).isSome then svAdd h'.sv h.owner else svDel h'.sv h.owner
        s.putHome (h'.sharersOnly sv)

/-- A new RDC line with what the home holds. -/
def rdcOf (h : HomeLine) (d : Nat) (st : DirState) : RdcLine :=
  ⟨d, h.asid, h.line, 0, st, h.data, h.poison, if st = .e || st = .m then h.lr else 0, h.scope⟩

/-- The set of an RDC that a line falls in: 65,536 sets of 16 ways (R234). -/
def rdcSet (line : Nat) : Nat := line % 65536

/-- An RDC takes a line in: over its own copy, in a free granted way, or in the way of the set's oldest line in a granted
way, which it replaces with a notice (R234, R251). -/
def State.fillRdc (s : State) (r : RdcLine) : State :=
  match s.rdc? r.die r.asid r.line with
  | some x => s.putRdc { r with way := x.way }
  | none =>
    let ways := s.waysOf r.asid 16 (fun e => e.rdcw.toNat)
    let set := s.rdc.filter (fun x => x.die == r.die && rdcSet x.line == rdcSet r.line)
    match ways.find? (fun w => !set.any (fun x => x.way == w)) with
    | some w => s.putRdc { r with way := w }
    | none =>
      match set.reverse.find? (fun x => ways.contains x.way) with
      | some x => (s.rdcReplace x.die x.asid x.line).putRdc { r with way := x.way }
      | none => s.putRdc r

/-- The home grants a line that no owner holds to the RDC of die d: in E where no RDC shares it, in S otherwise (R250). -/
def State.grantS (s : State) (d asid line : Nat) : State :=
  match s.home? asid line with
  | none => s
  | some h =>
    if h.dir = .s then (s.fillRdc (rdcOf h d .s)).putHome { h with sv := svAdd h.sv d }
    else (s.fillRdc (rdcOf h d .e)).putHome { h with dir := .e, owner := d, sv := 0 }

/-- GetS from the RDC of die d, after a notice that the die itself has on its way; an owner that is gone is answered for by its
notice, whose state the grant then follows (R250, R252). -/
def State.dirGetS (s : State) (d asid line : Nat) : State :=
  let s := s.takeNotice d asid line
  match s.home? asid line with
  | none => s
  | some h =>
    match h.dir with
    | .i | .s => s.grantS d asid line
    | .e | .m =>
      if h.owner = d then s
      else if (s.rdc? h.owner asid line).isNone then (s.takeNotice h.owner asid line).grantS d asid line
      else
        let s := s.rdcShare h.owner asid line
        (match s.home? asid line with
          | none => s
          | some h' => (s.fillRdc (rdcOf h' d .s)).putHome { h' with dir := .s, sv := svAdd (svAdd 0 h.owner) d, owner := 0 })
    | .o =>
      match s.rdc? h.owner asid line with
      | some r => (s.fillRdc { rdcOf h d .s with data := r.data, poison := r.poison }).putHome { h with sv := svAdd h.sv d, lr := maxT h.lr r.gr }
      | none => (s.takeNotice h.owner asid line).grantS d asid line

/-- GetM from the RDC of die d; its own copy is no invalidation's target, its own record stands under the grant's, and a notice
that it has on its way comes first (R245, R250, R252). -/
def State.dirGetM (s : State) (d asid line : Nat) : State :=
  let s := if (s.rdc? d asid line).isSome then s else s.takeNotice d asid line
  match s.home? asid line with
  | none => s
  | some h =>
    let own := s.rdc? d asid line
    let s := (h.holders.filter (· != d)).foldl (fun s e => s.rdcGiveUp e asid line) s
    match s.home? asid line with
    | none => s
    | some h' =>
      let r : RdcLine := match own with
        | some r => if h.owner = d && (r.st = .m || r.st = .o || r.st = .e)
          then { r with st := .m, gr := maxT r.gr h'.lr } else { rdcOf h' d .m with gr := maxT r.gr h'.lr }
        | none => rdcOf h' d .m
      (s.fillRdc r).putHome { h' with dir := .m, owner := d, sv := 0 }

/-! ### Transactions as separate steps -/

/-- The dies that a request must hear from before it completes (R250). -/
def HomeLine.targets (h : HomeLine) : DirReq → List Nat
  | .getS d => (match h.dir with
    | .e | .m | .o => [h.owner].filter (· != d)
    | _ => [])
  | .getM d => h.holders.filter (· != d)
  | .readMiss => (match h.dir with
    | .e | .m | .o => [h.owner]
    | _ => [])
  | .recall => h.holders

/-- The directory's action once every report is merged (R250). -/
def State.finishReq (s : State) (asid line : Nat) : DirReq → State
  | .getS d => s.dirGetS d asid line
  | .getM d => s.dirGetM d asid line
  | .readMiss => s.dirReadMiss asid line
  | .recall => s.dirRecall asid line

/-- Starts a request at a line that is not busy: it completes at once when no die must answer (R249, R250). -/
def State.beginReq (s : State) (asid line : Nat) (r : DirReq) : State :=
  match s.home? asid line with
  | none => s
  | some h =>
    let t := h.targets r
    if t = [] then s.finishReq asid line r else s.putHome { h with busy := some ⟨r, t, []⟩ }

/-- A request is in progress at the line, or one waits to begin. -/
def HomeLine.taken (h : HomeLine) : Bool := h.busy.isSome || h.queue != []

/-- The die that a request comes from: a core's read miss and a recall come from the home die. -/
def DirReq.die (home : Nat) : DirReq → Nat
  | .getS d => d
  | .getM d => d
  | _ => home

/-- A request reaches the home and joins the line's queue, behind earlier arrivals and behind those of the same cycle from a
lower die (R249, R257). It begins at the end of the cycle. -/
def State.dirRequest (s : State) (asid line : Nat) (r : DirReq) : State :=
  match s.home? asid line with
  | none => s
  | some h =>
    s.putHome { h with queue := insertBy (fun a b => a.1 == b.1 && a.2.die h.die < b.2.die h.die) (s.cycle 0, r) h.queue }

/-- Requests queued at a line start in order until one of them makes it busy. -/
def State.startQueued (s : State) (asid line : Nat) : List (W64 × DirReq) → State
  | [] => s
  | r :: rest =>
    match s.home? asid line with
    | none => s
    | some h => if h.busy.isSome then s.putHome { h with queue := r :: rest } else (s.beginReq asid line r.2).startQueued asid line rest

/-- The requests that wait at a line begin, unless one is in progress (R249). -/
def State.startLine (s : State) (asid line : Nat) : State :=
  match s.home? asid line with
  | none => s
  | some h => if h.busy.isSome then s else (s.putHome { h with queue := [] }).startQueued asid line h.queue

/-- At the end of a cycle the requests that reached lines with none in progress begin (R249). -/
def State.startLines (s : State) : State :=
  (s.home.filter (fun h => h.busy.isNone && h.queue != [])).foldl (fun s h => s.startLine h.asid h.line) s

/-- Completes the request in progress once no die is still to answer (R250, R252). -/
def State.settleBusy (s : State) (asid line : Nat) : State :=
  match s.home? asid line with
  | none => s
  | some h =>
    match h.busy with
    | none => s
    | some b =>
      if b.waitFor = [] && b.gone = [] then
        ((s.putHome { h with busy := none, queue := [] }).finishReq asid line b.req).startQueued asid line h.queue
      else s

/-- Takes a die off the lists of a busy line; `gone` puts it on the list of dies whose notice is awaited (R252). -/
def HomeLine.answered (h : HomeLine) (die : Nat) (gone : Bool) : HomeLine :=
  { h with busy := h.busy.map (fun b => { b with
      waitFor := b.waitFor.filter (· != die)
      gone := if gone then b.gone ++ [die] else b.gone.filter (· != die) }) }

/-- A forward or invalidation of the request in progress reaches the RDC of a die (R250, R252). -/
def State.forwardAt (s : State) (die asid line : Nat) : State :=
  match s.home? asid line with
  | none => s
  | some h =>
    match h.busy with
    | none => s
    | some b =>
      if !b.waitFor.contains die then s
      else
        let gone := (s.rdc? die asid line).isNone && (s.notice? die asid line).isSome
        let s := if gone then s else
          match b.req with
          | .getS _ => if h.dir = DirState.o then s else s.rdcShare die asid line
          | .readMiss => s.rdcShare die asid line
          | _ => s.rdcGiveUp die asid line
        match s.home? asid line with
        | none => s
        | some h => (s.putHome (h.answered die gone)).settleBusy asid line

/-- The notice of a die for a line reaches the home (R251, R252). -/
def State.noticeArrives (s : State) (die asid line : Nat) : State :=
  match s.notice? die asid line with
  | none => s
  | some _ =>
    let s := s.takeNotice die asid line
    match s.home? asid line with
    | none => s
    | some h => (s.putHome (h.answered die false)).settleBusy asid line

/-- A replacement notice of a given state reaches the home (R251, R252). -/
def State.noticeAt (s : State) (die asid line : Nat) (st : DirState) : State :=
  match s.notice? die asid line with
  | none => s
  | some n => if n.st = st then s.noticeArrives die asid line else s

/-- The request in progress at a line completes: every die still to answer answers, and every notice awaited arrives. Where
none is in progress, those that wait begin (R249, R250, R252). -/
def State.quietOnce (s : State) (asid line : Nat) : State :=
  match s.home? asid line with
  | none => s
  | some h =>
    match h.busy with
    | none => s.startLine asid line
    | some b =>
      let s := b.waitFor.foldl (fun s d => s.forwardAt d asid line) s
      (b.gone ++ b.waitFor).foldl (fun s d =>
        if ((s.home? asid line).bind (·.busy)).any (fun b => b.gone.contains d) then s.noticeArrives d asid line else s) s

/-- Every request in progress or waiting at a line completes, as an access that comes after them waits for them to (R249). -/
def State.quietLine (s : State) (asid line : Nat) : State :=
  match s.home? asid line with
  | none => s
  | some h => if h.taken then (List.range (2 * h.queue.length + 3)).foldl (fun s _ => s.quietOnce asid line) s else s

end Sys2Proof.Machine
end

