-- ==== Sys2Proof/Machine/Hierarchy.lean ====
section
/-! DEFINITION. Fills, evictions and write-backs of home caches, reads and writes of a line, tracked pages, and coherent
accesses of the engines (R217 to R224, R227, R244 to R246, R254, R257, R267, R269). -/

namespace Sys2Proof.Machine

/-! ### Home cache -/

/-- The set of a home cache that a line falls in: 131,072 sets of 32 ways (R234). -/
def homeSet (die line : Nat) : Nat := die * 131072 + line % 131072

/-- The eviction bound of a set (R245). -/
def State.evictBoundOf (s : State) (die line : Nat) : W64 :=
  match s.evictBound.find? (fun e => e.1 == homeSet die line) with
  | some e => e.2
  | none => 0

/-- A write-back of a line may write: its page lets writes through (R361). -/
def State.mayWriteBack (s : State) (asid line : Nat) : Bool :=
  match s.asid? asid with
  | none => true
  | some c =>
    match walk s c (line * 64) .write with
    | .error f => !(f.cause == 0x08 && f.reason == 3)
    | .ok _ => true

/-- Writes a home-cache line's dirty granules back; a refused write-back discards them, poisons the frame's granules and
reaches firmware (R231, R254, R361, R365). -/
def State.writeBackHome (s : State) (asid line : Nat) : State :=
  match s.home? asid line with
  | none => s
  | some h =>
    if h.dirty = 0 then s
    else
      let part := ((s.asid? asid).map (·.part)).getD 0
      let s' :=
        if s.ownsFrame part h.backing && s.mayWriteBack asid line then s.writeHbmLine h.backing (s.genOf asid) h.data h.dirty h.poison
        else
          ({ s with poison := s.poison ++ ((List.range 8).filter (fun k => h.dirty.getLsbD k)).map (fun k => h.backing + 8 * k) }).machineRecord
      s'.putHome { h with dirty := 0 }

/-- The home cache gives a line up: its LR enters the set's eviction bound, its record the line's metadata (R245, R269). -/
def State.leaveHome (s : State) (asid line : Nat) : State :=
  match s.home? asid line with
  | none => s
  | some h =>
    let k := homeSet h.die line
    let eb := maxT (s.evictBoundOf h.die line) h.lr
    { s.delHome asid line with
      evictBound := (k, eb) :: s.evictBound.filter (fun e => e.1 != k)
      hbmScope := (if h.scope.valid then [(h.backing / 64, asid, h.scope)] else [])
        ++ s.hbmScope.filter (fun e => !(e.1 == h.backing / 64 && e.2.1 == asid)) }

/-- Evicts a home-cache line once its requests have completed, after a recall (R245, R249, R269). -/
def State.evictHome (s : State) (asid line : Nat) : State :=
  (((s.quietLine asid line).dirRecall asid line).writeBackHome asid line).leaveHome asid line

/-- The lines of the set of a home cache that a line falls in. -/
def State.setOf (s : State) (die line : Nat) : List HomeLine :=
  s.home.filter (fun h => h.die == die && homeSet die h.line == homeSet die line)

/-- Fills a home-cache line (R222, R234, R245, R254, R269): in a free granted way of its set, or in that of the oldest line
in a granted way that has no request in progress, which is evicted. While there is none the fill waits (R257). -/
def State.fillHome (s : State) (die asid va hpa : Nat) : State :=
  let line := va / 64
  if (s.home? asid line).isSome then s
  else
    let ways := s.waysOf asid 32 (fun e => e.hcw.toNat)
    let set := s.setOf die line
    let put (s : State) (way : Nat) : State :=
      let src := s.fillSource asid va hpa
      s.putHome ⟨asid, line, die, way, s.hbmLine src (s.genOf asid), 0, s.hbmPoison src, src, .i, 0, 0,
        s.evictBoundOf die line, s.hbmRecord asid src, none, []⟩
    match ways.find? (fun w => !set.any (fun x => x.way == w)) with
    | some w => put s w
    | none =>
      match set.reverse.find? (fun x => ways.contains x.way && !x.taken) with
      | some x => put (s.evictHome x.asid x.line) x.way
      | none => s

/-- The line of an address is free for an access that waits: the requests at it have completed, and where it is not cached
its set has room (R249, R257). -/
def State.settleLine (s : State) (asid va : Nat) : State :=
  match s.resolve asid va .read with
  | .ok (.line die a v hpa _) =>
    let s := s.quietLine a (v / 64)
    if ((s.fillHome die a v hpa).home? a (v / 64)).isSome then s
    else (s.setOf die (v / 64)).foldl (fun s h => s.quietLine h.asid h.line) s
  | _ => s

/-- Drops every L1 copy of the lines of an ASID that satisfy p. -/
def State.dropL1 (s : State) (p : L1Line → Bool) : State := { s with l1 := s.l1.filter (fun x => !p x) }

/-- Drops the lines of path caches that satisfy p. -/
def State.dropPath (s : State) (p : PathLine → Bool) : State := { s with pathLines := s.pathLines.filter (fun x => !p x) }

/-- Evicts the lines of an ASID that satisfy p from every L1, path cache, RDC and home cache (R241, R367). -/
def State.evictLines (s : State) (asid : Nat) (p : Nat → Bool) : State :=
  let s := (s.dropL1 (fun x => x.asid == asid && p x.line)).dropPath (fun x => x.asid == asid && p x.line)
  (s.home.filter (fun h => h.asid == asid && p h.line)).foldl (fun s h => s.evictHome asid h.line) s

/-- The largest lease record of the lines of an ASID that satisfy p (R241, R245). -/
def State.leaseBound (s : State) (asid : Nat) (p : Nat → Bool) : W64 :=
  let t := (s.home.filter (fun h => h.asid == asid && p h.line)).foldl (fun w h => maxT w h.lr) 0
  let t := (s.rdc.filter (fun r => r.asid == asid && p r.line)).foldl (fun w r => maxT w r.gr) t
  (s.notices.filter (fun n => n.asid == asid && p n.line)).foldl (fun w n => maxT w n.gr) t

/-! ### Reads and writes of a line -/

/-- A line as a party serves it. -/
structure Served where
  data : LineData
  poison : BitVec 8
  scope : ScopeRec
  gr : W64

/-- Serves a read of a line for a core on a die: at the home cache for lines homed there, at the die's RDC otherwise
(R244, R250). None while the line finds no room in its home cache (R257). -/
def State.serveRead (s : State) (die home asid va hpa : Nat) : Option (State × Served) :=
  let line := va / 64
  let s := s.fillHome home asid va hpa
  if (s.home? asid line).isNone then none
  else if die = home then
    let s := s.dirReadMiss asid line
    (s.home? asid line).map (fun h => (s, ⟨h.data, h.poison, h.scope, h.lr⟩))
  else
    let s := if (s.rdc? die asid line).isSome then s else (s.takeNotice die asid line).dirGetS die asid line
    (s.rdc? die asid line).map (fun r => (s, ⟨r.data, r.poison, r.scope, r.gr⟩))

/-- Records a lease expiry at the party that granted it (R245). -/
def State.recordLease (s : State) (die home asid line : Nat) (e : W64) : State :=
  if die = home then
    match s.home? asid line with
    | some h => s.putHome { h with lr := maxT h.lr e }
    | none => s
  else
    match s.rdc? die asid line with
    | some r => s.putRdc { r with gr := maxT r.gr e }
    | none => s

/-- Sets bytes of a line from offset k, clearing the poison of granules written whole (R256). -/
def putBytes (data : LineData) (poison : BitVec 8) (k : Nat) (bs : List Byte) : LineData × BitVec 8 × BitVec 8 :=
  let n := bs.length
  let touched := (List.range 8).foldl (fun m g => if k < 8 * g + 8 && 8 * g < k + n then m ||| ((1 : BitVec 8) <<< g) else m) 0
  let whole := (List.range 8).foldl (fun m g => if k ≤ 8 * g && 8 * g + 8 ≤ k + n then m ||| ((1 : BitVec 8) <<< g) else m) 0
  (lineSet data k bs, touched, poison &&& ~~~whole)

/-- Age of a step relative to the writers' step (R220). -/
def stepAge (wstep n : W32) : Nat := (wstep - n).toNat

/-- Whether a step is past (R220). -/
def pastStep (wstep n : W32) : Bool := 1 ≤ stepAge wstep n && stepAge wstep n ≤ 2 ^ 31

/-- A retained frame covers a past step from its base up to its end (R221). -/
def Frame.covers (f : Frame) (wstep n : W32) : Bool :=
  stepAge wstep n ≤ stepAge wstep f.base &&
    match f.stop with
    | none => true
    | some e => stepAge wstep e < stepAge wstep n

/-- Some held step falls among the steps that a frame covers (R227). -/
def Frame.held (f : Frame) (fs : FieldSet) : Bool :=
  fs.holds.any (fun h => pastStep fs.wstep h.1 && f.covers fs.wstep h.1)

/-- A retained frame that no hold covers is released (R227). -/
def Frame.settle (f : Frame) (fs : FieldSet) : Frame :=
  match f.state with
  | .retained => if f.held fs then f else { f with state := .released }
  | _ => f

/-- A write to a page meets no DEPTH: the page has room for a frame, or its newest frame is of the writers' step
(R223, R224). -/
def State.depthFree (s : State) (asid va : Nat) : Bool :=
  match s.page? asid va with
  | some p => p.frames.length < 4 || (match s.fset? p.part p.fset, p.current with
    | some f, some c => c.base == f.wstep
    | _, _ => false)
  | none => true

/-- Allocates a frame for the writers' step when the current frame is older (R223): the one longest in the pool, as the manual
names none (DESIGN CHOICE, log entry 54). -/
def State.nextFrame (s : State) (p : TrackedPage) (va : Nat) : Except LaneFault State :=
  match s.fset? p.part p.fset, p.current with
  | some f, some c =>
    if c.base = f.wstep then .ok s
    else if 4 ≤ p.frames.length then .error ⟨0x13, 9, false, true, BitVec.ofNat 64 va, 0, some p.fset, 0⟩
    else
      match f.pool with
      | [] => .error ⟨0x13, 8, false, true, BitVec.ofNat 64 va, 0, some p.fset, 0⟩
      | h :: rest =>
        let s := s.modFset p.part p.fset (fun f => { f with pool := rest })
        .ok (s.modPage p.asid p.page (fun p =>
          match p.frames with
          | [] => p
          | c :: older => { p with frames := ⟨h, f.wstep, 0, .current, none⟩ ::
              (Frame.settle { c with state := .retained, stop := some f.wstep } f) :: older }))
  | _, _ => .ok s

/-- Copies line i into the current frame before its first write there: the cached line leaves its dirty data in the frame
it belonged to, takes that frame's line as it then stands, and continues under the current frame (R223, R232). -/
def State.copyLine (s : State) (asid va : Nat) : State :=
  let i := va % 65536 / 64
  match s.page? asid va with
  | none => s
  | some p =>
    match p.frames with
    | [] => s
    | c :: older =>
      if c.bitmap.getLsbD i then s
      else
        let s := s.writeBackHome asid (va / 64)
        let s := s.modPage asid p.page (fun p => { p with frames := { c with bitmap := c.bitmap ||| ((1 : BitVec 1024) <<< i) } :: older })
        match s.home? asid (va / 64) with
        | some h => s.putHome { h with backing := c.hpa + i * 64, dirty := 0xFF
                                       data := s.hbmLine h.backing (s.genOf asid), poison := s.hbmPoison h.backing }
        | none => s

/-- The current frame of a tracked page, into which a write goes and a copy is made, belongs to the page's partition (R365). -/
def State.ownsCurrent (s : State) (asid va : Nat) : Bool :=
  match s.page? asid va with
  | some p => p.current.all (fun c => s.ownsFrame p.part c.hpa)
  | none => true

/-- The home applies bytes to a line after a recall: the new state and LR, read after every merge (R223, R246). The copy
rule of a tracked page is one action with the write. -/
def State.homeApply (s : State) (home asid va hpa : Nat) (bs : List Byte) (tracked : Bool) : Except LaneFault (State × W64) :=
  let line := va / 64
  let s0 := (s.fillHome home asid va hpa).dirRecall asid line
  let s1 : Except LaneFault State :=
    if tracked then
      match s0.page? asid va with
      | some p =>
        (match s0.nextFrame p va with
          | .error f => .error f
          | .ok s => if s.ownsCurrent asid va then .ok (s.copyLine asid va) else .error (ownershipFault true va))
      | none => .ok s0
    else .ok s0
  match s1 with
  | .error f => .error f
  | .ok s =>
    match s.home? asid line with
    | none => .ok (s, 0)
    | some h =>
      let (d, touched, po) := putBytes h.data h.poison (va % 64) bs
      .ok (s.putHome { h with data := d, dirty := h.dirty ||| touched, poison := po }, h.lr)

/-- The RDC of a remote die takes a line in M (R250). -/
def State.rdcAcquire (s : State) (die home asid va hpa : Nat) : State :=
  let line := va / 64
  let s := s.fillHome home asid va hpa
  match s.rdc? die asid line with
  | some r => if r.st = DirState.m then s else if r.st = DirState.e then s.putRdc { r with st := DirState.m } else s.dirGetM die asid line
  | none => (s.takeNotice die asid line).dirGetM die asid line

/-- The RDC of a remote die applies bytes to a line it holds in M (R246, R250). -/
def State.rdcApply (s : State) (die home asid va hpa : Nat) (bs : List Byte) : State × W64 :=
  let line := va / 64
  let s := s.rdcAcquire die home asid va hpa
  match s.rdc? die asid line with
  | none => (s, 0)
  | some r =>
    let (d, _, po) := putBytes r.data r.poison (va % 64) bs
    (s.putRdc { r with data := d, poison := po, st := .m }, r.gr)

/-! ### Coherent reads and engine writes -/

/-- n bytes at an address inside one line, read at the applying party (R267). The read comes after the requests that are in
progress at the line (R249). -/
def State.engineRead (s : State) (asid va n : Nat) : Except LaneFault (State × List Byte × Bool) :=
  let s := s.settleLine asid va
  match s.resolve asid va .read with
  | .error f => .error f
  | .ok (.host b) => .ok (s, s.hostMem.bytes b n, false)
  | .ok (.peer g r o) => .ok (s, s.peerMem.bytes (g * 2 ^ 49 + r * 2 ^ 39 + o) n, false)
  | .ok (.line die a v hpa _) =>
    match s.serveRead die die a v hpa with
    | none => .ok (s, List.replicate n 0, false)
    | some (s, l) => .ok (s, lineBytes l.data (v % 64) n,
      (List.range 8).any (fun g => l.poison.getLsbD g && v % 64 < 8 * g + 8 && 8 * g < v % 64 + n))

/-- Writes bytes inside one line at the home, as the engines and host DMA do (R267): the lease record of the line too. The
write comes after the requests that are in progress at the line (R249). -/
def State.engineWrite (s : State) (asid va : Nat) (bs : List Byte) : Except LaneFault (State × W64) :=
  let s := s.settleLine asid va
  match s.resolve asid va .write with
  | .error f => .error f
  | .ok (.host b) => .ok ({ s with hostMem := s.hostMem.setBytes b bs }, 0)
  | .ok (.peer g r o) => .ok ({ s with peerMem := s.peerMem.setBytes (g * 2 ^ 49 + r * 2 ^ 39 + o) bs }, 0)
  | .ok (.line die a v hpa t) => s.homeApply die a v hpa bs t.trk

/-- Some granule of n bytes at offset k is poisoned. -/
def poisonedAt (p : BitVec 8) (k n : Nat) : Bool :=
  (List.range 8).any (fun g => p.getLsbD g && k < 8 * g + 8 && 8 * g < k + n)

/-! ### Lines as they stand -/

/-- The frame that covers a past step (R221). -/
def TrackedPage.coverOf (p : TrackedPage) (wstep n : W32) : Option Frame := p.frames.find? (fun f => f.covers wstep n)

/-- The frame that serves line i of a page, from a frame of the chain on (R222). -/
def TrackedPage.serveAt (p : TrackedPage) (f : Frame) (i : Nat) : Option Frame :=
  serveFrom (p.frames.dropWhile (fun x => x.hpa != f.hpa)) i

/-- Bytes of a line of a frame: the cached line while it is backed by that frame, HBM otherwise (R222). -/
def State.frameBytes (s : State) (asid va n : Nat) (f : Frame) : List Byte × Bool :=
  let pa := f.hpa + va % 65536 / 64 * 64
  match s.home? asid (va / 64) with
  | some h =>
    if h.backing = pa then
      let (data, po) : LineData × BitVec 8 := match s.rdc? h.owner asid (va / 64) with
        | some r => if h.dir = .m || h.dir = .o || h.dir = .e then (r.data, r.poison) else (h.data, h.poison)
        | none => (h.data, h.poison)
      (lineBytes data (va % 64) n, poisonedAt po (va % 64) n)
    else (lineBytes (s.hbmLine pa (s.genOf asid)) (va % 64) n, poisonedAt (s.hbmPoison pa) (va % 64) n)
  | none => (lineBytes (s.hbmLine pa (s.genOf asid)) (va % 64) n, poisonedAt (s.hbmPoison pa) (va % 64) n)

/-- The line that a coherent read returns now, with its poison: the cached copy with the newest data, or memory; for a
past step of a tracked page under a view, the line of the frame that serves it (R156, R222, R267, R349, R377). -/
def State.lineNow (s : State) (asid va : Nat) (need : Need) (view : Option W64) : Except LaneFault (LineData × BitVec 8) :=
  if 2 ^ 57 ≤ va then .error (pageFault 0 false false va 0)
  else if view.any (fun w => 2 ^ 38 ≤ w.toNat) then .error (versionFault 0 va)
  else
    match s.resolve asid va need with
    | .error f => .error f
    | .ok (.line _ a v hpa t) =>
      let cur : LineData × BitVec 8 :=
        match s.home? a (v / 64) with
        | some h =>
          (match s.rdc? h.owner a (v / 64) with
            | some r => if h.dir = .m || h.dir = .o || h.dir = .e then (r.data, r.poison) else (h.data, h.poison)
            | none => (h.data, h.poison))
        | none => (s.hbmLine (s.fillSource a v hpa) (s.genOf a), s.hbmPoison (s.fillSource a v hpa))
      (match view, (if t.trk then s.page? a v else none) with
        | some w, some p =>
          if p.fset != bits w.toNat 37 32 then .error (versionFault 1 va)
          else
            match s.fset? p.part p.fset with
            | none => .error (versionFault 1 va)
            | some fs =>
              let step : W32 := w.setWidth 32
              if !pastStep fs.wstep step then .ok cur
              else
                match p.coverOf fs.wstep step with
                | none => .error (versionFault 2 va)
                | some f =>
                  if f.state = .released then .error (versionFault 3 va)
                  else
                    match p.serveAt f (v % 65536 / 64) with
                    | none => .error (versionFault 2 va)
                    | some f =>
                      let pa := f.hpa + v % 65536 / 64 * 64
                      if !s.ownsFrame p.part f.hpa then .error (ownershipFault false va)
                      else if (s.home? a (v / 64)).any (fun h => h.backing == pa) then .ok cur
                      else .ok (s.hbmLine pa (s.genOf a), s.hbmPoison pa)
        | _, _ => .ok cur)
    | .ok (.host b) => .ok (s.hostMem.line (b / 64 * 64), 0)
    | .ok (.peer g r off) => .ok (s.peerMem.line ((g * 2 ^ 49 + r * 2 ^ 39 + off) / 64 * 64), 0)

/-! ### Accesses of any length -/

/-- Splits [va, va + n) at line boundaries: (address, length) pieces, with fuel for the number of lines. -/
def linePieces : Nat → Nat → Nat → List (Nat × Nat)
  | 0, _, _ => []
  | fuel + 1, va, n =>
    if n = 0 then []
    else
      let k := min n (64 - va % 64)
      (va, k) :: linePieces fuel (va + k) (n - k)

/-- The pieces of a range. -/
def piecesOf (va n : Nat) : List (Nat × Nat) := linePieces (n / 64 + 2) va n

/-- n bytes from an address, any length (R267). The flag tells of a poisoned granule. -/
def State.engineReadAll (s : State) (asid va n : Nat) : Except LaneFault (State × List Byte × Bool) :=
  (piecesOf va n).foldl (fun r p =>
    match r with
    | .error f => .error f
    | .ok (s, bs, bad) =>
      match s.engineRead asid p.1 p.2 with
      | .error f => .error f
      | .ok (s', b, bad') => .ok (s', bs ++ b, bad || bad')) (.ok (s, [], false))

/-- A line that a path cache of a core holds. -/
def State.pathLine? (s : State) (path core asid line : Nat) : Option PathLine :=
  s.pathLines.find? (fun x => x.path == path && x.core == core && x.asid == asid && x.line == line)

/-- n bytes as an engine path of a core reads them: from the path's cache, or at the applying party (R161, R267). -/
def State.pathRead (s : State) (path core asid va n : Nat) : Except LaneFault (State × List Byte × Bool) :=
  (piecesOf va n).foldl (fun r p =>
    match r with
    | .error f => .error f
    | .ok (s, bs, bad) =>
      match s.pathLine? path core asid (p.1 / 64) with
      | some x => .ok (s, bs ++ lineBytes x.data (p.1 % 64) p.2, bad || poisonedAt x.poison (p.1 % 64) p.2)
      | none =>
        match s.engineRead asid p.1 p.2 with
        | .error f => .error f
        | .ok (s', b, bad') => .ok (s', bs ++ b, bad || bad')) (.ok (s, [], false))

/-- Writes bytes from an address, line by line, with the largest lease record of the lines written; path caches drop the lines
(R223, R267). -/
def State.engineWriteLr (s : State) (asid va : Nat) (bs : List Byte) : Except LaneFault (State × W64) :=
  (piecesOf va bs.length).foldl (fun r p =>
    match r with
    | .error f => .error f
    | .ok (s, w) =>
      match s.engineWrite asid p.1 ((bs.drop (p.1 - va)).take p.2) with
      | .error f => .error f
      | .ok (s', lr) => .ok (s'.dropPath (fun x => x.asid == asid && x.line == p.1 / 64), maxT w lr)) (.ok (s, 0))

/-- Writes bytes from an address (R223, R267). -/
def State.engineWriteAll (s : State) (asid va : Nat) (bs : List Byte) : Except LaneFault State :=
  (s.engineWriteLr asid va bs).map (·.1)

/-- A little-endian number of n bytes read coherently; none when the read faults. -/
def State.engineNat (s : State) (asid va n : Nat) : Except LaneFault (State × Nat × Bool) :=
  (s.engineReadAll asid va n).map (fun r => (r.1, leNat r.2.1, r.2.2))

end Sys2Proof.Machine
end

