-- ==== Sys2Proof/Machine/MatrixShape.lean ====
section
/-! DEFINITION. Tile elements, the checks of R283, and the arithmetic of the matrix engine (R280 to R299). -/

namespace Sys2Proof.Machine

/-! ### Tiles -/

/-- Replaces tile k of a workgroup. -/
def Workgroup.modTile (w : Workgroup) (k : Nat) (f : Tile → Tile) : Workgroup :=
  { w with tiles := w.tiles.mapIdx (fun i t => if i = k then f t else t) }

/-- Scale entry e (R290). -/
def Tile.scale (t : Tile) (e : Nat) : Byte := t.scales.get e ^^^ 0x7F

/-- Writes scale entry e. -/
def Tile.setScale (t : Tile) (e : Nat) (v : Byte) : Tile := { t with scales := t.scales.set e (v ^^^ 0x7F) }

/-- Element i of width w (R280). -/
def Tile.elem (t : Tile) (w i : Nat) : Nat := t.bits / 2 ^ (w * i) % 2 ^ w

/-- The number whose w-bit elements a list gives. -/
def packElems (w : Nat) : List Nat → Nat
  | [] => 0
  | e :: r => e % 2 ^ w + 2 ^ w * packElems w r

/-- Writes the low elements of a tile; higher bits stay (R280). -/
def Tile.setElems (t : Tile) (w : Nat) (es : List Nat) : Tile :=
  let n := w * es.length
  { t with bits := t.bits / 2 ^ n * 2 ^ n + packElems w es }

/-- The value of an element of a FMT code (R281). -/
def fmtVal (f e : Nat) : FVal :=
  if f < 9 then (fmtCode f).unpack e
  else if f = 9 then unpackE8m0 e
  else if f = 11 then FVal.ofInt (e : Int)
  else FVal.ofInt (sext (fmtW f) e)

/-- The integer of an element of an integer or INT32 FMT code. -/
def fmtInteger (f e : Nat) : Int := if f = 11 then (e : Int) else sext (fmtW f) e

/-- A value times a power of two. -/
def scaleVal (v : FVal) (k : Int) : FVal :=
  match v with
  | .fin n m e => .fin n m (e + k)
  | x => x

/-! ### Reasons of a Tile shape fault -/

/-- Tile and reason of a Tile shape fault (R283). -/
abbrev TileErr := Nat × Nat

def tCAP : Nat := 0
def tFORMAT : Nat := 1
def tDIM : Nat := 2
def tMXCAP : Nat := 3
def tALIGN : Nat := 4
def tINDEX : Nat := 5

/-- FINFO of a Tile shape fault (R283). -/
def tileInfo (e : TileErr) : W32 := BitVec.ofNat 32 (e.1 + e.2 * 256)

/-- The failing condition that is reported: of the first tile in an order that has one, the first in the list (R283). -/
def firstErr (order : List Nat) (l : List (Bool × TileErr)) : Option TileErr :=
  order.findSome? (fun t => (l.find? (fun p => p.1 && p.2.1 == t)).map (·.2))

/-- CAP of tiles in the order given. -/
def capErrs (l : List (Nat × TShape)) : List (Bool × TileErr) := l.map (fun p => (!p.2.capOk, (p.1, tCAP)))

/-- A class of R292: its kind (0 F64, 1 F32, 2 half, 3 scaled, 4 integer), the accumulator format, the largest N and K,
and the index of its MXCAP field. -/
structure MulClass where
  kind : Nat
  cfmt : Nat
  nMax : Nat
  kMax : Nat
  cap : Nat

/-- The class of two operand formats (R292). -/
def mulClass (fa fb : Nat) : Option MulClass :=
  if fa = 0 && fb = 0 then some ⟨0, 0, 32, 32, 0⟩
  else if fa = 1 && fb = 1 then some ⟨1, 1, 64, 32, 1⟩
  else if fa = fb && (fa = 2 || fa = 3) then some ⟨2, 1, 64, 64, 2⟩
  else if fmtScaled fa && fmtScaled fb then some ⟨3, 1, 64, 128, if fmtNarrow fa && fmtNarrow fb then 4 else 3⟩
  else if fmtInt fa && fmtInt fb then some ⟨4, 13, 64, 128, if fa = 12 && fb = 12 then 4 else 3⟩
  else none

/-- A multiply as the engine sees it: tiles, RM and SAT, and for GMMA the list (n, entries (g, s), a bad entry). -/
structure MulReq where
  d : Nat
  a : Nat
  b : Nat
  rm : Nat
  sat : Nat
  list : Option (Nat × List (Nat × Nat) × Bool)
  deriving DecidableEq, Repr

/-- The Tile shape fault of a multiply; a pair of formats that agree with no class, each of which some class takes, is
reported at A (R283, R292, R296; log entry 16). -/
def MulReq.err (r : MulReq) (sd sa sb : TShape) (mxcap : List Nat) : Option TileErr :=
  let caps := capErrs [(r.d, sd), (r.a, sa), (r.b, sb)]
  let m := match r.list with
    | some l => l.1
    | none => sa.rows
  let dims := [(sd.cols != sb.cols || (r.list.isNone && sd.rows != m), (r.d, tDIM)), (sb.rows != sa.cols, (r.a, tDIM))]
  let rows := [
    ((match r.list with
      | some l => l.2.2 || l.2.1.any (fun e => sd.rows ≤ e.2)
      | none => false), (r.d, tINDEX)),
    ((match r.list with
      | some l => l.2.1.any (fun e => sa.rows ≤ e.1)
      | none => false), (r.a, tINDEX))]
  firstErr [r.d, r.a, r.b] (caps ++
    match mulClass sa.fmt sb.fmt with
    | none =>
      let bad (f : Nat) : Bool := f == 9 || f == 13
      let own := [(!(sd.fmt == 0 || sd.fmt == 1 || sd.fmt == 13), (r.d, tFORMAT)), (bad sa.fmt, (r.a, tFORMAT)),
        (bad sb.fmt, (r.b, tFORMAT))]
      own ++ dims ++ [(!(caps ++ own).any (·.1), (r.a, tFORMAT))] ++ rows
    | some k =>
      let cap := (mxcap[k.cap]?).getD 0
      [
        (sd.fmt != k.cfmt || (r.rm != 0 && 1 < k.kind) || (r.sat != 0 && k.kind != 4), (r.d, tFORMAT))] ++ dims ++ [
        (cap < m || k.nMax < sb.cols, (r.d, tMXCAP)),
        (k.kMax < sa.cols, (r.a, tMXCAP)),
        (k.kind == 3 && sa.cols % 32 != 0, (r.a, tALIGN))] ++ rows)

/-! ### Multiplication -/

/-- A tile read under a shape. -/
structure TileView where
  tile : Tile
  shape : TShape

/-- Element (r, c). -/
def TileView.at (t : TileView) (r c : Nat) : Nat := t.tile.elem t.shape.w (r * t.shape.cols + c)

/-- Blocks of n consecutive elements. -/
def chunks {α : Type} (n : Nat) : Nat → List α → List (List α)
  | 0, _ => []
  | _, [] => []
  | fuel + 1, l => l.take n :: chunks n fuel (l.drop n)

/-- One rounding of a sum of exact products and an accumulator encoding (R293, R294). -/
def accumulate (f : FFmt) (rm : Nat) (c : Nat) (ps : List (FVal × FVal)) : Nat :=
  (f.round rm false (sumProducts rm ps [f.unpack c]).1).1

/-- The chain of one output element: row g of A against column j of B, from c (R293). -/
def mulChain (k : MulClass) (rm sat : Nat) (a b : TileView) (g j c : Nat) : Nat :=
  let kk := a.shape.cols
  let row := (List.range kk).map (fun k => a.at g k)
  let col := (List.range kk).map (fun k => b.at k j)
  let fa := a.shape.fmt
  let fb := b.shape.fmt
  let pairs := (row.zip col).map (fun p => (fmtVal fa p.1, fmtVal fb p.2))
  match k.kind with
  | 0 => pairs.foldl (fun c p => accumulate fp64 rm c [p]) c
  | 1 => pairs.foldl (fun c p => accumulate fp32 rm c [p]) c
  | 2 => (chunks 8 kk pairs).foldl (fun c ps => accumulate fp32 0 c ps) c
  | 3 =>
    ((chunks 32 kk pairs).zipIdx).foldl (fun c p =>
      let sa := (a.tile.scale (g * (kk / 32) + p.2)).toNat
      let sb := (b.tile.scale (j * (kk / 32) + p.2)).toNat
      if sa = 255 || sb = 255 then fp32.nanBits
      else accumulate fp32 0 c (p.1.map (fun q => (scaleVal q.1 ((sa : Int) + sb - 254), q.2)))) c
  | _ =>
    let z := (row.zip col).foldl (fun (z : Int) p =>
      let z := z + fmtInteger fa p.1 * fmtInteger fb p.2
      if sat = 1 then satInt z (-(2 ^ 31 : Nat)) ((2 ^ 31 : Nat) - 1) else z) (sext 32 c)
    intMod 32 z

/-- The rows that a multiply visits, as (row of A, row of C) in order (R293, R296). -/
def MulReq.rowList (r : MulReq) (m : Nat) : List (Nat × Nat) :=
  match r.list with
  | some l => l.2.1
  | none => (List.range m).map (fun i => (i, i))

/-- The tile C after a multiply (R293, R296). -/
def MulReq.run (r : MulReq) (d a b : TileView) : Tile :=
  match mulClass a.shape.fmt b.shape.fmt with
  | none => d.tile
  | some k =>
    let n := b.shape.cols
    let cells := (List.range d.shape.count).map (d.tile.elem d.shape.w)
    let out := (r.rowList a.shape.rows).foldl (fun (cells : List Nat) p =>
      cells.mapIdx (fun i c => if i / n = p.2 then mulChain k r.rm r.sat a b p.1 (i % n) c else c)) cells
    d.tile.setElems d.shape.w out

/-! ### Element-wise operations -/

/-- Limits of an integer FMT code. -/
def fmtLo (f : Nat) : Int := if f = 11 then 0 else -(2 ^ (fmtW f - 1) : Nat)
def fmtHi (f : Nat) : Int := if f = 11 then 255 else (2 ^ (fmtW f - 1) : Nat) - 1

/-- An element of a FMT code from a value (R297). -/
def fmtEncode (f rm sat : Nat) (v : FVal) : Nat :=
  if f < 9 then ((fmtCode f).round rm (sat == 1) v).1
  else intMod (fmtW f) (f2int rm (fmtLo f) (fmtHi f) v).1

/-- TCVT's checks (R297). -/
def tcvtErr (d a : Nat) (sd sa : TShape) (col : Bool) : Option TileErr :=
  firstErr [d, a] (capErrs [(d, sd), (a, sa)] ++ [
    (sd.fmt == 9, (d, tFORMAT)),
    (!sd.sameDims sa, (d, tDIM)),
    ((fmtScaled sd.fmt || fmtScaled sa.fmt) && (if col then sa.rows else sa.cols) % 32 != 0, (d, tALIGN))])

/-- TCVT (R297). -/
def tcvtRun (rm sat : Nat) (col : Bool) (d a : TileView) : Tile :=
  let rows := a.shape.rows
  let cols := a.shape.cols
  d.tile.setElems d.shape.w ((List.range a.shape.count).map (fun i =>
    let r := i / cols
    let c := i % cols
    let si := if col then c * (rows / 32) + r / 32 else r * (cols / 32) + c / 32
    let x := fmtVal a.shape.fmt (a.at r c)
    let x := if fmtScaled a.shape.fmt then
        (let s := (a.tile.scale si).toNat; if s = 255 then FVal.nan false else scaleVal x ((s : Int) - 127))
      else x
    let x := if fmtScaled d.shape.fmt then
        (let s := (d.tile.scale si).toNat; if s = 255 then FVal.nan false else scaleVal x (127 - (s : Int)))
      else x
    fmtEncode d.shape.fmt rm sat x))

/-- TADD's and TSCALE's checks: every tile has one shape and one format (R298). -/
def taddErr (tiles : List (Nat × TShape)) (int : Bool) (rm sat : Nat) : Option TileErr :=
  match tiles with
  | [] => none
  | (d, sd) :: rest =>
    firstErr (tiles.map (·.1)) (capErrs tiles ++ [
      (rest.any (fun p => p.2.fmt != sd.fmt) || !(fmtIeee sd.fmt || (int && sd.fmt == 13))
        || (sd.fmt == 13 && rm != 0) || (sd.fmt != 13 && sat != 0), (d, tFORMAT)),
      (rest.any (fun p => !p.2.sameDims sd), (d, tDIM))])

/-- TADD (R298). -/
def taddRun (rm sat : Nat) (d a b : TileView) : Tile :=
  let f := d.shape.fmt
  let w := d.shape.w
  d.tile.setElems w ((List.range d.shape.count).map (fun i =>
    let x := a.tile.elem w i
    let y := b.tile.elem w i
    if f = 13 then
      let z := sext 32 x + sext 32 y
      intMod 32 (if sat = 1 then satInt z (fmtLo 13) (fmtHi 13) else z)
    else
      let g := fmtCode f
      (g.round rm false (sumProducts rm [] [g.unpack x, g.unpack y]).1).1))

/-- TSCALE (R298). -/
def tscaleRun (rm : Nat) (factor : W64) (d a : TileView) : Tile :=
  let w := d.shape.w
  let g := fmtCode d.shape.fmt
  d.tile.setElems w ((List.range d.shape.count).map (fun i =>
    (g.round rm false (sumProducts rm [(g.unpack (a.tile.elem w i), fp64.unpack factor.toNat)] []).1).1))

/-- TRED's checks (R299). -/
def tredErr (d a : Nat) (sd sa : TShape) (mode rm sat : Nat) : Option TileErr :=
  let ok := (fmtIeee sa.fmt && sd.fmt ≤ 1 && !(sa.fmt == 0 && sd.fmt == 1)) || (sa.fmt == 13 && sd.fmt == 13)
  let want := if mode % 2 = 0 then sd.rows == 1 && sd.cols == sa.cols else sd.rows == sa.rows && sd.cols == 1
  firstErr [d, a] (capErrs [(d, sd), (a, sa)] ++ [
    (!ok || (rm != 0 && (2 ≤ mode || sa.fmt == 13)) || (sat != 0 && sa.fmt != 13), (d, tFORMAT)),
    (!want, (d, tDIM))])

/-- One fold step of TRED (R299). -/
def tredStep (fd fa mode rm sat : Nat) (c e : Nat) : Nat :=
  if fa = 13 then
    let z := if mode < 2 then sext 32 c + sext 32 e else max (sext 32 c) (sext 32 e)
    intMod 32 (if sat = 1 then satInt z (fmtLo 13) (fmtHi 13) else z)
  else
    let g := fmtCode fd
    if mode < 2 then (g.round rm false (sumProducts rm [] [g.unpack c, fmtVal fa e]).1).1
    else (g.minMax true true c (g.round 0 false (fmtVal fa e)).1).1

/-- TRED (R299). -/
def tredRun (mode rm sat : Nat) (d a : TileView) : Tile :=
  let rows := a.shape.rows
  let cols := a.shape.cols
  let lines : List (List Nat) :=
    if mode % 2 = 0 then (List.range cols).map (fun c => (List.range rows).map (fun r => a.at r c))
    else (List.range rows).map (fun r => (List.range cols).map (fun c => a.at r c))
  d.tile.setElems d.shape.w (lines.map (fun l =>
    match l with
    | [] => 0
    | x :: rest =>
      let x0 := if a.shape.fmt = 13 then x else ((fmtCode d.shape.fmt).round 0 false (fmtVal a.shape.fmt x)).1
      rest.foldl (tredStep d.shape.fmt a.shape.fmt mode rm sat) x0))

/-! ### Lines -/

/-- The bit string of line m (R289). -/
def TileView.line (t : TileView) (tr : Bool) (m : Nat) : Nat :=
  packElems t.shape.w ((List.range (if tr then t.shape.rows else t.shape.cols)).map
    (fun k => t.tile.elem t.shape.w (t.shape.lineElem tr m k)))

/-- The tile with its lines taken from bit strings (R289). -/
def TileView.withLines (t : TileView) (tr : Bool) (ls : List Nat) : Tile :=
  let w := t.shape.w
  t.tile.setElems w ((List.range t.shape.count).map (fun i =>
    let r := i / t.shape.cols
    let c := i % t.shape.cols
    let (m, k) := if tr then (c, r) else (r, c)
    ((ls[m]?).getD 0) / 2 ^ (w * k) % 2 ^ w))

end Sys2Proof.Machine
end

