-- ==== Sys2Proof/Machine/Memory.lean ====
section
/-! DEFINITION. Outstanding memory operations: their lanes, the order in which they perform, completion at a scope, the
operand log, and reads and writes of the load-store unit (R147 to R160, R236, R237, R244 to R248, R258 to R272, R369 to
R375). -/

namespace Sys2Proof

/-- Bytes of a KIND size code (R149). -/
def kindBytes (k : Nat) : Nat := if k ≤ 1 then 1 else if k ≤ 3 then 2 else if k = 4 then 4 else 8

/-- Bytes that one lane of a memory instruction accesses (R150, R158, R177, R179). -/
def Instr.accessBytes : Instr → Nat
  | .ld x => kindBytes x.kind
  | .lds x => kindBytes x.kind
  | .ldv x => kindBytes x.kind
  | .st x => kindBytes x.kind
  | .sts x => kindBytes x.kind
  | .ldq _ => 16
  | .stq _ => 16
  | .atom x => if wideT x.t.toNat then 8 else 4
  | .red x => if wideT x.t.toNat then 8 else 4
  | .cas x => 4 * 2 ^ x.kind
  | .dqpush _ => 64
  | .dqpop _ => 64
  | .dqsteal _ => 64
  | .launch _ => 160
  | _ => 8

/-- A load bypasses L1 (R154). -/
def Instr.noL1 : Instr → Bool
  | .ld x => x.flag
  | .ldq x => x.flag
  | .ldv x => x.flag
  | _ => false

/-- Loads whose lanes perform one by one (R154, R156). -/
def Instr.isPlainLoad : Instr → Bool
  | .ld _ => true
  | .lds _ => true
  | .ldq _ => true
  | .ldv _ => true
  | _ => false

/-- Stores whose lanes perform one by one (R154). -/
def Instr.isLaneStore : Instr → Bool
  | .st _ => true
  | .sts _ => true
  | .stq _ => true
  | _ => false

/-- Deque chains (R178). -/
def Instr.isDeque : Instr → Bool
  | .dqpush _ => true
  | .dqpop _ => true
  | .dqsteal _ => true
  | _ => false

/-- Atomic instructions performed as chains (R158). -/
def Instr.isAtomic : Instr → Bool
  | .atom _ => true
  | .cas _ => true
  | .red _ => true
  | _ => false

end Sys2Proof

namespace Sys2Proof.Machine

/-! ### Looking up operations -/

/-- A fresh identifier: the tick, which advances. -/
def State.newId (s : State) : Nat × State := (s.tick, { s with tick := s.tick + 1 })

/-- The operation of an identifier. -/
def State.op? (s : State) (id : Nat) : Option MemOp := s.ops.find? (fun o => o.id == id)

/-- Replaces an operation by f of it. -/
def State.modOp (s : State) (id : Nat) (f : MemOp → MemOp) : State :=
  { s with ops := s.ops.map (fun o => if o.id = id then { f o with id := id } else o) }

/-- Removes an operation, its pending marks and the waits on it. -/
def State.delOp (s : State) (gid id : Nat) : State :=
  let s : State := { s with ops := s.ops.filter (fun o => o.id != id), travRuns := s.travRuns.filter (fun r => r.op != id) }
  s.modGroup gid (fun g => { g with
    pend := g.pend.filter (fun p => p.op != id)
    threads := g.threads.map (fun t => if t.wait = .opDone id then { t with wait := .none } else t) })

/-- The lane of an operation. -/
def MemOp.lane? (o : MemOp) (h : Nat) : Option LaneReq := o.lanes.find? (fun l => l.lane == h)

/-- A lane still to perform. -/
def LaneReq.isTodo (l : LaneReq) : Bool := l.stage = .todo

/-- The fault of a logged lane. -/
def LaneReq.fault? (l : LaneReq) : Option LaneFault :=
  match l.stage with
  | .logged f => some f
  | _ => none

/-- The die on which a group issues. -/
def State.groupDie (s : State) (g : Group) : Nat := dieOf ((s.coreOf g).getD 0)

/-! ### Operand-log records and traps -/

/-- FINFO of a deferred Memory-class trap (R272, R421). -/
def trapInfoOf (f : LaneFault) (entry : Nat) : W32 :=
  let ent : W32 := BitVec.ofNat 32 (entry * 256 + 0x2000)
  match f.cause.toNat with
  | 0x08 | 0x13 => BitVec.ofNat 32 (f.reason + boolNat f.s2 * 16 + boolNat f.wr * 32) + ent
  | 0x09 => BitVec.ofNat 32 (boolNat f.wr * 32) + ent
  | 0x0A | 0x0E => f.info + ent
  | _ => f.info

/-- A fault that goes to the fault queue: Page fault or Snapshot pool empty (R152). -/
def LaneFault.queued (f : LaneFault) : Bool := f.cause = 0x08 || f.cause = 0x13

/-- Record kind of an operation's fault (R373). -/
def Instr.recordKind : Instr → Nat
  | .tld _ => 3
  | .tst _ => 3
  | .trace _ => 4
  | .tresume _ => 4
  | .bvhchk _ => 4
  | _ => 0

/-- Once no lane is left to perform, the logged lanes are reported: Page faults and pool faults as one record, other
Memory-class faults as a deferred trap, each named by its lowest lane (R152, R368, R373). -/
def State.report (s : State) (o : MemOp) : State :=
  match s.group? o.gid with
  | none => s
  | some g =>
    match (s.wg? g.wid).bind (fun w => s.launch? w.lid) with
    | none => s
    | some la =>
      let logged := o.lanes.filterMap (fun l => l.fault?.map (fun f => (l, f)))
      let q := logged.filter (fun p => p.2.queued)
      let t := logged.filter (fun p => !p.2.queued && p.2.cause != 0)
      let s : State := match q with
        | [] => s
        | (_, f) :: _ =>
          let r : FaultRec := { s.recordFor g la f.cause.toNat (Instr.recordKind o.instr) o.pc with
            reason := byteOf f.reason
            flags := byteOf (boolNat f.wr + 2 * boolNat f.s2 + 4 * boolNat o.fid.isSome)
            va := f.addr, gpa := f.gpa, lanes := maskOf (q.map (fun p => p.1.lane)), entry := byteOf o.entry
            fset := match f.fset with
              | some n => BitVec.ofNat 16 (n + 0x8000)
              | none => 0 }
          let (s, fid) := s.makeRecord la.vf r (some (.op o.id))
          s.modOp o.id (fun o => { o with fid := some fid, log := .reported })
      let s : State := match t with
        | [] => s
        | (_, f) :: _ =>
          let s := s.modGroup o.gid (fun g => { g with traps := g.traps ++
            [⟨o.id, f.cause, o.pc, f.addr, trapInfoOf f o.entry, some o.entry, 0⟩] })
          if q = [] then s.modOp o.id (fun o => { o with log := .handler }) else s
      s.modGroup o.gid (fun g => { g with
        threads := g.threads.map (fun t => if t.wait = .opDone o.id then { t with wait := .none } else t) })

/-- The VF whose launch issued an operation. -/
def State.opVf (s : State) (o : MemOp) : Nat :=
  (((s.group? o.gid).bind (fun g => (s.wg? g.wid).bind (fun w => s.launch? w.lid))).map (·.vf)).getD 0

/-- An operation whose lanes have all performed is gone; one whose remaining lanes are logged is reported (R369). A freed
entry ends IDLE (R195). Of a workgroup that has ended they are dropped (R195). -/
def State.settle (s : State) (id : Nat) : State :=
  match s.op? id with
  | none => s
  | some o =>
    if o.lanes = [] then
      let s := s.delOp o.gid id
      if o.log = .raised then s else s.modGroup o.gid (fun g => { g with wakeTick := s.tick })
    else if o.lanes.all (fun l => l.isLogged) then (if o.log = .reported then s
      else if (s.group? o.gid).any (·.stopped) then s.dropLogged (s.opVf o) o else s.report o)
    else s

/-- A lane has performed. -/
def State.laneDone (s : State) (gid id lane : Nat) : State :=
  ((s.modOp id (fun o => { o with lanes := o.lanes.filter (fun l => l.lane != lane) })).clearPendLane gid id lane).settle id

/-- An operation whose lanes have all passed their checks gives its log entry up (R369). -/
def State.freeEntry (s : State) (id : Nat) : State :=
  s.modOp id (fun o => if o.lanes.all (fun l => l.stage == .waiting) then { o with entry := 32 } else o)

/-- An operation that gave its log entry up takes one again: none while the log is full (R289, R369). -/
def State.entryAgain (s : State) (id : Nat) : Option State :=
  match s.op? id with
  | none => some s
  | some o =>
    if o.entry != 32 then some s
    else ((s.freeEntries o.core o.ipart).head?).map (fun e => s.modOp id (fun o => { o with entry := e }))

/-- A lane is logged with its fault (R152). While no entry is free for it, it makes its checks again. -/
def State.laneFault (s : State) (id lane : Nat) (f : LaneFault) : State :=
  let put (s : State) (st : LaneStage) : State := s.modOp id (fun o => { o with lanes := o.lanes.map (fun l =>
    if l.lane = lane then { l with stage := st } else l) })
  match s.entryAgain id with
  | none => put s .todo
  | some s => (put s (.logged f)).settle id

/-- A lane of a store meets a fault, and with it every lane still to perform that stores to its address: they replay in
order, so that the highest lane's value stands (R152, R166). -/
def State.storeFault (s : State) (o : MemOp) (l : LaneReq) (f : LaneFault) : State :=
  (o.lanes.filter (fun x => x.isTodo && x.addr == l.addr)).foldl (fun s x => s.laneFault o.id x.lane f) s

/-- The registers that an operation's lanes have written hold again what they held before (R428). -/
def Group.undone (g : Group) (undo : List (Nat × W64)) : Group :=
  undo.foldr (fun e g => if e.1 < 2 ^ 16 then g.setVreg (e.1 / 256) (e.1 % 256) (e.2.setWidth 32) else g.setSreg (e.1 - 2 ^ 16) e.2) g

/-- A Machine check that a read of bad data raises after issue, at the instruction of the operation, which then has no effect in
any lane (R256, R428). -/
def State.machineCheckOp (s : State) (o : MemOp) (addr : W64) : State :=
  ((s.delOp o.gid o.id).modGroup o.gid (fun g => g.undone o.undo)).takeTrap o.gid
    { cause := 0x14, epc := o.pc, faddr := if o.scratch then 0 else addr &&& ~~~7#64
      finfo := if o.scratch then 1 else 0, path := o.path }

/-! ### Scratchpads -/

/-- The scratchpad that an address names for a group of a workgroup, and the offset in it (R151). -/
def State.scratchTarget (s : State) (w : Workgroup) (addr : W64) (n : Nat) : Option (Nat × Nat) :=
  let a := addr.toNat
  let off := a % 2 ^ 19
  let cwg := bits a 20 19
  let rem := a.testBit 21
  let target := if rem then s.wgs.find? (fun v => v.cid == w.cid && v.cwg == cwg && !v.retired) else some w
  match target with
  | none => none
  | some v =>
    if 2 ^ 22 ≤ a || (!rem && cwg != 0) || v.scratchSize < off + n then none else some (v.wid, off)

/-- Bytes of a scratchpad. -/
def State.scratchBytes (s : State) (wid off n : Nat) : List Byte :=
  match s.wg? wid with
  | some w => w.scratch.bytes off n
  | none => []

/-- Writes bytes of a scratchpad; a granule written whole holds no error any more. -/
def State.scratchWrite (s : State) (wid off : Nat) (bs : List Byte) : State :=
  let s := s.modWg wid (fun w => { w with scratch := w.scratch.setBytes off bs })
  { s with badScratch := s.badScratch.filter (fun b => !(b.1 == wid && off ≤ 8 * b.2 && 8 * b.2 + 8 ≤ off + bs.length)) }

/-- A read of scratchpad bytes meets a double error (R256). -/
def State.scratchBad (s : State) (wid off n : Nat) : Bool :=
  s.badScratch.any (fun b => b.1 == wid && off < 8 * b.2 + 8 && 8 * b.2 < off + n)

/-- Privilege fault of a remote scratchpad access whose target has retired, of Memory class (R237). -/
def scratchFault (addr : W64) : LaneFault := ⟨0x10, 0, false, false, addr, 0, none, 0x1000⟩

/-- The place of a lane's bytes: a space (0 global, 1 + wid a scratchpad) and an address in it. -/
def State.place (s : State) (o : MemOp) (l : LaneReq) : Option (Nat × Nat) :=
  if o.scratch then
    ((s.group? o.gid).bind (fun g => s.wg? g.wid)).bind (fun w =>
      (s.scratchTarget w l.addr o.instr.accessBytes).map (fun p => (p.1 + 1, p.2)))
  else some (0, l.addr.toNat)

/-- Two places overlap. -/
def overlap (a : Option (Nat × Nat)) (n : Nat) (b : Option (Nat × Nat)) (m : Nat) : Bool :=
  match a, b with
  | some (p, x), some (q, y) => p == q && x < y + m && y < x + n
  | _, _ => false

/-! ### Order of performance -/

/-- Bytes that a lane of an operation touches, as places with lengths: its operand; the record of a LAUNCH; the header of a deque,
and the buffer that it names now (R179, R177, R259). -/
def State.touched (s : State) (o : MemOp) (l : LaneReq) : List (Option (Nat × Nat) × Nat) :=
  let buffer : List (Option (Nat × Nat) × Nat) :=
    if o.instr.isDeque then
      match s.lineNow o.asid.toNat l.addr.toNat .read none with
      | .ok (d, _) => [(some (0, leNat (lineBytes d 16 8)), 8 * 2 ^ (leNat (lineBytes d 24 4) % 64))]
      | .error _ => []
    else []
  (s.place o l, o.instr.accessBytes) :: buffer

/-- A lane's access waits for a command that changes its range (R241, R367). -/
def State.shutLane (s : State) (o : MemOp) (l : LaneReq) : Bool :=
  !o.scratch && s.fwWait.isSome && (s.touched o l).any (fun p => p.1.any (fun q => s.shut o.asid.toNat q.2 p.2))

/-- Two lanes touch a byte in common. -/
def State.meet (s : State) (o : MemOp) (l : LaneReq) (o' : MemOp) (l' : LaneReq) : Bool :=
  (s.touched o l).any (fun p => (s.touched o' l').any (fun q => overlap p.1 p.2 q.1 q.2))

/-- An earlier access of an operation that satisfies p to overlapping bytes must perform first: of the same group (R155, R264), or
of the same core where both are stores in the store buffer (R247). A load does not wait for a store that it reads from the store
buffer. -/
def State.behind (s : State) (o : MemOp) (l : LaneReq) (p : MemOp → Bool) : Bool :=
  s.ops.any (fun o' =>
    p o' && o'.scratch == o.scratch && Instr.enginePath o'.instr == some 0 &&
    (o'.gid == o.gid || (o'.core == o.core && o'.instr.isPlainStore && o.instr.isPlainStore)) &&
    o'.lanes.any (fun l' =>
      (o'.id < o.id || (o'.id == o.id && l'.lane < l.lane && o.instr.isStore)) &&
      !(l'.isLogged && (o'.gid != o.gid || o'.id == o.id)) &&
      !(o'.instr.isPlainStore && l'.isTodo && o.instr.isPlainLoad) &&
      s.meet o l o' l'))

/-- An earlier access to overlapping bytes must perform first. -/
def State.laneBlocked (s : State) (o : MemOp) (l : LaneReq) : Bool := s.behind o l (fun _ => true)

/-- The group's workgroup has a migrated group (R160). -/
def State.hasMigrated (s : State) (wid : Nat) : Bool :=
  s.groups.any (fun g => g.wid == wid && !g.retired && g.landing.isSome)

/-- TIME on a group's die has passed a horizon by 4 ns; zero stands for no write (R160, R248). -/
def State.past (s : State) (g : Group) (w : W64) : Bool := w == 0 || w + 4 ≤ s.time (s.groupDie g)

/-- Every store and atomic of a group with an identifier below upto has completed at a scope (R160, R248). -/
def State.writesDone (s : State) (g : Group) (upto scope : Nat) : Bool :=
  let open' := s.ops.any (fun o => o.gid == g.gid && o.id < upto && o.instr.isStore && o.lanes != [])
  let acks := s.acks.filter (fun a => a.gid == g.gid && a.op < upto)
  if scope = 0 || (scope = 1 && !s.hasMigrated g.wid) then !open'
  else !open' && acks.all (fun a => a.system && scope != 5) && s.past g g.ch

/-- Every load and atomic with a result of a group below upto has returned (R160). -/
def State.readsDone (s : State) (g : Group) (upto : Nat) : Bool :=
  !s.ops.any (fun o => o.gid == g.gid && o.id < upto && o.instr.isLoad && o.lanes != [])

/-- A release may perform (R155, R160). -/
def State.releaseOk (s : State) (o : MemOp) : Bool :=
  o.instr.order < 2 ||
    match s.group? o.gid with
    | some g => s.writesDone g o.id o.instr.scopeOf
    | none => true

/-! ### The scope checker -/

/-- The scope of a record includes a group (R260). -/
def ScopeRec.includes (r : ScopeRec) (s : State) (g : Group) : Bool :=
  match r.sc.toNat with
  | 0 => r.gid == g.gid
  | 1 => r.wid == g.wid
  | 2 => (s.wg? g.wid).any (fun w => w.cid == r.cid)
  | 3 => s.groupDie g == r.die
  | _ => true

/-- Scope fault of a record (R272). -/
def scopeFault (r : ScopeRec) (promote : Bool) (line : Nat) : LaneFault :=
  ⟨0x0B, 0, false, false, BitVec.ofNat 64 (line * 64), 0, none,
    BitVec.ofNat 32 (r.sc.toNat + boolNat promote * 8 + r.core * 256 + r.die * 65536)⟩

/-- A synchronising access of a group passes against a record (R270). -/
def ScopeRec.passes (r : ScopeRec) (s : State) (g : Group) : Bool := !r.valid || r.includes s g || r.gid == g.gid

/-- The record that a synchronising write leaves (R270). -/
def State.recordOf (s : State) (g : Group) (scope : Nat) : ScopeRec :=
  let core := (s.coreOf g).getD 0
  ⟨true, BitVec.ofNat 3 scope, core, dieOf core, g.wid, ((s.wg? g.wid).map (·.cid)).getD 0, g.gid⟩

/-! ### Translation -/

/-- A walk must come first: the address has a region that is translated and no TLB holds its page (R361, R362). -/
def State.needsWalk (s : State) (asid va : Nat) : Bool :=
  match s.asid? asid with
  | none => true
  | some c =>
    match regionOf c va with
    | none => true
    | some (3, _) => false
    | some _ => (s.tlb? asid va).isNone

/-- A lane of an operation waits for a walk. Bits [63:38] of LDV's view are checked without one (R156, R361). -/
def State.walkFirst (s : State) (o : MemOp) (l : LaneReq) : Bool :=
  !o.scratch && s.needsWalk o.asid.toNat l.addr.toNat && !(match o.instr with
    | .ldv _ => 2 ^ 38 ≤ l.view.toNat
    | _ => false)

/-- What a memory instruction needs of a translation (R361). -/
def Instr.needOf (i : Instr) : Need := if i.isStore || (match i with
  | .tst _ => true
  | _ => false) then .write else .read

/-- Fills a TLB from a finished walk (R361, R362). -/
def State.fillTlb (s : State) (asid va : Nat) (need : Need) : Except LaneFault State :=
  match s.resolve asid va need with
  | .error f => .error f
  | .ok _ =>
    match s.asid? asid with
    | none => .ok s
    | some c =>
      match walk s c va need with
      | .error _ => .ok s
      | .ok t => .ok (s.addTlb
          ⟨(s.homeDie asid va).getD 0, tlbCtl va, asid, va >>> t.shift, t.shift, t.hpa >>> t.shift, t.w, t.x, t.trk⟩)

/-! ### L1 and the store buffer -/

/-- The L1 copy of a line that a load may hit (R244). -/
def State.l1Hit (s : State) (core asid line : Nat) : Option L1Line :=
  s.l1.find? (fun x => x.core == core && x.asid == asid && x.line == line && s.time (dieOf core) < x.expiry)

/-- A store updates its core's L1 copy, which keeps its lease (R247). Until it is applied the core's loads take its bytes
from the store buffer. -/
def State.l1Update (s : State) (core asid addr : Nat) (bs : List Byte) : State :=
  { s with l1 := s.l1.map (fun x => if x.core = core ∧ x.asid = asid ∧ x.line = addr / 64
      then (let r := putBytes x.data x.poison (addr % 64) bs; { x with data := r.1, poison := r.2.2 }) else x) }

/-- A core drops its L1 copy of a line that it has read or changed past its L1, so that no later load of it returns an older
value (R155, R264): a replacement (R244, log entry 50). -/
def State.l1Replace (s : State) (core asid line : Nat) : State :=
  s.dropL1 (fun x => x.core == core && x.asid == asid && x.line == line)

/-- The set of an L1 that a line falls in: 256 sets of 16 ways (R234). -/
def l1Set (line : Nat) : Nat := line % 256

/-- An L1 takes a line in; the oldest line of a full set leaves (R234, R244). -/
def State.fillL1 (s : State) (x : L1Line) : State :=
  let s := s.l1Replace x.core x.asid x.line
  let set := s.l1.filter (fun y => y.core == x.core && l1Set y.line == l1Set x.line)
  let s := if set.length < 16 then s
    else match set.getLast? with
      | some y => s.l1Replace y.core y.asid y.line
      | none => s
  { s with l1 := x :: s.l1 }

/-- Store data of a lane, as bytes. -/
def LaneReq.bytes (l : LaneReq) (n : Nat) : List Byte := natBytes n l.data.toNat

/-- A store stands in the store buffer for a load of a group with an identifier: no later store of its own group, and no later one
of another group that is a release, or that stands behind a load (R155, R247). -/
def State.seen (s : State) (gid id : Nat) (o : MemOp) (l : LaneReq) : Bool :=
  if o.gid = gid then o.id < id
  else o.instr.order < 2 && (o.id < id || !s.behind o l (fun x => !x.instr.isPlainStore))

/-- Store-buffer entries of a core that overlap some bytes and that a load of a group with an identifier sees, oldest first
(R155, R247). -/
def State.buffered (s : State) (core asid gid id addr n : Nat) : List (MemOp × LaneReq) :=
  (s.ops.filter (fun o => o.core == core && o.asid.toNat == asid && o.instr.isPlainStore)).flatMap (fun o =>
    (o.lanes.filter (fun l => l.isTodo && overlap (some (0, l.addr.toNat)) o.instr.accessBytes (some (0, addr)) n
      && s.seen gid id o l)).map (fun l => (o, l)))

/-- What the store buffer gives a load of n bytes: at each byte the youngest entry's data (R247). -/
def bufferedBytes (buf : List (MemOp × LaneReq)) (addr n : Nat) : List (Option Byte) :=
  (List.range n).map (fun j => buf.foldl (fun r p =>
    let a := p.2.addr.toNat
    let m := p.1.instr.accessBytes
    if a ≤ addr + j && addr + j < a + m then (p.2.bytes m)[addr + j - a]? else r) none)

/-- A write-through of the core to a line, that a load of a group with an identifier may see, has not been acknowledged (R247). -/
def State.lineUnacked (s : State) (core asid gid id line : Nat) : Bool :=
  s.acks.any (fun a => a.core == core && a.asid == asid && a.line == line) ||
  s.ops.any (fun o => o.core == core && o.asid.toNat == asid && o.instr.isPlainStore && o.instr.order < 2 &&
    o.lanes.any (fun l => l.isTodo && l.addr.toNat / 64 == line && s.seen gid id o l))

/-- What a read of the load-store unit yields: it must wait, it faults, or bytes with a poison flag and the record of
the copy that served it. -/
inductive Got where
  | wait
  | fault (f : LaneFault)
  | ok (s : State) (bs : List Byte) (bad : Bool) (rec' : Option ScopeRec) (far : Bool)

/-- The record of a line at the party that holds write permission: the RDC that has it in M or O, then that of a die, then the
home, then the line's metadata (R269, R270). -/
def State.lineRecord (s : State) (die asid va hpa : Nat) : ScopeRec :=
  match s.rdc.find? (fun x => x.asid == asid && x.line == va / 64 && (x.st == .m || x.st == .o)),
      s.rdc? die asid (va / 64), s.home? asid (va / 64) with
  | some x, _, _ => x.scope
  | none, some x, _ => x.scope
  | none, none, some h => h.scope
  | none, none, none => s.hbmRecord asid (s.fillSource asid va hpa)

/-- The line that a lane's access names is free: no request is in progress or waits at it (R249). -/
def State.lineFree (s : State) (asid line : Nat) : Bool := !(s.home? asid line).any HomeLine.taken

/-- A read of n bytes at the line's serving party, with an L1 fill and lease when alloc holds (R244, R245, R250). A line of
the package's own rank in a KIND 3 region is read at its home and leaves no copy (R240, R461). -/
def State.partyRead (s : State) (core asid va n : Nat) (alloc : Bool) : Got :=
  match s.resolve asid va .read with
  | .error f => .fault f
  | .ok (.host b) => .ok s (s.hostMem.bytes b n) false none true
  | .ok (.peer g r off) => .ok s (s.peerMem.bytes (g * 2 ^ 49 + r * 2 ^ 39 + off) n) false none true
  | .ok (.line home a v hpa t) =>
    let die := if t.own then home else dieOf core
    match if s.lineFree a (v / 64) then s.serveRead die home a v hpa else none with
    | none => .wait
    | some (s, sv) =>
      let synced := match s.dies[die]? with
        | some d => d.synced
        | none => false
      let s : State :=
        if alloc && synced && !t.own then
          let e := s.time die + BitVec.ofNat 64 (8 * ((s.asid? a).map (fun c => c.len.toNat)).getD 125)
          (s.recordLease die home a (v / 64) e).fillL1 ⟨core, asid, va / 64, sv.data, sv.poison, e, sv.scope⟩
        else s
      .ok s (lineBytes sv.data (v % 64) n) (poisonedAt sv.poison (v % 64) n) (if t.own then none else some sv.scope) t.own

/-- A load of n bytes by a group on a core, with the identifier of its operation (R154, R244, R247): from the store buffer and the
L1 copy, from the store buffer alone where it holds every byte, or at the serving party once no write-through of the core to the
line is on its way. A line of host memory, of a peer or of the own rank is read at its party only (R266). The record is that of
the copy that serves it (R270). -/
def State.lsuRead (s : State) (core gid id asid va n : Nat) (na noAlloc : Bool) : Got :=
  let buf := s.buffered core asid gid id va n
  let hit := if na then none else s.l1Hit core asid (va / 64)
  let writable (l : LaneReq) : Bool := match s.resolve asid l.addr.toNat .write with
    | .ok _ => true
    | .error _ => false
  let bb := bufferedBytes buf va n
  match hit with
  | some x =>
    if !buf.all (fun p => writable p.2) then .wait
    else .ok s ((bb.zip (lineBytes x.data (va % 64) n)).map (fun p => p.1.getD p.2))
      (bb.zipIdx.any (fun p => p.1.isNone && x.poison.getLsbD ((va % 64 + p.2) / 8))) (some x.scope) false
  | none =>
    if buf = [] then
      if s.lineUnacked core asid gid id (va / 64) then .wait
      else
        match s.partyRead core asid va n (!na && !noAlloc) with
        | .ok t bs bad r far => .ok (if na || noAlloc then t.l1Replace core asid (va / 64) else t) bs bad r far
        | g => g
    else if na || !buf.all (fun p => writable p.2) || bb.any Option.isNone then .wait
    else
      match s.resolve asid va .read with
      | .ok (.line _ a v hpa t) =>
        if t.own then .wait else .ok s (bb.map (·.getD 0)) false (some (s.lineRecord (dieOf core) a v hpa)) false
      | .ok _ => .wait
      | .error f => .fault f

/-! ### Versioned reads -/

/-- A versioned load under a view (R156, R220 to R222). -/
def State.viewRead (s : State) (core gid id asid va n : Nat) (view : W64) (na noAlloc : Bool) : Got :=
  if 2 ^ 38 ≤ view.toNat then .fault (versionFault 0 va)
  else
    match s.resolve asid va .read with
    | .error f => .fault f
    | .ok (.line _ _ _ _ t) =>
      if !t.trk then s.lsuRead core gid id asid va n na noAlloc
      else
        match s.page? asid va with
        | none => s.lsuRead core gid id asid va n na noAlloc
        | some p =>
          if p.fset != bits view.toNat 37 32 then .fault (versionFault 1 va)
          else
            match s.fset? p.part p.fset with
            | none => .fault (versionFault 1 va)
            | some fs =>
              let step : W32 := view.setWidth 32
              if !pastStep fs.wstep step then s.lsuRead core gid id asid va n na noAlloc
              else
                match p.coverOf fs.wstep step with
                | none => .fault (versionFault 2 va)
                | some f =>
                  if f.state = .released then .fault (versionFault 3 va)
                  else
                    match p.serveAt f (va % 65536 / 64) with
                    | none => .fault (versionFault 2 va)
                    | some f =>
                      if !s.ownsFrame p.part f.hpa then .fault (ownershipFault false va)
                      else
                        let (bs, bad) := s.frameBytes asid va n f
                        .ok s bs bad none false
    | .ok _ => s.lsuRead core gid id asid va n na noAlloc

/-! ### Writing destinations of operations -/

/-- The extension of a loaded value by KIND (R154). -/
def extendKind (k : Nat) (v : Nat) : W64 :=
  match k with
  | 1 => BitVec.ofInt 64 (sext 8 v)
  | 3 => BitVec.ofInt 64 (sext 16 v)
  | _ => BitVec.ofNat 64 v

/-- The thread of a lane has exited. -/
def Group.gone (g : Group) (h : Nat) : Bool :=
  match g.threads[h]? with
  | some t => t.exited
  | none => true

/-- Writes a value to a D code of one lane: a v register or pair, an s register, a predicate (R29). -/
def Group.deliver (g : Group) (wide : Bool) (code lane : Nat) (v : W64) : Group :=
  g.writeDest wide code [(lane, v)]

/-- Writes 128 bits to v registers d to d + 3 of one lane. -/
def Group.deliverQuad (g : Group) (d lane : Nat) (v : BitVec 128) : Group :=
  g.setVregs ((List.range 4).map (fun j => (lane * 256 + d + j, v.extractLsb' (32 * j) 32)))

/-- Writes loaded bytes to the destination of a load, unless the lane's thread has exited (R102, R154). R102 does
not name a scalar load, whose s register is written also where the thread of its lane has exited (DEDUCED, log entry 58). -/
def Group.deliverLoad (g : Group) (i : Instr) (lane : Nat) (bs : List Byte) : Group :=
  let v := leNat bs
  let put (x : MForm) : Group :=
    if x.d.toNat < 0x100 && g.gone lane then g else g.deliver (x.kind = 5) x.d.toNat lane (extendKind x.kind v)
  match i with
  | .ld x => put x
  | .lds x => put x
  | .ldv x => put x
  | .ldq x => if g.gone lane then g else g.deliverQuad x.d.toNat lane (BitVec.ofNat 128 v)
  | _ => g

/-! ### Performing one lane -/

/-- The scope check of an acquire read (R270). -/
def State.acquireFault (s : State) (o : MemOp) (g : Group) (va : Nat) (r : Option ScopeRec) (far : Bool) : Option LaneFault :=
  if o.instr.order % 2 = 0 then none
  else if far then (if o.instr.scopeOf < 5 then some (scopeFault ScopeRec.none false (va / 64)) else none)
  else
    match r with
    | some r => if r.passes s g then none else some (scopeFault r false (va / 64))
    | none => none

/-- What the destination registers of one lane of an instruction hold. -/
def Group.destNow (g : Group) (i : Instr) (lane : Nat) : List (Nat × W64) :=
  match i.shape, i.form with
  | some sh, some (_, f) => (sh.d.names f.head.2.2.toNat).filterMap (fun r =>
      if r < 0x100 then some (lane * 256 + r, (g.vreg lane r).setWidth 64)
      else if r < 0x140 then some (2 ^ 16 + (r - 0x100), g.sreg (r - 0x100))
      else none)
  | _, _ => []

/-- A lane of a load receives its bytes; its operation keeps what the registers held (R154, R428). -/
def State.deliverLane (s : State) (o : MemOp) (l : LaneReq) (bs : List Byte) : State :=
  let old := ((s.group? o.gid).map (fun g => g.destNow o.instr l.lane)).getD []
  ((s.modOp o.id (fun o => { o with undo := o.undo ++ old })).modGroup o.gid (fun g => g.deliverLoad o.instr l.lane bs)).laneDone
    o.gid o.id l.lane

/-- A lane of a load returns (R154, R156, R244). -/
def State.loadLane (s : State) (o : MemOp) (l : LaneReq) : State :=
  match s.group? o.gid with
  | none => s
  | some g =>
    let n := o.instr.accessBytes
    if o.scratch then
      match s.place o l with
      | none => s.laneFault o.id l.lane (scratchFault l.addr)
      | some (sp, off) =>
        if s.scratchBad (sp - 1) off n then s.machineCheckOp o l.addr
        else s.deliverLane o l (s.scratchBytes (sp - 1) off n)
    else
      let va := l.addr.toNat
      let got := match o.instr with
        | .ldv _ => s.viewRead o.core o.gid o.id o.asid.toNat va n l.view o.instr.noL1 o.noAlloc
        | _ => s.lsuRead o.core o.gid o.id o.asid.toNat va n o.instr.noL1 o.noAlloc
      match got with
      | .wait => s
      | .fault f => s.laneFault o.id l.lane f
      | .ok s' bs bad r far =>
        match s.acquireFault o g va r far with
        | some f => s.laneFault o.id l.lane f
        | none =>
          if bad then s.machineCheckOp o l.addr
          else s'.deliverLane o l bs

/-- Sets the record of a line at the party that holds write permission (R269, R270). -/
def State.setRecord (s : State) (die asid line : Nat) (r : ScopeRec) : State :=
  match s.rdc? die asid line with
  | some x => if x.st = .m then s.putRdc { x with scope := r } else s
  | none =>
    match s.home? asid line with
    | some h => s.putHome { h with scope := r }
    | none => s

/-- A write is on its way back to its group (R246, R248). -/
def State.sendAck (s : State) (o : MemOp) (line : Nat) (w : W64) (system : Bool) : State :=
  let (id, s) := s.newId
  { s with acks := s.acks ++ [⟨id, o.gid, o.id, o.core, o.asid.toNat, line, w, system⟩] }

/-- A lane of a store is applied (R155, R223, R236, R246, R270). -/
def State.storeLane (s : State) (o : MemOp) (l : LaneReq) : State :=
  let n := o.instr.accessBytes
  let bs := l.bytes n
  if o.scratch then
    match s.place o l with
    | none => s.storeFault o l (scratchFault l.addr)
    | some (sp, off) => (s.scratchWrite (sp - 1) off bs).laneDone o.gid o.id l.lane
  else
    match s.group? o.gid with
    | none => s
    | some g =>
      let va := l.addr.toNat
      let sync := 2 ≤ o.instr.order
      match s.resolve o.asid.toNat va .write with
      | .error f => s.storeFault o l f
      | .ok (.host b) =>
        if sync && o.instr.scopeOf < 5 then s.storeFault o l (scopeFault ScopeRec.none false (va / 64))
        else (({ s with hostMem := s.hostMem.setBytes b bs }).sendAck o (va / 64) 0 true).laneDone o.gid o.id l.lane
      | .ok (.peer gr r off) =>
        if sync && o.instr.scopeOf < 5 then s.storeFault o l (scopeFault ScopeRec.none false (va / 64))
        else (({ s with peerMem := s.peerMem.setBytes (gr * 2 ^ 49 + r * 2 ^ 39 + off) bs }).sendAck o (va / 64) 0 true).laneDone o.gid o.id l.lane
      | .ok (.line home a v hpa t) =>
        let die := dieOf o.core
        let atHome := die = home || t.trk || t.own
        let s0 := s.fillHome home a v hpa
        if !s.lineFree a (v / 64) || (s0.home? a (v / 64)).isNone then s
        else
          let s := if atHome then s0.dirRecall a (v / 64) else s0.rdcAcquire die home a v hpa
          let rec0 := s.lineRecord die a v hpa
          if sync && t.own && o.instr.scopeOf < 5 then s.storeFault o l (scopeFault ScopeRec.none false (va / 64))
          else if sync && !t.own && !rec0.passes s g then s.storeFault o l (scopeFault rec0 false (va / 64))
          else
            let r : Except LaneFault (State × W64) :=
              if atHome then s.homeApply home a v hpa bs t.trk else .ok (s.rdcApply die home a v hpa bs)
            match r with
            | .error f => s.storeFault o l f
            | .ok (s, lr) =>
              let s := if sync && !t.own then s.setRecord die a (v / 64) (s.recordOf g o.instr.scopeOf) else s
              ((s.l1Update o.core o.asid.toNat va bs).sendAck o (va / 64) (maxT (s.time (if atHome then home else die)) lr) false).laneDone o.gid o.id l.lane

/-! ### Atomic chains -/

/-- One step of an atomic: the new value and the flags (R158). -/
def atomStep (x : MForm) (old c : Nat) : Nat × Flags :=
  let t := x.t.toNat
  let w := elemW t
  let e (i v : Nat) := v / 2 ^ (w * i) % 2 ^ w
  let z (i v : Nat) : Int := elemInt t i (BitVec.ofNat 64 v)
  let f := fmtT t
  let each (g : Nat → Nat × Flags) : Nat × Flags :=
    (List.range (elemN t)).foldl (fun r i => let q := g i; (r.1 + q.1 * 2 ^ (w * i), r.2 ||| q.2)) (0, 0)
  match x.kind with
  | 0 =>
    if floatT t then each (fun i =>
      let (v, nv) := sumProducts x.rm.toNat [] [f.unpack (e i old), f.unpack (e i c)]
      let (r, fl) := f.round x.rm.toNat false v
      (r, fl ||| nv))
    else (intMod w (let v := z 0 old + z 0 c; if x.sat = 1 then satInt v (loT t) (hiT t) else v), 0)
  | 1 => if floatT t then f.minMax false true old c else (intMod w (min (z 0 old) (z 0 c)), 0)
  | 2 => if floatT t then f.minMax true true old c else (intMod w (max (z 0 old) (z 0 c)), 0)
  | 3 => (old &&& c, 0)
  | 4 => (old ||| c, 0)
  | 5 => (old ^^^ c, 0)
  | _ => (c, 0)

/-- One lane's step of a chain: the new memory value and the flags for FPSTAT (R158). -/
def chainStep (i : Instr) (l : LaneReq) (old : Nat) : Nat × Flags :=
  match i with
  | .atom x => atomStep x old l.data.toNat
  | .red x => atomStep x old l.data.toNat
  | _ => (if old = l.cmp.toNat then l.data.toNat else old, 0)

/-- A chain over lanes in order: the final value and each lane's old value and flags (R158). -/
def runChain (i : Instr) (ls : List LaneReq) (old : Nat) : Nat × List (LaneReq × Nat × Flags) :=
  ls.foldl (fun r l => let (v, f) := chainStep i l r.1; (v, r.2 ++ [(l, r.1, f)])) (old, [])

/-- Delivers the old value of a chain to one lane, with the flags that an ATOM raises: in that lane, or in every guarded
thread of the path of a scalar one (R127, R158). -/
def Group.deliverOld (g : Group) (i : Instr) (lane : Nat) (mask : W64) (old : Nat) (f : Flags) : Group :=
  let flag (g : Group) : Group := g.modThreads (laneIn mask) (fun _ t => { t with fpstat := t.fpstat ||| f })
  match i with
  | .atom x => flag (g.deliver (wideT x.t.toNat) x.d.toNat lane (BitVec.ofNat 64 old))
  | .cas x =>
    if x.kind = 2 then g.deliverQuad x.d.toNat lane (BitVec.ofNat 128 old)
    else g.deliver (x.kind = 1) x.d.toNat lane (BitVec.ofNat 64 old)
  | _ => g

/-- The operations of one aggregation: the operation's own lanes, or those of every group of a formed issue group (R390). -/
def State.joinedOps (s : State) (o : MemOp) : List MemOp :=
  if o.joint then s.ops.filter (fun x => x.joint && x.agg == o.agg && x.pc == o.pc) else [o]

/-- The home lane of a request: a scalar instruction's is its path's first. -/
def LaneReq.home (l : LaneReq) (i : Instr) : Nat := if i.scalar then ((lanesOf l.view 64).head?).getD 0 else l.lane

/-- The lanes still to perform that form a chain at an address, with their operations, in increasing home lane (R158, R178,
R390). -/
def State.chainLanes (s : State) (o : MemOp) (addr : W64) : List (MemOp × LaneReq) :=
  let ps := (s.joinedOps o).flatMap (fun x => (x.lanes.filter (fun l => l.isTodo && l.addr == addr)).map (fun l => (x, l)))
  if o.joint then ps.sortBy (fun a b => a.2.home a.1.instr < b.2.home b.1.instr) else ps

/-- Every lane of a chain performs. -/
def State.chainDone (s : State) (ps : List (MemOp × LaneReq)) (outs : List (LaneReq × Nat × Flags)) : State :=
  (ps.zip outs).foldl (fun s p =>
    (s.modGroup p.1.1.gid (fun g => g.deliverOld p.1.1.instr p.2.1.lane p.2.1.view p.2.2.1 p.2.2.2)).laneDone
      p.1.1.gid p.1.1.id p.2.1.lane) s

/-- Every lane of a chain is logged with one fault (R270). -/
def State.chainFault (s : State) (ps : List (MemOp × LaneReq)) (f : LaneFault) : State :=
  ps.foldl (fun s p => s.laneFault p.1.id p.2.lane { f with addr := if f.cause = 0x0B then f.addr else p.2.addr }) s

/-- The scope check of a synchronising write of a group at an address (R270). -/
def State.scopeVerdict (s : State) (o : MemOp) (va : Nat) : Option LaneFault :=
  match s.group? o.gid, s.resolve o.asid.toNat va .write with
  | some g, .ok (.line home a v hpa t) =>
    let r := s.lineRecord home a v hpa
    if t.own then (if o.instr.scopeOf = 5 then none else some (scopeFault ScopeRec.none false (va / 64)))
    else if r.passes s g then none else some (scopeFault r false (va / 64))
  | some _, .ok _ => if o.instr.scopeOf = 5 then none else some (scopeFault ScopeRec.none false (va / 64))
  | _, _ => none

/-- A chain of several groups whose scope checks differ: the lanes of the groups that fail are logged, and the others form the
chain. Where all fail or pass, all stand (R270, R390). -/
def State.splitChain (s : State) (ps : List (MemOp × LaneReq)) (va : Nat) : State × List (MemOp × LaneReq) :=
  let bad := ps.filter (fun p => (s.scopeVerdict p.1 va).isSome)
  if bad = [] || bad.length = ps.length then (s, ps)
  else (bad.foldl (fun s p => match s.scopeVerdict p.1 va with
    | some f => s.chainFault [p] f
    | none => s) s, ps.filter (fun p => (s.scopeVerdict p.1 va).isNone))

/-- A chain is written back to each of its groups (R246, R248). -/
def State.sendAcks (s : State) (os : List MemOp) (line : Nat) (w : W64) (system : Bool) : State :=
  os.foldl (fun s o => s.sendAck o line w system) s

/-- Reads and writes n bytes at the home of an address in one action, for chains: a recall, the scope check, the copy rule
and the record (R158, R223, R246, R270). `f` maps the bytes read to the bytes to write; `os` are the operations whose lanes the
chain carries. The core keeps no L1 copy of the line. -/
def State.homeRmw (s : State) (os : List MemOp) (o : MemOp) (g : Group) (va n : Nat) (f : List Byte → List Byte) : Got :=
  let sys := o.instr.scopeOf = 5
  match s.resolve o.asid.toNat va .write with
  | .error e => .fault e
  | .ok (.host b) =>
    if !sys then .fault (scopeFault ScopeRec.none false (va / 64))
    else
      let old := s.hostMem.bytes b n
      .ok (({ s with hostMem := s.hostMem.setBytes b (f old) }).sendAcks os (va / 64) 0 true) old false none true
  | .ok (.peer gr r off) =>
    if !sys then .fault (scopeFault ScopeRec.none false (va / 64))
    else
      let a := gr * 2 ^ 49 + r * 2 ^ 39 + off
      let old := s.peerMem.bytes a n
      .ok (({ s with peerMem := s.peerMem.setBytes a (f old) }).sendAcks os (va / 64) 0 true) old false none true
  | .ok (.line home a v hpa t) =>
    let line := v / 64
    if !s.lineFree a line then .wait
    else
      let r0 := (s.fillHome home a v hpa).dirRecall a line
      match r0.home? a line with
      | none => .wait
      | some h =>
        if t.own && !sys then .fault (scopeFault ScopeRec.none false (va / 64))
        else if !t.own && !h.scope.passes s g then .fault (scopeFault h.scope false (va / 64))
        else
          let old := lineBytes h.data (v % 64) n
          match r0.homeApply home a v hpa (f old) t.trk with
          | .error e => .fault e
          | .ok (s', lr) =>
            let s' := match s'.home? a line with
              | some h => if t.own then s' else s'.putHome { h with scope := s.recordOf g o.instr.scopeOf }
              | none => s'
            .ok ((s'.l1Replace o.core o.asid.toNat (va / 64)).sendAcks os (va / 64) (maxT (s.time home) lr) false) old (poisonedAt h.poison (v % 64) n) none false

/-- A chain of an ATOM, CAS or RED at one address (R158). The record that it leaves is of the group of its last lane. -/
def State.atomicChain (s : State) (o : MemOp) (addr : W64) : State :=
  let all := s.chainLanes o addr
  let (s, ps) := if o.scratch then (s, all) else s.splitChain all addr.toNat
  let ls := ps.map (·.2)
  let os := (ps.map (·.1)).eraseDups
  let n := o.instr.accessBytes
  match ps.getLast?, (ps.getLast?).bind (fun p => s.group? p.1.gid) with
  | some (_, l0), some g =>
    if o.scratch then
      match s.place o l0 with
      | none => s.chainFault ps (scratchFault addr)
      | some (sp, off) =>
        if s.scratchBad (sp - 1) off n then os.foldl (fun s o => s.machineCheckOp o addr) s
        else
          let (v, outs) := runChain o.instr ls (leNat (s.scratchBytes (sp - 1) off n))
          (s.scratchWrite (sp - 1) off (natBytes n v)).chainDone ps outs
    else
      match s.homeRmw os o g addr.toNat n (fun old => natBytes n (runChain o.instr ls (leNat old)).1) with
      | .wait => s
      | .fault f => s.chainFault ps f
      | .ok s' old bad _ _ =>
        if bad then os.foldl (fun s o => s.machineCheckOp o addr) s
        else s'.chainDone ps (runChain o.instr ls (leNat old)).2
  | _, _ => s

/-! ### Draining -/

/-- The largest TIME of the dies. -/
def State.latest (s : State) : W64 := s.dies.foldl (fun m d => maxT m d.time) 0

/-- A lane may perform now: translated, in order, past its release condition, and in no range that is being changed. -/
def State.laneReady (s : State) (o : MemOp) (l : LaneReq) : Bool :=
  l.isTodo && s.resident o.gid && !s.laneBlocked o l && s.releaseOk o && !s.walkFirst o l && !s.shutLane o l

/-- Drains store-buffer entries of a core that satisfy p, oldest first, each after the requests in progress at its line; a
lane that faults is logged. A release drains once it may perform, and an entry that stands behind an earlier access to its bytes
waits for that (R152, R155, R163). -/
def State.drain (s : State) (p : MemOp → LaneReq → Bool) : State :=
  s.ops.foldl (fun s o =>
    if o.instr.isPlainStore && !o.scratch then
      o.lanes.foldl (fun s l =>
        if p o l then
          (match (s.op? o.id).bind (fun o' => (o'.lane? l.lane).map (fun l' => (o', l'))) with
            | some (o', l') =>
              if l'.isTodo && s.resident o'.gid && !s.laneBlocked o' l' && s.releaseOk o' && !s.shutLane o' l' then (s.settleLine o'.asid.toNat l'.addr.toNat).storeLane o' l' else s
            | none => s)
        else s) s
    else s) s

end Sys2Proof.Machine
end

