-- ==== Sys2Proof/Machine/MemoryInstr.lean ====
section
/-! DEFINITION. Issue of memory instructions: the Issue-class checks, the operation they leave outstanding, fences and
cache control (R147 to R166). -/

namespace Sys2Proof.Machine

/-! ### Issue -/

/-- The lanes that a memory instruction acts on, as (lane key, home lane): once with key 0 when scalar (R33, R372). -/
def Ctx.memLanes (c : Ctx) : List (Nat × Nat) :=
  if c.i.scalar then
    match c.act with
    | [] => []
    | h :: _ => [(0, h)]
  else c.act.map (fun h => (h, h))

/-- FINFO of a Page fault of reason RANGE (R368). -/
def rangeInfo (wr : Bool) : W32 := BitVec.ofNat 32 (boolNat wr * 32)

/-- The Issue-class fault of one address: cause and FINFO (R152). -/
def Ctx.addrFault (c : Ctx) (a : W64) : Option (Nat × W32) :=
  let n := c.i.accessBytes
  if c.i.isScratch && (c.s.scratchTarget c.w a n).isNone then some (0x10, 0x1000)
  else if !c.i.isScratch && beyond57 a then some (0x08, rangeInfo (Instr.needOf c.i = .write))
  else if a.toNat % n != 0 then some (0x07, 0)
  else none

/-- The fault of the lowest failing lane (R152). -/
def Ctx.issueFault (c : Ctx) (addrs : List W64) : Option TrapInfo :=
  match addrs.find? (fun a => (c.addrFault a).isSome) with
  | none => none
  | some a => (c.addrFault a).map (fun f => c.trap f.1 f.2 a)

/-- The view of LDV: C, or VIEWCUR (R156, R230). -/
def Ctx.viewOf (c : Ctx) : W64 := if c.fieldCode 3 = 0x1FF then c.g.viewcur else c.uval 3

/-- A read at an address would meet poisoned data now: the copies that serve a load with the core's stores over them, the line as an
atomic finds it behind those stores, or a scratchpad (R256). -/
def Ctx.meetsPoison (c : Ctx) (a : W64) : Bool :=
  let n := c.i.accessBytes
  let asid := c.g.asid.toNat
  let va := a.toNat
  if c.i.isScratch then
    match c.s.scratchTarget c.w a n with
    | some (wid, off) => (c.i.isLoad || c.i.isAtomic) && c.s.scratchBad wid off n
    | none => false
  else if c.i.isPlainLoad then
    match (match c.i with
      | .ldv _ => c.s.viewRead c.core c.g.gid c.s.tick asid va n c.viewOf c.i.noL1 false
      | _ => c.s.lsuRead c.core c.g.gid c.s.tick asid va n c.i.noL1 false) with
    | .ok _ _ bad _ _ => bad
    | _ => false
  else if c.i.isAtomic && c.s.buffered c.core asid c.g.gid c.s.tick va n == [] then
    match c.s.lineNow asid va .read none with
    | .ok (_, po) => poisonedAt po (va % 64) n
    | .error _ => false
  else false

/-- Machine check at issue of a read that meets poison (R256, R428). -/
def Ctx.poisonTrap (c : Ctx) (addrs : List W64) : Option TrapInfo :=
  match addrs.find? c.meetsPoison with
  | none => none
  | some a => some (if c.i.isScratch then c.trap 0x14 1 else c.trap 0x14 0 (a &&& ~~~7#64))

/-- Leaves an operation outstanding: it takes the lowest free log entry of its partition (HITGET takes none), and its
destinations are pending (R152, R369). -/
def Ctx.issueOp (c : Ctx) (lanes : List LaneReq) (dests : List (Nat × W64)) : State :=
  if lanes = [] then c.s
  else
    let (id, s) := c.s.newId
    let entry := if c.i.loggable then ((c.s.freeEntries c.core c.g.ipart).head?).getD 0 else 32
    let s : State := { s with ops := s.ops ++
      [⟨id, c.g.gid, c.core, c.g.ipart, entry, c.pc, c.i, c.g.asid, c.i.isScratch, c.part.mask, false, lanes, none, .raised,
        s.cycle c.core, s.issue.id, s.issue.formed, []⟩] }
    s.modGroup c.g.gid (fun g => { g with pend := g.pend ++ dests.map (fun d => ⟨id, d.1, d.2⟩) })

/-- A value as 128 bits, or four registers as 128 bits. -/
def quadOfRegs (l : List W32) : BitVec 128 :=
  BitVec.ofNat 128 (l.foldr (fun r x => r.toNat + 2 ^ 32 * x) 0)

/-- 128 bits of the register field k at lane h: four registers, or the operand. -/
def Ctx.wideVal (c : Ctx) (k h : Nat) : BitVec 128 :=
  match c.fieldUse k with
  | .opnd o => if o.span = 4 then quadOfRegs (c.vregsAt k h 4) else (c.val k h).setWidth 128
  | _ => 0

/-- Destination registers of the instruction with the lanes that await them. -/
def Ctx.destPend (c : Ctx) (keys : List Nat) : List (Nat × W64) :=
  if c.sh.dsrc then [] else (c.sh.d.names (c.fieldCode 0)).map (fun r => (r, maskOf keys))

/-- What a lane's request keeps in `view`: the view of a versioned load, or the threads that an atomic's flags reach (R127,
R156, R158). -/
def Ctx.viewField (c : Ctx) (h : Nat) : W64 :=
  if c.i.isAtomic then (if c.i.scalar then c.actMask else maskOf [h]) else c.viewOf

/-- Loads, stores and atomics (R150 to R158): checks of Issue class, then one operation with a request per lane. -/
def memIssue (c : Ctx) : Except TrapInfo Res :=
  let ls := c.memLanes
  let addrs := ls.map (fun p => c.ea p.2)
  match c.issueFault addrs with
  | some t => .error t
  | none =>
    match c.poisonTrap addrs with
    | some t => .error t
    | none =>
      let reqs := ls.map (fun p => (⟨p.1, c.ea p.2,
        if c.sh.dsrc then c.wideVal 0 p.2 else c.wideVal 3 p.2,
        c.wideVal 0 p.2, c.viewField p.2, [], .todo⟩ : LaneReq))
      .ok { s := c.issueOp reqs (c.destPend (ls.map (·.1))) }

/-- PREF: lines are fetched, each after the requests in progress at it, and a lane that would fault is dropped (R157). -/
def prefIssue (x : MForm) (c : Ctx) : Except TrapInfo Res :=
  .ok { s := c.act.foldl (fun s h =>
    let va := (c.ea h).toNat
    if 2 ^ 57 ≤ va || s.shut c.g.asid.toNat va 1 then s
    else if (s.l1Hit c.core c.g.asid.toNat (va / 64)).isSome && x.kind = 0 then s
    else
      match (s.settleLine c.g.asid.toNat va).partyRead c.core c.g.asid.toNat va 1 (x.kind = 0) with
      | .ok s' _ _ _ _ => s'
      | _ => s) c.s }

/-! ### Fences -/

/-- Adds a fence to the group (R159). -/
def Ctx.addHold (c : Ctx) (ord : BitVec 2) (scope : BitVec 3) (producers consumers : BitVec 8) : State :=
  let (id, s) := c.s.newId
  s.modGroup c.g.gid (fun g => { g with holds := g.holds ++ [⟨id, ord, scope, producers, consumers⟩] })

/-- FENCE (R159, R160). -/
def fenceIssue (x : MForm) (c : Ctx) : Except TrapInfo Res :=
  .ok { s := c.addHold x.ord (BitVec.ofNat 3 x.scope.toNat) 0 0xFF }

/-- FENCEX (R159, R161). -/
def fencexIssue (x : MForm) (c : Ctx) : Except TrapInfo Res :=
  .ok { s := c.addHold 0 (BitVec.ofNat 3 x.scope.toNat) (x.imm.extractLsb' 0 8) (x.imm.extractLsb' 8 8) }

/-- Commands of the paths of a producer mask that were issued before a tick have reached DONE (R161). -/
def Group.commandsDone (g : Group) (paths : BitVec 8) (upto : Nat) : Bool :=
  !g.cmds.any (fun k => (k.st == 1 || k.st == 2) && k.tick < upto &&
    match Instr.enginePath k.instr with
    | some p => paths.getLsbD p
    | none => false)

/-- BVHCHK: no producer of the traversal path (R161). -/
def isBvhchk : Instr → Bool
  | .bvhchk _ => true
  | _ => false

/-- Operations of the matrix and traversal paths issued before a tick have finished (R161). -/
def State.unitDone (s : State) (g : Group) (path upto : Nat) : Bool :=
  !s.ops.any (fun o => o.gid == g.gid && o.id < upto && o.instr.enginePath == some path && !isBvhchk o.instr && o.lanes != [])
  && !s.mx.any (fun e => e.gid == g.gid && e.id < upto && e.instr.enginePath == some path)


/-- An earlier entry of the group is open: a fence waits for its replay (R153, R159). -/
def State.openBefore (s : State) (gid upto : Nat) : Bool :=
  s.ops.any (fun o => o.gid == gid && o.id < upto && o.openEntry)

/-- The conditions of a fence hold (R159 to R161, R267). -/
def State.holdDone (s : State) (g : Group) (h : Hold) : Bool :=
  let sc := h.scope.toNat
  let p := h.producers
  let lsu := h.consumers.getLsbD 0
  if s.openBefore g.gid h.id then false
  else if p = 0 then (!h.ord.getLsbD 0 || s.readsDone g h.id) && (!h.ord.getLsbD 1 || s.writesDone g h.id sc)
  else
    (!p.getLsbD 0 || (s.readsDone g h.id && s.writesDone g h.id sc))
    && g.commandsDone (p &&& 0x66) h.id
    && (!p.getLsbD 3 || (s.unitDone g 3 h.id && s.past g g.tw))
    && (!p.getLsbD 4 || s.unitDone g 4 h.id)
    && (!p.getLsbD 6 || s.past g s.peerW)
    && (!p.getLsbD 7 || s.past g s.dmaW)
    && (!(lsu && p &&& 0x4E != 0) || s.past g g.eh)
    && (!(lsu && p.getLsbD 6) || s.past g s.peerLr)
    && (!(lsu && p.getLsbD 7) || s.past g s.dmaLr)

/-! ### Leases and cache control -/

/-- The line-aligned range of a uniform address and length; none for length zero (R162). -/
def Ctx.lineRange (c : Ctx) : Option (Nat × Nat) :=
  let a := (c.ea ((c.act.head?).getD 0)).toNat
  let n := (c.uval 3).toNat
  if n = 0 then none else some (a / 64 * 64, (a + n + 63) / 64 * 64)

/-- Range error of DROP and CCTL: of an ea at or above 2^57 whatever the length, or of a range that ends beyond it (R150,
R162). -/
def Ctx.rangeFault (c : Ctx) : Option TrapInfo :=
  let ea := c.ea ((c.act.head?).getD 0)
  if beyond57 ea || c.lineRange.any (fun r => 2 ^ 57 < r.2) then some (c.trap 0x08 (rangeInfo false) ea) else none

/-- In-flight loads of a core that satisfy p keep no line (R163, R166). -/
def State.noAllocate (s : State) (p : MemOp → Bool) : State :=
  { s with ops := s.ops.map (fun o => if o.instr.isLoad && p o then { o with noAlloc := true } else o) }

/-- A DROP of a core's range drains the stores to it that were issued before an identifier. Once none is left it drops the lines, and
loads in flight to them keep none; the flag tells whether it has (R163). -/
def State.dropStep (s : State) (core : Nat) (asid : BitVec 16) (upto lo hi : Nat) : State × Bool :=
  let inR (a : Nat) : Bool := lo ≤ a && a < hi
  let mine (o : MemOp) : Bool := o.core == core && o.asid == asid && o.id < upto
  let s := s.drain (fun o l => mine o && inR l.addr.toNat)
  if s.ops.any (fun o => mine o && o.instr.isPlainStore && o.lanes.any (fun l => l.stage == .todo && inR l.addr.toNat)) then (s, false)
  else
    let s := s.dropL1 (fun x => x.core == core && x.asid == asid.toNat && inR (x.line * 64))
    (s.noAllocate (fun o => o.core == core && o.asid == asid && o.lanes.any (fun l => inR l.addr.toNat)), true)

/-- DROP (R163): where a store to its range may not drain yet, an operation that FENCE_COMPLETE finishes. Without an active lane it
does nothing, as it has no address (R162; DESIGN CHOICE, log entry 59). -/
def dropIssue (c : Ctx) : Except TrapInfo Res :=
  if c.act = [] then .ok { s := c.s }
  else
    match c.rangeFault with
    | some t => .error t
    | none =>
      match c.lineRange with
      | none => .ok { s := c.s }
      | some (lo, hi) =>
        match c.s.dropStep c.core c.g.asid c.s.tick lo hi with
        | (s, true) => .ok { s := s }
        | (s, false) => .ok { s := ({ c with s := s } : Ctx).issueOp [⟨0, BitVec.ofNat 64 lo, BitVec.ofNat 128 hi, 0, 0, [], .todo⟩] [] }

/-- A core holds a quad of a partition in the current slot and is not fused off (R164). -/
def State.coreInPart (s : State) (core part : Nat) : Bool :=
  core < 256 && s.coreMap.getLsbD core &&
    match s.quads[quadOf core]? with
    | some q => q.owner == some part
    | none => false

/-- The latest write completion time with which stores of a core under an ASID were acknowledged (R164). -/
def State.coreWOf (s : State) (core asid : Nat) : W64 :=
  match s.coreW.find? (fun e => e.1 == core && e.2.1 == asid) with
  | some e => e.2.2
  | none => 0

/-- PROMOTE, which without an active lane does nothing (log entry 59): the victim check, then an operation that FENCE_COMPLETE finishes (R164, R271). The request keeps the victim
in cmp, the write completion times it must pass in data, and in view that its first two steps are done. -/
def promoteIssue (c : Ctx) : Except TrapInfo Res :=
  if c.act = [] then .ok { s := c.s }
  else
    let ea := c.ea ((c.act.head?).getD 0)
    let victim := (c.uval 3).toNat % 256
    if !c.s.coreInPart victim c.la.part then .error (c.trap 0x10 0x2000)
    else if beyond57 ea then .error (c.trap 0x08 (rangeInfo false) ea)
    else
      let asid := c.g.asid
      let w := (c.s.acks.filter (fun a => a.core == victim && a.asid == asid.toNat)).foldl (fun w a => maxT w a.w)
        (c.s.coreWOf victim asid.toNat)
      let s := c.issueOp [⟨0, ea, w.setWidth 128, BitVec.ofNat 128 victim, 0, [], .todo⟩] []
      .ok { s := s.noAllocate (fun o => o.core == victim && o.asid == asid) }

/-- CCTL (R165): each line after the requests in progress at it. Without an active lane it does nothing (log entry 59). -/
def cctlIssue (x : MForm) (c : Ctx) : Except TrapInfo Res :=
  if c.act = [] then .ok { s := c.s }
  else
    match c.rangeFault with
    | some t => .error t
    | none =>
      match c.lineRange with
      | none => .ok { s := c.s }
      | some (lo, hi) =>
        let asid := c.g.asid.toNat
        let inR (line : Nat) : Bool := lo ≤ line * 64 && line * 64 < hi
        let lines := (c.s.home.filter (fun h => h.asid == asid && inR h.line)).map (·.line)
        let s := lines.foldl (fun s l =>
          if x.kind = 0 then ((s.quietLine asid l).dirReadMiss asid l).writeBackHome asid l else s.evictHome asid l) c.s
        .ok { s := if x.kind = 0 then s else s.dropL1 (fun y => y.core == c.core && y.asid == asid && inR y.line) }

/-! ### Meanings -/

/-- LD (R154, R155). -/
def execLd (x : MForm) (s : State) : Host.Outcome State Fault Refusal := done s (issueWord (.ld x) memIssue s)
/-- ST (R154, R155). -/
def execSt (x : MForm) (s : State) : Host.Outcome State Fault Refusal := done s (issueWord (.st x) memIssue s)
/-- LDS (R151, R154). -/
def execLds (x : MForm) (s : State) : Host.Outcome State Fault Refusal := done s (issueWord (.lds x) memIssue s)
/-- STS (R151, R154). -/
def execSts (x : MForm) (s : State) : Host.Outcome State Fault Refusal := done s (issueWord (.sts x) memIssue s)
/-- LDQ (R154). -/
def execLdq (x : MForm) (s : State) : Host.Outcome State Fault Refusal := done s (issueWord (.ldq x) memIssue s)
/-- STQ (R154). -/
def execStq (x : MForm) (s : State) : Host.Outcome State Fault Refusal := done s (issueWord (.stq x) memIssue s)
/-- LDV (R156). -/
def execLdv (x : MForm) (s : State) : Host.Outcome State Fault Refusal := done s (issueWord (.ldv x) memIssue s)
/-- PREF (R157). -/
def execPref (x : MForm) (s : State) : Host.Outcome State Fault Refusal := done s (issueWord (.pref x) (prefIssue x) s)
/-- ATOM (R158). -/
def execAtom (x : MForm) (s : State) : Host.Outcome State Fault Refusal := done s (issueWord (.atom x) memIssue s)
/-- CAS (R158). -/
def execCas (x : MForm) (s : State) : Host.Outcome State Fault Refusal := done s (issueWord (.cas x) memIssue s)
/-- RED (R158). -/
def execRed (x : MForm) (s : State) : Host.Outcome State Fault Refusal := done s (issueWord (.red x) memIssue s)
/-- FENCE (R159, R160). -/
def execFence (x : MForm) (s : State) : Host.Outcome State Fault Refusal := done s (issueWord (.fence x) (fenceIssue x) s)
/-- FENCEX (R161). -/
def execFencex (x : MForm) (s : State) : Host.Outcome State Fault Refusal :=
  done s (issueWord (.fencex x) (fencexIssue x) s)
/-- DROP (R163). -/
def execDrop (x : MForm) (s : State) : Host.Outcome State Fault Refusal := done s (issueWord (.drop x) dropIssue s)
/-- PROMOTE (R164, R271). -/
def execPromote (x : MForm) (s : State) : Host.Outcome State Fault Refusal :=
  done s (issueWord (.promote x) promoteIssue s)
/-- CCTL (R165). -/
def execCctl (x : MForm) (s : State) : Host.Outcome State Fault Refusal := done s (issueWord (.cctl x) (cctlIssue x) s)

end Sys2Proof.Machine
end

