-- ==== Sys2Proof/Machine/MemoryEvents.lean ====
section
/-! DEFINITION. Steps in which outstanding operations of the load-store unit perform: returns, applies, acknowledgements,
atomic and deque chains, fences, PROMOTE, and replays of the operand log (R158, R160, R164, R178, R246, R248, R271,
R370, R374, R375, R388, R396). -/

namespace Sys2Proof.Machine

/-! ### Deque chains -/

/-- A Queue fault of a deque header or buffer (R178, R421). -/
def dequeFault (addr : W64) : LaneFault := ⟨0x0E, 0, false, true, addr, 0, none, 0x40⟩

/-- An address lies in a region of KIND 2 or 3, where no deque may lie (R238, R388). -/
def State.farDeque (s : State) (asid va : Nat) : Bool :=
  (((s.asid? asid).bind (fun c => regionOf c va)).map (·.1)).any (fun k => k == 2 || k == 3)

/-- TOP and BOT of a deque while a chain runs. -/
structure DequeEnds where
  top : Nat
  bot : Nat
  deriving DecidableEq, Repr

/-- What a chain has done so far: the state, the ends, the addresses of the entries it moved, results (operation, lane, D, ok),
faulting lanes, poisoned data met, and the largest lease record of the entries written. -/
structure DequeRun where
  s : State
  ends : DequeEnds
  entries : List Nat
  outs : List (MemOp × LaneReq × W64 × Bool)
  faults : List (MemOp × LaneReq × LaneFault)
  bad : Bool
  w : W64

/-- Reads or writes one entry of a deque's buffer at the home of its line, with the line's lease record where it is written. A
Queue fault names the header (R178, R388, R421). -/
def State.dequeEntry (s : State) (asid : Nat) (hdr : W64) (va : Nat) (w : Option W64) : Except LaneFault (State × W64 × Bool × W64) :=
  if 2 ^ 57 ≤ va || s.farDeque asid va then .error (dequeFault hdr)
  else
    match w with
    | some v => (s.engineWriteLr asid va (natBytes 8 v.toNat)).map (fun r => (r.1, v, false, r.2))
    | none => (s.engineNat asid va 8).map (fun r => (r.1, BitVec.ofNat 64 r.2.1, r.2.2, 0))

/-- One lane's step of a deque chain (R178). Ends count modulo 2^64. -/
def DequeRun.step (i : Instr) (asid : Nat) (hdr : W64) (buf cap : Nat) (r : DequeRun) (p : MemOp × LaneReq) : DequeRun :=
  let e := r.ends
  let l := p.2
  let size := (e.bot + 2 ^ 64 - e.top) % 2 ^ 64
  let slot (k : Nat) : Nat := buf + 8 * (k % cap)
  let fail : DequeRun := { r with outs := r.outs ++ [(p.1, l, 0, false)] }
  match i with
  | .dqpush _ =>
    if cap ≤ size then fail
    else
      match r.s.dequeEntry asid hdr (slot e.bot) (some (l.data.setWidth 64)) with
      | .error f => { r with faults := r.faults ++ [(p.1, l, f)] }
      | .ok (s, _, _, w) =>
        { r with s := s, ends := { e with bot := (e.bot + 1) % 2 ^ 64 }, entries := slot e.bot :: r.entries
                 outs := r.outs ++ [(p.1, l, 0, true)], w := maxT r.w w }
  | .dqpop _ =>
    if size = 0 then fail
    else
      let k := (e.bot + 2 ^ 64 - 1) % 2 ^ 64
      match r.s.dequeEntry asid hdr (slot k) none with
      | .error f => { r with faults := r.faults ++ [(p.1, l, f)] }
      | .ok (s, v, bad, _) =>
        { r with s := s, ends := { e with bot := k }, entries := slot k :: r.entries, outs := r.outs ++ [(p.1, l, v, true)], bad := r.bad || bad }
  | _ =>
    if size = 0 then fail
    else
      match r.s.dequeEntry asid hdr (slot e.top) none with
      | .error f => { r with faults := r.faults ++ [(p.1, l, f)] }
      | .ok (s, v, bad, _) =>
        { r with s := s, ends := { e with top := (e.top + 1) % 2 ^ 64 }, entries := slot e.top :: r.entries
                 outs := r.outs ++ [(p.1, l, v, true)], bad := r.bad || bad }

/-- The result of one lane of a deque operation, and the status predicate of the lanes of a mask: that lane, or every
active lane of a scalar instruction (R33, R178). -/
def Group.deliverDeque (g : Group) (i : Instr) (lane : Nat) (mask : W64) (v : W64) (ok : Bool) : Group :=
  let put (x : XForm) (d : Bool) : Group :=
    let g := if d then g.deliver true x.d.toNat lane v else g
    g.modThreads (fun h => laneIn mask h) (fun _ t => t.setPred (x.imm.toNat % 8) ok)
  match i with
  | .dqpush x => put x false
  | .dqpop x => put x true
  | .dqsteal x => put x true
  | _ => g

/-- A chain's lanes take their results (R178). -/
def State.dequeDone (s : State) (outs : List (MemOp × LaneReq × W64 × Bool)) : State :=
  outs.foldl (fun s p =>
    (s.modGroup p.1.gid (fun g => g.deliverDeque p.1.instr p.2.1.lane p.2.1.view p.2.2.1 p.2.2.2)).laneDone p.1.gid p.1.id
      p.2.1.lane) s

/-- A deque chain of the lanes that name one header (R178, R388). -/
def State.dequeChain (s : State) (o : MemOp) (addr : W64) : State :=
  let va := addr.toNat
  let all := s.chainLanes o addr
  if s.farDeque o.asid.toNat va then s.chainFault all (dequeFault addr)
  else
    let (s, ps) := s.splitChain all va
    let os := (ps.map (·.1)).eraseDups
    match (ps.getLast?).bind (fun p => s.group? p.1.gid), s.resolve o.asid.toNat va .write with
    | none, _ => s
    | some _, .error f => s.chainFault ps f
    | some g, .ok (.line home a v hpa t) =>
      let line := v / 64
      if !s.lineFree a line then s
      else
        let s0 := (s.fillHome home a v hpa).dirRecall a line
        match s0.home? a line with
        | none => s
        | some h =>
          let rd (k n : Nat) : Nat := leNat (lineBytes h.data k n)
          let lcap := rd 24 4 % 64
          let buf := rd 16 8
          if !h.scope.passes s g then s.chainFault ps (scopeFault h.scope false (va / 64))
          else if poisonedAt h.poison 0 28 then os.foldl (fun s o => s.machineCheckOp o addr) s
          else if lcap = 0 || 20 < lcap || buf % 8 != 0 then s.chainFault ps (dequeFault addr)
          else
            let e0 : DequeEnds := ⟨rd 0 8, rd 8 8⟩
            let r := ps.foldl (DequeRun.step o.instr o.asid.toNat addr buf (2 ^ lcap)) ⟨s0, e0, [], [], [], false, 0⟩
            if r.bad then os.foldl (fun s o => s.machineCheckOp o addr) s
            else
              let w : Except LaneFault (State × W64) :=
                if r.ends = e0 then .ok (r.s, h.lr)
                else r.s.homeApply home a v hpa (natBytes 8 r.ends.top ++ natBytes 8 r.ends.bot) t.trk
              match w with
              | .error f => s.chainFault ps f
              | .ok (s', lr) =>
                let s' := (r.entries.foldl (fun s k => s.l1Replace o.core o.asid.toNat (k / 64)) s').l1Replace o.core o.asid.toNat (va / 64)
                let s' : State := match s'.home? a line with
                  | some h => s'.putHome { h with scope := s.recordOf g o.instr.scopeOf }
                  | none => s'
                let s' := (s'.sendAcks os (va / 64) (maxT (s.time home) (maxT lr r.w)) false).dequeDone r.outs
                r.faults.foldl (fun s p => s.laneFault p.1.id p.2.1.lane p.2.2) s'
    | some _, .ok _ => s.chainFault ps (dequeFault addr)

/-! ### Trying a lane -/

/-- A chain of an operation at an address may be performed, other chains of its request aside: in every group that it carries it
is released and translated, and no earlier access of the group to its bytes is outstanding. -/
def State.chainFree (s : State) (o : MemOp) (addr : W64) : Bool :=
  let ps := s.chainLanes o addr
  let others : State := { s with ops := s.ops.filter (fun x => !(s.joinedOps o).any (fun y => y.id == x.id)) }
  ps != [] && (o.scratch || !s.needsWalk o.asid.toNat addr.toNat)
    && ps.all (fun p => s.resident p.1.gid && s.releaseOk p.1 && !s.shutLane p.1 p.2 && !others.laneBlocked p.1 p.2)

/-- A lane still to perform names the line of an address, in an operation. -/
def MemOp.sameLine (o : MemOp) (addr : W64) (l : LaneReq) : Bool :=
  l.isTodo && (o.scratch || l.addr.toNat / 64 == addr.toNat / 64)

/-- A chain may be performed: the chains of its request at lower addresses have been, and so have those of groups packed before its
own in the issue (R390). -/
def State.chainReady (s : State) (o : MemOp) (addr : W64) : Bool :=
  s.chainFree o addr
    && !(s.joinedOps o).any (fun x => x.lanes.any (fun l => x.sameLine addr l && l.addr.toNat < addr.toNat))
    && !(o.instr.isAtomic && s.ops.any (fun x => !x.joint && x.agg == o.agg && x.pc == o.pc && x.id < o.id && x.instr.isAtomic
      && x.lanes.any (fun l => x.sameLine addr l && s.chainFree x l.addr)))

/-- The place of a request among those that reach one line in one cycle: DQPUSH and DQPOP chains before DQSTEAL chains, by the
lower die, core and group slot, and then every other access, by the lower die (R178, R249, R257, R388). -/
def MemOp.rank (o : MemOp) (s : State) : Nat :=
  let steal : Bool := match o.instr with
    | .dqsteal _ => true
    | _ => false
  if o.instr.isDeque then boolNat steal * 2 ^ 24 + o.core * 2 ^ 16 + (((s.group? o.gid).map (·.gslot)).getD 0) % 2 ^ 16
  else 2 ^ 25 + dieOf o.core

/-- A request may be served in this cycle: the line has served none whose place is behind its own (R249, R388, log entry 57). -/
def State.inTurn (s : State) (o : MemOp) (addr : W64) : Bool :=
  o.scratch || !s.lineTurns.any (fun e => e.1 == o.asid.toNat && e.2.1 == addr.toNat / 64 && o.rank s < e.2.2)

/-- A line serves a request in this cycle. -/
def State.serve (s : State) (o : MemOp) (addr : W64) : State :=
  let e := (o.asid.toNat, addr.toNat / 64, o.rank s)
  if o.scratch || s.lineTurns.contains e then s else { s with lineTurns := s.lineTurns ++ [e] }

/-- An earlier load of the group from the same line may return now: it returns first (R381, R382; DEDUCED, log entry 67). -/
def State.loadBehind (s : State) (o : MemOp) (l : LaneReq) : Bool :=
  !o.scratch && s.ops.any (fun x => x.gid == o.gid && x.id < o.id && x.asid == o.asid && !x.scratch && x.instr.isPlainLoad
    && x.lanes.any (fun y => y.addr.toNat / 64 == l.addr.toNat / 64 && s.laneReady x y))

/-- A lane of a plain load returns, if it may. -/
def State.tryLoad (s : State) (id lane : Nat) : State :=
  match s.op? id with
  | none => s
  | some o =>
    match o.lane? lane with
    | none => s
    | some l => if o.instr.isPlainLoad && s.laneReady o l && !s.loadBehind o l && s.inTurn o l.addr then (s.serve o l.addr).loadLane o l else s

/-- A lane of a store is applied, if it may. -/
def State.tryStore (s : State) (id lane : Nat) : State :=
  match s.op? id with
  | none => s
  | some o =>
    match o.lane? lane with
    | none => s
    | some l => if o.instr.isLaneStore && s.laneReady o l && s.inTurn o l.addr then (s.serve o l.addr).storeLane o l else s

/-- A chain of an atomic is performed, if it may. -/
def State.tryAtomic (s : State) (id : Nat) (addr : W64) : State :=
  match s.op? id with
  | none => s
  | some o => if o.instr.isAtomic && s.chainReady o addr && s.inTurn o addr then (s.serve o addr).atomicChain o addr else s

/-- A deque chain is performed, if it may. -/
def State.tryDeque (s : State) (id : Nat) (addr : W64) : State :=
  match s.op? id with
  | none => s
  | some o => if o.instr.isDeque && s.chainReady o addr && s.inTurn o addr then (s.serve o addr).dequeChain o addr else s

/-- A lane's walk has faulted: with it are logged the lanes of its chain, or those of its store to the same address, so that they
replay in order (R152, R158, R166). -/
def State.walkFault (s : State) (o : MemOp) (l : LaneReq) (f : LaneFault) : State :=
  if o.instr.isAtomic || o.instr.isDeque then s.chainFault (s.chainLanes o l.addr) f
  else if o.instr.isLaneStore then s.storeFault o l f
  else s.laneFault o.id l.lane f

/-- PROMOTE and DROP, whose lanes FENCE_COMPLETE performs. -/
def isCacheOp : Instr → Bool
  | .promote _ => true
  | .drop _ => true
  | _ => false

/-- A lane is translated: the walk fills a TLB or logs the lane (R361, R362, R368). -/
def State.walkLane (s : State) (id lane : Nat) : State :=
  match s.op? id with
  | none => s
  | some o =>
    match o.lane? lane with
    | none => s
    | some l =>
      if l.isTodo && s.resident o.gid && Instr.enginePath o.instr == some 0 && !isCacheOp o.instr && s.walkFirst o l && !s.shutLane o l then
        match s.fillTlb o.asid.toNat l.addr.toNat (Instr.needOf o.instr) with
        | .ok s => s
        | .error f => s.walkFault o l f
      else s

/-- One lane is translated and performed, if it may. -/
def State.tryLane (s : State) (id : Nat) (l : LaneReq) : State :=
  let s := s.walkLane id l.lane
  (((s.tryLoad id l.lane).tryStore id l.lane).tryAtomic id l.addr).tryDeque id l.addr

/-! ### Replay -/

/-- A logged lane that stands for a chain withdrawn at a slot edge: it carries no fault (R396). -/
def LaneReq.withdrawn (l : LaneReq) : Bool :=
  match l.stage with
  | .logged f => f.cause == 0
  | _ => false

/-- Logged lanes that satisfy p are to be performed again (R370). -/
def State.reopenLogged (s : State) (id : Nat) (p : LaneReq → Bool) : State :=
  s.modOp id (fun o => { o with
    log := .replay
    lanes := o.lanes.map (fun l => if l.isLogged && p l then { l with stage := .todo } else l) })

/-- Logged lanes that satisfy p are to be performed again, and those of the load-store unit are performed in order
(R370). -/
def State.performLogged (s : State) (id : Nat) (p : LaneReq → Bool) : State :=
  match s.op? id with
  | none => s
  | some o =>
    let ls := o.lanes.filter (fun l => l.isLogged && p l)
    let s := s.reopenLogged id p
    if o.instr.enginePath = some 0 then ls.foldl (fun s l => s.tryLane id l) s else s

/-- An earlier logged entry of the group stands before an entry (R375). -/
def State.logBefore (s : State) (o : MemOp) : Bool :=
  s.ops.any (fun x => x.gid == o.gid && x.id < o.id && x.isLogged)

/-- The group is resident, in the active tier and not ended (R320, R374). -/
def State.groupActive (s : State) (gid : Nat) : Bool :=
  match s.group? gid with
  | none => false
  | some g => !g.stopped && !g.retired && g.tier == .active && s.unstopped g

/-- A DEPTH entry replays by itself once a write to the page meets no DEPTH (R224). -/
def State.depthCleared (s : State) (o : MemOp) : Bool :=
  o.lanes.any (fun l =>
    match l.fault? with
    | some f => f.cause == 0x13 && f.reason == 9 && s.depthFree o.asid.toNat f.addr.toNat
    | none => false)

/-- An entry may replay: it was serviced, or waits only for a frame chain to shorten (R224, R374, R375). -/
def State.mayReplay (s : State) (o : MemOp) : Bool :=
  s.groupActive o.gid && !s.logBefore o && o.lanes.any (fun l => l.isLogged && !l.withdrawn)
    && !o.lanes.any LaneReq.isTodo && (o.log = .replay || (o.log = .reported && s.depthCleared o))

/-- A serviced entry replays (R370, R374). Its record is closed. -/
def State.replayOp (s : State) (id : Nat) : State :=
  match s.op? id with
  | none => s
  | some o =>
    if !s.mayReplay o then s
    else
      let vf := ((s.group? o.gid).bind (fun g => (s.wg? g.wid).bind (fun w => s.launch? w.lid))).map (·.vf)
      let s := match vf, o.fid with
        | some vf, some fid => s.closeFid vf fid
        | _, _ => s
      s.performLogged id (fun l => !l.withdrawn)

/-! ### Fences and PROMOTE -/

/-- Stores of a victim core that a PROMOTE must wait for (R164). -/
def State.victimBusy (s : State) (o : MemOp) (victim : Nat) : Bool :=
  s.acks.any (fun a => a.core == victim && a.asid == o.asid.toNat) ||
  s.ops.any (fun x => x.core == victim && x.asid == o.asid && x.id < o.id && x.instr.isPlainStore
    && x.lanes.any LaneReq.isTodo)

/-- PROMOTE completes: the victim's lines of the address space are dropped, and the scope record is checked and widened. Its
replay repeats only the last two steps (R164, R271, R272). -/
def State.promoteDone (s : State) (id : Nat) : State :=
  match s.op? id with
  | none => s
  | some o =>
    match o.lanes with
    | [] => s
    | l :: _ =>
      match s.group? o.gid with
      | none => s
      | some g =>
        let victim := l.cmp.toNat
        let w : W64 := l.data.setWidth 64
        if !l.isTodo || !s.resident o.gid || s.shutLane o l || (l.view == 0 && (s.victimBusy o victim || !(w == 0 || w + 4 ≤ s.time (s.groupDie g)))) then s
        else
          let s := if l.view = 0 then
              (s.dropL1 (fun x => x.core == victim && x.asid == o.asid.toNat)).modOp id (fun o => { o with
                lanes := o.lanes.map (fun l => { l with view := 1 }) })
            else s
          match s.resolve o.asid.toNat l.addr.toNat .read with
          | .ok (.line home a v hpa t) =>
            if t.own then s.laneDone o.gid id l.lane
            else if !s.lineFree a (v / 64) then s
            else
              let s := (s.fillHome home a v hpa).dirRecall a (v / 64)
              (match s.home? a (v / 64) with
                | none => s
                | some h =>
                  if !h.scope.valid || h.scope.includes s g then s.laneDone o.gid id l.lane
                  else if h.scope.core != victim then s.laneFault id l.lane (scopeFault h.scope true (v / 64))
                  else (s.putHome { h with scope := { h.scope with sc := BitVec.ofNat 3 o.instr.scopeOf } }).laneDone o.gid id l.lane)
          | _ => s.laneDone o.gid id l.lane

/-- A DROP that waits for stores to drain goes on (R163). -/
def State.dropDone (s : State) (id : Nat) : State :=
  match s.op? id with
  | none => s
  | some o =>
    match o.lanes with
    | [] => s
    | l :: _ =>
      if !s.resident o.gid then s
      else
        match s.dropStep o.core o.asid o.id l.addr.toNat l.data.toNat with
        | (s, true) => s.laneDone o.gid id l.lane
        | (s, false) => s

/-- A hold of a group is lifted when its conditions are met; the path caches of a FENCEX's consumers drop the ASID's lines (R160,
R161). -/
def State.liftHold (s : State) (gid hold : Nat) : State :=
  match s.group? gid with
  | none => s
  | some g =>
    match g.holds.find? (fun h => h.id == hold) with
    | none => s
    | some h =>
      let fenced (x : PathLine) : Bool := h.consumers != 0xFF && h.consumers.getLsbD x.path && x.asid == g.asid.toNat
        && s.coreOf g == some x.core
      if s.holdDone g h then (s.dropPath fenced).modGroup gid (fun g => { g with holds := g.holds.filter (fun x => x.id != hold) }) else s

/-! ### Meanings -/

/-- LOAD_RETURN (R244). -/
def execLoadReturn (op lane : Nat) (s : State) : Host.Outcome State Fault Refusal := done s (s.tryLoad op lane)

/-- STORE_APPLY (R246). -/
def execStoreApply (op lane : Nat) (s : State) : Host.Outcome State Fault Refusal := done s (s.tryStore op lane)

/-- An acknowledgement reaches its group; a PROMOTE that waits for the core notes its completion time (R164, R248). -/
def State.ackArrives (s : State) (ack : Nat) : State :=
  match s.acks.find? (fun a => a.id == ack) with
  | none => s
  | some a =>
    let s : State := { s with
      acks := s.acks.filter (fun x => x.id != ack)
      ops := s.ops.map (fun o =>
        match o.instr with
        | .promote _ =>
          if o.asid.toNat = a.asid then { o with lanes := o.lanes.map (fun l =>
            if l.cmp.toNat = a.core then { l with data := (maxT (l.data.setWidth 64) a.w).setWidth 128 } else l) } else o
        | _ => o) }
    let others := s.coreW.filter (fun e => !(e.1 == a.core && e.2.1 == a.asid))
    let s : State := { s with coreW := (a.core, a.asid, maxT a.w (s.coreWOf a.core a.asid)) :: others }
    s.modGroup a.gid (fun g => { g with ch := maxT g.ch a.w })

/-- STORE_ACK (R248). -/
def execStoreAck (ack : Nat) (s : State) : Host.Outcome State Fault Refusal := done s (s.ackArrives ack)

/-- ATOMIC_UNIT_CHAIN (R158). -/
def execAtomicUnitChain (op : Nat) (addr : W64) (s : State) : Host.Outcome State Fault Refusal :=
  done s (s.tryAtomic op addr)

/-- DEQUE_CHAIN (R178, R388). -/
def execDequeChain (op : Nat) (addr : W64) (s : State) : Host.Outcome State Fault Refusal := done s (s.tryDeque op addr)

/-- FENCE_COMPLETE (R160, R161, R163, R164): a fence, or a PROMOTE or DROP of that identifier. -/
def execFenceComplete (gid hold : Nat) (s : State) : Host.Outcome State Fault Refusal :=
  done s (match s.op? hold with
    | some o =>
      (match o.instr with
        | .promote _ => if o.gid = gid then s.promoteDone hold else s
        | .drop _ => if o.gid = gid then s.dropDone hold else s
        | _ => s)
    | none => s.liftHold gid hold)

/-- OPLOG_REPLAY (R370, R374, R375). -/
def execOplogReplay (op : Nat) (s : State) : Host.Outcome State Fault Refusal := done s (s.replayOp op)

/-- REPLAY_ENTRY (R375, R396). -/
def execReplayEntry (op : Nat) (s : State) : Host.Outcome State Fault Refusal :=
  done s (match s.op? op with
    | none => s
    | some o =>
      if s.groupActive o.gid && !s.logBefore o && o.lanes.any LaneReq.withdrawn then s.performLogged op LaneReq.withdrawn else s)

end Sys2Proof.Machine
end

