-- ==== Sys2Proof/Machine/Matrix.lean ====
section
/-! DEFINITION. Matrix instructions: the checks at issue, entry into a quad's reservation table, grants and passes
(R280 to R300, R323 to R331). -/

namespace Sys2Proof.Machine

/-! ### Issue -/

/-- A Tile shape fault at the instruction (R283). -/
def Ctx.tileTrap (c : Ctx) (e : TileErr) : TrapInfo := c.trap 0x0D (tileInfo e)

/-- Migration fault, then Partial issue (R285). -/
def Ctx.matrixTrap (c : Ctx) : Option TrapInfo :=
  if c.g.landing.isSome then some (c.trap 0x15 1) else c.partialIssue

/-- MXCAP fields of a core's quad: M64, M32, M16, M8, M4 (R284). -/
def State.mxcapOf (s : State) (core : Nat) : List Nat := (s.fuses.mxcap[quadOf core]?).getD []

/-- A request for an engine with what its pass needs (R323, R326). -/
structure MxReq where
  d : Nat
  a : Nat
  b : Nat
  vals : List W64 := []
  words : List W32 := []

/-- The request enters the table of the quad of a core with the shapes as they stand. A TSHAPE has reached the engine: requests that enter after it read its shape (R287, R300, R323). -/
def State.enterMx (s : State) (id : Nat) (g : Group) (w : Workgroup) (core : Nat) (pc : W64) (i : Instr) (r : MxReq) : State :=
  let e : MxEntry := ⟨id, s.cycle core, quadOf core, core, g.gid, g.gslot, 0, false, pc, i, (w.tile r.d).tsh,
    (w.tile r.a).tsh, (w.tile r.b).tsh, r.vals, r.words⟩
  let s := ({ s with mx := s.mx ++ [e] } : State).modGroup g.gid (fun g => { g with mxStall := none })
  match i with
  | .tshape x => s.modWg w.wid (fun w => w.modTile x.d.toNat (fun t => { t with tsh := ((r.vals[0]?).getD 0).setWidth 32 &&& 0x3FFFF }))
  | _ => s

/-- Issues a matrix instruction: faults, then its request; `dests` are registers that stay pending (R287). -/
def Ctx.mxIssue (c : Ctx) (err : Option TrapInfo) (r : MxReq) (dests : List (Nat × W64) := []) : Except TrapInfo Res :=
  match c.matrixTrap with
  | some t => .error t
  | none =>
    match err with
    | some t => .error t
    | none =>
      let (id, s) := c.s.newId
      let s := s.enterMx id c.g c.w c.core c.pc c.i r
      .ok { s := s.modGroup c.g.gid (fun g => { g with pend := g.pend ++ dests.map (fun d => ⟨id, d.1, d.2⟩) }) }

/-- A tile error as a trap. -/
def Ctx.tileErr (c : Ctx) (e : Option TileErr) : Option TrapInfo := e.map c.tileTrap

/-- TSHAPE (R288). -/
def tshapeIssue (x : XForm) (c : Ctx) : Except TrapInfo Res :=
  let v := if c.fieldCode 1 = 0x1FF then x.imm.setWidth 64 else c.uval 1
  c.mxIssue none { d := x.d.toNat, a := 0, b := 0, vals := [v] }

/-- TZERO and MXSCL.FILL (R283, R290). -/
def tileOnly (d : Nat) (c : Ctx) : Except TrapInfo Res :=
  c.mxIssue (c.tileErr (firstErr [d] (capErrs [(d, c.shapeOf d)]))) { d := d, a := 0, b := 0 }

/-- MXSCL (R283, R290). -/
def mxsclIssue (x : XForm) (c : Ctx) : Except TrapInfo Res :=
  let d := x.d.toNat
  let a := x.a.toNat
  let sa := c.shapeOf a
  c.mxIssue (c.tileErr (firstErr [d, a] (capErrs [(d, c.shapeOf d), (a, sa)] ++
      [(sa.fmt != 9, (a, tFORMAT)), (512 < sa.count, (a, tINDEX))])))
    { d := d, a := a, b := 0 }

/-- The row operand of TMOVV and TMOVT, IMM read as UI32 (R286). -/
def Ctx.rowOf (c : Ctx) (imm : BitVec 24) : Nat :=
  (if c.fieldCode 3 = 0x1FF then imm.setWidth 64 else c.uval 3).toNat % 2 ^ 32

/-- The checks of TMOVV and TMOVT (R291). -/
def Ctx.moveErr (c : Ctx) (t base row : Nat) : Option TileErr :=
  let sh := c.shapeOf t
  let n := (sh.lineBits false + 31) / 32
  firstErr [t] (capErrs [(t, sh)] ++ [(sh.lineBits false % 8 != 0, (t, tALIGN)),
    (sh.rows ≤ row || c.vd.regs ≤ base + (n - 1) / c.g.width, (t, tINDEX))])

/-- TMOVV (R291): its registers are read at issue. -/
def tmovvIssue (x : XForm) (c : Ctx) : Except TrapInfo Res :=
  let d := x.d.toNat
  let row := c.rowOf x.imm
  let n := ((c.shapeOf d).lineBits false + 31) / 32
  c.mxIssue (c.tileErr (c.moveErr d x.a.toNat row))
    { d := d, a := 0, b := 0, vals := [BitVec.ofNat 64 row],
      words := (slotRegs c.g.width x.a.toNat n).map (fun p => c.g.vreg p.1 p.2) }

/-- TMOVT (R291): its registers stay pending until the pass. -/
def tmovtIssue (x : XForm) (c : Ctx) : Except TrapInfo Res :=
  let a := x.a.toNat
  let row := c.rowOf x.imm
  let n := ((c.shapeOf a).lineBits false + 31) / 32
  c.mxIssue (c.tileErr (c.moveErr a x.d.toNat row)) { d := 0, a := a, b := 0, vals := [BitVec.ofNat 64 row] }
    ((slotRegs c.g.width x.d.toNat n).map (fun p => (p.2, (1 : W64) <<< p.1)))

/-- A multiply's own Tile shape fault for the context's workgroup. -/
def Ctx.mulErr (c : Ctx) (r : MulReq) : Option TileErr :=
  r.err (c.shapeOf r.d) (c.shapeOf r.a) (c.shapeOf r.b) (c.s.mxcapOf c.core)

/-- MMA (R292). -/
def mmaIssue (x : XForm) (c : Ctx) : Except TrapInfo Res :=
  let r : MulReq := ⟨x.d.toNat, x.a.toNat, x.b.toNat, x.rm.toNat, x.sat.toNat, none⟩
  c.mxIssue (c.tileErr (c.mulErr r)) { d := r.d, a := r.a, b := r.b }

/-- Entries of a GMMA list from 16-bit words: the visited (g, s) pairs and whether some entry has bit 15 set (R296). The limits on
g(i) and s(i) are checked for entries that are not skipped only (DESIGN CHOICE, log entry 65). -/
def gmmaEntries (isc : Bool) (ws : List Nat) : List (Nat × Nat) × Bool :=
  ((ws.zipIdx).filterMap (fun p =>
      if p.1.testBit 7 then none else some (p.1 % 128, if isc then p.2 else p.1 / 256 % 128)),
   !isc && ws.any (fun w => w.testBit 15))

/-- The entries of a GMMA list: from registers, or from scratchpad with the faults of R151 and R150 (R296). Where the scratchpad
cannot be read, the checks of R283 see a list of skipped entries (DESIGN CHOICE, log entry 65). -/
def Ctx.gmmaList (c : Ctx) (x : XForm) : List Nat × Bool × Option TrapInfo :=
  let n := x.imm.toNat % 64 + 1
  if x.imm.getLsbD 6 then
    let a := c.uval 3
    match c.s.scratchTarget c.w a (2 * n) with
    | none => (List.replicate n 0x80, false, some (c.trap 0x10 0x1000 a))
    | some (wid, off) =>
      if a.getLsbD 0 then (List.replicate n 0x80, false, some (c.trap 0x07 0 a))
      else if c.s.scratchBad wid off (2 * n) then (List.replicate n 0x80, false, some (c.trap 0x14 1))
      else
        let bs := c.s.scratchBytes wid off (2 * n)
        ((List.range n).map (fun i => leNat ((bs.drop (2 * i)).take 2)), false, none)
  else
    let base := x.c.toNat
    ((slotRegs c.g.width base n).map (fun p => (c.g.vreg p.1 p.2).toNat % 2 ^ 16),
     c.vd.regs ≤ base + (n - 1) / c.g.width, none)

/-- GMMA (R296). -/
def gmmaIssue (x : XForm) (c : Ctx) : Except TrapInfo Res :=
  let n := x.imm.toNat % 64 + 1
  let (ws, past, lateErr) := c.gmmaList x
  let (es, bad) := gmmaEntries (x.imm.getLsbD 7) ws
  let r : MulReq := ⟨x.d.toNat, x.a.toNat, x.b.toNat, x.rm.toNat, x.sat.toNat, some (n, es, bad || past)⟩
  let err := match c.tileErr (c.mulErr r) with
    | some t => some t
    | none => lateErr
  c.mxIssue err { d := r.d, a := r.a, b := r.b, words := ws.map (BitVec.ofNat 32) }

/-- TCVT (R297). -/
def tcvtIssue (x : XForm) (c : Ctx) : Except TrapInfo Res :=
  let d := x.d.toNat
  let a := x.a.toNat
  c.mxIssue (c.tileErr (tcvtErr d a (c.shapeOf d) (c.shapeOf a) (x.imm.getLsbD 0))) { d := d, a := a, b := 0 }

/-- TADD (R298). -/
def taddIssue (x : XForm) (c : Ctx) : Except TrapInfo Res :=
  let d := x.d.toNat
  let a := x.a.toNat
  let b := x.b.toNat
  c.mxIssue (c.tileErr (taddErr [(d, c.shapeOf d), (a, c.shapeOf a), (b, c.shapeOf b)] true x.rm.toNat x.sat.toNat))
    { d := d, a := a, b := b }

/-- TSCALE (R298). -/
def tscaleIssue (x : XForm) (c : Ctx) : Except TrapInfo Res :=
  let d := x.d.toNat
  let a := x.a.toNat
  let v := if c.fieldCode 3 = 0x1FF then immVal 5 x.imm else c.uval 3
  c.mxIssue (c.tileErr (taddErr [(d, c.shapeOf d), (a, c.shapeOf a)] false x.rm.toNat 0))
    { d := d, a := a, b := 0, vals := [v] }

/-- TRED (R299). -/
def tredIssue (x : XForm) (c : Ctx) : Except TrapInfo Res :=
  let d := x.d.toNat
  let a := x.a.toNat
  c.mxIssue (c.tileErr (tredErr d a (c.shapeOf d) (c.shapeOf a) (x.imm.toNat % 4) x.rm.toNat x.sat.toNat))
    { d := d, a := a, b := 0 }

/-! ### TLD and TST -/

/-- The stride of a TLD or TST under a shape (R289). -/
def strideOf (sh : TShape) (tr : Bool) (given : Option W64) : Nat :=
  match given with
  | some v => v.toNat
  | none => sh.lineBits tr / 8

/-- Shape checks of TLD and TST (R283, R289). -/
def tileMemErr (t : Nat) (sh : TShape) (tr : Bool) : Option TileErr :=
  firstErr [t] (capErrs [(t, sh)] ++ [(tr && sh.w < 8, (t, tFORMAT)), (sh.lineBits tr % 8 != 0, (t, tALIGN))])

/-- The lines of a TLD or TST as (address, bytes) (R289). -/
def tileLines (sh : TShape) (tr : Bool) (ea stride : Nat) : List (Nat × Nat) :=
  (List.range (sh.lines tr)).map (fun m => (ea + m * stride, sh.lineBits tr / 8))

/-- The checks of a TLD or TST on a reading of its tile's shape: Tile shape fault, then the range error, then Misaligned access,
each as (cause, FINFO, FADDR) (R285, R289). -/
def tileMemFault (x : MForm) (wr : Bool) (sh : TShape) (ea : W64) (given : Option W64) : Option (Nat × W32 × W64) :=
  let stride := strideOf sh x.tr given
  let al := (sh.w + 7) / 8
  match tileMemErr x.d.toNat sh x.tr with
  | some e => some (0x0D, tileInfo e, 0)
  | none =>
    if (tileLines sh x.tr ea.toNat stride).any (fun l => 2 ^ 57 < l.1 + l.2) then some (0x08, rangeInfo wr, ea)
    else if ea.toNat % al != 0 || stride % al != 0 then some (0x07, 0, ea)
    else none

/-- TST. -/
def isTst : Instr → Bool
  | .tst _ => true
  | _ => false

/-- Issue of TLD and TST: the checks on the shape as it stands, then an operation whose walk enters the table. The operation
keeps its address and its stride operand (R285, R289). -/
def tileMemIssue (x : MForm) (c : Ctx) : Except TrapInfo Res :=
  match c.matrixTrap with
  | some t => .error t
  | none =>
    let ea := c.ea ((c.act.head?).getD 0)
    let given := if c.fieldCode 3 = 0x1FF then none else some (c.uval 3)
    match tileMemFault x (isTst c.i) (c.shapeOf x.d.toNat) ea given with
    | some (k, info, a) => .error (c.trap k info a)
    | none => .ok { s := c.issueOp [⟨0, ea, given.elim 0 (fun v => BitVec.ofNat 128 (v.toNat + 2 ^ 64)), 0, 0, [], .todo⟩] [] }

/-- Every page of the lines resolves and, for a write, obtains its frame for the step it will be applied in (R289). -/
def State.tilePages (s : State) (asid : Nat) (wr : Bool) (lines : List (Nat × Nat)) : Except LaneFault State :=
  let ps := lines.flatMap (fun l => piecesOf l.1 l.2)
  let seen := ps.foldl (fun (r : Except LaneFault Unit) p =>
    match r with
    | .error f => .error f
    | .ok _ => (s.resolve asid p.1 (if wr then .write else .read)).map (fun _ => ())) (.ok ())
  match seen with
  | .error f => .error f
  | .ok _ =>
    if !wr then .ok s
    else
      ps.foldl (fun (r : Except LaneFault State) p =>
        match r with
        | .error f => .error f
        | .ok s =>
          match s.page? asid p.1 with
          | none => .ok s
          | some pg => s.nextFrame pg p.1) (.ok s)

/-- The stride operand that a TLD or TST keeps. -/
def LaneReq.given (l : LaneReq) : Option W64 := if l.data.toNat < 2 ^ 64 then none else some (l.data.setWidth 64)

/-- The shape that a TLD or TST has read: as its request entered the table, or as it stands while it has not entered (R287). -/
def State.tileShape (s : State) (o : MemOp) (x : MForm) : W32 :=
  match s.mx.find? (fun e => e.id == o.id) with
  | some e => e.shapeD
  | none => (((s.group? o.gid).bind (fun g => s.wg? g.wid)).map (fun w => (w.tile x.d.toNat).tsh)).getD 0

/-- The fields, write flag and lines of a TLD or TST. -/
def State.tileMem (s : State) (o : MemOp) : Option (MForm × Bool × List (Nat × Nat)) :=
  let of (x : MForm) (l : LaneReq) (wr : Bool) : MForm × Bool × List (Nat × Nat) :=
    let sh := tshape (s.tileShape o x)
    (x, wr, tileLines sh x.tr l.addr.toNat (strideOf sh x.tr l.given))
  match o.lanes with
  | [] => none
  | l :: _ =>
    match o.instr with
    | .tld x => some (of x l false)
    | .tst x => some (of x l true)
    | _ => none

/-- Two lists of (address, bytes) share a byte. -/
def linesMeet (a b : List (Nat × Nat)) : Bool :=
  a.any (fun x => b.any (fun y => x.1 < y.1 + y.2 && y.1 < x.1 + x.2))

/-- An earlier TLD or TST of the group touches bytes of this one, and one of them writes: it goes first (R259). -/
def State.tileBefore (s : State) (o : MemOp) : Bool :=
  match s.tileMem o with
  | none => false
  | some (_, wr, lines) => s.ops.any (fun e => e.gid == o.gid && e.id < o.id && match s.tileMem e with
      | some (_, wr', lines') => (wr || wr') && linesMeet lines lines'
      | none => false)

/-- Of the operations of another state, an earlier TLD or TST of the group touches bytes of this one, and one of them writes. -/
def State.tileBehind (s t : State) (o : MemOp) : Bool :=
  (t.ops.filter (fun e => e.lanes != [])).any (fun e => e.gid == o.gid && e.id < o.id &&
    match s.tileMem o, s.tileMem e with
    | some (_, wr, lines), some (_, wr', lines') => (wr || wr') && linesMeet lines lines'
    | _, _ => false)

/-- A group that finds no room for an entry is stalled from now on (R325). -/
def State.stallMx (s : State) (g : Group) (core : Nat) : State :=
  if g.mxStall.isSome then s
  else s.modGroup g.gid (fun g => { g with mxStall := some (s.cycle core) })

/-- The shape of a TLD or TST, written by another group since it issued, fails the checks as it would enter: it has no effect,
and its fault is a deferred trap at the instruction, as that of an MMAS after an exit is (R287, R295, R323; DESIGN CHOICE,
log entry 53). -/
def State.tileEntryFault (s : State) (o : MemOp) (k : Nat) (info : W32) (a : W64) : State :=
  (s.delOp o.gid o.id).modGroup o.gid (fun g => { g with
    wakeTick := s.tick, traps := g.traps ++ [⟨o.id, byteOf k, o.pc, a, info, none, 0⟩] })

/-- The walk of a TLD or TST: the checks on the shape that its request reads, all its pages at once, then entry into the table
while it has room (R287, R289, R323). -/
def State.walkTile (s : State) (id : Nat) : State :=
  match s.op? id with
  | none => s
  | some o =>
    match s.group? o.gid with
    | none => s
    | some g =>
      match s.wg? g.wid with
      | none => s
      | some w =>
        match s.tileMem o, o.lane? 0 with
        | some (x, wr, lines), some l =>
          if !l.isTodo || !s.resident o.gid || s.tileBefore o || lines.any (fun k => s.shut o.asid.toNat k.1 k.2) then s
          else if !s.mxRoom g o.core then s.stallMx g o.core
          else
            match tileMemFault x wr (tshape (w.tile x.d.toNat).tsh) l.addr l.given with
            | some (k, info, a) => s.tileEntryFault o k info a
            | none =>
              match s.tilePages o.asid.toNat wr lines with
              | .error f => s.laneFault id 0 f
              | .ok s =>
                ((s.modOp id (fun o => { o with lanes := o.lanes.map (fun l => { l with stage := .waiting }) })).freeEntry id).enterMx
                  id g w o.core o.pc o.instr { d := x.d.toNat, a := 0, b := 0, vals := [l.addr, l.data.setWidth 64] }
        | _, _ => s

/-! ### Passes -/

/-- Tile k read under a shape. -/
def Workgroup.view (w : Workgroup) (k : Nat) (sh : W32) : TileView := ⟨w.tile k, tshape sh⟩

/-- Words of a line as 32-bit registers (R291). -/
def tileWord (line j : Nat) : W32 := BitVec.ofNat 32 (line / 2 ^ (32 * j))

/-- A line's bit string from 32-bit words, bits at or above n ignored (R291). -/
def wordsLine (n : Nat) (ws : List W32) : Nat := (ws.foldr (fun w r => w.toNat + 2 ^ 32 * r) 0) % 2 ^ n

/-- Reads the lines of a TLD, through the tile-load buffer of its core (R161, R267). -/
def State.readLines (s : State) (core asid : Nat) (lines : List (Nat × Nat)) : Except LaneFault (State × List Nat × Bool) :=
  lines.foldl (fun (r : Except LaneFault (State × List Nat × Bool)) l =>
    match r with
    | .error f => .error f
    | .ok (s, ls, bad) =>
      match s.pathRead 3 core asid l.1 l.2 with
      | .error f => .error f
      | .ok (s', bs, bad') => .ok (s', ls ++ [leNat bs], bad || bad')) (.ok (s, [], false))

/-- Writes the lines of a TST in order: the state and the largest lease record of the lines (R267, R289). -/
def State.writeLines (s : State) (asid : Nat) (ls : List ((Nat × Nat) × Nat)) : Except LaneFault (State × W64) :=
  ls.foldl (fun (r : Except LaneFault (State × W64)) p =>
    match r with
    | .error f => .error f
    | .ok (s, w) =>
      match s.engineWriteLr asid p.1.1 (natBytes p.1.2 p.2) with
      | .error f => .error f
      | .ok (s', lr) => .ok (s', maxT w lr)) (.ok (s, 0))

/-- The effect of a pass on tiles of the workgroup; none for TMOVT, TLD and TST (R288 to R299). TSHAPE wrote the shape as it
entered. -/
def MxEntry.tilePass (e : MxEntry) (w : Workgroup) : Option Workgroup :=
  let v (k : Nat) : W64 := (e.vals[k]?).getD 0
  let mul (x : XForm) (l : Option (Nat × List (Nat × Nat) × Bool)) : Workgroup :=
    let r : MulReq := ⟨x.d.toNat, x.a.toNat, x.b.toNat, x.rm.toNat, x.sat.toNat, l⟩
    let t := r.run (w.view r.d e.shapeD) (w.view r.a e.shapeA) (w.view r.b e.shapeB)
    w.modTile r.d (fun _ => t)
  match e.instr with
  | .tshape _ => some w
  | .tzero x => some (w.modTile x.d.toNat (fun t => { t with bits := 0, scales := [] }))
  | .tmovv x =>
    let sh := tshape e.shapeD
    let n := sh.lineBits false
    let row := (v 0).toNat
    some (w.modTile x.d.toNat (fun t =>
      let old := t.bits / 2 ^ (n * row) % 2 ^ n
      { t with bits := t.bits - old * 2 ^ (n * row) + wordsLine n e.words * 2 ^ (n * row) }))
  | .mma x => some (mul x none)
  | .mmas x => some (mul x none)
  | .gmma x => some (mul x (some (x.imm.toNat % 64 + 1, (gmmaEntries (x.imm.getLsbD 7) (e.words.map (·.toNat))).1, false)))
  | .tcvt x =>
    let t := tcvtRun x.rm.toNat x.sat.toNat (x.imm.getLsbD 0) (w.view x.d.toNat e.shapeD) (w.view x.a.toNat e.shapeA)
    some (w.modTile x.d.toNat (fun _ => t))
  | .mxscl x =>
    let a := w.view x.a.toNat e.shapeA
    some (w.modTile x.d.toNat (fun t =>
      (List.range a.shape.count).foldl (fun t i => t.setScale i (BitVec.ofNat 8 (a.tile.elem 8 i))) t))
  | .mxsclFill x =>
    some (w.modTile x.d.toNat (fun t =>
      (List.range 512).foldl (fun t i => t.setScale i (x.imm.setWidth 8)) t))
  | .tadd x =>
    let t := taddRun x.rm.toNat x.sat.toNat (w.view x.d.toNat e.shapeD) (w.view x.a.toNat e.shapeA) (w.view x.b.toNat e.shapeB)
    some (w.modTile x.d.toNat (fun _ => t))
  | .tscale x =>
    let t := tscaleRun x.rm.toNat (v 0) (w.view x.d.toNat e.shapeD) (w.view x.a.toNat e.shapeA)
    some (w.modTile x.d.toNat (fun _ => t))
  | .tred x =>
    let t := tredRun (x.imm.toNat % 4) x.rm.toNat x.sat.toNat (w.view x.d.toNat e.shapeD) (w.view x.a.toNat e.shapeA)
    some (w.modTile x.d.toNat (fun _ => t))
  | _ => none

/-- The pass of a TLD or TST for its operation; a fault met then logs the operation again with nothing written (R289). -/
def State.tileMemPass (s : State) (e : MxEntry) (w : Workgroup) : State :=
  match s.op? e.id with
  | none => s
  | some o =>
    let sh := tshape e.shapeD
    let lines (x : MForm) : List (Nat × Nat) := (o.lane? 0).elim [] (fun l => tileLines sh x.tr l.addr.toNat (strideOf sh x.tr l.given))
    match (match e.instr with
      | .tld x => some (x, false)
      | .tst x => some (x, true)
      | _ => none) with
    | none => s
    | some (x, wr) =>
      let lines := lines x
      let asid := o.asid.toNat
      let t := w.view x.d.toNat e.shapeD
      if wr then
        match s.tilePages asid true lines with
        | .error f => s.laneFault e.id 0 f
        | .ok s =>
          let data := (List.range lines.length).map (t.line x.tr)
          match s.writeLines asid (lines.zip data) with
          | .error f => s.laneFault e.id 0 f
          | .ok (s, lr) => (s.modGroup e.gid (fun g => { g with eh := maxT g.eh lr, tw := maxT g.tw s.latest })).laneDone e.gid e.id 0
      else
        match s.readLines e.core asid lines with
        | .error f => s.laneFault e.id 0 f
        | .ok (s', ls, bad) =>
          if bad then s.machineCheckOp o 0
          else (s'.modWg w.wid (fun w => w.modTile x.d.toNat (fun _ => t.withLines x.tr ls))).laneDone e.gid e.id 0

/-- A granted request's pass (R323). -/
def State.mxPass (s : State) (e : MxEntry) : State :=
  if isTileMem e.instr && (s.group? e.gid).any (fun g => s.shutIn g.asid.toNat) then s
  else
  let s : State := { s with mx := s.mx.filter (fun x => x.id != e.id) }
  match s.group? e.gid with
  | none => s
  | some g =>
    match s.wg? g.wid with
    | none => s
    | some w =>
      match e.instr with
      | .tmovt x =>
        let t := w.view x.a.toNat e.shapeA
        let n := t.shape.lineBits false
        let line := t.tile.bits / 2 ^ (n * ((e.vals[0]?).getD 0).toNat) % 2 ^ n
        let regs := slotRegs g.width x.d.toNat ((n + 31) / 32)
        (s.modGroup e.gid (fun g =>
          regs.zipIdx.foldl (fun g p => g.setVreg p.1.1 p.1.2 (tileWord line p.2)) g)).clearPend e.gid e.id
      | .tld _ => s.tileMemPass e w
      | .tst _ => s.tileMemPass e w
      | _ =>
        match e.tilePass w with
        | none => s
        | some w' => s.modWg w.wid (fun _ => w')

/-! ### Arbitration -/

/-- An entry entered before this cycle (R326). -/
def State.waited (s : State) (e : MxEntry) : Bool := e.entered < s.cycle e.core

/-- Entries that compete at a quad: the oldest of each group, unless it entered in this cycle (R326, R327). Entries stand in
the order in which they entered. -/
def State.competing (s : State) (quad : Nat) : List MxEntry :=
  s.mx.filter (fun e => e.quad == quad && !e.granted && s.waited e
    && (s.mx.find? (fun x => x.gid == e.gid)).any (fun x => x.id == e.id))

/-- Workgroup priority of an entry's group (R183, R327). -/
def State.prioOf (s : State) (gid : Nat) : Nat :=
  (((s.group? gid).bind (fun g => s.wg? g.wid)).map (fun w => w.prio.toNat)).getD 0

/-- The order of the arbiter: overdue first, by age, then by score; then core, then group slot (R327). -/
def State.mxBefore (s : State) (a b : MxEntry) : Bool :=
  let key (e : MxEntry) : Nat × Nat := if 224 ≤ e.age then (1, e.age) else (0, 16 * s.prioOf e.gid + e.age)
  let ka := key a
  let kb := key b
  if ka.1 != kb.1 then kb.1 < ka.1
  else if ka.2 != kb.2 then kb.2 < ka.2
  else if a.core != b.core then a.core < b.core else a.gslot < b.gslot

/-- The entry that a grant takes. -/
def State.mxPick (s : State) (quad : Nat) : Option MxEntry :=
  match s.competing quad with
  | [] => none
  | e :: es => some (es.foldl (fun m x => if s.mxBefore x m then x else m) e)

/-- Grants a pass when none is running; every other entry of an earlier cycle ages (R326, R327). -/
def State.mxGrant (s : State) (quad : Nat) : State :=
  if s.mx.any (fun e => e.quad == quad && e.granted) then s
  else
    match s.mxPick quad with
    | none => s
    | some p =>
      { s with mx := s.mx.map (fun e =>
          if e.quad != quad || !s.waited e then e else if e.id = p.id then { e with granted := true } else { e with age := e.age + 1 }) }

/-- Completes the granted pass of a quad (R323, R325). -/
def State.mxComplete (s : State) (quad : Nat) : State :=
  match s.mx.find? (fun e => e.quad == quad && e.granted) with
  | none => s
  | some e => s.mxPass e

/-! ### Meanings -/

/-- TSHAPE (R288). -/
def execTshape (x : XForm) (s : State) : Host.Outcome State Fault Refusal := done s (issueWord (.tshape x) (tshapeIssue x) s)
/-- TLD (R289). -/
def execTld (x : MForm) (s : State) : Host.Outcome State Fault Refusal := done s (issueWord (.tld x) (tileMemIssue x) s)
/-- TST (R289). -/
def execTst (x : MForm) (s : State) : Host.Outcome State Fault Refusal := done s (issueWord (.tst x) (tileMemIssue x) s)
/-- TZERO (R290). -/
def execTzero (x : XForm) (s : State) : Host.Outcome State Fault Refusal := done s (issueWord (.tzero x) (tileOnly x.d.toNat) s)
/-- TMOVV (R291). -/
def execTmovv (x : XForm) (s : State) : Host.Outcome State Fault Refusal := done s (issueWord (.tmovv x) (tmovvIssue x) s)
/-- TMOVT (R291). -/
def execTmovt (x : XForm) (s : State) : Host.Outcome State Fault Refusal := done s (issueWord (.tmovt x) (tmovtIssue x) s)
/-- MMA (R292). -/
def execMma (x : XForm) (s : State) : Host.Outcome State Fault Refusal := done s (issueWord (.mma x) (mmaIssue x) s)
/-- GMMA (R296). -/
def execGmma (x : XForm) (s : State) : Host.Outcome State Fault Refusal := done s (issueWord (.gmma x) (gmmaIssue x) s)
/-- TCVT (R297). -/
def execTcvt (x : XForm) (s : State) : Host.Outcome State Fault Refusal := done s (issueWord (.tcvt x) (tcvtIssue x) s)
/-- MXSCL (R290). -/
def execMxscl (x : XForm) (s : State) : Host.Outcome State Fault Refusal := done s (issueWord (.mxscl x) (mxsclIssue x) s)
/-- MXSCL.FILL (R290). -/
def execMxsclFill (x : XForm) (s : State) : Host.Outcome State Fault Refusal :=
  done s (issueWord (.mxsclFill x) (tileOnly x.d.toNat) s)
/-- TADD (R298). -/
def execTadd (x : XForm) (s : State) : Host.Outcome State Fault Refusal := done s (issueWord (.tadd x) (taddIssue x) s)
/-- TSCALE (R298). -/
def execTscale (x : XForm) (s : State) : Host.Outcome State Fault Refusal :=
  done s (issueWord (.tscale x) (tscaleIssue x) s)
/-- TRED (R299). -/
def execTred (x : XForm) (s : State) : Host.Outcome State Fault Refusal := done s (issueWord (.tred x) (tredIssue x) s)
/-- MATRIX_GRANT (R327). -/
def execMatrixGrant (quad : Nat) (s : State) : Host.Outcome State Fault Refusal := done s (s.mxGrant quad)
/-- MATRIX_PASS_COMPLETE (R323). -/
def execMatrixPassComplete (quad : Nat) (s : State) : Host.Outcome State Fault Refusal := done s (s.mxComplete quad)

/-- TRANSLATION_WALK (R361): of a lane of an operation, or of every page of a TLD or TST. -/
def execTranslationWalk (op lane : Nat) (s : State) : Host.Outcome State Fault Refusal :=
  done s (match s.op? op with
    | none => s
    | some o => if o.instr.tiles = [] then s.walkLane op lane else s.walkTile op)

end Sys2Proof.Machine
end

