-- ==== Sys2Proof/Machine/Tasks.lean ====
section
/-! DEFINITION. Task records, launch queues, ordering by declared ranges, and the completion of tasks (R179 to R181, R310,
R383 to R386, R441, R442). -/

namespace Sys2Proof.Machine

/-- The number in n bytes at an offset of a record. -/
def fieldAt (bs : List Byte) (off n : Nat) : Nat := leNat ((bs.drop off).take n)

/-- The counted ranges of a task record from an offset (R179). -/
def rangesAt (bs : List Byte) (off n : Nat) : List (Nat × Nat) :=
  (List.range n).map (fun k => (fieldAt bs (off + 16 * k) 8, fieldAt bs (off + 16 * k + 8) 8))

/-- The code object that an address names in an ASID (R306). -/
def State.code? (s : State) (asid : BitVec 16) (kobj : W64) : Option CodeObj :=
  s.codes.find? (fun c => c.asid == asid && c.kobj == kobj)

/-- A task record as it stands in 160 bytes, with what a LAUNCH hands down (R179, R180). -/
def parseTask (s : State) (bs : List Byte) (asid : BitVec 16) (fpctl : W32) (viewcur tvec : W64) : LaunchRec :=
  let rc := fieldAt bs 0x1C 4
  let nrd := rc % 8
  let nwr := rc / 16 % 8
  let kobj : W64 := BitVec.ofNat 64 (fieldAt bs 0 8)
  let reads := rangesAt bs 0x20 nrd
  let writes := rangesAt bs 0x60 nwr
  let dims := [fieldAt bs 0x10 4, fieldAt bs 0x14 4, fieldAt bs 0x18 4]
  let code := s.code? asid kobj
  { kobj := kobj
    args := BitVec.ofNat 64 (fieldAt bs 8 8)
    nx := (dims[0]?).getD 0, ny := (dims[1]?).getD 0, nz := (dims[2]?).getD 0
    reads := reads, writes := writes, k := 1, asid := asid
    ngrp := match code with
      | some c => (List.range 4).map (fun v => ((c.variant? v).map (·.tngrp)).getD 0)
      | none => []
    fpctl := fpctl, viewcur := viewcur, tvec := tvec, user := 0, fromHost := false
    malformed := code.isNone || dims.any (· == 0) || 4 < nrd || 4 < nwr || rc % 256 - rc % 8 - nwr * 16 != 0 || 256 ≤ rc
      || (reads ++ writes).any (fun r => r.2 == 0 || 2 ^ 57 < r.1 + r.2) }

/-- A range rounded out to 256 bytes (R179). -/
def roundRange (r : Nat × Nat) : Nat × Nat := (r.1 / 256 * 256, (r.1 + r.2 + 255) / 256 * 256)

/-- Some range of one list overlaps some range of another, rounded out (R383). -/
def rangesMeet (a b : List (Nat × Nat)) : Bool :=
  a.any (fun x => b.any (fun y => (roundRange x).1 < (roundRange y).2 && (roundRange y).1 < (roundRange x).2))

/-- A later record is ordered after an earlier one by their ranges (R383). -/
def LaunchRec.orderedAfter (x y : LaunchRec) : Bool :=
  x.asid == y.asid && (rangesMeet x.writes (y.reads ++ y.writes) || rangesMeet x.reads y.writes)

/-- Entries that a VF's launch queue holds (R385). -/
def State.queued (s : State) (vf : Nat) : Nat := (s.queue.filter (fun e => e.vf == vf)).length

/-- The launch queue of a VF has a free entry (R385). -/
def State.queueFree (s : State) (vf : Nat) : Bool := s.queued vf < 4096

/-- Writes a 16-byte entry of a launch completion ring (R442). -/
def State.putLaunch (s : State) (vf : Nat) (e : W32 × Nat × W64) : State :=
  match s.func? vf with
  | none => s
  | some f =>
    let n := 2 ^ f.lcLog
    let pi := f.lcPi.toNat
    let phase := 1 - pi / n % 2
    let bs := natBytes 4 e.1.toNat ++ natBytes 1 e.2.1 ++ natBytes 1 phase ++ natBytes 2 0 ++ natBytes 8 e.2.2.toNat
    let s : State := { s with hostMem := s.hostMem.setBytes (f.lcRing.toNat + 16 * (pi % n)) bs }
    (s.modFunc vf (fun f => { f with lcPi := f.lcPi + 1 })).signal vf 1

/-- A launch completion ring is full (R442). -/
def Func.lcFull (f : Func) : Bool := 2 ^ f.lcLog ≤ (f.lcPi - f.lcCi).toNat

/-- Writes entries while the launch completion ring has room, and keeps the rest (R442). -/
def State.putLaunches (vf : Nat) : List (W32 × Nat × W64) → State → State
  | [], s => s.modFunc vf (fun f => { f with lcHeld := [] })
  | e :: rest, s =>
    if (s.func? vf).any Func.lcFull then s.modFunc vf (fun f => { f with lcHeld := e :: rest })
    else State.putLaunches vf rest (s.putLaunch vf e)

/-- A completed host launch's entry: written, or delayed by a full ring (R442). -/
def State.launchEntry (s : State) (vf : Nat) (id : W32) (status : Nat) (user : W64) : State :=
  match s.func? vf with
  | none => s
  | some f => if f.lqMade then State.putLaunches vf (f.lcHeld ++ [(id, status, user)]) s else s

/-- The host has taken n entries of a launch completion ring (R442). -/
def State.launchRead (s : State) (vf n : Nat) : State :=
  match s.func? vf with
  | none => s
  | some f =>
    let n := min n (f.lcPi - f.lcCi).toNat
    State.putLaunches vf f.lcHeld (s.modFunc vf (fun f => { f with lcCi := f.lcCi + BitVec.ofNat 16 n }))

/-- A group that created a task is told of its completion (R195). -/
def State.wakeCreator (s : State) (creator : Option Nat) : State :=
  match creator with
  | none => s
  | some gid => s.modGroup gid (fun g => { g with wakeTick := s.tick })

/-- A task completes with a TWAIT status; a host launch writes its completion entry unless it ends silently (R181, R384,
R442, R444). -/
def State.finishTask (s : State) (vf : Nat) (id : W32) (status hostStatus : Nat) (silent : Bool) : State :=
  match s.queue.find? (fun e => e.vf == vf && e.id == id) with
  | none => s
  | some e =>
    let s : State := { s with
      queue := s.queue.filter (fun x => !(x.vf == vf && x.id == id))
      done := ⟨vf, id, byteOf status, e.creator, s.tick⟩ :: s.done.filter (fun d => !(d.vf == vf && d.id == id)) }
    let s := s.wakeCreator e.creator
    if e.record.fromHost && !silent then s.launchEntry vf id hostStatus e.record.user else s

/-- A record enters a launch queue and takes the next id; a malformed one completes at once with status 3 (R179, R180,
R383). -/
def State.addTask (s : State) (vf level : Nat) (r : LaunchRec) (creator : Option Nat) : State × W32 :=
  match s.func? vf with
  | none => (s, 0)
  | some f =>
    let id := f.nextId
    let after := if r.malformed then [] else
      (s.queue.filter (fun e => e.vf == vf && r.orderedAfter e.record)).map (·.id)
    let lease := if r.fromHost then maxT s.dmaW s.dmaLr else 0
    let s : State := { s with queue := s.queue ++ [⟨vf, id, level, r, after, s.cycle 0, false, creator, lease, false⟩] }
    let s := s.modFunc vf (fun f => { f with nextId := id + 1 })
    (if r.malformed then s.finishTask vf id 3 3 false else s, id)

/-- The firmware launches a service of its own: its base level is 2 (R418; DESIGN CHOICE, log entry 68). -/
def State.firmLaunch (s : State) (vf level : Nat) (r : LaunchRec) : State :=
  let (s, id) := s.addTask vf level r none
  { s with queue := s.queue.map (fun e => if e.vf = vf ∧ e.id = id then { e with firmware := true } else e) }

/-- The TWAIT status of an id: none while the task has not completed (R181). -/
def State.taskStatus (s : State) (vf : Nat) (id : W32) : Option Nat :=
  match s.func? vf with
  | none => some 2
  | some f =>
    let age := (f.nextId - id).toNat
    if age = 0 || 2 ^ 31 < age then some 2
    else if s.queue.any (fun e => e.vf == vf && e.id == id) then none
    else
      match s.done.find? (fun d => d.vf == vf && d.id == id) with
      | some d => some d.status.toNat
      | none => some 2

/-- Every task that a queue entry is ordered after has completed (R384), and so have the host's earlier writes (R262). -/
def State.eligible (s : State) (e : QEntry) : Bool :=
  (e.lease == 0 || s.dies.all (fun d => e.lease + 4 ≤ d.time)) && e.after.all (fun id => !s.queue.any (fun x => x.vf == e.vf && x.id == id))

/-! ### LAUNCH -/

/-- LAUNCH. -/
def isLaunch : Instr → Bool
  | .launch _ => true
  | _ => false

/-- Two operations are of one LAUNCH: the same one, or those of the groups of a formed issue group (R386). -/
def MemOp.oneLaunch (x o : MemOp) : Bool := x.id == o.id || (x.joint && o.joint && x.agg == o.agg && x.pc == o.pc)

/-- An earlier LAUNCH lane of the same queue must come first, which has not yet met a full queue: of an earlier LAUNCH, or a lower
home lane of the same one (R180, R386). -/
def State.launchBlocked (s : State) (o : MemOp) (l : LaneReq) : Bool :=
  s.ops.any (fun x => isLaunch x.instr && s.opVf x == s.opVf o && x.lanes.any (fun y => y.isTodo &&
    (if x.oneLaunch o then y.lane < l.lane else x.id < o.id)))

/-- A lower home lane of the same LAUNCH waits for a queue entry (R180). -/
def State.launchWaits (s : State) (o : MemOp) (l : LaneReq) : Bool :=
  s.ops.any (fun x => isLaunch x.instr && x.oneLaunch o && x.lanes.any (fun y => y.stage == .waiting && y.lane < l.lane))

/-- A lane of a LAUNCH reads its record and creates its task, or waits for a queue entry (R180, R369, R385). -/
def State.tryLaunch (s : State) (id lane : Nat) : State :=
  match s.op? id with
  | none => s
  | some o =>
    match o.instr, o.lane? lane, s.group? o.gid with
    | .launch x, some l, some g =>
      match (s.wg? g.wid).bind (fun w => s.launch? w.lid) with
      | none => s
      | some la =>
        if l.isLogged || !s.resident o.gid || s.launchBlocked o l || !s.releaseOk o || s.shutLane o l || s.needsWalk o.asid.toNat l.addr.toNat then s
        else
          match s.engineReadAll o.asid.toNat l.addr.toNat 160 with
          | .error f => s.laneFault id lane f
          | .ok (s', bs, bad) =>
            if bad then s.machineCheckOp o l.addr
            else if !s'.queueFree la.vf || s.launchWaits o l then
              (s'.modOp id (fun o => { o with lanes := o.lanes.map (fun y =>
                if y.lane = lane then { y with stage := .waiting } else y) })).freeEntry id
            else
              let r := parseTask s' bs la.record.asid la.fpctl l.view la.record.tvec
              let (s', tid) := s'.addTask la.vf (x.cmd.toNat % 8) r (some o.gid)
              let s' := if x.d = 0x1FF then s'
                else s'.modGroup o.gid (fun g => g.deliver false x.d.toNat lane (tid.setWidth 64))
              s'.laneDone o.gid id lane
    | _, _, _ => s

/-- LAUNCH (R180): each lane takes its id at its LAUNCH_ENTRY_GRANT. -/
def launchIssue (x : EForm) (c : Ctx) : Except TrapInfo Res :=
  let addrs := c.act.map (fun h => (h, c.val 1 h))
  match addrs.find? (fun p => 2 ^ 57 < p.2.toNat + 160) with
  | some p => .error (c.trap 0x08 (rangeInfo false) p.2)
  | none =>
    let reqs := addrs.map (fun p => (⟨p.1, p.2, 0, 0, c.g.viewcur, [], .todo⟩ : LaneReq))
    .ok { s := c.issueOp reqs (if x.d = 0x1FF then [] else [(x.d.toNat, c.actMask)]) }

/-! ### TWAIT -/

/-- Threads that wait under a token, with what they wait for. -/
def Group.twaits (g : Group) (tok : Nat) : List (Nat × W32 × BitVec 9) :=
  (g.threads.zipIdx).filterMap (fun p => match p.1.wait with
    | .twait t id d => if t = tok then some (p.2, id, d) else none
    | _ => none)

/-- Ends the waits of a token in a group's threads and drops its pending marks. -/
def Group.endWait (g : Group) (p : Wait → Bool) (tok : Nat) : Group :=
  { g with
    threads := g.threads.map (fun t => if p t.wait then { t with wait := .none } else t)
    pend := g.pend.filter (fun x => x.op != tok) }

/-- TWAIT completes when every named task has: each lane's status, or the largest in an s register (R181). -/
def State.twaitDone (s : State) (gid tok : Nat) : State :=
  match s.group? gid with
  | none => s
  | some g =>
    match (s.wg? g.wid).bind (fun w => s.launch? w.lid) with
    | none => s
    | some la =>
      let ws := g.twaits tok
      let sts := ws.filterMap (fun p => (s.taskStatus la.vf p.2.1).map (fun st => (p.1, st, p.2.2)))
      if ws = [] || sts.length < ws.length then s
      else
        let most := sts.foldl (fun m p => max m p.2.1) 0
        s.modGroup gid (fun g =>
          let g := sts.foldl (fun g p =>
            let d := p.2.2.toNat
            if d < 0x100 then g.setVreg p.1 d (BitVec.ofNat 32 p.2.1)
            else if d < 0x140 then g.setSreg (d - 0x100) (BitVec.ofNat 64 most)
            else g) g
          g.endWait (fun w => match w with
            | .twait t _ _ => t == tok
            | _ => false) tok)

/-- TWAIT (R181). -/
def twaitIssue (x : XForm) (c : Ctx) : Except TrapInfo Res :=
  if c.act = [] then .ok { s := c.s }
  else
    let (tok, s) := c.s.newId
    let d := x.d.toNat
    let marks : List Pend := if d < 0x100 then [⟨tok, d, c.actMask⟩] else if d < 0x140 then [⟨tok, d, 1⟩] else []
    let s := s.modGroup c.g.gid (fun g =>
      let g := g.modThreads c.act.contains (fun h t => { t with wait := .twait tok ((c.val 1 h).setWidth 32) x.d })
      { g with pend := g.pend ++ marks })
    .ok { s := s.twaitDone c.g.gid tok }

/-! ### Meanings -/

/-- LAUNCH (R180). -/
def execLaunch (x : EForm) (s : State) : Host.Outcome State Fault Refusal :=
  done s (issueWord (.launch x) (launchIssue x) s)
/-- TWAIT (R181). -/
def execTwait (x : XForm) (s : State) : Host.Outcome State Fault Refusal := done s (issueWord (.twait x) (twaitIssue x) s)
/-- LAUNCH_ENTRY_GRANT (R180, R385): a lane of a LAUNCH goes on once it may. -/
def execLaunchEntryGrant (op lane : Nat) (s : State) : Host.Outcome State Fault Refusal :=
  done s (s.tryLaunch op lane)
/-- TWAIT_COMPLETE (R181). -/
def execTwaitComplete (gid tok : Nat) (s : State) : Host.Outcome State Fault Refusal := done s (s.twaitDone gid tok)

end Sys2Proof.Machine
end

