-- ==== Sys2Proof/Machine/Sync.lean ====
section
/-! DEFINITION. Barriers, scratchpad queues, issue of deque operations, migration and workgroup priority (R167 to R178,
R182, R183, R196, R380, R387, R392 to R394). -/

namespace Sys2Proof.Machine

/-! ### Barriers -/

/-- Barrier k of a workgroup: 0–15 its own, 16–19 its cluster's, 20 its launch's (R169). -/
def State.barrier (s : State) (w : Workgroup) (k : Nat) : Barrier :=
  if k < 16 then (w.bars[k]?).getD Barrier.fresh
  else if k < 20 then ((s.cluster? w.cid).bind (fun c => c.cbars[k - 16]?)).getD Barrier.fresh
  else ((s.launch? w.lid).map (·.sstep)).getD Barrier.fresh

/-- Replaces entry k of a list by f of it. -/
def modNth {α : Type} (l : List α) (k : Nat) (f : α → α) : List α := l.mapIdx (fun j x => if j = k then f x else x)

/-- Replaces barrier k of a workgroup. -/
def State.modBarrier (s : State) (w : Workgroup) (k : Nat) (f : Barrier → Barrier) : State :=
  if k < 16 then s.modWg w.wid (fun w => { w with bars := modNth w.bars k f })
  else if k < 20 then s.modCluster w.cid (fun c => { c with cbars := modNth c.cbars (k - 16) f })
  else s.modLaunch w.lid (fun l => { l with sstep := f l.sstep })

/-- A group counts at barrier k of a workgroup. -/
def State.atBarrier (s : State) (w : Workgroup) (k : Nat) (g : Group) : Bool :=
  if k < 16 then g.wid == w.wid
  else
    match s.wg? g.wid with
    | some v => if k < 20 then v.cid == w.cid else v.lid == w.lid
    | none => false

/-- Applies f to every thread of a group and of its trap frame. -/
def Group.mapThreads (g : Group) (f : Thread → Thread) : Group :=
  { g with
    threads := g.threads.map f
    frame := g.frame.map (fun fr => { fr with threads := fr.threads.map f }) }

/-- A group's arrival at barrier k once every live thread has arrived: in the open phase, or in the next one when the
group's arrival is open. Threads of `last` that do not wait yet then wait for the open phase (R169, R170). -/
def State.checkArrival (s : State) (gid k : Nat) (last : W64) : State :=
  match s.group? gid with
  | none => s
  | some g =>
    match s.wg? g.wid with
    | none => s
    | some w =>
      let b := s.barrier w k
      match b.marks.find? (fun m => m.1 == gid) with
      | none => s
      | some (_, m) =>
        if !g.live.all (laneIn m) then s
        else
          let n := ((b.firstN.find? (fun e => e.1 == gid)).map (·.2)).getD 0
          let open' := b.arrived.any (fun a => a.1 == gid)
          let target := if open' then b.phase + 1 else b.phase
          let (tok, s) := s.newId
          let s := s.modBarrier w k (fun b => { b with
            marks := b.marks.filter (fun m => m.1 != gid)
            firstN := b.firstN.filter (fun e => e.1 != gid)
            arrived := if open' then b.arrived else b.arrived ++ [(gid, tok)]
            next := if open' then b.next ++ [(gid, tok, n)] else b.next
            count := if !open' && b.count.isNone then some n else b.count })
          let settle (t : Thread) : Thread :=
            match t.wait with
            | .bar tk j none d => if j = k then { t with wait := .bar tk j (some target) d } else t
            | _ => t
          s.modGroup gid (fun g =>
            let g := g.mapThreads settle
            if open' then g.modThreads (laneIn last) (fun _ t =>
              if t.wait = .none && !t.exited then { t with wait := .bar tok k (some b.phase) 0x1FF } else t)
            else g)

/-- The threads of a mask arrive at barrier k, naming n; with `waits` they wait for the phase (R169, R170). -/
def State.arrive (s : State) (w : Workgroup) (gid k n : Nat) (mask : W64) (waits : Bool) (d : BitVec 9) : State :=
  let (tok, s) := s.newId
  let s := s.modBarrier w k (fun b => { b with
    marks := (match b.marks.find? (fun m => m.1 == gid) with
      | some _ => b.marks.map (fun m => if m.1 = gid then (gid, m.2 ||| mask) else m)
      | none => b.marks ++ [(gid, mask)])
    firstN := if b.firstN.any (fun e => e.1 == gid) then b.firstN else b.firstN ++ [(gid, n)] })
  let s := if waits then s.modGroup gid (fun g =>
      let g := g.modThreads (laneIn mask) (fun _ t => { t with wait := .bar tok k none d })
      if d = 0x1FF then g else { g with pend := g.pend ++ [⟨tok, d.toNat, 1⟩] })
    else s
  s.checkArrival gid k (if waits then 0 else mask)

/-- Arrivals that an exit completes, and the marks of a group with no live thread left (R169). -/
def State.exitArrivals (s : State) (gid : Nat) : State :=
  (List.range 21).foldl (fun s k => s.checkArrival gid k 0) s

/-- What a group arrival waits for: its stores at the barrier's scope, its matrix work, and for SSTEP its logged entries, its
commands and their leases (R170 to R172, R267, R287, R371). -/
def State.arrivalDone (s : State) (g : Group) (k upto : Nat) : Bool :=
  s.writesDone g upto (if k < 16 then 1 else if k < 20 then 2 else 4) && s.unitDone g 3 upto
    && s.mx.all (fun e => e.gid != g.gid || upto ≤ e.id)
    && (k < 20 || (!s.ops.any (fun o => o.gid == g.gid && o.id < upto && o.logged) && g.commandsDone 0x46 upto && s.past g g.eh))

/-- The open phase of barrier k is complete (R169 to R172). -/
def State.barrierMet (s : State) (w : Workgroup) (k : Nat) : Bool :=
  let b := s.barrier w k
  match b.count with
  | none => false
  | some n =>
    let live := s.groups.filter (fun g => !g.retired && s.atBarrier w k g)
    let here (g : Group) : Bool := b.arrived.any (fun a => a.1 == g.gid)
    (if n = 0 then live.all here else n ≤ (live.filter here).length)
      && live.all (fun g => match b.arrived.find? (fun a => a.1 == g.gid) with
        | some a => s.arrivalDone g k a.2
        | none => true)

/-- The next phase opens with the arrivals already made for it (R170). -/
def Barrier.advance (b : Barrier) : Barrier :=
  { b with
    phase := b.phase + 1
    count := (b.next.head?).map (·.2.2)
    arrived := b.next.map (fun e => (e.1, e.2.1))
    next := [] }

/-- A thread waits at barrier k for a phase that has completed. -/
def Thread.overdue (t : Thread) (k phase : Nat) : Bool :=
  match t.wait with
  | .bar _ j (some p) _ => j == k && p < phase
  | _ => false

/-- Releases the waiters of completed phases of barrier k; SSTEP writes the superstep counter to D. A thread kept in a
trap frame is released there, unless it has a register to write: that waits for ERET (R172, R425). -/
def Group.releaseBar (g : Group) (k phase : Nat) (v : W32) : Group :=
  let late := g.threads.filter (fun t => t.overdue k phase)
  let g := late.foldl (fun g t => match t.wait with
    | .bar tok _ _ d =>
      if d = 0x1FF then g
      else { (g.setSreg (d.toNat - 0x100) (v.setWidth 64)) with pend := g.pend.filter (fun p => p.op != tok) }
    | _ => g) g
  { g with
    threads := g.threads.map (fun t => if t.overdue k phase then { t with wait := .none } else t)
    frame := g.frame.map (fun fr => { fr with threads := fr.threads.map (fun t =>
      match t.wait with
      | .bar _ j (some p) d => if j = k && p < phase && d = 0x1FF then { t with wait := .none } else t
      | _ => t) }) }

/-- Releases every waiter of completed phases of barrier k. -/
def State.releaseBar (s : State) (w : Workgroup) (k : Nat) : State :=
  let phase := (s.barrier ((s.wg? w.wid).getD w) k).phase
  let v := ((s.launch? w.lid).map (·.superstep)).getD 0
  { s with groups := s.groups.map (fun g => if s.atBarrier w k g then g.releaseBar k phase v else g) }

/-- Completes the open phase of barrier k if it may, and releases its waiters (R170 to R172). -/
def State.barrierStep (s : State) (w : Workgroup) (k : Nat) : State :=
  let s := if s.barrierMet w k then
      let s := s.modBarrier w k Barrier.advance
      if k < 20 then s else s.modLaunch w.lid (fun l => { l with superstep := l.superstep + 1 })
    else s
  s.releaseBar w k

/-- BAR, BARA, CBAR and SSTEP (R169 to R172). -/
def arriveIssue (k n : Nat) (waits : Bool) (d : BitVec 9) (c : Ctx) : Except TrapInfo Res :=
  if c.act = [] then .ok { s := c.s } else .ok { s := c.s.arrive c.w c.g.gid k n c.actMask waits d }

/-- BARW (R170): the phase of the group's last arrival, if that is open. -/
def barwIssue (k : Nat) (c : Ctx) : Except TrapInfo Res :=
  let b := c.s.barrier c.w k
  let target : Option Nat :=
    if b.next.any (fun e => e.1 == c.g.gid) then some (b.phase + 1)
    else if b.arrived.any (fun a => a.1 == c.g.gid) then some b.phase
    else none
  match target with
  | none => .ok { s := c.s }
  | some p =>
    let (tok, s) := c.s.newId
    .ok { s := s.modGroup c.g.gid (fun g =>
      g.modThreads c.act.contains (fun _ t => { t with wait := .bar tok k (some p) 0x1FF })) }

/-! ### Queues -/

/-- The allowance that a queue starts with (R175, R387). -/
def qLimit (v : W64) : Nat := if qAlw v = 0 then qNs v + 1 else min (qAlw v) (qNs v + 1)
/-- A queue base register with another CNT and HEAD. -/
def qWith (v : W64) (cnt head : Nat) : W64 :=
  (v &&& ~~~(0x1FFF#64 <<< 48)) ||| (BitVec.ofNat 64 cnt <<< 54) ||| (BitVec.ofNat 64 head <<< 48)
/-- The bits that a QDECL descriptor may set, and that QBq keeps of a write (R174, R175). -/
def qDescMask : W64 := 0x00003F3F0F3FFFFF
def qRwMask : W64 := 0x9FFF3F3F0F3FFFFF

/-- Writes QBq. -/
def Cluster.setQb (c : Cluster) (q : Nat) (v : W64) : Cluster := { c with qbs := modNth c.qbs q (fun _ => v) }

/-- Writes QBq in a cycle, under waiters who look at it again in the next one (R196, R387). -/
def Cluster.rewriteQb (c : Cluster) (q : Nat) (v now : W64) : Cluster :=
  { c.setQb q v with qbSet := (q, now) :: c.qbSet.filter (fun e => e.1 != q) }

/-- The allowance counter of a group on a queue (R174). -/
def Cluster.allowance (c : Cluster) (q gid : Nat) : Nat :=
  match c.allow.find? (fun a => a.1 == q && a.2.1 == gid) with
  | some a => a.2.2
  | none => qLimit (c.qb q)

/-- Sets the allowance counter of a group on a queue. -/
def Cluster.setAllow (c : Cluster) (q gid n : Nat) : Cluster :=
  { c with allow := (q, gid, n) :: c.allow.filter (fun a => !(a.1 == q && a.2.1 == gid)) }

/-- A Queue fault (R176, R421). -/
def queueFault (c : Ctx) (q reason : Nat) : TrapInfo := c.trap 0x0E (BitVec.ofNat 32 (q + 16 * reason))

/-- Records where slot 0 of a queue lies when a base register names a range inside a scratchpad (R151, R174). With REM = 0
the range is in the scratchpad of the workgroup that declared the queue, and a range in no scratchpad keeps the old slots
(DESIGN CHOICE, log entry 56). -/
def State.placeQueue (s : State) (w : Workgroup) (q : Nat) (v : W64) : State :=
  let n := (qNs v + 1) * qBytes v
  let keep := ((s.cluster? w.cid).bind (fun c => c.qslots.find? (fun e => e.1 == q))).map (·.2.1)
  let home := if (qAddr v).getLsbD 21 then w else ((keep.bind s.wg?).getD w)
  match s.scratchTarget home (qAddr v) n with
  | none => s
  | some (wid, off) => s.modCluster w.cid (fun c => { c with
      qslots := (q, wid, off) :: c.qslots.filter (fun e => e.1 != q) })

/-- QDECL (R175, R176). A busy queue is reported before a bad descriptor, and an ADDR that is no multiple of 16 makes the
descriptor bad (DESIGN CHOICE, log entry 55). -/
def qdeclIssue (x : XForm) (c : Ctx) : Except TrapInfo Res :=
  match c.act, c.s.cluster? c.w.cid with
  | [], _ => .ok { s := c.s }
  | _, none => .ok { s := c.s }
  | _, some cl =>
    let q := x.imm.toNat % 16
    let v := c.uval 1
    if qDcl (cl.qb q) && qCnt (cl.qb q) != 0 then .error (queueFault c q 1)
    else if v &&& ~~~qDescMask != 0 || qNs v = 0 || (qAddr v).toNat % 16 != 0
        || (c.s.scratchTarget c.w (qAddr v) ((qNs v + 1) * qBytes v)).isNone then .error (queueFault c q 2)
    else
      let gids := (c.s.groups.filter (fun g => c.s.atBarrier c.w 16 g)).map (·.gid)
      let s := c.s.modCluster cl.cid (fun cl =>
        let cl := (cl.setQb q (v ||| (1#64 <<< 63)))
        let cl := gids.foldl (fun cl gid => cl.setAllow q gid (qLimit v)) cl
        { cl with pushers := modNth cl.pushers q (fun _ => []), qslots := cl.qslots.filter (fun e => e.1 != q) })
      .ok { s := s.placeQueue c.w q v }

/-- A blocked QPUSH or QPOP: its tick, group, cycle of issue, first register, and the words of a push. -/
structure QueueWait where
  tok : Nat
  gid : Nat
  since : W64
  reg : Nat
  words : List W32
  /-- its place in the order in which waiters proceed: the earlier issue, then the lower core, then the lower group (R175) -/
  key : Nat

/-- The waiters of a queue, of the groups not in their handlers (R175, R425). -/
def State.queueWaits (s : State) (cid q : Nat) (push : Bool) : List QueueWait :=
  s.groups.flatMap (fun g => if (s.wg? g.wid).any (fun w => w.cid == cid) then
    let key (since : W64) : Nat := since.toNat * 2 ^ 16 + ((s.coreOf g).getD 0) * 2 ^ 8 + g.grp
    g.threads.filterMap (fun t =>
      if t.exited then none
      else match t.wait with
        | .qpush tok j a since ws => if push && j = q then some ⟨tok, g.gid, since, a, ws, key since⟩ else none
        | .qpop tok j since d => if !push && j = q then some ⟨tok, g.gid, since, d.toNat, [], key since⟩ else none
        | _ => none) else [])

/-- Blocked pushers of a queue. -/
def State.pushWaits (s : State) (cid q : Nat) : List QueueWait := s.queueWaits cid q true

/-- Blocked poppers of a queue. -/
def State.popWaits (s : State) (cid q : Nat) : List QueueWait := s.queueWaits cid q false

/-- A wait of a token for a queue. -/
def queueWait (tok : Nat) (w : Wait) : Bool :=
  match w with
  | .qpush t _ _ _ _ => t == tok
  | .qpop t _ _ _ => t == tok
  | _ => false

/-- A blocked queue operation traps at its instruction, which has no effect (R387), after the group's pending deferred traps (R422): a
Queue fault of reason 5, or a Machine check. -/
def State.queueTrap (s : State) (gid tok cause : Nat) (finfo : W32) : State :=
  match s.group? gid with
  | none => s
  | some g =>
    let lanes := (List.range g.threads.length).filter (fun h => (g.threads[h]?).any (fun t => queueWait tok t.wait))
    let epc := prevPc ((((lanes.head?).bind (fun h => g.threads[h]?)).map (·.pc)).getD 0)
    if g.nextTrap.isSome then s
    else (s.modGroup gid (fun g => g.endWait (queueWait tok) tok)).takeTrap gid
      { cause := cause, epc := epc, finfo := finfo, path := maskOf lanes }

/-- A group's registers from a base hold a slot of a queue (R175, R176). -/
def State.slotFits (s : State) (g : Group) (base : Nat) (v : W64) : Bool :=
  ((s.wg? g.wid).bind s.variantOf).all (fun d => base + (qBytes v / 4 - 1) / g.width < d.regs)

/-- The fault of a waiter under the queue's register as it stands: the queue is not declared, or the group has not the
registers of its slots (R176, R196, R387). -/
def State.waitFault (s : State) (v : W64) (p : QueueWait) : Option Nat :=
  if !qDcl v then some 5 else if (s.group? p.gid).any (fun g => !s.slotFits g p.reg v) then some 3 else none

/-- The register of a queue was written in this cycle: its waiters look at it in the next one (R196, R387). -/
def State.justSet (s : State) (c : Cluster) (q : Nat) : Bool := c.qbSet.any (fun e => e.1 == q && s.cycle 0 ≤ e.2)

/-- The first pusher in order among those with an allowance performs when a slot is free and its earlier stores have
completed at cluster scope; a pusher that the queue no longer suits traps (R175, R196, R387). -/
def State.pushStep (s : State) (cid q : Nat) : State :=
  match (s.cluster? cid).filter (fun c => !s.justSet c q) with
  | none => s
  | some c =>
    let v := c.qb q
    let ws := s.pushWaits cid q
    match earliest (·.key) (ws.filter (fun p => (s.waitFault v p).isSome)) with
    | some p => s.queueTrap p.gid p.tok 0x0E (BitVec.ofNat 32 (q + 16 * (s.waitFault v p).getD 5))
    | none =>
      if qCnt v = qNs v + 1 then s
      else
        match earliest (·.key) (ws.filter (fun p => c.allowance q p.gid != 0)), c.qslots.find? (fun e => e.1 == q) with
        | some p, some (_, wid, off) =>
          match s.group? p.gid with
          | none => s
          | some g =>
            if !s.writesDone g p.tok 2 then s
            else
              let slot := (qHead v + qCnt v) % (qNs v + 1)
              let s := s.scratchWrite wid (off + slot * qBytes v)
                (((p.words.take (qBytes v / 4)).flatMap (fun w => natBytes 4 w.toNat)))
              let s := s.modCluster cid (fun c =>
                let c := (c.setQb q (qWith v (qCnt v + 1) (qHead v))).setAllow q p.gid (c.allowance q p.gid - 1)
                { c with pushers := modNth c.pushers q (fun l => l ++ [p.gid]) })
              s.modGroup p.gid (fun g => g.endWait (queueWait p.tok) p.tok)
        | _, _ => s

/-- The oldest slot of a queue holds a double error (R256, R387). -/
def State.oldestBad (s : State) (c : Cluster) (q : Nat) : Bool :=
  match c.qslots.find? (fun e => e.1 == q) with
  | some (_, wid, off) => s.scratchBad wid (off + qHead (c.qb q) * qBytes (c.qb q)) (qBytes (c.qb q))
  | none => false

/-- The first popper in order receives the oldest slot, whose pusher's allowance returns; a popper that the queue no longer
suits traps (R175, R196, R387). -/
def State.popStep (s : State) (cid q : Nat) : State :=
  match (s.cluster? cid).filter (fun c => !s.justSet c q) with
  | none => s
  | some c =>
    let v := c.qb q
    let ws := s.popWaits cid q
    match earliest (·.key) (ws.filter (fun p => (s.waitFault v p).isSome)) with
    | some p => s.queueTrap p.gid p.tok 0x0E (BitVec.ofNat 32 (q + 16 * (s.waitFault v p).getD 5))
    | none =>
      if qCnt v = 0 then s
      else
        match earliest (·.key) ws, c.qslots.find? (fun e => e.1 == q) with
        | some p, some (_, wid, off) =>
          match s.group? p.gid with
          | none => s
          | some g =>
            let a := off + qHead v * qBytes v
            if s.oldestBad c q then s.queueTrap p.gid p.tok 0x14 1
            else
              let bs := s.scratchBytes wid a (qBytes v)
              let lanes := (List.range g.threads.length).filter (fun h =>
                (g.threads[h]?).any (fun t => queueWait p.tok t.wait))
              let regs := slotRegs g.width p.reg (qBytes v / 4)
              let s := s.modGroup p.gid (fun g =>
                (regs.zipIdx.foldl (fun g e =>
                  if lanes.contains e.1.1 then g.setVreg e.1.1 e.1.2 (BitVec.ofNat 32 (fieldAt bs (4 * e.2) 4)) else g) g).endWait
                  (queueWait p.tok) p.tok)
              s.modCluster cid (fun c =>
                let pusher := (c.pushers[q]?).bind (·.head?)
                let c := c.setQb q (qWith v (qCnt v - 1) ((qHead v + 1) % (qNs v + 1)))
                let c := { c with pushers := modNth c.pushers q (·.tail) }
                match pusher with
                | some p => c.setAllow q p (c.allowance q p + 1)
                | none => c)
        | _, _ => s

/-- The checks of QPUSH and QPOP (R176). -/
def queueErr (c : Ctx) (q base : Nat) : Option TrapInfo :=
  match c.s.cluster? c.w.cid with
  | none => none
  | some cl =>
    let v := cl.qb q
    if !qDcl v then some (queueFault c q 0)
    else if c.vd.regs ≤ base + (qBytes v / 4 - 1) / c.g.width then some (queueFault c q 3)
    else none

/-- QPUSH (R175): its registers are read at issue, whether or not their lanes are active. It takes its turn with the cycle's
other queue operations at the cycle's end (R196). -/
def qpushIssue (x : XForm) (c : Ctx) : Except TrapInfo Res :=
  if c.act = [] then .ok { s := c.s }
  else
    let q := x.imm.toNat % 16
    match queueErr c q x.a.toNat with
    | some t => .error t
    | none =>
      let (tok, s) := c.s.newId
      let ws := (slotRegs c.g.width x.a.toNat 64).map (fun p => c.g.vreg p.1 p.2)
      .ok { s := s.modGroup c.g.gid (fun g =>
        g.modThreads c.act.contains (fun _ t => { t with wait := .qpush tok q x.a.toNat (c.s.cycle c.core) ws })) }

/-- QPOP (R175). It takes its turn at the cycle's end, after the pushes (R196). -/
def qpopIssue (x : XForm) (c : Ctx) : Except TrapInfo Res :=
  if c.act = [] then .ok { s := c.s }
  else
    let q := x.imm.toNat % 16
    match queueErr c q x.d.toNat with
    | some t => .error t
    | none =>
      let (tok, s) := c.s.newId
      let regs := (slotRegs c.g.width x.d.toNat (qBytes (c.qb q) / 4)).filter (fun p => c.act.contains p.1)
      .ok { s := s.modGroup c.g.gid (fun g =>
        { (g.modThreads c.act.contains (fun _ t => { t with wait := .qpop tok q (c.s.cycle c.core) x.d })) with
          pend := g.pend ++ regs.map (fun p => ⟨tok, p.2, (1 : W64) <<< p.1⟩) }) }

/-- QTRY (R175, R387). -/
def qtryIssue (x : XForm) (c : Ctx) : Except TrapInfo Res :=
  match c.act, c.s.cluster? c.w.cid with
  | [], _ => .ok { s := c.s }
  | _, none => .ok { s := c.s }
  | act, some cl =>
    let q := x.imm.toNat % 16
    let v := cl.qb q
    if !qDcl v then .error (queueFault c q 0)
    else
      let word : W64 := BitVec.ofNat 64 (qCnt v + 256 * (cl.allowance q c.g.gid % 128) + 65536)
      .ok { s := c.s.modGroup c.g.gid (fun g => g.writeDest false x.d.toNat (act.map (fun h => (h, word)))) }

/-- A retiring workgroup clears DCL of the queues whose slots its scratchpad holds (R387). -/
def State.clearQueues (s : State) (wid : Nat) : State :=
  { s with clusters := s.clusters.map (fun c =>
      let qs := (c.qslots.filter (fun e => e.2.1 == wid)).map (·.1)
      { qs.foldl (fun c q => c.rewriteQb q (c.qb q &&& ~~~(1#64 <<< 63)) (s.cycle 0)) c with
        qslots := c.qslots.filter (fun e => e.2.1 != wid) }) }

/-! ### Deques -/

/-- DQPUSH, DQPOP and DQSTEAL (R178): the status predicate of the active lanes is pending too. -/
def dequeIssue (x : XForm) (c : Ctx) : Except TrapInfo Res :=
  match memIssue c with
  | .error t => .error t
  | .ok r =>
    if c.act = [] then .ok r
    else
      let id := c.s.tick
      let q := x.imm.toNat % 8
      let s := r.s.modOp id (fun o => { o with lanes := o.lanes.map (fun l =>
        { l with view := if c.i.scalar then c.actMask else (1 : W64) <<< l.lane }) })
      .ok { r with s := if q = 7 then s else s.modGroup c.g.gid (fun g => { g with
        pend := g.pend ++ [⟨id, 0x144 + q, c.actMask⟩] }) }

/-! ### Migration -/

/-- Some core of a die belongs to a partition in the current slot (R182). -/
def State.dieCores (s : State) (die part : Nat) : List Nat :=
  ((List.range 64).map (64 * die + ·)).filter (fun c => s.coreInPart c part)

/-- The lowest free landing slot of a core (R392). -/
def State.landingSlot (s : State) (core : Nat) : Option Nat :=
  (List.range 4).find? (fun k => !s.groups.any (fun g => !g.retired && g.landing = some ⟨core, k⟩))

/-- The issue partition of a core with the fewest active groups, the lowest on a tie (R203). -/
def State.pickIpart (s : State) (core : Nat) : Nat :=
  let count (p : Nat) : Nat :=
    (s.groups.filter (fun g => !g.retired && g.tier == .active && g.ipart == p && s.coreOf g == some core)).length
  (earliest count [0, 1, 2, 3]).getD 0

/-- The token, address and state of a group's wait in MIGRATE. -/
def Group.migrateWait (g : Group) : Option (Nat × W64 × Option W64) :=
  g.threads.findSome? (fun t => match t.wait with
    | .migrate tok ea q => if t.exited then none else some (tok, ea, q)
    | _ => none)

/-- Ends a MIGRATE: the group issues on at its next instruction. -/
def Group.migrateDone (g : Group) : Group :=
  { g with
    threads := g.threads.map (fun t => match t.wait with
      | .migrate _ _ _ => { t with wait := .none }
      | _ => t) }

/-- A group on another core: it competes there for the active set, and its operand log goes with it (R203, R320, R375, R392). -/
def State.moveGroup (s : State) (gid core : Nat) (landing : Option Landing) : State :=
  let now := s.cycle core
  let s : State := { s with ops := s.ops.map (fun o => if o.gid = gid then { o with core := core, ipart := 4 } else o) }
  s.modGroup gid (fun g => { g with landing := landing, landDie := none, tier := .pending, tierSince := now, passed := 0 })

/-- The core on which a group waits for a landing slot: its own, or that of its workgroup while it is to land again. -/
def State.waitCore (s : State) (g : Group) : Nat := ((s.coreOf g).orElse (fun _ => (s.wg? g.wid).bind (·.core))).getD 0

/-- What a group waits for a landing slot with: its partition, the die, and the cycle from which it waits; in MIGRATE, or to land
again after a save. None while a slot edge stops it (R182, R392, R394, R417). -/
def State.slotWait (s : State) (g : Group) : Option (Nat × Nat × W64) :=
  match s.wg? g.wid with
  | none => none
  | some w =>
    match s.launch? w.lid with
    | none => none
    | some la =>
      if g.retired || g.stopped || !w.core.any s.edgeOpen then none
      else
        match g.landDie with
        | some die => some (la.part, die, g.landSince)
        | none =>
          match g.migrateWait with
          | some (_, ea, some since) => if s.unstopped g then (s.homeDie g.asid.toNat ea.toNat).map (fun die => (la.part, die, since)) else none
          | _ => none

/-- A group has waited for a slot longer than another; of those that began in one cycle the lower core number, then the lower
group slot, comes first (R392). -/
def State.waitsBefore (s : State) (x g : Group) (t u : W64) : Bool :=
  if t != u then t < u
  else if s.waitCore x != s.waitCore g then s.waitCore x < s.waitCore g
  else x.gslot < g.gslot

/-- The landing slot that a group takes: from the cycle after the one in which it began to wait, the lowest-numbered core of its
partition on the die with a free slot, no group that comes before it waiting for the same die; none on a quad that is being left
(R182, R392, R409). -/
def State.slotFor (s : State) (g : Group) : Option Landing :=
  match s.slotWait g with
  | none => none
  | some (part, die, since) =>
    let first := !s.groups.any (fun x => x.gid != g.gid && match s.slotWait x with
      | some (p, d, t) => p == part && d == die && s.waitsBefore x g t since
      | none => false)
    if first && since < s.cycle (s.waitCore g) then
      ((s.dieCores die part).filter s.edgeOpen).findSome? (fun c => (s.landingSlot c).map (fun k => ⟨c, k⟩))
    else none

/-- A waiting MIGRATE goes on: step 1 completes, then the group returns home, stays, or lands on the lowest-numbered core
of the die with a free slot (R182, R392). -/
def State.migrateStep (s : State) (gid : Nat) : State :=
  match s.group? gid with
  | none => s
  | some g =>
    match g.migrateWait, s.wg? g.wid with
    | some (tok, ea, queued), some w =>
      match w.core, s.homeDie g.asid.toNat ea.toNat with
      | some home, some die =>
        let drained := queued.isSome || (s.readsDone g tok && s.writesDone g tok 3 &&
          !s.ops.any (fun o => o.gid == gid && o.isLogged))
        if !drained || !s.unstopped g then s
        else if die = dieOf home then
          (if g.landing.isNone then s.modGroup gid Group.migrateDone else (s.modGroup gid Group.migrateDone).moveGroup gid home none)
        else if die = s.groupDie g then s.modGroup gid Group.migrateDone
        else if queued.isNone then
          let now := s.cycle (s.waitCore g)
          s.modGroup gid (fun x => { x with threads := x.threads.map (fun th => match th.wait with
            | .migrate t a _ => { th with wait := .migrate t a (some now) }
            | _ => th) })
        else
          match s.slotFor g with
          | some l => (s.modGroup gid Group.migrateDone).moveGroup gid l.core (some l)
          | none => s
      | _, _ => s
    | _, _ => s

/-- MIGRATE (R182, R424). -/
def migrateIssue (c : Ctx) : Except TrapInfo Res :=
  if c.g.inh then .error c.privilege
  else
    match c.partialIssue with
    | some t => .error t
    | none =>
      let ea := c.ea ((c.act.head?).getD 0)
      if beyond57 ea then .error (c.trap 0x08 (rangeInfo false) ea)
      else
        match c.s.homeDie c.g.asid.toNat ea.toNat with
        | none => .error (c.trap 0x08 1 ea)
        | some die =>
          if (c.s.dieCores die c.la.part).isEmpty then .error (c.trap 0x15)
          else
            let (tok, s) := c.s.newId
            let s := s.modGroup c.g.gid (fun g =>
              g.modThreads c.act.contains (fun _ t => { t with wait := .migrate tok ea none }))
            .ok { s := s.migrateStep c.g.gid }

/-- PRIOWG (R183). -/
def priowgIssue (c : Ctx) : Except TrapInfo Res :=
  if c.act = [] then .ok { s := c.s }
  else .ok { s := c.s.modWg c.w.wid (fun w => { w with prio := (c.uval 1).setWidth 3 }) }

/-! ### Meanings -/

/-- BAR (R170). -/
def execBar (x : XForm) (s : State) : Host.Outcome State Fault Refusal :=
  done s (issueWord (.bar x) (arriveIssue (x.imm.toNat % 16) (x.imm.toNat / 16) true 0x1FF) s)
/-- BARA (R170). -/
def execBara (x : XForm) (s : State) : Host.Outcome State Fault Refusal :=
  done s (issueWord (.bara x) (arriveIssue (x.imm.toNat % 16) (x.imm.toNat / 16) false 0x1FF) s)
/-- BARW (R170). -/
def execBarw (x : XForm) (s : State) : Host.Outcome State Fault Refusal :=
  done s (issueWord (.barw x) (barwIssue (x.imm.toNat % 16)) s)
/-- CBAR (R171). -/
def execCbar (x : XForm) (s : State) : Host.Outcome State Fault Refusal :=
  done s (issueWord (.cbar x) (arriveIssue (16 + x.imm.toNat % 4) 0 true 0x1FF) s)
/-- SSTEP (R172). -/
def execSstep (x : XForm) (s : State) : Host.Outcome State Fault Refusal :=
  done s (issueWord (.sstep x) (arriveIssue 20 0 true x.d) s)
/-- QDECL (R175, R176). -/
def execQdecl (x : XForm) (s : State) : Host.Outcome State Fault Refusal := done s (issueWord (.qdecl x) (qdeclIssue x) s)
/-- QPUSH (R175, R176). -/
def execQpush (x : XForm) (s : State) : Host.Outcome State Fault Refusal := done s (issueWord (.qpush x) (qpushIssue x) s)
/-- QPOP (R175, R176). -/
def execQpop (x : XForm) (s : State) : Host.Outcome State Fault Refusal := done s (issueWord (.qpop x) (qpopIssue x) s)
/-- QTRY (R175, R176). -/
def execQtry (x : XForm) (s : State) : Host.Outcome State Fault Refusal := done s (issueWord (.qtry x) (qtryIssue x) s)
/-- DQPUSH (R178). -/
def execDqpush (x : XForm) (s : State) : Host.Outcome State Fault Refusal := done s (issueWord (.dqpush x) (dequeIssue x) s)
/-- DQPOP (R178). -/
def execDqpop (x : XForm) (s : State) : Host.Outcome State Fault Refusal := done s (issueWord (.dqpop x) (dequeIssue x) s)
/-- DQSTEAL (R178). -/
def execDqsteal (x : XForm) (s : State) : Host.Outcome State Fault Refusal := done s (issueWord (.dqsteal x) (dequeIssue x) s)
/-- MIGRATE (R182). -/
def execMigrate (x : MForm) (s : State) : Host.Outcome State Fault Refusal := done s (issueWord (.migrate x) migrateIssue s)
/-- PRIOWG (R183). -/
def execPriowg (x : XForm) (s : State) : Host.Outcome State Fault Refusal := done s (issueWord (.priowg x) priowgIssue s)
/-- BARRIER_PHASE_COMPLETE (R170). -/
def execBarrierPhaseComplete (wid bar : Nat) (s : State) : Host.Outcome State Fault Refusal :=
  done s (match s.wg? wid with
    | some w => if bar < 16 then s.barrierStep w bar else s
    | none => s)
/-- CBAR_PHASE_COMPLETE (R171). -/
def execCbarPhaseComplete (cid bar : Nat) (s : State) : Host.Outcome State Fault Refusal :=
  done s (match s.wgs.find? (fun w => w.cid == cid) with
    | some w => if bar < 4 then s.barrierStep w (16 + bar) else s
    | none => s)
/-- SSTEP_RELEASE (R172). -/
def execSstepRelease (lid : Nat) (s : State) : Host.Outcome State Fault Refusal :=
  done s (match s.wgs.find? (fun w => w.lid == lid) with
    | some w => s.barrierStep w 20
    | none => s)
/-- QPUSH_PROCEED (R175). -/
def execQpushProceed (cid q : Nat) (s : State) : Host.Outcome State Fault Refusal := done s (s.pushStep cid q)
/-- QPOP_PROCEED (R175). -/
def execQpopProceed (cid q : Nat) (s : State) : Host.Outcome State Fault Refusal := done s (s.popStep cid q)
/-- MIGRATE_LAND (R182, R392). -/
def execMigrateLand (gid : Nat) (s : State) : Host.Outcome State Fault Refusal := done s (s.migrateStep gid)

end Sys2Proof.Machine
end

