-- ==== Sys2Proof/Machine/Fetch.lean ====
section
/-! DEFINITION. Reading fetch lines, and the checks of a line (R15 to R20, R377). -/

namespace Sys2Proof.Machine

/-- The line that a fetch reads (R377). -/
def State.codeLine (s : State) (asid va : Nat) : Except LaneFault LineData := (s.lineNow asid va .fetch none).map (·.1)

/-- The line fails its parity check also when refetched (R20, R256). -/
def State.parityBad (s : State) (asid base : Nat) (l : LineData) : Bool :=
  !lineParOk l || s.badFetch.contains (asid, base / 64)

/-- A reserved bit of the line word is set (R17, R18). -/
def lineReserved (l : LineData) : Bool := (lineWord l).extractLsb' 9 15 != 0

/-- The target of a taken transfer raises Illegal target: not an instruction address below 2^57 when it is computed, or
a slot of a readable, sound line whose TGT bit is clear (R18, R100, R115). -/
def State.targetBad (s : State) (asid : Nat) (a : W64) (computed : Bool) : Bool :=
  match slotOf a with
  | none => true
  | some k =>
    (computed && beyond57 a) ||
    (let base := (lineBase a).toNat
     match s.codeLine asid base with
     | .error _ => false
     | .ok l => !s.parityBad asid base l && !lineReserved l && !lineTgt l k)

/-- Threads of a mask that are not exited stop waiting for a line. -/
def State.clearFetch (s : State) (gid : Nat) (mask : W64) : State :=
  s.modGroup gid (fun g => g.modThreads (laneIn mask) (fun _ t =>
    match t.wait with
    | .fetch _ _ => { t with wait := .none }
    | _ => t))

/-- A fetch meets a fault (R365, R377): in a handler the workgroup ends; RANGE and Ownership are precise at once; another
Page fault makes a KIND 2 record and the path stalls. The faulting address is the line's. -/
def State.fetchFault (s : State) (gid : Nat) (mask pc : W64) (f : LaneFault) : State :=
  match s.group? gid with
  | none => s
  | some g =>
    match (s.wg? g.wid).bind (fun w => s.launch? w.lid) with
    | none => s
    | some la =>
      let base := lineBase pc
      let info : W32 := if f.cause = 0x08 then BitVec.ofNat 32 (f.reason + boolNat f.s2 * 16) else 0
      if g.inh then s.endWorkgroup g f.cause.toNat pc 0
      else if f.cause != 0x08 || f.reason = 0 then
        (s.clearFetch gid mask).takeTrap gid
          { cause := f.cause.toNat, epc := pc, faddr := base, finfo := info, path := mask }
      else
        let again := (lanesOf mask g.width).any (fun h => ((g.threads[h]?).map (·.wait)) == some (.fetch base none))
        let r : FaultRec := { s.recordFor g la 0x08 2 pc with
          reason := byteOf f.reason, flags := byteOf (2 * boolNat f.s2 + 4 * boolNat again), va := base, gpa := f.gpa }
        let (s, fid) := s.makeRecord la.vf r (some (.fetch gid base info))
        s.modGroup gid (fun g => g.modThreads (laneIn mask) (fun _ t =>
          if t.exited then t else { t with wait := .fetch base (some fid) }))

/-- The thread enters the line of its program counter at its next issue (R18). -/
def Thread.enters (t : Thread) : Bool := t.lastLine != some (lineBase t.pc) || t.arrival != .sequence

/-- Entering clears the latches (R37), but not where the thread goes on after ERET in the line it stood in: it then reads
what it would have read without the trap (R38). -/
def Thread.losesLatches (t : Thread) : Bool :=
  t.lastLine != some (lineBase t.pc) || (t.arrival != .sequence && t.arrival != .resume)

/-- The checks of R18 on a line that threads of a path enter, in order: parity, reserved bits, target bits of the
transfers whose check is owed (R115). -/
def State.lineFault (s : State) (g : Group) (mask pc : W64) (l : LineData) : Option TrapInfo :=
  let base := lineBase pc
  let ts := (lanesOf mask g.width).filterMap (fun h => (g.threads[h]?).filter (fun t => !t.exited && t.enters))
  if ts = [] then none
  else if s.parityBad g.asid.toNat base.toNat l then
    some { cause := 0x06, epc := pc, faddr := base, path := mask }
  else if lineReserved l then some { cause := 0x01, epc := base + 4, finfo := 1, path := mask }
  else
    match slotOf pc with
    | none => some { cause := 0x05, epc := pc, faddr := pc, path := mask }
    | some k =>
      if lineTgt l k then none
      else ts.findSome? (fun t => match t.arrival with
        | .transfer src => some { cause := 0x05, epc := src, faddr := pc, path := mask }
        | _ => none)

/-- A fetched line reaches the path stalled on it, whose checks are then made, after the group's pending deferred traps (R115, R377,
R422). -/
def State.lineArrives (s : State) (gid : Nat) (line : W64) : State :=
  match s.group? gid with
  | none => s
  | some g =>
    let waits (t : Thread) : Bool := !t.exited && t.wait == .fetch line none
    match (g.threads.find? waits).filter (fun _ => g.nextTrap.isNone && !g.stopped && !g.retired) with
    | none => s
    | some t =>
      let pc := t.pc
      let mask := maskOf (g.live.filter (fun h => match g.threads[h]? with
        | some t => waits t && t.pc == pc
        | none => false))
      match s.codeLine g.asid.toNat line.toNat with
      | .error f => s.fetchFault gid mask pc f
      | .ok l =>
        let s := s.clearFetch gid mask
        match s.lineFault g mask pc l with
        | some t => s.takeTrap gid t
        | none => s

/-- FETCH_LINE_ARRIVAL (R18, R115, R377). -/
def execFetchLineArrival (gid : Nat) (line : W64) (s : State) : Host.Outcome State Fault Refusal :=
  done s (s.lineArrives gid line)

end Sys2Proof.Machine
end

