-- ==== Sys2Proof/Machine/Integer.lean ====
section
/-! DEFINITION. NOP, ILL and the integer, logic, address and conversion instructions (R54, R64, R69 to R90). -/

namespace Sys2Proof.Machine

/-! ### Shared computations -/

/-- A lane's result with no flag. -/
def pure1 (v : W64) : LaneOut := { val := v }

/-- Element-wise integer arithmetic of R74: exact integers, saturated under SAT, modulo 2^w. -/
def intArith (x : XForm) (op : Int → Int → Int → Int) (c : Ctx) (h : Nat) : LaneOut :=
  let t := x.t.toNat
  let va := c.val 1 h
  let vb := c.val 2 h
  let vc := c.val 3 h
  pure1 (ofElems t (fun i =>
    let v := op (elemInt t i va) (elemInt t i vb) (elemInt t i vc)
    intMod (elemW t) (if x.sat = 1 then satInt v (loT t) (hiT t) else v)))

/-- Element-wise shift of R78; the count of element i is element i of the control operand (R71). -/
def intShift (x : XForm) (op : Nat → Nat → Nat → Nat) (c : Ctx) (h : Nat) : LaneOut :=
  let t := x.t.toNat
  let va := c.val 1 h
  let vb := c.val 2 h
  pure1 (ofElems t (fun i =>
    op (elemW t) (elemNat t i va) (if wideT t then vb.toNat % 2 ^ 32 else elemNat t i vb)))

/-- The number whose bit k is f k, for k below w. -/
def bitsOf (w : Nat) (f : Nat → Bool) : Nat := (List.range w).foldl (fun r k => r + boolNat (f k) * 2 ^ k) 0

/-- Bit 4a + 2b + c of a truth table (R79, R86). -/
def truth (tt : Nat) (a b c : Bool) : Bool := tt.testBit (4 * boolNat a + 2 * boolNat b + boolNat c)

/-- Comparison of R84. -/
def intCond (cc : Nat) (a b : Int) : Bool :=
  match cc with
  | 0 => a == b
  | 1 => a != b
  | 2 => a < b
  | 3 => a ≤ b
  | 4 => b < a
  | _ => b ≤ a

/-- Byte k of PRMT for its 6-bit field (R83). -/
def prmtByte (src f : Nat) : Nat :=
  let b := src / 256 ^ (f % 8) % 256
  match f / 8 with
  | 0 => b
  | 1 => bitsOf 8 (fun k => b.testBit (7 - k))
  | 2 => b % 16 * 17
  | 3 => b / 16 * 17
  | 4 => if 128 ≤ b then 255 else 0
  | 5 => 0
  | 6 => 255
  | _ => b / 16 * 16

/-! ### Lane functions -/

/-- IMULH (R75). -/
def laneMulh (x : XForm) (c : Ctx) (h : Nat) : LaneOut :=
  let t := x.t.toNat
  let w := elemW t
  pure1 (BitVec.ofNat 64 (intMod w (elemInt t 0 (c.val 1 h) * elemInt t 0 (c.val 2 h) / (2 ^ w : Nat))))

/-- IMADW (R76). -/
def laneMadw (x : XForm) (c : Ctx) (h : Nat) : LaneOut :=
  let t := x.t.toNat
  let e (v : W64) : Int := if t = 1 then sext 64 v.toNat else (v.toNat : Int)
  pure1 (BitVec.ofInt 64 (elemInt t 0 (c.val 1 h) * elemInt t 0 (c.val 2 h) + e (c.val 3 h)))

/-- IADDC (R77): the sum, and the carry out for the predicate. -/
def laneAddc (x : XForm) (c : Ctx) (h : Nat) : LaneOut :=
  let w := elemW x.t.toNat
  let v := elemNat x.t.toNat 0 (c.val 1 h) + elemNat x.t.toNat 0 (c.val 2 h) + (c.val 3 h).toNat % 2
  { val := BitVec.ofNat 64 (v % 2 ^ w), pq := 2 ^ w ≤ v }

/-- SHL, SHR, SAR and ROT of one element (R78). -/
def shlElem (w a n : Nat) : Nat := if w ≤ n then 0 else a * 2 ^ n % 2 ^ w
def shrElem (w a n : Nat) : Nat := if w ≤ n then 0 else a / 2 ^ n
def sarElem (w a n : Nat) : Nat := intMod w (sext w a / (2 ^ (min n w) : Nat))
def rotElem (w a n : Nat) : Nat := (a * 2 ^ (n % w) + a / 2 ^ (w - n % w)) % 2 ^ w

/-- LOGIC (R79). -/
def laneLogic (x : XForm) (c : Ctx) (h : Nat) : LaneOut :=
  let tt := x.imm.toNat
  let va := c.val 1 h
  let vb := c.val 2 h
  let vc := c.val 3 h
  pure1 (BitVec.ofNat 64 (bitsOf (elemW x.t.toNat)
    (fun k => truth tt (va.getLsbD k) (vb.getLsbD k) (vc.getLsbD k))))

/-- BFE (R80). -/
def laneBfe (x : XForm) (c : Ctx) (h : Nat) : LaneOut :=
  let t := x.t.toNat
  let ctl := (c.val 2 h).toNat
  let pos := ctl % 256
  let len := ctl / 256 % 256
  let f : Int := elemInt t 0 (c.val 1 h) / (2 ^ pos : Nat) % (2 ^ len : Nat)
  let f := if signedT t && (f.toNat).testBit (len - 1) then f - (2 ^ len : Nat) else f
  pure1 (if len = 0 then 0 else BitVec.ofNat 64 (intMod (elemW t) f))

/-- BFI (R81). -/
def laneBfi (x : XForm) (c : Ctx) (h : Nat) : LaneOut :=
  let w := elemW x.t.toNat
  let ctl := (c.val 3 h).toNat
  let pos := ctl % 256
  let len := ctl / 256 % 256
  let mask : W64 := BitVec.ofNat 64 ((2 ^ len - 1) * 2 ^ pos % 2 ^ w)
  let ins : W64 := BitVec.ofNat 64 ((c.val 2 h).toNat * 2 ^ pos)
  pure1 ((c.val 1 h &&& ~~~mask) ||| (ins &&& mask))

/-- POPC, CLZ, CTZ and BREV of a number of width w (R82). -/
def popcNat (w a : Nat) : Nat := (List.range w).countP a.testBit
def clzNat (w a : Nat) : Nat := if a = 0 then w else w - 1 - Nat.log2 a
def ctzNat (w a : Nat) : Nat := ((List.range w).find? a.testBit).getD w
def brevNat (w a : Nat) : Nat := bitsOf w (fun k => a.testBit (w - 1 - k))

/-- A function of A's w bits (R82). -/
def laneBits (x : XForm) (f : Nat → Nat → Nat) (c : Ctx) (h : Nat) : LaneOut :=
  let t := x.t.toNat
  pure1 (BitVec.ofNat 64 (f (elemW t) (elemNat t 0 (c.val 1 h))))

/-- PRMT (R83). -/
def lanePrmt (c : Ctx) (h : Nat) : LaneOut :=
  let src := (c.val 1 h).toNat % 2 ^ 32 + (c.val 2 h).toNat % 2 ^ 32 * 2 ^ 32
  let ctl := (c.val 3 h).toNat
  pure1 (BitVec.ofNat 64 ((List.range 4).foldl (fun r k => r + prmtByte src (ctl / 64 ^ k % 64) * 256 ^ k) 0))

/-- ICMP and ISET (R84). -/
def laneIcmp (x : XForm) (c : Ctx) (h : Nat) : LaneOut :=
  let t := x.t.toNat
  pure1 (if intCond x.c.toNat (elemInt t 0 (c.val 1 h)) (elemInt t 0 (c.val 2 h)) then 1 else 0)

/-- SEL (R85). -/
def laneSel (c : Ctx) (h : Nat) : LaneOut := pure1 (if (c.val 3 h).setWidth 32 != 0#32 then c.val 1 h else c.val 2 h)

/-- PLOG (R86). -/
def lanePlog (x : XForm) (c : Ctx) (h : Nat) : LaneOut :=
  pure1 (if truth x.imm.toNat ((c.val 1 h).getLsbD 0) ((c.val 2 h).getLsbD 0) ((c.val 3 h).getLsbD 0) then 1 else 0)

/-- LEA (R89). -/
def laneLea (x : XForm) (c : Ctx) (h : Nat) : LaneOut :=
  let b := c.val 2 h
  let idx : W64 := match x.t.toNat with
    | 2 => b
    | 0 => (b.setWidth 32).setWidth 64
    | _ => (b.setWidth 32).signExtend 64
  pure1 (c.val 1 h + (idx <<< x.c.toNat) + x.imm.signExtend 64)

/-- ICVT (R90). -/
def laneIcvt (x : XForm) (c : Ctx) (h : Nat) : LaneOut :=
  let t := x.t.toNat
  let v := elemInt x.c.toNat 0 (c.val 1 h)
  pure1 (BitVec.ofNat 64 (intMod (elemW t) (if x.sat = 1 then satInt v (loT t) (hiT t) else v)))

/-- A lane computation that also writes predicate q in every active lane (R77). -/
def laneOpPred (q : Nat) (f : Ctx → Nat → LaneOut) (c : Ctx) : Except TrapInfo Res :=
  let outs := c.outs (f c)
  .ok { s := c.s.modGroup c.g.gid (fun g =>
          (c.write outs g).modThreads (fun h => outs.any (fun p => p.1 == h)) (fun h t =>
            match outs.find? (fun p => p.1 == h) with
            | some p => t.setPred q p.2.pq
            | none => t))
        vals := c.latchVals outs }

/-! ### Meanings -/

/-- ILL (R54). -/
def execIll (_rest : BitVec 86) (s : State) : Host.Outcome State Fault Refusal := done s (illegalWord s)
/-- ILL at 0x3FF (R54). -/
def execIll3ff (_rest : BitVec 86) (s : State) : Host.Outcome State Fault Refusal := done s (illegalWord s)
/-- An unassigned opcode (R64). -/
def execUnassignedOpcode (_op : BitVec 10) (_rest : BitVec 86) (s : State) : Host.Outcome State Fault Refusal :=
  done s (illegalWord s)
/-- NOP (R54). -/
def execNop (x : XForm) (s : State) : Host.Outcome State Fault Refusal := done s (issueWord (.nop x) noEffect s)
/-- IADD (R74). -/
def execIadd (x : XForm) (s : State) : Host.Outcome State Fault Refusal :=
  done s (issueWord (.iadd x) (laneOp (intArith x (fun a b _ => a + b))) s)
/-- ISUB (R74). -/
def execIsub (x : XForm) (s : State) : Host.Outcome State Fault Refusal :=
  done s (issueWord (.isub x) (laneOp (intArith x (fun a b _ => a - b))) s)
/-- IADDC (R77). -/
def execIaddc (x : XForm) (s : State) : Host.Outcome State Fault Refusal :=
  done s (issueWord (.iaddc x) (laneOpPred (x.imm.toNat % 8) (laneAddc x)) s)
/-- IMUL (R74). -/
def execImul (x : XForm) (s : State) : Host.Outcome State Fault Refusal :=
  done s (issueWord (.imul x) (laneOp (intArith x (fun a b _ => a * b))) s)
/-- IMULH (R75). -/
def execImulh (x : XForm) (s : State) : Host.Outcome State Fault Refusal :=
  done s (issueWord (.imulh x) (laneOp (laneMulh x)) s)
/-- IMAD (R74). -/
def execImad (x : XForm) (s : State) : Host.Outcome State Fault Refusal :=
  done s (issueWord (.imad x) (laneOp (intArith x (fun a b c => a * b + c))) s)
/-- IMADW (R76). -/
def execImadw (x : XForm) (s : State) : Host.Outcome State Fault Refusal :=
  done s (issueWord (.imadw x) (laneOp (laneMadw x)) s)
/-- IABS (R74). -/
def execIabs (x : XForm) (s : State) : Host.Outcome State Fault Refusal :=
  done s (issueWord (.iabs x) (laneOp (intArith x (fun a _ _ => (a.natAbs : Int)))) s)
/-- IMIN (R74). -/
def execImin (x : XForm) (s : State) : Host.Outcome State Fault Refusal :=
  done s (issueWord (.imin x) (laneOp (intArith x (fun a b _ => min a b))) s)
/-- IMAX (R74). -/
def execImax (x : XForm) (s : State) : Host.Outcome State Fault Refusal :=
  done s (issueWord (.imax x) (laneOp (intArith x (fun a b _ => max a b))) s)
/-- SHL (R78). -/
def execShl (x : XForm) (s : State) : Host.Outcome State Fault Refusal :=
  done s (issueWord (.shl x) (laneOp (intShift x shlElem)) s)
/-- SHR (R78). -/
def execShr (x : XForm) (s : State) : Host.Outcome State Fault Refusal :=
  done s (issueWord (.shr x) (laneOp (intShift x shrElem)) s)
/-- SAR (R78). -/
def execSar (x : XForm) (s : State) : Host.Outcome State Fault Refusal :=
  done s (issueWord (.sar x) (laneOp (intShift x sarElem)) s)
/-- ROT (R78). -/
def execRot (x : XForm) (s : State) : Host.Outcome State Fault Refusal :=
  done s (issueWord (.rot x) (laneOp (intShift x rotElem)) s)
/-- LOGIC (R79). -/
def execLogic (x : XForm) (s : State) : Host.Outcome State Fault Refusal :=
  done s (issueWord (.logic x) (laneOp (laneLogic x)) s)
/-- BFE (R80). -/
def execBfe (x : XForm) (s : State) : Host.Outcome State Fault Refusal :=
  done s (issueWord (.bfe x) (laneOp (laneBfe x)) s)
/-- BFI (R81). -/
def execBfi (x : XForm) (s : State) : Host.Outcome State Fault Refusal :=
  done s (issueWord (.bfi x) (laneOp (laneBfi x)) s)
/-- POPC (R82). -/
def execPopc (x : XForm) (s : State) : Host.Outcome State Fault Refusal :=
  done s (issueWord (.popc x) (laneOp (laneBits x popcNat)) s)
/-- CLZ (R82). -/
def execClz (x : XForm) (s : State) : Host.Outcome State Fault Refusal :=
  done s (issueWord (.clz x) (laneOp (laneBits x clzNat)) s)
/-- CTZ (R82). -/
def execCtz (x : XForm) (s : State) : Host.Outcome State Fault Refusal :=
  done s (issueWord (.ctz x) (laneOp (laneBits x ctzNat)) s)
/-- BREV (R82). -/
def execBrev (x : XForm) (s : State) : Host.Outcome State Fault Refusal :=
  done s (issueWord (.brev x) (laneOp (laneBits x brevNat)) s)
/-- PRMT (R83). -/
def execPrmt (x : XForm) (s : State) : Host.Outcome State Fault Refusal :=
  done s (issueWord (.prmt x) (laneOp lanePrmt) s)
/-- ICMP (R84). -/
def execIcmp (x : XForm) (s : State) : Host.Outcome State Fault Refusal :=
  done s (issueWord (.icmp x) (laneOp (laneIcmp x)) s)
/-- ISET (R84). -/
def execIset (x : XForm) (s : State) : Host.Outcome State Fault Refusal :=
  done s (issueWord (.iset x) (laneOp (laneIcmp x)) s)
/-- SEL (R85). -/
def execSel (x : XForm) (s : State) : Host.Outcome State Fault Refusal := done s (issueWord (.sel x) (laneOp laneSel) s)
/-- PLOG (R86). -/
def execPlog (x : XForm) (s : State) : Host.Outcome State Fault Refusal :=
  done s (issueWord (.plog x) (laneOp (lanePlog x)) s)
/-- MOV (R87). -/
def execMov (x : XForm) (s : State) : Host.Outcome State Fault Refusal :=
  done s (issueWord (.mov x) (laneOp (fun c h => pure1 (c.val 1 h))) s)
/-- MOVI (R88). -/
def execMovi (x : IForm) (s : State) : Host.Outcome State Fault Refusal :=
  done s (issueWord (.movi x) (laneOp (fun _ _ => pure1 (x.imm.setWidth 64))) s)
/-- LEA (R89). -/
def execLea (x : XForm) (s : State) : Host.Outcome State Fault Refusal :=
  done s (issueWord (.lea x) (laneOp (laneLea x)) s)
/-- ICVT (R90). -/
def execIcvt (x : XForm) (s : State) : Host.Outcome State Fault Refusal :=
  done s (issueWord (.icvt x) (laneOp (laneIcvt x)) s)

end Sys2Proof.Machine
end

