-- ==== Sys2Proof/Machine/Control.lean ====
section
/-! DEFINITION. Control flow and divergence (R97 to R116, R208 to R213, R295). -/

namespace Sys2Proof.Machine

/-! ### Transfers -/

/-- A taken transfer of the active lanes to their targets, after every target is checked (R99, R100). -/
def Ctx.transfer (c : Ctx) (computed : Bool) (target : Nat → W64) (r : Res) : Except TrapInfo Res :=
  match c.act.find? (fun h => c.s.targetBad c.g.asid.toNat (target h) computed) with
  | some h => .error (c.trap 0x05 0 (target h))
  | none => .ok { r with pcs := c.act.map (fun h => (h, target h)) }

/-- The link of a call written to D and to the latches (R101). -/
def Ctx.link (c : Ctx) : Res :=
  let outs := c.outs (fun _ => pure1 (nextPc c.pc))
  { s := c.s.modGroup c.g.gid (c.write outs), vals := c.latchVals outs }

/-- BRA (R99). -/
def braIssue (x : BForm) (c : Ctx) : Except TrapInfo Res :=
  c.transfer false (fun _ => branchTarget c.pc x.loff x.slot) { s := c.s }

/-- CALL (R101). -/
def callIssue (x : BForm) (c : Ctx) : Except TrapInfo Res :=
  c.transfer false (fun _ => branchTarget c.pc x.loff x.slot) c.link

/-- BRX and RET (R100). -/
def brxIssue (c : Ctx) : Except TrapInfo Res := c.transfer true (c.val 1) { s := c.s }

/-- CALLX (R101). -/
def callxIssue (c : Ctx) : Except TrapInfo Res := c.transfer true (c.val 1) c.link

/-! ### Convergence registers and EXIT -/

/-- The round of a convergence register ends: its signers resume in the next cycle, in their trap frames too (R213, R295). -/
def Group.endRound (g : Group) (cv : Nat) : Group :=
  { (g.mapThreads (fun t => if t.wait = .mmas cv then { t with wait := .signed } else t)) with
    mmas := g.mmas.filter (fun r => r.cv != cv) }

/-- The multiply that a round records. -/
def MmasRound.req (r : MmasRound) : MulReq := ⟨r.x.d.toNat, r.x.a.toNat, r.x.b.toNat, r.x.rm.toNat, r.x.sat.toNat, none⟩

/-- The Tile shape fault of a recorded multiply as its shapes stand (R283, R295). -/
def State.roundErr (s : State) (core : Nat) (w : Workgroup) (r : MmasRound) : Option TileErr :=
  let sh (k : Nat) : TShape := tshape (w.tile k).tsh
  let q := r.req
  q.err (sh q.d) (sh q.a) (sh q.b) (s.mxcapOf core)

/-- The recorded multiply enters the engine order once, and the round ends (R213, R295). -/
def State.issueRound (s : State) (g : Group) (w : Workgroup) (core : Nat) (r : MmasRound) : State :=
  let (id, s) := s.newId
  let q := r.req
  (s.enterMx id g w core r.firstPc (.mmas r.x) { d := q.d, a := q.a, b := q.b }).modGroup g.gid (fun g => g.endRound r.cv)

/-- A pending set that an exit or a register write emptied after a signature issues the recorded multiply; its Tile shape
fault is then a deferred trap (R109, R295). -/
def State.emptied (s : State) (gid cv : Nat) : State :=
  match s.group? gid with
  | none => s
  | some g =>
    match g.mmas.find? (fun r => r.cv == cv), s.wg? g.wid with
    | some r, some w =>
      if r.signers = 0 || g.cvs.get cv != 0 then s
      else
        let core := (s.coreOf g).getD 0
        match s.roundErr core w r with
        | none => s.issueRound g w core r
        | some e =>
          let (id, s) := s.newId
          s.modGroup gid (fun g => { (g.endRound cv) with
            traps := g.traps ++ [⟨id, 0x0D, r.firstPc, 0, tileInfo e, none, 0⟩] })
    | _, _ => s

/-- Drops the pending deferred traps of a group and the log entries they name (R431). -/
def State.dropTraps (s : State) (gid : Nat) : State :=
  match s.group? gid with
  | none => s
  | some g =>
    let s := g.traps.foldl (fun s t => match s.op? t.op with
      | some o => s.dropLogged (s.opVf o) o
      | none => s) s
    s.modGroup gid (fun g => { g with traps := [] })

/-- Threads exit: they leave the pending sets and the barriers that count them (R102, R109, R169, R431). -/
def State.exitThreads (s : State) (gid : Nat) (mask : W64) : State :=
  let s := s.modGroup gid (fun g =>
    let g := g.modThreads (laneIn mask) (fun _ t => { t with exited := true })
    { g with cvs := (List.range 8).foldl (fun c k => c.set k (c.get k &&& ~~~mask)) g.cvs })
  let s := (List.range 8).foldl (fun s k => s.emptied gid k) s
  let s := s.exitArrivals gid
  match s.group? gid with
  | none => s
  | some g => if g.live = [] then s.dropTraps gid else s

/-- EXIT (R102). -/
def exitIssue (c : Ctx) : Except TrapInfo Res :=
  if c.act = [] then .ok { s := c.s } else .ok { s := c.s.exitThreads c.g.gid c.actMask }

/-- Writes the member set of a convergence register and starts a new round: members that have exited are dropped
(R109, R295). -/
def Group.declare (g : Group) (cv : Nat) (mask : W64) : Group :=
  { g with
    cvs := g.cvs.set cv (mask &&& maskOf g.live)
    mmas := g.mmas.filter (fun r => r.cv != cv) }

/-- CVDECL (R109). -/
def cvdeclIssue (x : XForm) (c : Ctx) : Except TrapInfo Res :=
  if c.act = [] then .ok { s := c.s }
  else
    let cv := x.d.toNat
    let mask := if c.fieldCode 1 = 0x1FF then c.actMask else c.uval 1
    if c.g.cvs.get cv = 0 then .ok { s := c.s.modGroup c.g.gid (fun g => g.declare cv mask) }
    else
      let (tok, s) := c.s.newId
      .ok { s := s.modGroup c.g.gid (fun g =>
        g.modThreads c.act.contains (fun _ t => { t with wait := .cvdecl tok cv mask })) }

/-- A waiting CVDECL writes its member set once the pending set is empty (R109). -/
def State.cvdeclDone (s : State) (gid tok : Nat) : State :=
  match s.group? gid with
  | none => s
  | some g =>
    match g.threads.findSome? (fun t => match t.wait with
        | .cvdecl k cv m => if k = tok then some (cv, m) else none
        | _ => none) with
    | none => s
    | some (cv, m) =>
      if g.cvs.get cv != 0 then s
      else s.modGroup gid (fun g => (g.declare cv m).endWait (fun w => match w with
        | .cvdecl k _ _ => k == tok
        | _ => false) tok)

/-- MMAS (R213, R295): every active lane must be a member that has not signed, with the recorded fields. -/
def mmasIssue (x : XForm) (c : Ctx) : Except TrapInfo Res :=
  if c.g.landing.isSome then .error (c.trap 0x15 1)
  else if c.act = [] then .ok { s := c.s }
  else
    let cv := x.c.toNat
    let miss := maskOf (c.g.live.filter (fun h => !c.act.contains h))
    let pend := c.g.cvs.get cv
    let fields (y : XForm) := (y.d, y.a, y.b, y.rm, y.sat)
    let round := c.g.mmas.find? (fun r => r.cv == cv)
    let r : MmasRound := round.getD ⟨cv, x, 0, c.pc⟩
    if c.act.any (fun h => !laneIn pend h) || fields r.x != fields x then .error (c.trap 0x0C 0 miss)
    else
      let left := pend &&& ~~~c.actMask
      let r := { r with signers := r.signers ||| c.actMask }
      match if left = 0 then c.s.roundErr c.core c.w r else none with
      | some e => .error (c.trap 0x0D (tileInfo e))
      | none =>
        let s := c.s.modGroup c.g.gid (fun g =>
          { (g.modThreads c.act.contains (fun _ t => { t with wait := .mmas cv })) with
            cvs := g.cvs.set cv left
            mmas := r :: g.mmas.filter (fun y => y.cv != cv) })
        .ok { s := if left = 0 then s.issueRound c.g c.w c.core r else s }

/-! ### Meetings, priority, regrouping -/

/-- SETMEET (R103). -/
def setmeetIssue (x : BForm) (c : Ctx) : Except TrapInfo Res :=
  let target := branchTarget c.pc x.loff x.slot
  .ok { s := c.s.modGroup c.g.gid (fun g =>
    let g := if x.c.toNat = 1 then
        g.writeDest true x.a.toNat (c.act.map (fun h => (h, ((c.g.threads[h]?).map (·.meet)).getD 0)))
      else g
    g.modThreads c.act.contains (fun h t => { t with
      meet := match x.c.toNat with
        | 2 => c.val 1 h
        | 3 => 0
        | _ => target })) }

/-- A thread stands at its nonzero meeting address and is not blocked (R104). -/
def Thread.held (t : Thread) : Bool := !t.exited && t.meet != 0 && t.pc == t.meet && t.wait == .none

/-- A thread does not count for the meeting at X: it has exited, its MEET is another, or it is blocked by BACKOFF or
SLEEP (R104, R112). -/
def Thread.outside (t : Thread) (x : W64) : Bool := t.exited || t.meet != x || t.wait == .backoff || t.wait == .sleep

/-- The threads held at X are released when no thread of that meeting is still to come (R104). -/
def Group.meetReady (g : Group) (x : W64) : Bool :=
  x != 0 && g.threads.any (fun t => t.held && t.meet == x) && g.threads.all (fun t => t.outside x || t.held)

/-- Releases the threads held at X (R104). -/
def State.meetRelease (s : State) (gid : Nat) (x : W64) : State :=
  s.modGroup gid (fun g =>
    if g.meetReady x then { g with threads := g.threads.map (fun t =>
      if t.held && t.meet == x then { t with meet := 0 } else t) }
    else g)

/-- SETPRIO (R106). -/
def setprioIssue (c : Ctx) : Except TrapInfo Res :=
  .ok { s := c.s.modGroup c.g.gid (fun g => g.modThreads c.act.contains (fun h t =>
    { t with prio := (c.val 1 h).setWidth 4 })) }

/-- YIELD (R107): the issuing path is demoted, with or without an active lane. -/
def yieldIssue (c : Ctx) : Except TrapInfo Res :=
  .ok { s := c.s.modGroup c.g.gid (fun g => g.modThreads (laneIn c.part.mask) (fun _ t => { t with demoted := true })) }

/-- REGROUP (R108). -/
def regroupIssue (x : XForm) (c : Ctx) : Except TrapInfo Res :=
  let now := c.s.cycle c.core
  let stop := now + (x.imm.setWidth 16).setWidth 64
  .ok { s := c.s.modGroup c.g.gid (fun g => g.modThreads c.act.contains (fun _ t =>
    { t with wait := .regroup now stop (nextPc c.pc) })) }

/-- A thread waiting in a Flock pool (R210). -/
structure PoolThread where
  gid : Nat
  grp : Nat
  lane : Nat
  issued : W64
  stop : W64
  width : Nat
  deriving DecidableEq, Repr

/-- The pool of a workgroup and address on one core; a migrated group's threads are a pool of their own (R108, R210). -/
def State.pool (s : State) (wid : Nat) (addr : W64) (migrated : Option Nat) : List PoolThread :=
  s.groups.flatMap (fun g =>
    if g.wid = wid && !g.retired && !g.stopped && (match migrated with
        | none => g.landing.isNone
        | some gid => g.gid == gid && g.landing.isSome)
    then (g.threads.zipIdx).filterMap (fun p => match p.1.wait with
      | .regroup t e a => if a = addr && !p.1.exited then some ⟨g.gid, g.grp, p.2, t, e, g.width⟩ else none
      | _ => none)
    else [])

/-- Order of a pool: REGROUP issue cycle, grp, home lane (R210). -/
def PoolThread.before (a b : PoolThread) : Bool :=
  if a.issued != b.issued then a.issued < b.issued else if a.grp != b.grp then a.grp < b.grp else a.lane < b.lane

/-- Places a thread in the first bin without its home lane (R210). -/
def placeBin (t : PoolThread) : List (List PoolThread) → List (List PoolThread)
  | [] => [[t]]
  | b :: bs => if b.any (fun u => u.lane == t.lane) then b :: placeBin t bs else (b ++ [t]) :: bs

/-- The bins of a pool (R210). -/
def poolBins (l : List PoolThread) : List (List PoolThread) :=
  (l.sortBy PoolThread.before).foldl (fun bs t => placeBin t bs) []

/-- A bin is released when it is full or a window has ended (R210). -/
def binReady (now : W64) (b : List PoolThread) : Bool :=
  b.any (fun t => t.width ≤ b.length || t.stop ≤ now)

/-- Forms an issue group of a bin (R210). -/
def State.formBin (s : State) (wid core : Nat) (b : List PoolThread) : State :=
  let n := ((s.core? core).map (·.formed)).getD 0
  let s : State := { s with
    formed := s.formed ++
      [⟨BitVec.ofNat 32 (0x100 + n.toNat % 0xFF00), s.cycle core + 1, wid, b.map (fun t => (t.gid, t.lane))⟩]
    cores := modNth s.cores core (fun k => { k with formed := BitVec.ofNat 16 ((k.formed.toNat + 1) % 0xFF00) }) }
  b.foldl (fun s t => s.modGroup t.gid (fun g => g.modThreads (fun h => h = t.lane) (fun _ x => { x with wait := .none }))) s

/-- Releases the ready bins of one pool. -/
def State.releasePool (s : State) (wid core : Nat) (l : List PoolThread) : State :=
  ((poolBins l).filter (binReady (s.cycle core))).foldl (fun s b => s.formBin wid core b) s

/-- FLOCK_BIN_RELEASE (R210) of every pool of a workgroup and address. -/
def State.flockRelease (s : State) (wid : Nat) (addr : W64) : State :=
  match s.wg? wid with
  | none => s
  | some w =>
    let s := match w.core with
      | some core => s.releasePool wid core (s.pool wid addr none)
      | none => s
    (s.groups.filter (fun g => g.wid == wid && g.landing.isSome)).foldl (fun s g =>
      match g.landing with
      | some l => s.releasePool wid l.core (s.pool wid addr (some g.gid))
      | none => s) s

/-! ### Switch points and waiting -/

/-- Point n is listed for variant v (R309). -/
def CodeObj.listed (c : CodeObj) (n v : Nat) : Bool :=
  let es := c.switches.filter (fun e => e.point == n)
  es != [] && es.all (fun e => !e.abs.getLsbD v)
    && (c.points.filter (fun p => p.1 == v && p.2.1 == n)).length == 1

/-- Points at which groups of a workgroup wait, trap frames included (R110, R431). -/
def Group.switchWaits (g : Group) : List Nat :=
  let of (l : List Thread) := l.filterMap (fun t => match t.wait with
    | .switchpt n => if t.exited then none else some n
    | _ => none)
  of g.threads ++ (match g.frame with
    | some f => of f.threads
    | none => [])

/-- Ends every wait at a switch point of a workgroup (R110). -/
def State.endSwitchWaits (s : State) (wid : Nat) : State :=
  { s with groups := s.groups.map (fun g => if g.wid = wid then g.mapThreads (fun t => match t.wait with
    | .switchpt _ => { t with wait := .none }
    | _ => t) else g) }

/-- A group reaches point n with every live thread under a pending order: it waits there, or the order is withdrawn when
others wait at another point (R110). -/
def State.reachPoint (s : State) (wid gid n : Nat) : State :=
  match s.wg? wid with
  | none => s
  | some w =>
    match w.order, (s.launch? w.lid).bind s.codeOf with
    | some o, some code =>
      let others := (s.groups.filter (fun g => g.wid == wid && g.gid != gid && !g.retired)).flatMap Group.switchWaits
      if others.any (fun m => m != n) then (s.endSwitchWaits wid).modWg wid (fun w => { w with order := none })
      else if code.listed n w.variant && code.listed n o.target then
        s.modGroup gid (fun g => { g with
          threads := g.threads.map (fun t => if t.exited then t else { t with wait := .switchpt n }) })
      else s
    | _, _ => s

/-- SWITCHPT (R110, R424). Without an order the group notes the point: an order of the same cycle still counts (R301). -/
def switchptIssue (x : XForm) (c : Ctx) : Except TrapInfo Res :=
  let n := x.imm.toNat % 256
  if !(!c.g.inh && c.act != [] && c.g.live.all (fun h => c.act.contains h)) then .ok { s := c.s, clear := true }
  else if c.w.order.isSome then .ok { s := c.s.reachPoint c.w.wid c.g.gid n, clear := true }
  else .ok { s := c.s.modGroup c.g.gid (fun g => { g with atSwitch := some (n, c.s.cycle c.core) }), clear := true }

/-- One step of the back-off LFSR (R111). -/
def lfsrStep (x : W32) : W32 := if x.getLsbD 0 then (x >>> 1) ^^^ 0x80200003#32 else x >>> 1

/-- n steps of the back-off LFSR. -/
def lfsrSteps : Nat → W32 → W32
  | 0, x => x
  | n + 1, x => lfsrSteps n (lfsrStep x)

/-- Cycles that BACKOFF draws for a control operand (R111). -/
def backoffCycles (a : W64) (lfsr : W32) : Nat :=
  let k := min (a.toNat % 16) 10
  64 + (lfsr.toNat % 2 ^ 16 &&& (64 * 2 ^ k - 1))

/-- BACKOFF (R111). In a formed issue group of several groups the lanes draw group by group, in the order of its members
(DESIGN CHOICE, log entry 64). -/
def backoffIssue (c : Ctx) : Except TrapInfo Res :=
  .ok { s := c.act.foldl (fun s h =>
    let x := lfsrSteps 16 (((s.core? c.core).map (·.lfsr)).getD 0)
    let s : State := { s with cores := modNth s.cores c.core (fun k => { k with lfsr := x }) }
    s.modGroup c.g.gid (fun g => g.modThreads (fun j => j = h) (fun _ t => { t with
      blockedUntil := s.cycle c.core + BitVec.ofNat 64 (backoffCycles (c.val 1 h) x), wait := .backoff }))) c.s }

/-- SLEEP (R112): a zero count blocks nothing. -/
def sleepIssue (c : Ctx) : Except TrapInfo Res :=
  .ok { s := c.s.modGroup c.g.gid (fun g => g.modThreads c.act.contains (fun h t =>
    let n := (c.val 1 h).setWidth 32
    if n = 0 then t else { t with blockedUntil := c.time + n.setWidth 64, wait := .sleep })) }

/-- BACKOFF's deadline has come (R111). -/
def State.backoffDone (s : State) (gid lane : Nat) : State :=
  match s.group? gid with
  | none => s
  | some g =>
    match s.coreOf g with
    | none => s
    | some core => s.modGroup gid (fun g => g.modThreads (fun h => h = lane) (fun _ t =>
        if t.wait = .backoff && t.blockedUntil ≤ s.cycle core then { t with wait := .none } else t))

/-- SLEEP's deadline has come (R112). -/
def State.sleepDone (s : State) (gid lane : Nat) : State :=
  match s.group? gid with
  | none => s
  | some g => s.modGroup gid (fun x => x.modThreads (fun h => h = lane) (fun _ t =>
      if t.wait = .sleep && t.blockedUntil ≤ s.time (s.groupDie g) then { t with wait := .none } else t))

/-! ### Traps and counters -/

/-- TRAP and SYSCALL (R113, R195): Software trap with the return address past the instruction; the path's latches are cleared
where the instruction is of the long class (R37, R63). -/
def softTrap (finfo : W32) (c : Ctx) : Except TrapInfo Res :=
  if c.act = [] then .ok { s := c.s }
  else .error { c.trap 0x11 finfo with epc := nextPc c.pc, clear := c.sh.long, raiser := some c.pc }

/-- BKPT (R113). -/
def bkptIssue (x : XForm) (c : Ctx) : Except TrapInfo Res :=
  if c.act = [] then .ok { s := c.s }
  else .error { c.trap 0x12 (BitVec.ofNat 32 (x.imm.toNat % 2 ^ 16)) with clear := false }

/-- CLOCK (R114). -/
def laneClock (x : XForm) (c : Ctx) (_h : Nat) : LaneOut :=
  pure1 (narrow x.t.toNat (if x.c = 0 then c.s.cycle c.core else c.time))

/-! ### Guards of the issue choice -/

/-- PASSED_OVER_GUARD (R209): a path has been passed over in 64 counted issues; the choice takes it next. -/
def State.passedGuard (s : State) (gid : Nat) : State :=
  s.modGroup gid (fun g => if g.threads.any (fun t => !t.exited && 64 ≤ t.passed) then { g with forced := true } else g)

/-- PARTITION_STARVATION (R321): the least recently issued group passed over for 4,096 cycles issues next. -/
def State.starve (s : State) (core ipart : Nat) : State :=
  let gs := s.groups.filter (fun g => s.coreOf g == some core && g.ipart == ipart && !g.retired && 4096 ≤ g.passed)
  match earliest (·.lastIssue) gs with
  | none => s
  | some g => s.modGroup g.gid (fun g => { g with starved := true })

/-! ### Meanings -/

/-- BRA (R99). -/
def execBra (x : BForm) (s : State) : Host.Outcome State Fault Refusal := done s (issueWord (.bra x) (braIssue x) s)
/-- BRX (R100). -/
def execBrx (x : XForm) (s : State) : Host.Outcome State Fault Refusal := done s (issueWord (.brx x) brxIssue s)
/-- CALL (R101). -/
def execCall (x : BForm) (s : State) : Host.Outcome State Fault Refusal := done s (issueWord (.call x) (callIssue x) s)
/-- CALLX (R101). -/
def execCallx (x : XForm) (s : State) : Host.Outcome State Fault Refusal := done s (issueWord (.callx x) callxIssue s)
/-- RET (R100). -/
def execRet (x : XForm) (s : State) : Host.Outcome State Fault Refusal := done s (issueWord (.ret x) brxIssue s)
/-- EXIT (R102). -/
def execExit (x : XForm) (s : State) : Host.Outcome State Fault Refusal := done s (issueWord (.exit x) exitIssue s)
/-- SETMEET (R103). -/
def execSetmeet (x : BForm) (s : State) : Host.Outcome State Fault Refusal :=
  done s (issueWord (.setmeet x) (setmeetIssue x) s)
/-- SETPRIO (R106). -/
def execSetprio (x : XForm) (s : State) : Host.Outcome State Fault Refusal := done s (issueWord (.setprio x) setprioIssue s)
/-- YIELD (R107). -/
def execYield (x : XForm) (s : State) : Host.Outcome State Fault Refusal := done s (issueWord (.yield x) yieldIssue s)
/-- REGROUP (R108). -/
def execRegroup (x : XForm) (s : State) : Host.Outcome State Fault Refusal :=
  done s (issueWord (.regroup x) (regroupIssue x) s)
/-- SWITCHPT (R110). -/
def execSwitchpt (x : XForm) (s : State) : Host.Outcome State Fault Refusal :=
  done s (issueWord (.switchpt x) (switchptIssue x) s)
/-- CVDECL (R109). -/
def execCvdecl (x : XForm) (s : State) : Host.Outcome State Fault Refusal :=
  done s (issueWord (.cvdecl x) (cvdeclIssue x) s)
/-- BACKOFF (R111). -/
def execBackoff (x : XForm) (s : State) : Host.Outcome State Fault Refusal := done s (issueWord (.backoff x) backoffIssue s)
/-- SLEEP (R112). -/
def execSleep (x : XForm) (s : State) : Host.Outcome State Fault Refusal := done s (issueWord (.sleep x) sleepIssue s)
/-- TRAP (R113). -/
def execTrap (x : XForm) (s : State) : Host.Outcome State Fault Refusal :=
  done s (issueWord (.trap x) (softTrap (BitVec.ofNat 32 (x.imm.toNat % 2 ^ 16))) s)
/-- BKPT (R113). -/
def execBkpt (x : XForm) (s : State) : Host.Outcome State Fault Refusal := done s (issueWord (.bkpt x) (bkptIssue x) s)
/-- CLOCK (R114). -/
def execClock (x : XForm) (s : State) : Host.Outcome State Fault Refusal :=
  done s (issueWord (.clock x) (laneOp (laneClock x)) s)
/-- MMAS (R213, R295). -/
def execMmas (x : XForm) (s : State) : Host.Outcome State Fault Refusal := done s (issueWord (.mmas x) (mmasIssue x) s)
/-- CVDECL_WRITE (R109). -/
def execCvdeclWrite (gid tok : Nat) (s : State) : Host.Outcome State Fault Refusal := done s (s.cvdeclDone gid tok)
/-- MEET_RELEASE (R104). -/
def execMeetRelease (gid : Nat) (addr : W64) (s : State) : Host.Outcome State Fault Refusal := done s (s.meetRelease gid addr)
/-- BACKOFF_EXPIRY (R111). -/
def execBackoffExpiry (gid lane : Nat) (s : State) : Host.Outcome State Fault Refusal := done s (s.backoffDone gid lane)
/-- SLEEP_EXPIRY (R112). -/
def execSleepExpiry (gid lane : Nat) (s : State) : Host.Outcome State Fault Refusal := done s (s.sleepDone gid lane)
/-- FLOCK_BIN_RELEASE (R210). -/
def execFlockBinRelease (wid : Nat) (addr : W64) (s : State) : Host.Outcome State Fault Refusal :=
  done s (s.flockRelease wid addr)
/-- PASSED_OVER_GUARD (R209). -/
def execPassedOverGuard (gid : Nat) (s : State) : Host.Outcome State Fault Refusal := done s (s.passedGuard gid)
/-- PARTITION_STARVATION (R321). -/
def execPartitionStarvation (core ipart : Nat) (s : State) : Host.Outcome State Fault Refusal := done s (s.starve core ipart)

end Sys2Proof.Machine
end

