-- ==== Sys2Proof/Machine/System.lean ====
section
/-! DEFINITION. System registers, return from a handler, the operand log's instructions, HALT, IDLE, SYSCALL, and deferred
traps (R191 to R195, R374 to R376, R402, R422, R425, R431). -/

namespace Sys2Proof.Machine

/-! ### System registers -/

/-- Access to a system register at a level: 0 none, 1 read, 2 read and write (R191). -/
def sysAccess (level idx : Nat) : Nat :=
  let at3 (g h f : Nat) : Nat := match level with
    | 0 => g
    | 1 => h
    | _ => f
  if idx = 0x000 ∨ idx = 0x008 then at3 1 2 2
  else if idx ∈ [0x001, 0x002, 0x004, 0x005] then at3 0 2 2
  else if idx = 0x003 then at3 0 1 2
  else if idx = 0x006 then at3 0 1 1
  else if idx = 0x009 ∨ idx = 0x090 ∨ (0x040 ≤ idx ∧ idx ≤ 0x067) then 2
  else if idx = 0x020 ∨ idx = 0x080 then at3 1 1 2
  else if 0x070 ≤ idx ∧ idx ≤ 0x07F then at3 1 2 2
  else 1

/-- STATUS (R419). -/
def Group.statusWord (g : Group) : W64 :=
  BitVec.ofNat 64 (g.lvl.toNat + 4 * g.blv.toNat + 64 * boolNat g.stepFlag + 128 * boolNat g.deferred + 256 * boolNat g.inh)

/-- OPLOG (R376). -/
def State.oplogWord (s : State) (g : Group) : W64 :=
  let held : W32 := (s.ops.filter (fun o => o.gid == g.gid && o.isLogged)).foldl (fun m o => m ||| ((1 : W32) <<< o.entry)) 0
  BitVec.ofNat 64 (held.toNat + 2 ^ 32 * g.oplogTent.toNat + 2 ^ 39 * boolNat g.oplogTv)

/-- IDS of a core (R192). -/
def idsWord (core : Nat) : W64 :=
  BitVec.ofNat 64 (core % 256 + 2 ^ 8 * dieOf core + 2 ^ 10 * quadOf core + 2 ^ 16 * (core % 4) + 2 ^ 32)

/-- PARTID of a partition (R402). -/
def State.partIdWord (s : State) (part : Nat) : W64 :=
  let parent := (((s.part? part).map (·.parent)).getD part) % 64
  BitVec.ofNat 64 (part % 64 + 2 ^ 8 * parent + 2 ^ 15 * boolNat (parent != part % 64))

/-- MXCAP of a quad: M64 lowest (R284). -/
def capWord (l : List Nat) : W64 := BitVec.ofNat 64 (leNat (l.map byteOf))

/-- What home lane h reads from a system register (R191, R193). -/
def Ctx.sysRead (c : Ctx) (idx h : Nat) : W64 :=
  if 0x040 ≤ idx ∧ idx ≤ 0x05F then (c.w.tile (idx - 0x040)).tsh.setWidth 64
  else if 0x060 ≤ idx ∧ idx ≤ 0x067 then c.g.cvs.get (idx - 0x060)
  else if 0x070 ≤ idx ∧ idx ≤ 0x07F then c.qb (idx - 0x070)
  else
    match idx with
    | 0x000 => c.g.statusWord
    | 0x001 => c.g.cause.setWidth 64
    | 0x002 => c.g.epc
    | 0x003 => c.la.record.tvec
    | 0x004 => c.g.faddr
    | 0x005 => c.g.finfo.setWidth 64
    | 0x006 => c.s.oplogWord c.g
    | 0x008 => c.la.fpctl.setWidth 64
    | 0x009 => (((c.g.threads[h]?).map Thread.fpstat).getD 0).setWidth 64
    | 0x010 => c.time
    | 0x011 => c.s.cycle c.core
    | 0x018 => idsWord c.core
    | 0x020 => c.g.asid.setWidth 64
    | 0x021 => c.s.partIdWord (((c.s.asid? c.g.asid.toNat).map (·.part)).getD c.la.part)
    | 0x030 => capWord (c.s.mxcapOf c.core)
    | 0x080 => (((c.s.asid? c.g.asid.toNat).map AsidCtx.len).getD 0).setWidth 64
    | _ => c.g.viewcur

/-- Privilege fault of a system register access (R191, R421). -/
def Ctx.sysFault (c : Ctx) (idx : Nat) : TrapInfo := c.trap 0x10 (BitVec.ofNat 32 idx)

/-- MFSR (R193). -/
def mfsrIssue (x : XForm) (c : Ctx) : Except TrapInfo Res :=
  let idx := x.imm.toNat
  if c.act = [] then .ok { s := c.s }
  else if sysAccess c.g.lvl.toNat idx = 0 then .error (c.sysFault idx)
  else .ok { s := c.s.modGroup c.g.gid (fun g =>
    g.writeDest c.dWide (c.fieldCode 0) (c.act.map (fun h => (h, c.sysRead idx h)))) }

/-- LEN of LEASE as a write sets it (R243). -/
def leaseLen (v : W64) : BitVec 13 := BitVec.ofNat 13 (min 8000 (max 8 v.toNat))

/-- A write of a register of wider scope than a thread; fields that are RO or reserved ignore it (R10, R193). A new
FPCTL holds for every path at once, where R126 lets a path use the old value up to its next line entry (DESIGN CHOICE, log
entry 62). -/
def Ctx.sysWrite (c : Ctx) (idx : Nat) (v : W64) : State :=
  let gid := c.g.gid
  if 0x040 ≤ idx ∧ idx ≤ 0x05F then
    c.s.modWg c.w.wid (fun w => w.modTile (idx - 0x040) (fun t => { t with tsh := v.setWidth 32 &&& 0x3FFFF }))
  else if 0x060 ≤ idx ∧ idx ≤ 0x067 then
    (c.s.modGroup gid (fun g => { g with cvs := g.cvs.set (idx - 0x060) v })).emptied gid (idx - 0x060)
  else if 0x070 ≤ idx ∧ idx ≤ 0x07F then
    let q := idx - 0x070
    (c.s.modCluster c.w.cid (fun k => k.rewriteQb q (v &&& qRwMask) (c.s.cycle 0))).placeQueue c.w q (v &&& qRwMask)
  else
    match idx with
    | 0x000 => c.s.modGroup gid (fun g => { g with stepFlag := v.getLsbD 6 })
    | 0x001 => c.s.modGroup gid (fun g => { g with cause := v.setWidth 8 })
    | 0x002 => c.s.modGroup gid (fun g => { g with epc := v })
    | 0x003 => c.s.modLaunch c.la.lid (fun l => { l with record := { l.record with tvec := v } })
    | 0x004 => c.s.modGroup gid (fun g => { g with faddr := v })
    | 0x005 => c.s.modGroup gid (fun g => { g with finfo := v.setWidth 32 })
    | 0x008 => c.s.modLaunch c.la.lid (fun l => { l with fpctl := v.setWidth 32 &&& 0x1F })
    | 0x020 => c.s.modGroup gid (fun g => { g with asid := v.setWidth 16 })
    | 0x080 => c.s.modAsid c.g.asid.toNat (fun a => { a with len := leaseLen (v &&& 0x1FFF) })
    | 0x090 => c.s.modGroup gid (fun g => { g with viewcur := v &&& 0x3FFFFFFFFF })
    | _ => c.s

/-- MTSR (R193). -/
def mtsrIssue (x : XForm) (c : Ctx) : Except TrapInfo Res :=
  let idx := x.imm.toNat
  if c.act = [] then .ok { s := c.s }
  else if sysAccess c.g.lvl.toNat idx < 2 then .error (c.sysFault idx)
  else if idx = 0x009 then
    .ok { s := c.s.modGroup c.g.gid (fun g => g.modThreads c.act.contains (fun h t =>
      { t with fpstat := (c.val 1 h).setWidth 5 })) }
  else .ok { s := c.sysWrite idx (c.uval 1) }

/-! ### ERET -/

/-- ERET (R194, R425): the entry named by OPLOG is freed, and the group resumes from its frame. -/
def eretIssue (c : Ctx) : Except TrapInfo Res :=
  match c.g.frame with
  | none => .error c.privilege
  | some fr =>
    if !c.g.inh then .error c.privilege
    else
      match c.partialIssue with
      | some t => .error t
      | none =>
        if !c.g.deferred && ((slotOf c.g.epc).isNone || beyond57 c.g.epc) then
          .ok { s := c.s.endWorkgroup c.g 0x05 c.pc 0, keep := true }
        else
          let s := match c.s.ops.find? (fun o => o.gid == c.g.gid && o.isLogged && o.entry == c.g.oplogTent.toNat) with
            | some o => if c.g.oplogTv then c.s.dropLogged c.la.vf o else c.s
            | none => c.s
          .ok { s := s.modGroup c.g.gid (fun g => g.leaveTrap fr), keep := true }

/-! ### The operand log -/

/-- The logged entry of the group that A[4:0] names (R194). -/
def Ctx.entryNamed (c : Ctx) : Option MemOp :=
  c.s.ops.find? (fun o => o.gid == c.g.gid && o.isLogged && o.entry == (c.uval 1).toNat % 32)

/-- OPREPLAY and OPDROP act at handler level and above, on an entry of the group (R194). -/
def Ctx.onEntry (c : Ctx) (f : MemOp → State) : Except TrapInfo Res :=
  if c.act = [] then .ok { s := c.s }
  else if c.g.lvl = 0 then .error c.privilege
  else
    match c.entryNamed with
    | none => .error c.privilege
    | some o => .ok { s := f o }

/-- OPREPLAY (R194): the record's FID closes, the logged lanes are to be performed again, and the threads wait until they have
performed or faulted again. -/
def opreplayIssue (c : Ctx) : Except TrapInfo Res :=
  c.onEntry (fun o =>
    let s := match o.fid with
      | some fid => c.s.closeFid c.la.vf fid
      | none => c.s
    (s.modGroup c.g.gid (fun g => g.modThreads c.act.contains (fun _ t => { t with wait := .opDone o.id }))).reopenLogged o.id
      (fun _ => true))

/-- OPDROP (R194). -/
def opdropIssue (c : Ctx) : Except TrapInfo Res := c.onEntry (fun o => c.s.dropLogged c.la.vf o)

/-! ### HALT and IDLE -/

/-- HALT (R195, R426). -/
def haltIssue (x : XForm) (c : Ctx) : Except TrapInfo Res :=
  if c.act = [] then .ok { s := c.s }
  else if c.g.lvl = 0 then .error c.privilege
  else .ok { s := c.s.endWorkgroup c.g 0 c.pc (BitVec.ofNat 32 (x.imm.toNat % 2 ^ 16)) }

/-- IDLE (R195). -/
def idleIssue (c : Ctx) : Except TrapInfo Res :=
  if c.act = [] then .ok { s := c.s }
  else
    let (tok, s) := c.s.newId
    .ok { s := s.modGroup c.g.gid (fun g => g.modThreads c.act.contains (fun h t =>
      let n : W32 := (c.val 1 h).setWidth 32
      { t with wait := .idle tok (if n = 0 then none else some (c.time + n.setWidth 64)) })) }

/-- An event after the IDLE, or its limit, ends it (R195). -/
def State.idleOver (s : State) (g : Group) (t : Thread) : Bool :=
  match t.wait with
  | .idle tok limit =>
    tok < g.wakeTick || (g.inh && tok < g.serviceTick) ||
      (match limit with
        | some e => e ≤ s.time (s.groupDie g)
        | none => false)
  | _ => false

/-- Ends the IDLE of one thread, if it is over. -/
def State.idleWakes (s : State) (gid lane : Nat) : State :=
  match s.group? gid with
  | none => s
  | some g => s.modGroup gid (fun x => x.modThreads (fun h => h = lane) (fun _ t =>
      if s.idleOver g t then { t with wait := .none } else t))

/-! ### Deferred traps -/

/-- DEFERRED_TRAP (R422, R426, R431). -/
def State.takeDeferred (s : State) (gid : Nat) : State :=
  match s.group? gid with
  | none => s
  | some g =>
    if g.live = [] then s.dropTraps gid
    else if !s.unstopped g || g.stopped || g.retired then s
    else
      match g.nextTrap with
      | none => s
      | some t =>
        let s := s.modGroup gid (fun g => { g with traps := g.traps.filter (fun x => x != t) })
        let s := s.modOp t.op (fun o => { o with log := .handler })
        s.takeTrap gid { cause := t.cause.toNat, epc := t.epc, faddr := t.faddr, finfo := t.finfo,
                         deferred := t.path == 0, path := t.path, entry := t.entry }

/-! ### Meanings -/

/-- MFSR (R193). -/
def execMfsr (x : XForm) (s : State) : Host.Outcome State Fault Refusal := done s (issueWord (.mfsr x) (mfsrIssue x) s)
/-- MTSR (R193). -/
def execMtsr (x : XForm) (s : State) : Host.Outcome State Fault Refusal := done s (issueWord (.mtsr x) (mtsrIssue x) s)
/-- ERET (R194, R425). -/
def execEret (x : XForm) (s : State) : Host.Outcome State Fault Refusal := done s (issueWord (.eret x) eretIssue s)
/-- OPREPLAY (R194). -/
def execOpreplay (x : XForm) (s : State) : Host.Outcome State Fault Refusal :=
  done s (issueWord (.opreplay x) opreplayIssue s)
/-- OPDROP (R194). -/
def execOpdrop (x : XForm) (s : State) : Host.Outcome State Fault Refusal := done s (issueWord (.opdrop x) opdropIssue s)
/-- HALT (R195). -/
def execHalt (x : XForm) (s : State) : Host.Outcome State Fault Refusal := done s (issueWord (.halt x) (haltIssue x) s)
/-- IDLE (R195). -/
def execIdle (x : XForm) (s : State) : Host.Outcome State Fault Refusal := done s (issueWord (.idle x) idleIssue s)
/-- SYSCALL (R195). -/
def execSyscall (x : XForm) (s : State) : Host.Outcome State Fault Refusal :=
  done s (issueWord (.syscall x) (softTrap (BitVec.ofNat 32 (0x10000 + x.imm.toNat % 2 ^ 16))) s)
/-- IDLE_WAKE (R195). -/
def execIdleWake (gid lane : Nat) (s : State) : Host.Outcome State Fault Refusal := done s (s.idleWakes gid lane)
/-- DEFERRED_TRAP (R422). -/
def execDeferredTrap (gid : Nat) (s : State) : Host.Outcome State Fault Refusal := done s (s.takeDeferred gid)

end Sys2Proof.Machine
end

