-- ==== Sys2Proof/Machine/Engine.lean ====
section
/-! DEFINITION. Engine commands: slots, tags and status words, copies and gathers, the snapshot commands, CWAIT and ESTAT
(R184 to R190, R217 to R233, R267). -/

namespace Sys2Proof.Machine

/-! ### Slots, tags and status words -/

/-- A slot that a new command may take (R184). -/
def CmdSlot.isFree (k : CmdSlot) : Bool := k.st == 0 || k.st == 3

/-- The index of the slot that the next command takes: one never used, else the least recently freed (R184). -/
def Group.nextSlot (g : Group) : Nat :=
  if g.cmds.length < 16 then g.cmds.length
  else
    match earliest (fun p => p.1.freed) (g.cmds.zipIdx.filter (fun p => p.1.isFree)) with
    | some p => p.2
    | none => 0

/-- The tag of a slot and sequence number (R184). -/
def tagOf (slot : Nat) (seq : BitVec 28) : W32 := BitVec.ofNat 32 (slot + 16 * seq.toNat)

/-- A status word (R186). -/
def cmdWord (st : Nat) (code : Byte) : W32 := BitVec.ofNat 32 (st + 256 * code.toNat)

/-- The slot whose command carries a tag (R189). -/
def Group.cmdOf (g : Group) (tag : W32) : Option CmdSlot :=
  match g.cmds[tag.toNat % 16]? with
  | some k => if k.tag = tag then some k else none
  | none => none

/-- The status word of a tag; UNKNOWN when its slot holds no status of it (R186, R189). -/
def Group.cmdStatus (g : Group) (tag : W32) : W32 :=
  match g.cmdOf tag with
  | some k => cmdWord k.st (if k.st = 3 then k.code else 0)
  | none => cmdWord 0 0xFF

/-- Replaces one command slot. -/
def State.modCmd (s : State) (gid slot : Nat) (f : CmdSlot → CmdSlot) : State :=
  s.modGroup gid (fun g => { g with cmds := modNth g.cmds slot f })

/-- A command slot. -/
def State.cmd? (s : State) (gid slot : Nat) : Option CmdSlot := (s.group? gid).bind (fun g => g.cmds[slot]?)

/-- A command's effects are made, with its code and the apply TIME of its writes (R186, R267). The manual does not say
when STATE goes from 1 to 2: it does here, or at a pause (DESIGN CHOICE, log entry 61). -/
def State.cmdPerformed (s : State) (gid slot : Nat) (code : Byte) (w : W64) : State :=
  s.modCmd gid slot (fun k => { k with st := 2, code := code, performed := true, w := w })

/-- The status keeps the code of the earliest-issued command that ended with one (R189). -/
def Group.keep (g : Group) (k : CmdSlot) : Group :=
  if k.code = 0 || (g.keptCode != 0 && g.keptTick < k.tick) then g else { g with keptCode := k.code, keptTick := k.tick }

/-- A command reaches DONE (R186, R189, R195). -/
def State.cmdDone (s : State) (gid slot : Nat) : State :=
  let (id, s) := s.newId
  s.modGroup gid (fun g =>
    match g.cmds[slot]? with
    | none => g
    | some k => { (g.keep k) with cmds := modNth g.cmds slot (fun k => { k with st := 3, freed := id, fid := none }), wakeTick := id + 1 })

/-! ### Ending and pausing -/

/-- How an engine's action stops: with a code that ends the command, paused at a fault (R186, R190), or waiting for a port
(R467). -/
inductive CmdStop where
  | wait
  | code (c : Byte)
  | pause (f : LaneFault)
  deriving DecidableEq, Repr

/-- The stop that a fault of an engine access makes (R186, R190). -/
def stopOf (f : LaneFault) : CmdStop :=
  if f.cause = 0x09 then .code 0x02 else if f.cause = 0x08 && f.reason = 0 then .code 0x03 else .pause f

/-- A command pauses: a KIND 1 record, and the slot remembers its FID (R190, R224, R373). -/
def State.cmdPause (s : State) (gid slot : Nat) (f : LaneFault) : State :=
  match s.group? gid, s.cmd? gid slot with
  | some g, some k =>
    match (s.wg? g.wid).bind (fun w => s.launch? w.lid) with
    | none => s
    | some la =>
      let r : FaultRec := { s.recordFor g la f.cause.toNat 1 k.pc with
        reason := byteOf f.reason
        flags := byteOf (boolNat f.wr + 2 * boolNat f.s2 + 4 * boolNat k.again)
        va := f.addr &&& ~~~63#64, gpa := f.gpa, tag := k.tag
        fset := match f.fset with
          | some n => BitVec.ofNat 16 (n + 0x8000)
          | none => 0 }
      let (s, fid) := s.makeRecord la.vf r (some (.command gid slot))
      s.modCmd gid slot (fun k => { k with st := 2, fid := some fid, depth := if f.cause = 0x13 && f.reason = 9 then some f.addr else none })
  | _, _ => s

/-- A pause on DEPTH is over once a write to the page meets no DEPTH (R224). -/
def State.depthOver (s : State) (asid : Nat) (k : CmdSlot) : Bool :=
  k.depth.any (fun a => s.depthFree asid a.toNat)

/-- Ends a pause: the record is closed, and the command goes on (R190, R374). -/
def State.cmdResume (s : State) (gid slot : Nat) : State :=
  match s.group? gid, s.cmd? gid slot with
  | some g, some k =>
    let vf := (((s.wg? g.wid).bind (fun w => s.launch? w.lid)).map (·.vf)).getD 0
    let s := match k.fid with
      | some fid => s.closeFid vf fid
      | none => s
    s.modCmd gid slot (fun k => { k with fid := none, again := true, depth := none })
  | _, _ => s

/-! ### Engine accesses -/

/-- n bytes from global memory or scratchpad as an engine reads them, path 0 for an engine without a cache of its own (R151,
R186, R267). -/
def State.cmdReadBy (path core : Nat) (s : State) (w : Workgroup) (asid : Nat) (scr : Bool) (addr n : Nat) :
    Except CmdStop (State × List Byte) :=
  if scr then
    if 2 ^ 22 < addr + n then .error (.code 0x03)
    else
      match s.scratchTarget w (BitVec.ofNat 64 addr) n with
      | none => .error (.code 0x03)
      | some (sp, off) => if s.scratchBad sp off n then .error (.code 0x09) else .ok (s, s.scratchBytes sp off n)
  else if 2 ^ 57 < addr + n then .error (.code 0x03)
  else
    match s.pathRead path core asid addr n with
    | .error f => .error (stopOf f)
    | .ok (s, bs, bad) => if bad then .error (.code 0x09) else .ok (s, bs)

/-- n bytes as the copy, snapshot and collective engines read them (R267). -/
def State.cmdRead (s : State) (w : Workgroup) (asid : Nat) (scr : Bool) (addr n : Nat) : Except CmdStop (State × List Byte) :=
  State.cmdReadBy 0 0 s w asid scr addr n

/-- Writes bytes to global memory or scratchpad; the lease record of the lines written (R186, R267). -/
def State.cmdWrite (s : State) (w : Workgroup) (asid : Nat) (scr : Bool) (addr : Nat) (bs : List Byte) : Except CmdStop (State × W64) :=
  let n := bs.length
  if scr then
    if 2 ^ 22 < addr + n then .error (.code 0x03)
    else
      match s.scratchTarget w (BitVec.ofNat 64 addr) n with
      | none => .error (.code 0x03)
      | some (sp, off) => .ok (s.scratchWrite sp off bs, 0)
  else if 2 ^ 57 < addr + n then .error (.code 0x03)
  else
    match s.engineWriteLr asid addr bs with
    | .error f => .error (stopOf f)
    | .ok r => .ok r

/-- The progress of a command that moves rows. -/
structure Moving where
  s : State
  row : Nat
  off : Nat
  lr : W64
  stop : Option CmdStop

/-- How a mover reads n bytes, and writes bytes: at an address. -/
abbrev Reader := State → Nat → Nat → Except CmdStop (State × List Byte)
abbrev Writer := State → Nat → List Byte → Except CmdStop (State × W64)

/-- Moves one piece of a row, up to the end of its destination line (R187). -/
def Moving.piece (rd : Reader) (wr : Writer) (dst src n : Nat) (m : Moving) : Moving :=
  if m.stop.isSome || n ≤ m.off then m
  else
    let d := dst + m.off
    let k := min (n - m.off) (64 - d % 64)
    match rd m.s (src + m.off) k with
    | .error e => { m with stop := some e }
    | .ok (s, bs) =>
      match wr s d bs with
      | .error e => { m with s := s, stop := some e }
      | .ok (s, lr) => { m with s := s, off := m.off + k, lr := maxT m.lr lr }

/-- Repeats a step. -/
def repeatN {α : Type} (f : α → α) : Nat → α → α
  | 0, x => x
  | n + 1, x => repeatN f n (f x)

/-- Moves row r whose addresses and length `at'` gives; the rows before m.row are moved already. -/
def Moving.move (rd : Reader) (wr : Writer) (at' : State → Nat → Except CmdStop (State × Nat × Nat × Nat)) (m : Moving)
    (r : Nat) : Moving :=
  if m.stop.isSome || r < m.row then m
  else
    match at' m.s r with
    | .error e => { m with stop := some e }
    | .ok (s, dst, src, n) =>
      let m := repeatN (Moving.piece rd wr dst src n) (n / 64 + 2) { m with s := s }
      if m.stop.isSome then m else { m with row := r + 1, off := 0 }

/-- The outcome of a row mover becomes the command's: paused, or performed with its code (R187, R190). -/
def State.endMove (gid slot : Nat) (m : Moving) : State :=
  let s := m.s.modGroup gid (fun g => { g with eh := maxT g.eh m.lr })
  match m.stop with
  | none => s.cmdPerformed gid slot 0 s.latest
  | some .wait => s.modCmd gid slot (fun k => { k with row := m.row, off := m.off })
  | some (.code c) => s.cmdPerformed gid slot c s.latest
  | some (.pause f) => (s.modCmd gid slot (fun k => { k with row := m.row, off := m.off })).cmdPause gid slot f

/-- CPY and CPYW: rows in increasing order (R187). -/
def State.runCopy (s : State) (w : Workgroup) (asid gid slot : Nat) (k : CmdSlot) (x : EForm) : State :=
  let sh := k.c.toNat
  let n := bits sh 15 0
  let rows := if n = 0 then 0 else bits sh 31 16
  let at' (s : State) (r : Nat) : Except CmdStop (State × Nat × Nat × Nat) :=
    .ok (s, k.a.toNat + r * bits sh 63 48, k.b.toNat + r * bits sh 47 32, n)
  let rd : Reader := fun s a n => s.cmdRead w asid (x.cmd.getLsbD 1) a n
  let wr : Writer := fun s a bs => s.cmdWrite w asid (x.cmd.getLsbD 0) a bs
  State.endMove gid slot ((List.range rows).foldl (Moving.move rd wr at') ⟨s, k.row, k.off, 0, none⟩)

/-- Fields of the gather word: row bytes, rows, index bytes (R185). -/
def gatherRow (x : EForm) : Nat := 8 * (x.cmd.toNat % 256 + 1)
def gatherRows (x : EForm) : Nat := let n := bits x.cmd.toNat 19 8; if n = 0 then 4096 else n
def gatherIdx (x : EForm) : Nat := if x.cmd.getLsbD 20 then 8 else 4

/-- GATH and SCAT (R187), which read through the gather cache of the group's core (R161). -/
def State.runGather (s : State) (w : Workgroup) (asid gid slot : Nat) (k : CmdSlot) (x : EForm) (scatter : Bool) : State :=
  let core := (((s.group? gid).bind s.coreOf).orElse (fun _ => w.core)).getD 0
  let n := gatherRow x
  let ib := gatherIdx x
  let csp := x.cmd.getLsbD 21
  let at' (s : State) (r : Nat) : Except CmdStop (State × Nat × Nat × Nat) :=
    match State.cmdReadBy 2 core s w asid (x.cmd.getLsbD 22) (k.c.toNat + r * ib) ib with
    | .error e => .error e
    | .ok (s, bs) =>
      let i := leNat bs
      if scatter then .ok (s, k.a.toNat + i * n, k.b.toNat + r * n, n) else .ok (s, k.a.toNat + r * n, k.b.toNat + i * n, n)
  let rd : Reader := fun s a n => State.cmdReadBy 2 core s w asid (csp && scatter) a n
  let wr : Writer := fun s a bs => s.cmdWrite w asid (csp && !scatter) a bs
  State.endMove gid slot ((List.range (gatherRows x)).foldl (Moving.move rd wr at') ⟨s, k.row, k.off, 0, none⟩)

/-! ### Snapshot commands -/

/-- Field set and step of a view (R156). -/
def viewSet (v : W64) : Nat := bits v.toNat 37 32
def viewStep (v : W64) : W32 := v.setWidth 32

/-- The code that a view ends a snapshot command with before it acts (R229). Where both apply FORMAT comes before NO_FSET (DESIGN
CHOICE, log entry 66). -/
def State.viewCode (s : State) (part : Nat) (v : W64) : Option Byte :=
  if 2 ^ 38 ≤ v.toNat then some 0x0A else if (s.fset? part (viewSet v)).isNone then some 0x04 else none

/-- Tracked pages of a field set. -/
def State.pagesOf (s : State) (part fset : Nat) : List TrackedPage :=
  s.pages.filter (fun p => p.part == part && p.fset == fset)

/-- The cut of PUBLISH (R226): STEP when N is not the writers' step or a retained frame would grow too old. -/
def State.cut (s : State) (part : Nat) (v : W64) : State × Byte :=
  match s.viewCode part v, s.fset? part (viewSet v) with
  | some c, _ => (s, c)
  | none, none => (s, 0x04)
  | none, some f =>
    let n := viewStep v
    if n != f.wstep || (s.pagesOf part f.num).any (fun p =>
        p.frames.any (fun fr => fr.state == .retained && 2 ^ 31 ≤ (n + 1 - fr.base).toNat)) then (s, 0x05)
    else (s.modFset part f.num (fun f => { f with wstep := n + 1 }), 0)

/-- Some page of a set has no live frame for a past step (R228). -/
def State.stepLost (s : State) (f : FieldSet) (n : W32) : Bool :=
  pastStep f.wstep n && (s.pagesOf f.part f.num).any (fun p =>
    match p.coverOf f.wstep n with
    | none => true
    | some fr => fr.state == .released)

/-- VHOLD (R228). -/
def State.vhold (s : State) (part : Nat) (v : W64) : State × Byte :=
  match s.viewCode part v, s.fset? part (viewSet v) with
  | some c, _ => (s, c)
  | none, none => (s, 0x04)
  | none, some f =>
    let n := viewStep v
    if s.stepLost f n then (s, 0x05)
    else
      match f.holds.find? (fun h => h.1 == n) with
      | some h =>
        if h.2 = 65535 then (s, 0x06)
        else (s.modFset part f.num (fun f => { f with holds := f.holds.map (fun h => if h.1 = n then (n, h.2 + 1) else h) }), 0)
      | none => if 16 ≤ f.holds.length then (s, 0x06)
        else (s.modFset part f.num (fun f => { f with holds := f.holds ++ [(n, 1)] }), 0)

/-- Releases the frames of a set that no hold covers (R227). -/
def State.releaseFrames (s : State) (part fset : Nat) : State :=
  match s.fset? part fset with
  | none => s
  | some f => { s with pages := s.pages.map (fun p =>
      if p.part = part ∧ p.fset = fset then { p with frames := p.frames.map (fun fr => fr.settle f) } else p) }

/-- VREL (R228). -/
def State.vrel (s : State) (part : Nat) (v : W64) : State × Byte :=
  match s.viewCode part v, s.fset? part (viewSet v) with
  | some c, _ => (s, c)
  | none, none => (s, 0x04)
  | none, some f =>
    let n := viewStep v
    match f.holds.find? (fun h => h.1 == n) with
    | none => (s, 0x05)
    | some _ =>
      let less (hs : List (W32 × Nat)) : List (W32 × Nat) :=
        (hs.map (fun h => if h.1 = n then (n, h.2 - 1) else h)).filter (fun h => h.2 != 0)
      let s := s.modFset part f.num (fun f => { f with holds := less f.holds })
      (s.releaseFrames part f.num, 0)

/-- A stage-1 leaf maps a guest-physical address. -/
def Pte.mapsGpa (p : Pte) (gpa : Nat) : Bool :=
  pteV p.word && pteLeaf p.word && pteAddr p.word ≤ gpa && gpa < pteAddr p.word + 2 ^ levelShift p.level

/-- Guest-physical pages of a partition whose stage-2 leaf names a frame. -/
def Partition.gpasOf (p : Partition) (hpa : Nat) : List Nat :=
  (p.table.filter (fun e => pteV e.word && pteLeaf e.word && pteAddr e.word == hpa)).map (fun e => e.index * 2 ^ levelShift e.level)

/-- The untracked stage-1 leaves that lead to a frame, as (ASID, level, index) (R231). -/
def State.pinsOf (s : State) (hpa : Nat) : List (Nat × Nat × Nat) :=
  s.parts.flatMap (fun p => (p.gpasOf hpa).flatMap (fun g => (s.asids.filter (fun c => c.part == p.num)).flatMap (fun c =>
    (c.table.filter (fun e => !pteTrk e.word && e.mapsGpa g)).map (fun e => (c.asid, e.level, e.index)))))

/-- A leaf that pins a frame still stands. -/
def State.pinStands (s : State) (p : Nat × Nat × Nat) : Bool :=
  (s.asid? p.1).any (fun c => c.table.any (fun e => e.level == p.2.1 && e.index == p.2.2 && pteV e.word && pteLeaf e.word))

/-- A frame is pinned while an untracked mapping leads to it, or one that led to it when it left its chain still stands
(R231, R477). -/
def State.isPinned (s : State) (hpa : Nat) : Bool :=
  s.pinsOf hpa != [] || s.pinnedFree.any (fun f => f.hpa == hpa && f.pins.any s.pinStands)

/-- A frame returns to its set's pool, at once or when it is unpinned (R227, R231), also where the pool then holds more than the 2^20
frames of R218 (DESIGN CHOICE, log entry 66). -/
def State.freeFrame (s : State) (part fset hpa : Nat) : State :=
  if s.isPinned hpa then { s with pinnedFree := s.pinnedFree ++ [⟨part, some fset, hpa, s.pinsOf hpa⟩] }
  else s.modFset part fset (fun f => { f with pool := f.pool ++ [hpa] })

/-- Copies line i of a page from a released frame to the next newer one (R227): the cached line of the page continues
under the newer frame when the older one served it. A copy that a frame's owner refuses is not made and reaches firmware
(R365). -/
def State.forwardLine (s : State) (p : TrackedPage) (old new : Frame) (i : Nat) : State :=
  if !old.bitmap.getLsbD i || new.bitmap.getLsbD i then s
  else if !(s.ownsFrame p.part old.hpa && s.ownsFrame p.part new.hpa) then s.machineRecord
  else
    let va := p.page * 65536 + i * 64
    let src := old.hpa + i * 64
    let dst := new.hpa + i * 64
    let s := match s.home? p.asid (va / 64) with
      | some h => if h.backing = src then ((s.quietLine p.asid (va / 64)).dirRecall p.asid (va / 64)).writeBackHome p.asid (va / 64) else s
      | none => s
    let gen := s.genOf p.asid
    let s := s.writeHbmLine dst gen (s.hbmLine src gen) 0xFF (s.hbmPoison src)
    match s.home? p.asid (va / 64) with
    | some h => if h.backing = src then s.putHome { h with backing := dst } else s
    | none => s

/-- The first released frame of a chain with the frames before it and after it. -/
def splitReleased : List Frame → Option (List Frame × Frame × List Frame)
  | [] => none
  | f :: rest =>
    if f.state = .released then some ([], f, rest)
    else (splitReleased rest).map (fun r => (f :: r.1, r.2.1, r.2.2))

/-- Fill forward of a page's newest released frame completes, and the frame is freed (R227). -/
def State.fillForward (s : State) (part fset asid page : Nat) : State :=
  match s.pages.find? (fun p => p.part == part && p.fset == fset && p.asid == asid && p.page == page) with
  | none => s
  | some p =>
    match splitReleased p.frames with
    | none => s
    | some (newer, old, older) =>
      match newer.reverse with
      | [] => s
      | n :: _ =>
        let s := (List.range 1024).foldl (fun s i => s.forwardLine p old n i) s
        let newer := newer.dropLast ++ [{ n with bitmap := n.bitmap ||| old.bitmap }]
        (s.modPage asid page (fun p => { p with frames := newer ++ older })).freeFrame part fset old.hpa

/-! ### Issue -/

/-- A new command with its operands (R184). -/
def newCmd (tag : W32) (tick : Nat) (c : Ctx) : CmdSlot :=
  { tag := tag, st := 1, code := 0, freed := 0, tick := tick, pc := c.pc, instr := c.i, a := c.uval 1, b := c.uval 2,
    c := c.uval 3, row := 0, off := 0, fid := none, again := false, depth := none, performed := false, w := 0,
    round := none, deadline := 0, group := none, num := none, told := false, data := none }

/-- A command takes its slot; D receives the tag (R184). -/
def Ctx.submit (c : Ctx) (x : EForm) (writeTag : Bool) : Nat × Nat × W32 × State :=
  let (tick, s) := c.s.newId
  let slot := c.g.nextSlot
  let tag := tagOf slot c.g.cmdSeq
  let s := s.modGroup c.g.gid (fun g =>
    let k := newCmd tag tick c
    let g := { g with
      cmds := if slot < g.cmds.length then modNth g.cmds slot (fun _ => k) else g.cmds ++ [k]
      cmdSeq := g.cmdSeq + 1 }
    if writeTag && x.d != 0x1FF then g.setSreg (x.d.toNat - 0x100) (tag.setWidth 64) else g)
  (tick, slot, tag, s)

/-- The path waits in CWAIT or CPYW; its s destination is pending (R187, R189). -/
def Ctx.cwaits (c : Ctx) (tok : Nat) (tag : Option W32) (d : BitVec 9) (s : State) : State :=
  s.modGroup c.g.gid (fun g =>
    let g := g.modThreads c.act.contains (fun _ t => { t with wait := .cwait tok tag d tok })
    if d = 0x1FF then g else { g with pend := g.pend ++ [⟨tok, d.toNat, 1⟩] })

/-- The status that a CWAIT returns; none while a command that it names has not reached DONE (R189). -/
def Group.cwaitStatus (g : Group) (tag : Option W32) (upto : Nat) : Option W32 :=
  match tag with
  | some t =>
    match g.cmdOf t with
    | some k => if k.st = 3 then some (g.cmdStatus t) else none
    | none => some (g.cmdStatus t)
  | none =>
    if g.cmds.any (fun k => !k.isFree && k.tick < upto) then none else some (cmdWord 3 g.keptCode)

/-- A CWAIT of a group completes (R189). -/
def State.cwaitDone (s : State) (gid tok : Nat) : State :=
  s.modGroup gid (fun g =>
    match g.threads.findSome? (fun t => match t.wait with
        | .cwait k tag d upto => if k = tok && !t.exited then some (tag, d, upto) else none
        | _ => none) with
    | none => g
    | some (tag, d, upto) =>
      match g.cwaitStatus tag upto with
      | none => g
      | some v =>
        let g := if d = 0x1FF then g else g.setSreg (d.toNat - 0x100) (v.setWidth 64)
        let g := if tag.isNone then { g with keptCode := 0, keptTick := 0 } else g
        g.endWait (fun w => match w with
          | .cwait k _ _ _ => k == tok
          | _ => false) tok)

/-- An engine command is issued (R184). -/
def cmdIssue (x : EForm) (c : Ctx) : Except TrapInfo Res :=
  match c.partialIssue with
  | some t => .error t
  | none => .ok { s := (c.submit x true).2.2.2 }

/-- The largest apply TIME and lease record of the writes that any group, the host or a peer has made (R226, R262, R267). -/
def State.written (s : State) : W64 :=
  s.groups.foldl (fun m g => maxT m (maxT g.ch (maxT g.eh g.tw)))
    (s.acks.foldl (fun m a => maxT m a.w) (maxT (maxT s.dmaW s.dmaLr) (maxT s.peerW s.peerLr)))

/-- PUBLISH: until the cut its slot holds the TIME that bounds every write applied by now, whichever of them happens-before
it (R226; log entry 60). -/
def publishIssue (x : EForm) (c : Ctx) : Except TrapInfo Res :=
  match c.partialIssue with
  | some t => .error t
  | none =>
    let (_, slot, _, s) := c.submit x true
    .ok { s := s.modCmd c.g.gid slot (fun k => { k with w := c.s.written }) }

/-- CPYW: the instruction completes at DONE, with the status word in D (R187). -/
def cpywIssue (x : EForm) (c : Ctx) : Except TrapInfo Res :=
  match c.partialIssue with
  | some t => .error t
  | none =>
    let (_, _, tag, s) := c.submit x false
    let (tok, s) := s.newId
    .ok { s := c.cwaits tok (some tag) x.d s }

/-- CWAIT (R189). -/
def cwaitIssue (x : EForm) (c : Ctx) : Except TrapInfo Res :=
  match c.partialIssue with
  | some t => .error t
  | none =>
    let (tok, s) := c.s.newId
    let tag : Option W32 := if c.fieldCode 1 = 0x1FF then none else some ((c.uval 1).setWidth 32)
    .ok { s := (c.cwaits tok tag x.d s).cwaitDone c.g.gid tok }

/-- ESTAT (R189). -/
def estatIssue (x : EForm) (c : Ctx) : Except TrapInfo Res :=
  match c.partialIssue with
  | some t => .error t
  | none =>
    .ok { s := if x.d = 0x1FF then c.s else c.s.modGroup c.g.gid (fun g =>
      g.setSreg (x.d.toNat - 0x100) ((c.g.cmdStatus ((c.uval 1).setWidth 32)).setWidth 64)) }

/-- An earlier command of the group's path has not made its effects yet (R184). -/
def Group.pathBusy (g : Group) (k : CmdSlot) : Bool :=
  g.cmds.any (fun j => !j.isFree && !j.performed && j.tick < k.tick && Instr.enginePath j.instr == Instr.enginePath k.instr)

/-- A command may act now: not paused, its effects not made, first on its path (R184, R190). -/
def Group.cmdActive (g : Group) (k : CmdSlot) : Bool := !k.isFree && !k.performed && k.fid.isNone && !g.pathBusy k

/-- The drain of a PUBLISH is over: the group's earlier stores, and those of every group that had been applied at its issue,
have completed at package scope (R226; log entry 60). -/
def State.drained (s : State) (g : Group) (k : CmdSlot) : Bool :=
  s.writesDone g k.tick 4 && s.past g k.w && s.acks.all (fun a => a.system || k.tick ≤ a.op)

/-- PUBLISH waits for its drain; then the cut is made (R226). -/
def State.publishCut (s : State) (gid slot : Nat) : State :=
  match s.group? gid, s.cmd? gid slot with
  | some g, some k =>
    match (s.wg? g.wid).bind (fun w => s.launch? w.lid), k.instr with
    | some la, .publish _ =>
      if !(s.resident gid && g.cmdActive k) then s
      else if (s.viewCode la.part k.a).isNone && !s.drained g k then s
      else
        let (s, code) := s.cut la.part k.a
        s.cmdPerformed gid slot code 0
    | _, _ => s
  | _, _ => s

/-- Rows that a HALO which ended with RANGE or OWNERSHIP sent before are not acknowledged, and its timeout has not passed
(R186, R465). -/
def State.sendsOpen (s : State) (g : Group) (slot : Nat) (k : CmdSlot) : Bool :=
  (k.code == 2 || k.code == 3) && k.round.isSome && s.time (s.groupDie g) < k.deadline
    && s.sends.any (fun e => e.gid == g.gid && e.slot == slot && k.round == some e.round)

/-- A command whose effects are made reaches DONE once its writes have completed (R186, R267). -/
def State.cmdLands (s : State) (gid slot : Nat) : State :=
  match s.group? gid, s.cmd? gid slot with
  | some g, some k => if k.performed && !k.isFree && s.past g k.w && !s.sendsOpen g slot k then s.cmdDone gid slot else s
  | _, _ => s

/-! ### Meanings -/

/-- CPY (R187). -/
def execCpy (x : EForm) (s : State) : Host.Outcome State Fault Refusal := done s (issueWord (.cpy x) (cmdIssue x) s)
/-- CPYW (R187). -/
def execCpyw (x : EForm) (s : State) : Host.Outcome State Fault Refusal := done s (issueWord (.cpyw x) (cpywIssue x) s)
/-- GATH (R187). -/
def execGath (x : EForm) (s : State) : Host.Outcome State Fault Refusal := done s (issueWord (.gath x) (cmdIssue x) s)
/-- SCAT (R187). -/
def execScat (x : EForm) (s : State) : Host.Outcome State Fault Refusal := done s (issueWord (.scat x) (cmdIssue x) s)
/-- PUBLISH (R226). -/
def execPublish (x : EForm) (s : State) : Host.Outcome State Fault Refusal :=
  done s (issueWord (.publish x) (publishIssue x) s)
/-- VHOLD (R228). -/
def execVhold (x : EForm) (s : State) : Host.Outcome State Fault Refusal := done s (issueWord (.vhold x) (cmdIssue x) s)
/-- VREL (R228). -/
def execVrel (x : EForm) (s : State) : Host.Outcome State Fault Refusal := done s (issueWord (.vrel x) (cmdIssue x) s)
/-- CWAIT (R189). -/
def execCwait (x : EForm) (s : State) : Host.Outcome State Fault Refusal := done s (issueWord (.cwait x) (cwaitIssue x) s)
/-- ESTAT (R189). -/
def execEstat (x : EForm) (s : State) : Host.Outcome State Fault Refusal := done s (issueWord (.estat x) (estatIssue x) s)
/-- PUBLISH_CUT (R226). -/
def execPublishCut (gid slot : Nat) (s : State) : Host.Outcome State Fault Refusal := done s (s.publishCut gid slot)
/-- FILL_FORWARD_COMPLETE (R227). -/
def execFillForwardComplete (part fset asid page : Nat) (s : State) : Host.Outcome State Fault Refusal :=
  done s (s.fillForward part fset asid page)
/-- CWAIT_COMPLETE (R189). -/
def execCwaitComplete (gid tok : Nat) (s : State) : Host.Outcome State Fault Refusal := done s (s.cwaitDone gid tok)

end Sys2Proof.Machine
end

