-- ==== Sys2Proof/Machine/Collective.lean ====
section
/-! DEFINITION. Collective groups, rounds, MLDRED, COLL and HALO, the completion of engine commands, and requests across
UALink (R188, R452 to R467). -/

namespace Sys2Proof.Machine

/-- A message leaves the package over UALink. Kinds: 0x200 arrival, 0x201 closure, 0x202 announcement, 0x203 report of an
acknowledged send, 0x204 response, 0x205 refusal. It begins with the tag: the own station id and the partition (R459). -/
def State.sendLink (s : State) (part kind : Nat) (body : List Byte) : State :=
  { s with mgmt := s.mgmt ++ [⟨kind, natBytes 2 Config.stationId.toNat ++ natBytes 1 part ++ body⟩] }

/-- Some port is up: traffic of other packages arrives (R467). -/
def State.linked (s : State) : Bool := s.portUp != 0

/-! ### Folding -/

/-- Format and T code of an element code (R185): F64, F32, F16, BF16, SI32, UI32. -/
def collFmt (e : Nat) : FFmt :=
  match e with
  | 0 => fp64
  | 1 => fp32
  | 2 => fp16
  | _ => bf16

/-- Accumulator format of an element and accumulator code (R185). -/
def collAcc (e acc : Nat) : FFmt :=
  match acc with
  | 0 => collFmt e
  | 1 => fp32
  | _ => fp64

/-- Bytes of an accumulator value (R185). -/
def collAccBytes (e acc : Nat) : Nat := if 4 ≤ e then 4 else (collAcc e acc).width / 8

/-- An element converted to the accumulator format (R188). -/
def collConv (e acc x : Nat) : Nat :=
  if 4 ≤ e then x % 2 ^ 32 else ((collAcc e acc).round 0 false ((collFmt e).unpack x)).1

/-- One fold of an element into an accumulator value (R185, R188). -/
def collFold (e acc red : Nat) (r x : Nat) : Nat :=
  if 4 ≤ e then
    let z (v : Nat) : Int := if e = 4 then sext 32 v else (v % 2 ^ 32 : Nat)
    match red with
    | 0 => (r + x) % 2 ^ 32
    | 1 => intMod 32 (min (z r) (z x))
    | _ => intMod 32 (max (z r) (z x))
  else
    let f := collAcc e acc
    match red with
    | 0 => (f.round 0 false (sumProducts 0 [] [f.unpack r, (collFmt e).unpack x]).1).1
    | 1 => (f.minMax false true r (collConv e acc x)).1
    | _ => (f.minMax true true r (collConv e acc x)).1

/-- Element i of each member's bytes, folded in rank order (R188). -/
def foldElem (e acc red : Nat) (lines : List (List Byte)) (i : Nat) : Nat :=
  let b := collElemBytes e
  match lines.map (fun l => fieldAt l (b * i) b) with
  | [] => 0
  | x :: rest => rest.foldl (collFold e acc red) (collConv e acc x)

/-- n folded accumulator values, packed (R188). -/
def foldBytes (e acc red n : Nat) (lines : List (List Byte)) : List Byte :=
  (List.range n).flatMap (fun i => natBytes (collAccBytes e acc) (foldElem e acc red lines i))

/-! ### Rounds -/

/-- The round of a number. -/
def State.round? (s : State) (part group kind : Nat) (off : W64) (num : Nat) : Option Round :=
  s.rounds.find? (fun r => r.part == part && r.group == group && r.kind == kind && r.off == off && r.num == num)

/-- Changes a round, made anew when nothing was known of it. -/
def State.modRound (s : State) (part group kind : Nat) (off : W64) (num : Nat) (f : Round → Round) : State :=
  match s.round? part group kind off num with
  | some r => { s with rounds := s.rounds.map (fun x => if x = r then f r else x) }
  | none => { s with rounds := s.rounds ++ [f ⟨part, group, kind, off, num, [], false, false, false, false, false, false, [], []⟩] }

/-- Replaces a collective group by f of it. -/
def State.modColl (s : State) (part group : Nat) (f : CollGroup → CollGroup) : State :=
  { s with colls := s.colls.map (fun c => if c.part = part ∧ c.group = group then { f c with part := part, group := group } else c) }

/-- The arrival of a rank in a round. -/
def Round.from? (r : Round) (rank : Nat) : Option ArrivalMsg := r.arrivals.find? (fun a => a.rank == rank)

/-- Every member's arrival is known (R453). -/
def Round.full (r : Round) (c : CollGroup) : Bool := (List.range c.members).all (fun q => (r.from? q).isSome)

/-- A row of a HALO of the round is not acknowledged. -/
def State.unacked (s : State) (r : Round) : Bool :=
  s.sends.any (fun e => e.part == r.part && e.group == r.group && e.round == r.num)

/-- What a HALO waits for: every own send made and acknowledged, and each listed neighbour arrived and, where it has a send
to this member, reported (R466). -/
def State.haloOk (s : State) (r : Round) (c : CollGroup) (lists : List Nat) : Bool :=
  r.sent && r.refusedAcks.isEmpty && !s.unacked r && lists.all (fun q =>
    match r.from? q with
    | some a => !a.sends.contains c.rank || r.reported.contains q
    | none => false)

/-- The condition under which the round of an own arrival completes with OK. -/
def State.roundComplete (s : State) (r : Round) (c : CollGroup) : Bool :=
  !r.dead && match r.from? c.rank with
  | none => false
  | some a => if r.kind = 2 then s.haloOk r c a.lists else r.full c

/-- Records a member's arrival, once (R453). -/
def State.noteArrival (s : State) (a : ArrivalMsg) : State :=
  s.modRound a.part a.group a.kind a.off a.round (fun r =>
    if (r.from? a.rank).isSome then r else { r with arrivals := r.arrivals ++ [a] })

/-- A closure of a round reaches the member: it counts at the end of the cycle, for a round that had not completed (R454,
R458). -/
def State.closeRound (s : State) (part group kind num : Nat) (off : W64) : State :=
  s.modRound part group kind off num (fun r => if r.ok || r.closed then r else { r with closing := true })

/-- A round at the end of a cycle: a closure counts before the last arrival, and that before the own timeout (R454,
R458). -/
def State.settleRound (s : State) (r : Round) : Round :=
  if r.ok || r.closed then r
  else if r.closing then { r with closed := true }
  else if (s.coll? r.part r.group).any (s.roundComplete r) then { r with ok := true }
  else if r.expired then { r with closed := true }
  else r

/-- The end of a cycle for every round; a member that closes a round on its own timeout tells every member (R454, R458). -/
def State.settleRounds (s : State) : State :=
  (s.rounds.filter (fun r => r.expired && !r.closing && !r.closed && (s.settleRound r).closed)).foldl
    (fun s r => s.sendLink r.part 0x201 (natBytes 2 r.group ++ natBytes 1 r.kind ++ natBytes 8 r.off.toNat ++ natBytes 4 r.num))
    { s with rounds := s.rounds.map s.settleRound }

/-- Rounds of a kind and offset that the member has counted (R453). -/
def CollGroup.count (c : CollGroup) (kind : Nat) (off : W64) : Nat :=
  match c.issued.find? (fun e => e.1 == kind && e.2.1 == off) with
  | some e => e.2.2
  | none => 0

/-- The fields of a command's group on its partition. -/
structure CollCtx where
  g : Group
  w : Workgroup
  la : Launch
  c : CollGroup
  gid : Nat
  slot : Nat
  k : CmdSlot

/-- The group that a collective command names; a HALO's header must have been read (R185, R465). -/
def CmdSlot.collGroup (k : CmdSlot) : Option Nat :=
  match k.instr with
  | .mldred _ => some (k.c.toNat % 65536)
  | .coll _ => some (k.c.toNat % 65536)
  | _ => k.group

/-- The round kind and offset of a collective command (R453, R464, R466). -/
def CmdSlot.collKey (k : CmdSlot) : Nat × W64 :=
  match k.instr with
  | .mldred _ => (0, k.b)
  | .coll _ => (1, 0)
  | _ => (2, 0)

/-- A command takes the number of its round, once (R453): the next of its group, kind and offset. -/
def State.collNumber (s : State) (x : CollCtx) : State × Nat :=
  match x.k.num with
  | some n => (s, n)
  | none =>
    let (kind, off) := x.k.collKey
    let num := x.c.count kind off + 1
    let s := s.modColl x.c.part x.c.group (fun c => { c with
      issued := (kind, off, num) :: c.issued.filter (fun e => !(e.1 == kind && e.2.1 == off)) })
    (s.modCmd x.gid x.slot (fun k => { k with num := some num }), num)

/-- A command's arrival is sent to the members once the stores that its group made before it have completed at system scope:
no member reads for it before (R453). -/
def State.collTell (s : State) (x : CollCtx) (a : ArrivalMsg) : State :=
  if !s.writesDone x.g x.k.tick 5 then s
  else
    (s.sendLink a.part 0x200 (natBytes 2 a.group ++ natBytes 1 a.kind ++ natBytes 8 a.off.toNat ++ natBytes 4 a.round
      ++ natBytes 2 a.rank ++ natBytes 3 a.cmd.toNat ++ natBytes 4 a.count.toNat ++ natBytes 2 a.root.toNat)).modCmd x.gid x.slot
      (fun k => { k with told := true })

/-- A command arrives in its round (R453, R464, R466). -/
def State.collArrive (s : State) (x : CollCtx) (cmd : BitVec 24) (count : W32) (root : BitVec 16) (lists sends : List Nat) : State :=
  let (kind, off) := x.k.collKey
  let (s, num) := s.collNumber x
  let a : ArrivalMsg := ⟨x.c.part, x.c.group, kind, off, num, x.c.rank, cmd, count, root, [], false, false, lists, sends⟩
  ((s.noteArrival a).modCmd x.gid x.slot (fun k => { k with
    round := some num
    deadline := s.time (s.groupDie x.g) + BitVec.ofNat 64 (x.c.timeoutMs * 1000000) })).collTell x a

/-! ### Descriptors -/

/-- A COLL descriptor (R463). -/
structure CollDesc where
  src : Nat
  dst : Nat
  count : Nat
  root : Nat

/-- A COLL descriptor of n members that keeps the layout; none when it breaks it (R463). -/
def collDesc (x : EForm) (n : Nat) (bs : List Byte) : Option CollDesc :=
  let op := x.cmd.toNat % 8
  let e := bits x.cmd.toNat 6 3
  let acc := bits x.cmd.toNat 8 7
  let d : CollDesc := ⟨fieldAt bs 0 8, fieldAt bs 8 8, fieldAt bs 0x10 4, fieldAt bs 0x14 2⟩
  if d.src % collElemBytes e != 0 || d.dst % collAccBytes e acc != 0 || d.count = 0 || 2 ^ 26 < d.count
      || fieldAt bs 0x16 42 != 0 || (op != 3 && d.root != 0) || (op == 3 && n ≤ d.root)
      || (op == 1 && d.count % n != 0) then none
  else some d

/-- An entry of a HALO descriptor (R465). -/
structure HaloEnt where
  rank : Nat
  srcv : Nat
  doff : Nat
  shape : Nat

/-- The entries of a HALO descriptor's bytes after the header. -/
def haloEnts (bs : List Byte) (n : Nat) : List HaloEnt :=
  (List.range n).map (fun e => ⟨fieldAt bs (32 * e) 2, fieldAt bs (32 * e + 8) 8, fieldAt bs (32 * e + 16) 8, fieldAt bs (32 * e + 24) 8⟩)

/-- The entries keep the layout (R465). -/
def haloOkEnts (own : Nat) (bs : List Byte) (es : List HaloEnt) : Bool :=
  es.all (fun e => e.rank != own) && (es.map (·.rank)).eraseDups.length == es.length
    && (List.range es.length).all (fun e => fieldAt bs (32 * e + 2) 6 == 0)

/-! ### Starting a collective command -/

/-- Whether an engine opcode is a collective one (R161). -/
def Instr.isColl (i : Instr) : Bool := Instr.enginePath i == some 6

/-- A stop while a command starts. -/
def State.cmdStopped (s : State) (gid slot : Nat) : CmdStop → State
  | .wait => s
  | .code c => s.cmdPerformed gid slot c 0
  | .pause f => s.cmdPause gid slot f

/-- The group of a collective command that has the right to arrive: NO_GROUP or FORMAT otherwise (R186, R462). -/
def State.collFor (s : State) (part group : Nat) : Except CmdStop CollGroup :=
  match s.coll? part group with
  | none => .error (.code 0x07)
  | some c => if c.conflicted then .error (.code 0x0A) else .ok c

/-- An earlier HALO of the group is paused before its header names a group, so that the round of this one is not known. -/
def Group.startBusy (g : Group) (k : CmdSlot) : Bool :=
  k.collKey.1 == 2 && g.cmds.any (fun j =>
    !j.isFree && !j.performed && j.tick < k.tick && Instr.isColl j.instr && j.collGroup.isNone)

/-- A stop of a command that names its group: one that pauses keeps its place among the rounds (R453, log entry 69). -/
def State.collStopped (s : State) (x : CollCtx) : CmdStop → State
  | .pause f => ((s.collNumber x).1).cmdPause x.gid x.slot f
  | e => s.cmdStopped x.gid x.slot e

/-- Ranks of the neighbours that a HALO has a send to (R465). -/
def haloTo (es : List HaloEnt) : List Nat :=
  (es.filter (fun e => bits e.shape 15 0 != 0 && bits e.shape 31 16 != 0)).map (·.rank)

/-- A collective command reads its descriptor and arrives (R453, R462 to R466). -/
def State.collStart (s : State) (gid slot : Nat) : State :=
  match s.group? gid, s.cmd? gid slot with
  | some g, some k =>
    match s.wg? g.wid, (s.wg? g.wid).bind (fun w => s.launch? w.lid) with
    | some w, some la =>
      if k.isFree || k.performed || k.fid.isSome || k.round.isSome || g.startBusy k then s
      else
        let asid := g.asid.toNat
        let stop (e : CmdStop) : State := s.cmdStopped gid slot e
        (match k.instr with
          | .mldred x =>
            (match s.collFor la.part (k.c.toNat % 65536) with
              | .error e => stop e
              | .ok c =>
                if k.a.toNat % 64 != 0 || k.b.toNat % 64 != 0 then stop (.code 0x0A)
                else s.collArrive ⟨g, w, la, c, gid, slot, k⟩ x.cmd 0 0 [] [])
          | .coll x =>
            (match s.collFor la.part (k.c.toNat % 65536) with
              | .error e => stop e
              | .ok c =>
                if k.a.toNat % 64 != 0 then stop (.code 0x0A)
                else
                  match s.cmdRead w asid false k.a.toNat 64 with
                  | .error e => s.collStopped ⟨g, w, la, c, gid, slot, k⟩ e
                  | .ok (s', bs) =>
                    match collDesc x c.members bs with
                    | none => stop (.code 0x0A)
                    | some d => s'.collArrive ⟨g, w, la, c, gid, slot, k⟩ x.cmd (BitVec.ofNat 32 d.count) (BitVec.ofNat 16 d.root) [] [])
          | .halo _ =>
            if k.a.toNat % 64 != 0 then stop (.code 0x0A)
            else
              (match s.cmdRead w asid false k.a.toNat 64 with
                | .error e => stop e
                | .ok (s', hd) =>
                  let nn := fieldAt hd 2 1
                  if nn = 0 || 26 < nn || fieldAt hd 3 61 != 0 then stop (.code 0x0A)
                  else
                    match s.collFor la.part (fieldAt hd 0 2) with
                    | .error e => stop e
                    | .ok c =>
                      let k : CmdSlot := { k with group := some c.group }
                      let x : CollCtx := ⟨g, w, la, c, gid, slot, k⟩
                      let s' := s'.modCmd gid slot (fun k => { k with group := some c.group })
                      match s'.cmdRead w asid false (k.a.toNat + 64) (32 * nn) with
                      | .error e => s'.collStopped x e
                      | .ok (s', bs) =>
                        let es := haloEnts bs nn
                        if !haloOkEnts c.rank bs es then stop (.code 0x0A)
                        else s'.collArrive x 0 0 0 (es.map (·.rank)) (haloTo es))
          | _ => s)
    | _, _ => s
  | _, _ => s

/-! ### Performing a collective command -/

/-- Bytes of a member's own window at an offset, as R461 serves them (R453). -/
def State.ownWindow (s : State) (c : CollGroup) (off n : Nat) : Except CmdStop (List Byte) :=
  if c.wlen < off + n then .error (.code 0x03)
  else
    match s.engineReadAll c.wasid (c.wbase + off) n with
    | .error _ => .error (.code 0x02)
    | .ok (_, bs, bad) => if bad then .error (.code 0x09) else .ok bs

/-- The bytes read from the members that `needs` names, in rank order; a member that cannot be read ends the command
(R453). -/
def membersBytes (c : CollGroup) (r : Round) (needs : Nat → Bool) (own : Except CmdStop (List Byte)) :
    Except CmdStop (List (List Byte)) :=
  (List.range c.members).foldl (fun l q =>
    match l with
    | .error e => .error e
    | .ok ls =>
      if !needs q then .ok (ls ++ [[]])
      else if q = c.rank then own.map (fun b => ls ++ [b])
      else
        match r.from? q with
        | none => .error (.code 0x01)
        | some a => if a.beyond then .error (.code 0x03) else if a.refuses then .error (.code 0x02) else .ok (ls ++ [a.data]))
    (.ok [])

/-- Writes a result at a destination, piece by piece from where the command stands (R463). -/
def State.putResult (s : State) (x : CollCtx) (dst : Nat) (bs : List Byte) : State :=
  let rd : Reader := fun s a n => .ok (s, (bs.drop a).take n)
  let wr : Writer := fun s a b => s.cmdWrite x.w x.g.asid.toNat false a b
  let at' (s : State) (_ : Nat) : Except CmdStop (State × Nat × Nat × Nat) := .ok (s, dst, 0, bs.length)
  State.endMove x.gid x.slot (Moving.move rd wr at' ⟨s, x.k.row, x.k.off, 0, none⟩ 0)

/-- The first writing of a result, which the command keeps: it is read and folded once (R453). -/
def State.keepResult (s : State) (x : CollCtx) (dst : Nat) (bs : List Byte) : State :=
  (s.modCmd x.gid x.slot (fun k => { k with data := some (dst, bs) })).putResult x dst bs

/-- MLDRED folds and writes (R188, R453). -/
def State.runMldred (s : State) (x : CollCtx) (r : Round) (f : EForm) : State :=
  let cmd := f.cmd.toNat
  let e := cmd % 16
  match membersBytes x.c r (fun _ => true) (s.ownWindow x.c x.k.b.toNat 64) with
  | .error e => s.cmdStopped x.gid x.slot e
  | .ok ls => s.keepResult x x.k.a.toNat (foldBytes e (bits cmd 5 4) (bits cmd 7 6) (64 / collElemBytes e) ls)

/-- The elements of an operation that the member reads from its own source: first element and number (R463). -/
def collSlice (op members rank : Nat) (d : CollDesc) : Nat × Nat :=
  if op = 1 then (rank * (d.count / members), d.count / members) else (0, d.count)

/-- COLL: every member announced the same operation; then the operation of R463 (R464). -/
def State.runColl (s : State) (x : CollCtx) (r : Round) (f : EForm) : State :=
  let cmd := f.cmd.toNat
  let op := cmd % 8
  let e := bits cmd 6 3
  let acc := bits cmd 8 7
  let red := bits cmd 10 9
  let asid := x.g.asid.toNat
  match s.cmdRead x.w asid false x.k.a.toNat 64 with
  | .error e => s.cmdStopped x.gid x.slot e
  | .ok (s, bs) =>
    match collDesc f x.c.members bs, r.from? x.c.rank with
    | some d, some me =>
      if r.arrivals.any (fun a => a.cmd != me.cmd || a.count != me.count || a.root != me.root) then
        s.cmdPerformed x.gid x.slot 0x0A 0
      else
        let b := collElemBytes e
        let (first, n) := collSlice op x.c.members x.c.rank d
        let needs (q : Nat) : Bool := op != 3 || q == d.root
        match if needs x.c.rank then s.cmdRead x.w asid false (d.src + b * first) (b * n) else .ok (s, []) with
        | .error e => s.cmdStopped x.gid x.slot e
        | .ok (s, own) =>
          match membersBytes x.c r needs (.ok own) with
          | .error e => s.cmdStopped x.gid x.slot e
          | .ok ls =>
            match op with
            | 2 => s.keepResult x d.dst (ls.flatMap (fun l => (List.range n).flatMap (fun i => natBytes b (fieldAt l (b * i) b))))
            | 3 => s.keepResult x d.dst ((List.range n).flatMap (fun i => natBytes b (fieldAt ((ls[d.root]?).getD []) (b * i) b)))
            | _ => s.keepResult x d.dst (foldBytes e acc red n ls)
    | _, _ => s.cmdPerformed x.gid x.slot 0x0A 0

/-- A row that a HALO sends: rank, address of the rank's window, source address, offset in the window, bytes. -/
structure HaloRow where
  rank : Nat
  base : Nat
  src : Nat
  off : Nat
  n : Nat

/-- The rows that a HALO sends, in order (R465). -/
def haloRows (key : Nat) (es : List HaloEnt) : List HaloRow :=
  es.flatMap (fun e =>
    let n := bits e.shape 15 0
    (List.range (if n = 0 then 0 else bits e.shape 31 16)).map (fun r =>
      ⟨e.rank, key * 2 ^ 49 + e.rank * 2 ^ 39, e.srcv + r * bits e.shape 47 32, e.doff + r * bits e.shape 63 48, n⟩))

/-- The port of the collective engines to a rank of a group for a line of its window (R460). -/
def CollGroup.enginePort (c : CollGroup) (rank line : Nat) : Nat :=
  Config.enginePort (((c.announced.find? (fun a => a.rank == rank)).map (·.station)).getD 0) line % 16

/-- HALO's sends (R465): RANGE beyond a neighbour's window, OWNERSHIP where the group names no such neighbour. A row leaves by
its port, and waits while that is down (R460, R467). -/
def State.haloSends (s : State) (x : CollCtx) (es : List HaloEnt) : Moving :=
  let key := peerKey x.c.part x.c.group
  (haloRows key es).zipIdx.foldl (fun m p =>
    let h := p.1
    let rd : Reader := fun s a n => s.cmdRead x.w x.g.asid.toNat false a n
    let wr : Writer := fun s a bs =>
      let port := x.c.enginePort h.rank (a / 64)
      if !x.c.formed || x.c.members ≤ h.rank then .error (.code 0x02)
      else if s.peerWindow key h.rank < a - h.base + bs.length then .error (.code 0x03)
      else if !s.portUp.getLsbD port then .error .wait
      else .ok ({ s with sends := s.sends ++ [⟨x.c.part, x.c.group, x.k.round.getD 0, h.rank, x.gid, x.slot, port, a, bs⟩] }, 0)
    Moving.move rd wr (fun s _ => .ok (s, h.base + h.off, h.src, h.n)) m p.2) ⟨s, x.k.row, x.k.off, 0, none⟩

/-- HALO: its sends, then the wait of R466. What the neighbours wrote into this package has completed, with every lease of
its lines, before DONE: later reads see it (R267, R466). -/
def State.runHalo (s : State) (x : CollCtx) (r : Round) : State :=
  if r.sent then
    if r.closed then s.cmdPerformed x.gid x.slot 0x01 0
    else if !r.refusedAcks.isEmpty then s.cmdPerformed x.gid x.slot 0x02 0
    else if r.ok && x.k.told then s.cmdPerformed x.gid x.slot 0 (maxT s.peerW s.peerLr)
    else s
  else
    let n := ((r.from? x.c.rank).map (fun a => a.lists.length)).getD 0
    match s.cmdRead x.w x.g.asid.toNat false (x.k.a.toNat + 64) (32 * n) with
    | .error e => s.cmdStopped x.gid x.slot e
    | .ok (s, bs) =>
      let m := s.haloSends x (haloEnts bs n)
      match m.stop with
      | none => m.s.modRound r.part r.group r.kind r.off r.num (fun r => { r with sent := true })
      | some .wait => if r.closed then m.s.cmdPerformed x.gid x.slot 0x01 0 else State.endMove x.gid x.slot m
      | some _ => State.endMove x.gid x.slot m

/-- A collective command acts: a closed round ends it, a full one completes it (R453, R454, R464, R466). -/
def State.runCollective (s : State) (x : CollCtx) (r : Round) : State :=
  let free := !x.g.pathBusy x.k
  match x.k.data with
  | some d => if free then s.putResult x d.1 d.2 else s
  | none =>
  if x.c.conflicted then s.cmdPerformed x.gid x.slot 0x0A 0
  else match x.k.instr with
  | .halo _ => if free || r.sent then s.runHalo x r else s
  | i =>
    if r.closed then s.cmdPerformed x.gid x.slot 0x01 0
    else if !r.ok || !free || !x.k.told then s
    else
      match i with
      | .mldred f => s.runMldred x r f
      | .coll f => s.runColl x r f
      | _ => s

/-! ### ENGINE_COMMAND_DONE -/

/-- A command goes on as far as it may, and reaches DONE once its writes have completed (R184, R186, R187, R190). -/
def State.runCommand (s : State) (gid slot : Nat) : State :=
  match s.group? gid, s.cmd? gid slot with
  | some g, some k =>
    match s.wg? g.wid, (s.wg? g.wid).bind (fun w => s.launch? w.lid) with
    | some w, some la =>
      let asid := g.asid.toNat
      if k.isFree then s
      else if k.performed then s.cmdLands gid slot
      else if s.shutIn asid then s
      else if k.fid.isSome then (if s.depthOver asid k then s.cmdResume gid slot else s)
      else if Instr.isColl k.instr then
        match k.round with
        | none => s.collStart gid slot
        | some num =>
          let group := k.collGroup.getD 0
          match s.coll? la.part group, s.round? la.part group k.collKey.1 k.collKey.2 num with
          | some c, some r =>
            let x : CollCtx := ⟨g, w, la, c, gid, slot, k⟩
            (match if k.told then none else (r.from? c.rank).map (s.collTell x) with
              | some s' => if s' = s then (if s.shutIn c.wasid then s else s.runCollective x r) else s'
              | none => if s.shutIn c.wasid then s else s.runCollective x r)
          | _, _ => s.cmdPerformed gid slot 0x07 0
      else if !(s.resident gid && g.cmdActive k) then s
      else
        match k.instr with
        | .cpy x => s.runCopy w asid gid slot k x
        | .cpyw x => s.runCopy w asid gid slot k x
        | .gath x => s.runGather w asid gid slot k x false
        | .scat x => s.runGather w asid gid slot k x true
        | .vhold _ => let (s, c) := s.vhold la.part k.a; s.cmdPerformed gid slot c 0
        | .vrel _ => let (s, c) := s.vrel la.part k.a; s.cmdPerformed gid slot c 0
        | _ => s
    | _, _ => s
  | _, _ => s

/-- MLDRED, COLL and HALO arrive at issue (R453). -/
def collIssue (x : EForm) (c : Ctx) : Except TrapInfo Res :=
  match c.partialIssue with
  | some t => .error t
  | none =>
    let (_, slot, _, s) := c.submit x true
    .ok { s := s.collStart c.g.gid slot }

/-! ### Announcements, closures, peers -/

/-- A member hears an announcement: a rank that it knows already, or another member count, conflicts the group until that
member leaves (R462). -/
def CollGroup.hear (c : CollGroup) (a : Announced) : CollGroup :=
  let bad : Bool := a.members != c.members || c.announced.any (fun x => x.rank == a.rank)
  { c with announced := c.announced ++ [{ a with conflicts := bad }], conflicted := c.conflicted || bad }

/-- An announcement is the leaving member's. -/
def Announced.leaves (x a : Announced) : Bool := x.station == a.station && x.rank == a.rank && x.members == a.members

/-- A member leaves: its announcement goes (R462, R467). -/
def CollGroup.unhear (c : CollGroup) (a : Announced) : CollGroup :=
  let l := c.announced.eraseP (·.leaves a)
  { c with announced := l, conflicted := l.any (·.conflicts) }

/-- A station announces that a rank joins or leaves (R462). The rounds in progress when a member leaves end by timeout
(R467). -/
def State.announced (s : State) (part group : Nat) (a : Announced) (leave : Bool) : State :=
  if !s.linked then s
  else if leave then
    ({ s with
      heard := s.heard.eraseP (fun h => h.1 == part && h.2.1 == group && h.2.2.leaves a)
      rounds := s.rounds.map (fun r => if r.part = part ∧ r.group = group ∧ !r.ok ∧ !r.closed then { r with dead := true } else r) } : State).modColl
      part group (fun c => c.unhear a)
  else ({ s with heard := s.heard ++ [(part, group, a)] } : State).modColl part group (fun c => c.hear a)

/-- A member's own timeout expires: at the end of the cycle it closes a round that is not complete (R454, R458). -/
def State.roundTimeout (s : State) (part group kind num : Nat) (off : W64) : State :=
  let late (g : Group) (k : CmdSlot) : Bool :=
    !k.isFree && !k.performed && k.round == some num && k.deadline ≤ s.time (s.groupDie g)
      && s.partOfGroup g == some part && k.collGroup == some group && k.collKey == (kind, off)
  if s.groups.any (fun g => g.cmds.any (late g)) then
    s.modRound part group kind off num (fun r => if r.ok || r.closed then r else { r with expired := true })
  else s

/-- The rows that a HALO has sent to a rank. -/
def PeerSend.goesTo (e : PeerSend) (part group num rank : Nat) : Bool :=
  e.part == part && e.group == group && e.round == num && e.rank == rank

/-- Rows are refused: they perform nothing (R461). -/
def State.sendsRefused (s : State) (gone : PeerSend → Bool) : State :=
  (s.sends.filter gone).foldl (fun s e => s.modRound e.part e.group 2 0 e.round (fun r =>
    { r with refusedAcks := e.rank :: r.refusedAcks.filter (· != e.rank) })) { s with sends := s.sends.filter (fun e => !gone e) }

/-- A neighbour's memory answers the rows sent to it: they land in its window, and it is told so, or it refuses them (R461,
R466). -/
def State.sendAcked (s : State) (part group num rank : Nat) (refused : Bool) : State :=
  let mine (e : PeerSend) : Bool := e.goesTo part group num rank
  if !s.linked || !s.sends.any mine then s
  else if refused || s.peerRefuse.contains (peerKey part group, rank) then s.sendsRefused mine
  else
    ({ s with
      peerMem := (s.sends.filter mine).foldl (fun m e => m.setBytes e.addr e.data) s.peerMem
      sends := s.sends.filter (fun e => !mine e) } : State).sendLink part 0x203 (natBytes 2 group ++ natBytes 4 num ++ natBytes 2 rank)

/-- A neighbour reports its sends to this member as acknowledged (R466). -/
def State.haloReported (s : State) (part group num rank : Nat) : State :=
  if !s.linked then s else s.modRound part group 2 0 num (fun r => { r with reported := rank :: r.reported.filter (· != rank) })

/-- A peer writes bytes into this package: when, and the lease records of the lines, are kept (R161, R267). -/
def State.peerStore (s : State) (asid va : Nat) (bs : List Byte) : Except LaneFault State :=
  (s.engineWriteLr asid va bs).map (fun r => { r.1 with peerW := maxT r.1.peerW r.1.latest, peerLr := maxT r.1.peerLr r.2 })

/-- What a peer's request does at its address, with the bytes of the answer; none where it is refused (R461). -/
def State.peerPerform (s : State) (asid va : Nat) (op : PeerOp) : Option (State × List Byte) :=
  let rmw (n : Nat) (f : Nat → Nat) : Option (State × List Byte) :=
    match s.resolve asid va .write, s.engineReadAll asid va n with
    | .ok _, .ok (s, old, false) =>
      (match s.peerStore asid va (natBytes n (f (leNat old))) with
        | .ok s => some (s, old)
        | .error _ => none)
    | _, _ => none
  match op with
  | .read n =>
    (match s.engineReadAll asid va n with
      | .ok (s, bs, false) => some (s, bs)
      | _ => none)
  | .write bs =>
    (match s.peerStore asid va bs with
      | .ok s => some (s, [])
      | .error _ => none)
  | .atomic kind t rm sat data =>
    let x : MForm := ⟨0, 7, 0, if sat then 1 else 0, 0, 0, 0, kind.setWidth 12 <<< 5, t, rm, 0, 0⟩
    rmw (if wideT t.toNat then 8 else 4) (fun old => (atomStep x old data.toNat).1)
  | .cas n cmp data => rmw n (fun old => if old = cmp.toNat then data.toNat else old)

/-- Bytes that a request reads or writes. -/
def peerBytes (op : PeerOp) : Nat :=
  match op with
  | .read n => n
  | .write bs => bs.length
  | .atomic _ t _ _ _ => if wideT t.toNat then 8 else 4
  | .cas n _ _ => n

/-- A request that UALink carries: up to 64 bytes (R459). -/
def peerCarried (op : PeerOp) : Bool :=
  0 < peerBytes op && peerBytes op ≤ 64 && (match op with
    | .cas n _ _ => [4, 8, 16].contains n
    | _ => true)

/-- A request from a peer package is served at the window, or refused (R459, R461). -/
def State.peerServe (s : State) (r : PeerRequest) : State :=
  let refuse := s.sendLink r.part 0x205 (natBytes 2 r.station.toNat)
  if !s.linked || !peerCarried r.op then s
  else
  match s.coll? r.part r.group with
  | none => refuse
  | some c =>
    if s.shutIn c.wasid then s
    else if (s.part? r.part).isNone || !c.formed || r.rank != c.rank || c.wlen < r.offset + peerBytes r.op then refuse
    else
      match s.peerPerform c.wasid (c.wbase + r.offset) r.op with
      | some (s, bs) => s.sendLink r.part 0x204 (natBytes 2 r.station.toNat ++ bs)
      | none => refuse

/-- The port that an access to a peer leaves by (R460). -/
def State.peerPort (s : State) (asid va : Nat) : Option Nat :=
  match (s.asid? asid).bind (fun c => regionOf c va), s.resolve asid va .read with
  | some (3, die), .ok (.peer _ _ _) => some (4 * die + bits va 7 6)
  | _, _ => none

/-- A link that cannot replay ends the requests in flight on it as refused ones (R461, R467). -/
def State.linkLost (s : State) (port : Nat) : State :=
  let s := s.sendsRefused (fun e => e.port == port)
  let down (s : State) : State := { s with portUp := s.portUp &&& ~~~((1 : BitVec 16) <<< port) }.signal 0 5
  down (s.ops.foldl (fun s o =>
    if o.scratch then s
    else o.lanes.foldl (fun s l =>
      if l.isTodo && s.peerPort o.asid.toNat l.addr.toNat == some port then
        s.laneFault o.id l.lane (ownershipFault o.instr.isStore l.addr.toNat)
      else s) s) s)

/-! ### Meanings -/

/-- MLDRED (R188, R453). -/
def execMldred (x : EForm) (s : State) : Host.Outcome State Fault Refusal := done s (issueWord (.mldred x) (collIssue x) s)
/-- COLL (R463). -/
def execColl (x : EForm) (s : State) : Host.Outcome State Fault Refusal := done s (issueWord (.coll x) (collIssue x) s)
/-- HALO (R465). -/
def execHalo (x : EForm) (s : State) : Host.Outcome State Fault Refusal := done s (issueWord (.halo x) (collIssue x) s)
/-- ENGINE_COMMAND_DONE (R186). -/
def execEngineCommandDone (gid slot : Nat) (s : State) : Host.Outcome State Fault Refusal := done s (s.runCommand gid slot)
/-- ROUND_CLOSURE (R454). -/
def execRoundClosure (part group kind round : Nat) (off : W64) (s : State) : Host.Outcome State Fault Refusal :=
  done s (if s.linked then s.closeRound part group kind round off else s)
/-- COLLECTIVE_TIMEOUT (R454). -/
def execCollectiveTimeout (part group kind round : Nat) (off : W64) (s : State) : Host.Outcome State Fault Refusal :=
  done s (s.roundTimeout part group kind round off)
/-- COLL_ANNOUNCE (R462, R467). -/
def execCollAnnounce (part group : Nat) (rank : MemberName) (members : Nat) (leave : Bool) (s : State) :
    Host.Outcome State Fault Refusal :=
  done s (s.announced part group ⟨rank.station, rank.rank, members, false⟩ leave)
/-- MEMBER_ARRIVAL (R453). -/
def execMemberArrival (a : ArrivalMsg) (s : State) : Host.Outcome State Fault Refusal :=
  done s (if s.linked then s.noteArrival a else s)
/-- HALO_SEND_ACK (R466). -/
def execHaloSendAck (part group round rank : Nat) (refused : Bool) (s : State) : Host.Outcome State Fault Refusal :=
  done s (s.sendAcked part group round rank refused)
/-- HALO_REPORT (R466). -/
def execHaloReport (part group round rank : Nat) (s : State) : Host.Outcome State Fault Refusal :=
  done s (s.haloReported part group round rank)
/-- PEER_REQUEST (R461). -/
def execPeerRequest (r : PeerRequest) (s : State) : Host.Outcome State Fault Refusal := done s (s.peerServe r)
/-- LINK_REPLAY_FAILURE (R461, R467). -/
def execLinkReplayFailure (port : Nat) (s : State) : Host.Outcome State Fault Refusal := done s (s.linkLost port)
/-- UALINK_LINK_UP (R433, R467). -/
def execUalinkLinkUp (port : Nat) (s : State) : Host.Outcome State Fault Refusal :=
  done s ({ s with portUp := s.portUp ||| ((1 : BitVec 16) <<< port) }.signal 0 5)

end Sys2Proof.Machine
end

