-- ==== Sys2Proof/Machine/Directory.lean ====
section
/-! DEFINITION. The events of directory transactions: requests, forwards, replacement notices, lease expiry (R244, R249 to
R252). A load or store that no such event interleaves with takes its whole transaction at once. -/

namespace Sys2Proof.Machine

/-- A request of the RDC of a die, which fills the home cache first; the line's own home die sends none, and no request
passes a notice that the die has on its way (R249, R250, R252). -/
def State.rdcRequest (s : State) (die asid line : Nat) (r : DirReq) : State :=
  match s.resolve asid (line * 64) .read with
  | .ok (.line home a v hpa t) =>
    if die = home || 4 ≤ die || t.own || s.shut asid (line * 64) 64 then s
    else ((s.noticeArrives die a (v / 64)).fillHome home a v hpa).dirRequest a (v / 64) r
  | _ => s

/-- GETS (R250): a request for a line that the RDC of the die does not hold. -/
def execGets (die asid line : Nat) (s : State) : Host.Outcome State Fault Refusal :=
  done s (if (s.rdc? die asid line).isSome then s else s.rdcRequest die asid line (.getS die))

/-- GETM (R250). -/
def execGetm (die asid line : Nat) (s : State) : Host.Outcome State Fault Refusal :=
  done s (s.rdcRequest die asid line (.getM die))

/-- HOME_READ_MISS (R250). -/
def execHomeReadMiss (asid line : Nat) (s : State) : Host.Outcome State Fault Refusal :=
  done s (match s.resolve asid (line * 64) .read with
    | .ok (.line home a v hpa _) =>
      if s.shut asid (line * 64) 64 then s else (s.fillHome home a v hpa).dirRequest a (v / 64) .readMiss
    | _ => s)

/-- RECALL (R250). -/
def execRecallLine (asid line : Nat) (s : State) : Host.Outcome State Fault Refusal := done s (s.dirRequest asid line .recall)

/-- RDC_FORWARD (R250, R252). -/
def execRdcForward (die asid line : Nat) (s : State) : Host.Outcome State Fault Refusal :=
  done s (s.forwardAt die asid line)

/-- PUTS (R251). -/
def execPuts (die asid line : Nat) (s : State) : Host.Outcome State Fault Refusal := done s (s.noticeAt die asid line DirState.s)

/-- PUTE (R251). -/
def execPute (die asid line : Nat) (s : State) : Host.Outcome State Fault Refusal := done s (s.noticeAt die asid line DirState.e)

/-- PUTM (R251). -/
def execPutm (die asid line : Nat) (s : State) : Host.Outcome State Fault Refusal := done s (s.noticeAt die asid line DirState.m)

/-- PUTO (R251). -/
def execPuto (die asid line : Nat) (s : State) : Host.Outcome State Fault Refusal := done s (s.noticeAt die asid line DirState.o)

/-- LEASE_EXPIRY (R244): the lookup misses from TIME = E on. -/
def execLeaseExpiry (core asid line : Nat) (s : State) : Host.Outcome State Fault Refusal :=
  done s (s.dropL1 (fun x => x.core == core && x.asid == asid && x.line == line && x.expiry ≤ s.time (dieOf core)))

end Sys2Proof.Machine
end

