-- ==== Sys2Proof/Machine/Traversal.lean ====
section
/-! DEFINITION. The traversal engine and the random streams (R334 to R354). Coordinates are exact integers in units of
2^-149, so every finite FP32 value and every box corner is one. -/

namespace Sys2Proof.Machine

/-! ### Exact fractions -/

/-- a ÷ b for b not zero. -/
def fracOf (a b : Int) : Frac := if b < 0 then ⟨-a, b.natAbs⟩ else ⟨a, b.natAbs⟩

/-- a ≤ b. -/
def Frac.le (a b : Frac) : Bool := a.num * b.den ≤ b.num * a.den

/-- a < b. -/
def Frac.lt (a b : Frac) : Bool := a.num * b.den < b.num * a.den

/-- a ≤ b, where none is +∞. -/
def leLim (a : Frac) : Option Frac → Bool
  | none => true
  | some b => a.le b

/-- a < b, where none is +∞. -/
def ltLim (a : Frac) : Option Frac → Bool
  | none => true
  | some b => a.lt b

/-- An exact fraction rounded once to FP32 under RNE (R342). -/
def Frac.toF32 (a : Frac) : W32 := BitVec.ofNat 32 (fp32.div 0 (.ofInt a.num) (.ofInt a.den)).1

/-- An FP32 word is finite. -/
def finite32 (w : W32) : Bool :=
  match fp32.unpack w.toNat with
  | .fin _ _ _ => true
  | _ => false

/-- A finite FP32 word in units of 2^-149. -/
def fix32 (w : W32) : Int := (fp32.unpack w.toNat).scaled (-149)

/-- A finite FP32 word as a fraction. -/
def frac32 (w : W32) : Frac := ⟨fix32 w, 2 ^ 149⟩

/-! ### Records (R334 to R337, R348) -/

/-- Little-endian word of n bytes at offset k of a record. -/
def recWord (r : List Byte) (k n : Nat) : Nat := leNat ((r.drop k).take n)

/-- FP32 word at offset k of a record. -/
def recF (r : List Byte) (k : Nat) : W32 := BitVec.ofNat 32 (recWord r k 4)

/-- Record kinds of BVHCHK: 0 node, 1 instance, 2 triangle. The code of a record's own address (R348). -/
def addrCode (kind va : Nat) : Nat :=
  if va % (if kind = 2 then 16 else 64) != 0 then 2 else if 2 ^ 57 ≤ va then 3 else 0

/-- Bytes of a record. -/
def recBytes (kind : Nat) : Nat := if kind = 2 then 48 else 64

/-- The lowest code among the defects of a record that was read (R348). -/
def recCode (kind : Nat) (r : List Byte) : Nat :=
  match kind with
  | 0 =>
    let base := recWord r 0x10 8
    let child (i : Nat) : Bool :=
      let w := recWord r (0x30 + 4 * i) 4
      (w / 2 ^ 30 == 1 || w / 2 ^ 30 == 3) && bits w 29 26 != 0
    if recWord r 0x0F 1 != 0 then 1
    else if base % 64 != 0 then 2
    else if 2 ^ 57 ≤ base then 3
    else if !(finite32 (recF r 0) && finite32 (recF r 4) && finite32 (recF r 8)) then 4
    else if (List.range 4).any child then 5
    else 0
  | 1 =>
    let root := recWord r 0x30 8
    if root % 64 != 0 then 2
    else if 2 ^ 57 ≤ root then 3
    else if (List.range 12).any (fun k => !finite32 (recF r (4 * k))) then 4
    else 0
  | _ => if recWord r 0x28 4 / 2 != 0 then 1 else 0

/-! ### Geometry (R341 to R343) -/

/-- Component i of a ray's origin, or of its direction. -/
def Ray.org (r : Ray) (i : Nat) : W32 := match i with
  | 0 => r.ox
  | 1 => r.oy
  | _ => r.oz
def Ray.dir (r : Ray) (i : Nat) : W32 := match i with
  | 0 => r.dx
  | 1 => r.dy
  | _ => r.dz

/-- The slab test of R341 over the axes: key and far bound; none when an axis of zero direction misses. -/
def slabs (r : Ray) (lo hi : Nat → Int) (tmin : Frac) : Option (Frac × Option Frac) :=
  (List.range 3).foldl (fun acc i =>
    match acc with
    | none => none
    | some (near, far) =>
      let o := fix32 (r.org i)
      let d := fix32 (r.dir i)
      if d = 0 then (if lo i ≤ o && o ≤ hi i then some (near, far) else none)
      else
        let p := fracOf (lo i - o) d
        let q := fracOf (hi i - o) d
        let (n, f) := if p.le q then (p, q) else (q, p)
        some (if near.le n then n else near, if leLim f far then some f else far)) (some (tmin, none))

/-- A child is entered under the current limit (R341). -/
def ChildEnt.entered (c : ChildEnt) (tlim : Option Frac) : Bool := leLim c.key tlim && leLim c.key c.far && ltLim c.key tlim

/-- The children of a node whose boxes the ray meets, in key order, ties to the lower slot (R334, R335, R341). -/
def boxChildren (node : List Byte) (r : Ray) (tmin : Frac) : List ChildEnt :=
  let corner (i off : Nat) (ax : Nat) : Int :=
    let e := sext 8 (recWord node (0x0C + ax) 1)
    fix32 (recF node (4 * ax)) + (recWord node (0x18 + 6 * i + off + ax) 1 * 2 ^ (e + 149).toNat : Nat)
  let child (i : Nat) : Option ChildEnt :=
    let w := recWord node (0x30 + 4 * i) 4
    let q (k : Nat) := recWord node (0x18 + 6 * i + k) 1
    if w / 2 ^ 30 = 0 || (List.range 3).any (fun ax => q (3 + ax) < q ax) then none
    else
      match slabs r (corner i 0) (corner i 3) tmin with
      | none => none
      | some (key, far) => some ⟨i, key, far, w / 2 ^ 30, bits w 29 26, recWord node 0x10 8 + 64 * bits w 25 0⟩
  let ins (l : List ChildEnt) (c : ChildEnt) : List ChildEnt :=
    l.takeWhile (fun x => x.key.le c.key) ++ c :: l.dropWhile (fun x => x.key.le c.key)
  ((List.range 4).filterMap child).foldl ins []

/-- A vector of three integers. -/
structure Vec3 where
  x : Int
  y : Int
  z : Int
  deriving DecidableEq, Repr

def Vec3.sub (a b : Vec3) : Vec3 := ⟨a.x - b.x, a.y - b.y, a.z - b.z⟩
def Vec3.dot (a b : Vec3) : Int := a.x * b.x + a.y * b.y + a.z * b.z
def Vec3.cross (a b : Vec3) : Vec3 := ⟨a.y * b.z - a.z * b.y, a.z * b.x - a.x * b.z, a.x * b.y - a.y * b.x⟩

/-- A component of n, in units of 2^-298, rounded to FP32 under RNE (R347). -/
def normal32 (n : Int) : W32 := BitVec.ofNat 32 (fp32.roundFin 0 false (n < 0) n.natAbs (-298) false).1

/-- The triangle test of R342: the exact t, u and v, d · n and n. -/
def triHit (tri : List Byte) (r : Ray) (tmin : Frac) (tlim : Option Frac) : Option (Frac × Frac × Frac × Int × Vec3) :=
  if (List.range 9).any (fun k => !finite32 (recF tri (4 * k))) then none
  else
    let p (k : Nat) : Vec3 := ⟨fix32 (recF tri (12 * k)), fix32 (recF tri (12 * k + 4)), fix32 (recF tri (12 * k + 8))⟩
    let o : Vec3 := ⟨fix32 r.ox, fix32 r.oy, fix32 r.oz⟩
    let d : Vec3 := ⟨fix32 r.dx, fix32 r.dy, fix32 r.dz⟩
    let e1 := (p 1).sub (p 0)
    let e2 := (p 2).sub (p 0)
    let n := e1.cross e2
    let dn := d.dot n
    if dn = 0 then none
    else
      let det := -dn
      let sv := o.sub (p 0)
      let h := d.cross e2
      let q := sv.cross e1
      let u := fracOf (sv.dot h) det
      let v := fracOf (d.dot q) det
      let t := fracOf (e2.dot q) det
      let uv := fracOf (sv.dot h + d.dot q) det
      if 0 ≤ u.num && 0 ≤ v.num && uv.le ⟨1, 1⟩ && tmin.le t && ltLim t tlim then some (t, u, v, dn, n) else none

/-- The ray in an instance's space; none when it is not finite (R343). -/
def transformRay (inst : List Byte) (r : Ray) : Option Ray :=
  let f (w : W32) : FVal := fp32.unpack w.toNat
  let m (i j : Nat) : FVal := f (recF inst (16 * i + 4 * j))
  let comp (i : Nat) (v : Nat → W32) (add : List FVal) : W32 :=
    BitVec.ofNat 32 (fp32.round 0 false (sumProducts 0 [(m i 0, f (v 0)), (m i 1, f (v 1)), (m i 2, f (v 2))] add).1).1
  let o (i : Nat) := comp i r.org [m i 3]
  let d (i : Nat) := comp i r.dir []
  if (List.range 3).all (fun i => finite32 (o i) && finite32 (d i)) then some ⟨o 0, o 1, o 2, d 0, d 1, d 2⟩ else none

/-! ### The traversal engine (R344, R345, R354) -/

/-- What stops a lane's traversal from outside: a fault of a read, or poisoned data at an address. -/
inductive TravStop where
  | fault (f : LaneFault)
  | poison (addr : Nat)

/-- How a traversal reads n bytes of an address. -/
abbrev TravReader := Nat → Nat → Except TravStop (List Byte)

/-- How a step of a traversal ends: it goes on, the traversal ends with a status, it is suspended at a candidate, or a read
stops it. -/
inductive TravOut where
  | go (w : TravWalk)
  | stop (status detail level : Nat) (best : Option Hit)
  | cand (w : TravWalk) (hit : Hit)
  | out (e : TravStop)

/-- One deferred entry is pushed. Eight stand already: the oldest is discarded, and its node marked (R345, R354). -/
def TravWalk.push1 (w : TravWalk) (e : TravEntry) : TravWalk :=
  if w.stack.length < 8 then { w with stack := e :: w.stack }
  else
    match w.stack.getLast? with
    | none => w
    | some old => { w with stack := e :: w.stack.dropLast, marks := old.level :: w.marks.filter (· != old.level) }

/-- The children of a node that the current limit lets in are pushed, the greatest key first (R354). -/
def TravWalk.push (w : TravWalk) (level : Nat) (r : Ray) (iid user : W32) (cs : List ChildEnt) : TravWalk :=
  (cs.filter (·.entered w.tlim)).reverse.foldl (fun w c => w.push1 ⟨level, r, iid, user, c⟩) w

/-- A child of a node is taken: the trail names it, and the rest of the node's children are deferred before a descent. -/
def TravWalk.take (w : TravWalk) (level : Nat) (r : Ray) (iid user : W32) (c : ChildEnt) (rest : List ChildEnt) : TravWalk :=
  let w := { w with trail := w.trail.take level ++ [c.slot] }
  match c.kind with
  | 1 => { (w.push level r iid user rest) with todo := .node (level + 1) c.target r iid user }
  | 2 => { w with todo := .tris level r iid user c.target (c.cnt + 1) rest }
  | _ => { (w.push level r iid user rest) with todo := .inst level c.target r }

/-- Fetches a record of kind 0 or 1 for what follows; a defect ends the traversal with BADNODE (R344, R348). -/
def TravWalk.fetch (w : TravWalk) (rd : TravReader) (kind level a : Nat) (next : List Byte → TravWalk) : TravOut :=
  if addrCode kind a != 0 then .stop 4 (addrCode kind a) level w.best
  else
    match rd a 64 with
    | .error e => .out e
    | .ok bs => if recCode kind bs != 0 then .stop 4 (recCode kind bs) level w.best else .go (next bs)

/-- The discarded children of a node: those after the child that the trail names, in key order (R354). -/
def afterSlot (slot : Nat) (cs : List ChildEnt) : List ChildEnt := (cs.dropWhile (fun c => c.slot != slot)).drop 1

/-- The restart at a node of the trail: a marked node's discarded children are taken up, and the trail goes on while a deeper
node is marked (R354). -/
def TravWalk.retake (w : TravWalk) (level : Nat) (r : Ray) (iid user : W32) (node : List Byte) : TravWalk :=
  let cs := boxChildren node r w.tmin
  let slot := (w.trail[level]?).getD 0
  let deeper := w.marks.any (fun m => level < m)
  let w := if w.marks.contains level then
      { w with marks := w.marks.filter (· != level) }.push level r iid user (afterSlot slot cs)
    else w
  { w with todo := match deeper, cs.find? (fun c => c.slot == slot) with
      | true, some c =>
        (match c.kind with
        | 1 => .follow (level + 1) c.target r iid user
        | 3 => .followInst level c.target r
        | _ => .pop)
      | _, _ => .pop }

/-- One step of the traversal engine (R341 to R345, R354). -/
def TravWalk.step (rd : TravReader) (w : TravWalk) : TravOut :=
  match w.todo with
  | .kids level r iid user cs =>
    match cs with
    | [] => .go { w with todo := .pop }
    | c :: rest =>
      if c.entered w.tlim then .go (w.take level r iid user c rest) else .go { w with todo := .kids level r iid user rest }
  | .tris level r iid user a left rest =>
    if left = 0 then .go { w with todo := .kids level r iid user rest }
    else if 2 ^ 57 ≤ a then .stop 4 3 level w.best
    else
      match rd a 48 with
      | .error e => .out e
      | .ok tri =>
        let w := { w with todo := .tris level r iid user (a + 48) (left - 1) rest }
        match triHit tri r w.tmin w.tlim with
        | none => .go w
        | some (t, u, v, dn, n) =>
          if (w.flags.getLsbD 9 && 0 < dn) || (w.flags.getLsbD 10 && dn < 0) then .go w
          else
            let hit : Hit := ⟨t, u, v, iid, recF tri 0x24, r, normal32 n.x, normal32 n.y, normal32 n.z, user, BitVec.ofNat 64 a⟩
            if w.flags.getLsbD 11 && (recWord tri 0x28 4).testBit 0 then .cand w hit
            else if w.flags.getLsbD 8 then .stop 1 0 0 (some hit)
            else .go { w with best := some hit, tlim := some t }
  | .node level a r iid user =>
    if 32 ≤ level then .stop 3 0 31 w.best
    else w.fetch rd 0 level a (fun node => { w with todo := .kids level r iid user (boxChildren node r w.tmin) })
  | .inst level a r =>
    w.fetch rd 1 level a (fun inst =>
      let m := recWord inst 0x38 4
      { w with todo :=
          if (m / 2 ^ 24) &&& (w.flags.toNat % 256) = 0 then .pop
          else
            match transformRay inst r with
            | none => .pop
            | some r' => .node (level + 1) (recWord inst 0x30 8) r' (BitVec.ofNat 32 (m % 2 ^ 24)) (recF inst 0x3C) })
  | .pop =>
    match w.stack with
    | e :: stack =>
      let w := { w with stack := stack }
      if e.child.entered w.tlim then .go (w.take e.level e.ray e.iid e.user e.child []) else .go w
    | [] =>
      if w.marks = [] then .stop (if w.best.isSome then 1 else 0) 0 0 w.best
      else .go { w with todo := .follow 0 w.root w.org 0xFFFFFFFF 0 }
  | .follow level a r iid user => w.fetch rd 0 level a (w.retake level r iid user)
  | .followInst level a r =>
    w.fetch rd 1 level a (fun inst =>
      { w with todo := match transformRay inst r with
          | none => .pop
          | some r' => .follow (level + 1) (recWord inst 0x30 8) r'
              (BitVec.ofNat 32 (recWord inst 0x38 4 % 2 ^ 24)) (recF inst 0x3C) })

/-- At most n steps of the engine. -/
def TravWalk.run (rd : TravReader) : Nat → TravWalk → TravOut
  | 0, w => .go w
  | n + 1, w =>
    match w.step rd with
    | .go w' => TravWalk.run rd n w'
    | o => o

/-! ### Records returned (R340) -/

/-- The hit record of a status. -/
def hitRecord (h : Option Hit) (status detail level : Nat) : List W32 :=
  let last : W32 := BitVec.ofNat 32 (status + detail * 256 + level * 65536)
  match h with
  | some h => [h.t.toF32, h.iid, h.prim, h.u.toF32, h.v.toF32, last]
  | none => [0x7F800000, 0, 0, 0, 0, last]

/-- A ray that TRACE reads (R339): none when void; tmin, tmax and the ray otherwise. -/
def rayOf (w : List W32) : Option (Ray × Frac × Option Frac) :=
  let g (k : Nat) : W32 := w.getD k 0
  let dirZero := fix32 (g 4) == 0 && fix32 (g 5) == 0 && fix32 (g 6) == 0
  if !([0, 1, 2, 3, 4, 5, 6].all (fun k => finite32 (g k))) || dirZero then none
  else
    let r : Ray := ⟨g 0, g 1, g 2, g 4, g 5, g 6⟩
    match fp32.unpack (g 7).toNat with
    | .nan _ => none
    | .inf neg => if neg then none else some (r, frac32 (g 3), none)
    | .fin _ _ _ => if (frac32 (g 7)).lt (frac32 (g 3)) then none else some (r, frac32 (g 3), some (frac32 (g 7)))

/-- What a lane of a traversal operation has come to: its words for D and the thread's traversal state, or a traversal still to
run. -/
inductive TravLane where
  | done (ws : List W32) (tr : Trav)
  | run (w : TravWalk)

/-- A traversal that ends leaves its record and no suspended traversal; the last record stays unless this one reports a hit
(R346, R347). -/
def endTrav (status detail level : Nat) (best : Option Hit) (old : Trav) : List W32 × Trav :=
  (hitRecord best status detail level, { susp := none, last := if status = 1 then best else old.last })

/-- TRACE of one lane begins (R339, R344). -/
def beginTrace (flags : BitVec 13) (view : Option W64) (root : Nat) (ray : List W32) (old : Trav) : TravLane :=
  match rayOf ray with
  | none => .done (hitRecord none 0 0 0) { old with susp := none }
  | some (r, tmin, tmax) => .run ⟨root, r, tmin, tmax, flags, view, none, [], [], [], .node 0 root r 0xFFFFFFFF 0⟩

/-- TRESUME of one lane with its control operand begins (R346). -/
def beginResume (ctl : Nat) (old : Trav) : TravLane :=
  match old.susp with
  | none => .done (hitRecord none 5 0 0) old
  | some p =>
    let acc := ctl.testBit 0
    let w := if acc then { p.walk with best := some p.cand, tlim := some p.cand.t } else p.walk
    if (acc && w.flags.getLsbD 8) || ctl.testBit 1 then
      let (ws, tr) := endTrav (if w.best.isSome then 1 else 0) 0 0 w.best old
      .done ws tr
    else .run w

/-! ### Reads (R349) -/

/-- Bytes that the traversal path of a core reads now, through its node cache when no view applies. -/
def State.travBytes (s : State) (core asid : Nat) (view : Option W64) (va n : Nat) : Except TravStop (List Byte) :=
  (piecesOf va n).foldl (fun r p =>
    match r with
    | .error e => .error e
    | .ok bs =>
      let now : Except LaneFault (LineData × BitVec 8) :=
        match if view.isSome then none else s.pathLine? 4 core asid (p.1 / 64) with
        | some x => .ok (x.data, x.poison)
        | none => s.lineNow asid p.1 .read view
      match now with
      | .error f => .error (.fault f)
      | .ok (l, po) =>
        if poisonedAt po (p.1 % 64) p.2 then .error (.poison p.1) else .ok (bs ++ lineBytes l (p.1 % 64) p.2)) (.ok [])

/-- The run of a lane of a traversal operation. -/
def State.travRun (s : State) (op lane : Nat) : TravRun :=
  (s.travRuns.find? (fun r => r.op == op && r.lane == lane)).getD ⟨op, lane, none, []⟩

/-- Sets the run of a lane of a traversal operation. -/
def State.setTravRun (s : State) (r : TravRun) : State :=
  { s with travRuns := r :: s.travRuns.filter (fun x => !(x.op == r.op && x.lane == r.lane)) }

/-- Drops it: a replay runs the lane again (R349). -/
def State.dropTravRun (s : State) (op lane : Nat) : State :=
  { s with travRuns := s.travRuns.filter (fun x => !(x.op == op && x.lane == lane)) }

/-- Bytes of a record as a lane's fetch returns them: each granule that the lane read ahead has the value of that read (R349). -/
def State.travRead (s : State) (o : MemOp) (lane : Nat) (view : Option W64) (va n : Nat) : Except TravStop (List Byte) :=
  (s.travBytes o.core o.asid.toNat view va n).map (fun bs =>
    bs.zipIdx.map (fun p => match (s.travRun o.id lane).seen.find? (fun e => e.1 == (va + p.2) / 8) with
      | some e => (e.2[(va + p.2) % 8]?).getD p.1
      | none => p.1))

/-! ### Issue -/

/-- TRACE, TRESUME, HITGET and BVHCHK leave an operation outstanding: the root or address, the ray or control operand,
and the view (R338, R349). -/
def travIssue (addr : Ctx → Nat → W64) (srcs : Ctx → Nat → List W32) (view : Bool) (c : Ctx) : Except TrapInfo Res :=
  let ls := c.memLanes
  let reqs := ls.map (fun p => (⟨p.1, addr c p.2, (boolNat view : Nat), 0, c.g.viewcur, srcs c p.2, .todo⟩ : LaneReq))
  .ok { s := c.issueOp reqs (c.destPend (ls.map (·.1))) }

/-! ### Completion -/

/-- The traversal state that an operation acts on: a program's operation completing while a handler runs acts on the
state that the trap frame keeps (R423, R425). -/
def Group.travOf (g : Group) (op lane : Nat) : Trav :=
  let now := match g.threads[lane]? with
    | some t => t.trav
    | none => ⟨none, none⟩
  match g.frame with
  | some f => if op < f.since then (match f.threads[lane]? with
      | some t => t.trav
      | none => now) else now
  | none => now

/-- Sets that traversal state. -/
def Group.setTrav (g : Group) (op lane : Nat) (v : Trav) : Group :=
  match g.frame with
  | some f =>
    if op < f.since then
      { g with frame := some { f with threads := f.threads.mapIdx (fun h t => if h = lane then { t with trav := v } else t) } }
    else g.modThreads (fun h => h = lane) (fun _ t => { t with trav := v })
  | none => g.modThreads (fun h => h = lane) (fun _ t => { t with trav := v })

/-- TRACE, TRESUME and HITGET, which act on a thread's traversal state. -/
def isTravState : Instr → Bool
  | .trace _ => true
  | .tresume _ => true
  | .hitget _ => true
  | _ => false

/-- An earlier operation on the same thread's traversal state is outstanding; those of a handler and of its program act
on different states. -/
def State.travBlocked (s : State) (o : MemOp) (lane : Nat) : Bool :=
  isTravState o.instr && s.ops.any (fun x => x.gid == o.gid && x.id < o.id && isTravState x.instr
    && x.lanes.any (fun l => l.lane == lane)
    && match (s.group? o.gid).bind (·.frame) with
      | some f => (x.id < f.since) == (o.id < f.since)
      | none => true)

/-- Writes result words to v registers from d on in one lane. -/
def Group.deliverWords (g : Group) (d lane : Nat) (ws : List W32) : Group :=
  g.setVregs (ws.mapIdx (fun j w => (lane * 256 + d + j, w)))

/-- What HITGET writes (R347). -/
def hitWords (code : Nat) (h : Option Hit) : List W32 :=
  match h with
  | none => [0, 0, 0]
  | some h =>
    match code with
    | 0 => [h.ray.ox, h.ray.oy, h.ray.oz]
    | 1 => [h.ray.dx, h.ray.dy, h.ray.dz]
    | 2 => [h.nx, h.ny, h.nz]
    | _ => [h.user, h.tri.setWidth 32, (h.tri >>> 32).setWidth 32]

/-- The D field of a traversal instruction. -/
def travDest : Instr → Nat
  | .trace x => x.d.toNat
  | .tresume x => x.d.toNat
  | .hitget x => x.d.toNat
  | .bvhchk x => x.d.toNat
  | _ => 0

/-- A lane of a traversal operation begins: what it yields at once, or the traversal that it runs. -/
def State.travBegin (s : State) (o : MemOp) (l : LaneReq) (old : Trav) : Except TravStop TravLane :=
  match o.instr with
  | .trace x => .ok (beginTrace (x.imm.setWidth 13) (if l.data = 0 then none else some l.view) l.addr.toNat l.srcs old)
  | .tresume _ => .ok (beginResume (l.srcs.getD 0 0).toNat old)
  | .hitget x => .ok (.done (hitWords x.c.toNat old.last) old)
  | .bvhchk x =>
    let kind := x.c.toNat
    let va := l.addr.toNat
    if addrCode kind va != 0 then .ok (.done [BitVec.ofNat 32 (addrCode kind va)] old)
    else (s.travRead o l.lane none va (recBytes kind)).map (fun r => .done [BitVec.ofNat 32 (recCode kind r)] old)
  | _ => .ok (.done [] old)

/-- TRACE, TRESUME and BVHCHK, which read memory. -/
def readsTree (i : Instr) : Bool := isBvhchk i || match i with
  | .trace _ => true
  | .tresume _ => true
  | _ => false

/-- An earlier operation of the group still reads through the traversal path: reads of one group return writes in their order of
issue (R264; DEDUCED, log entry 31). -/
def State.travBehind (s : State) (o : MemOp) : Bool :=
  readsTree o.instr && s.ops.any (fun x => x.gid == o.gid && x.id < o.id && readsTree x.instr && x.lanes.any LaneReq.isTodo)

/-- A lane of a traversal operation may run: no earlier operation acts on its thread's traversal state or reads before it, its
group is resident, and no command changes its address space. -/
def State.travReady (s : State) (o : MemOp) (l : LaneReq) : Bool :=
  l.isTodo && (isTravState o.instr || isBvhchk o.instr) && !s.travBlocked o l.lane && !s.travBehind o
    && s.resident o.gid && !s.shutIn o.asid.toNat

/-- A lane of a traversal operation delivers its words and its thread's traversal state (R340, R346, R347). -/
def State.travDeliver (s : State) (o : MemOp) (lane : Nat) (ws : List W32) (tr : Trav) : State :=
  ((s.dropTravRun o.id lane).modGroup o.gid (fun g =>
    let g := if isTravState o.instr then g.setTrav o.id lane tr else g
    let d := travDest o.instr
    if 0x100 ≤ d then g.deliver false d lane ((ws.getD 0 0).setWidth 64)
    else g.deliverWords d lane ws)).laneDone o.gid o.id lane

/-- A read has stopped a lane: its fault is logged, or the poison is a Machine check (R256, R349). -/
def State.travStopped (s : State) (o : MemOp) (lane : Nat) (e : TravStop) : State :=
  match e with
  | .fault f => (s.dropTravRun o.id lane).laneFault o.id lane f
  | .poison a => (s.dropTravRun o.id lane).machineCheckOp o (BitVec.ofNat 64 a)

/-- A lane of a traversal operation runs for at most n steps of the engine. A TRACE that begins discards the suspended traversal
of its thread (R344, R346, R349). -/
def State.travGo (s : State) (id lane n : Nat) : State :=
  match s.op? id with
  | none => s
  | some o =>
    match o.lane? lane, s.group? o.gid with
    | some l, some g =>
      if !s.travReady o l then s
      else
        let old := match o.instr with
          | .trace _ => { g.travOf id lane with susp := none }
          | _ => g.travOf id lane
        let s := if isTravState o.instr then s.modGroup o.gid (fun g => g.setTrav id lane old) else s
        let begun : Except TravStop TravLane := match (s.travRun id lane).walk with
          | some w => .ok (.run w)
          | none => s.travBegin o l old
        match begun with
        | .error e => s.travStopped o lane e
        | .ok (.done ws tr) => s.travDeliver o lane ws tr
        | .ok (.run w) =>
          match w.run (s.travRead o lane w.view) n with
          | .go w => s.setTravRun { s.travRun id lane with walk := some w }
          | .stop status detail level best =>
            let (ws, tr) := endTrav status detail level best old
            s.travDeliver o lane ws tr
          | .cand w h => s.travDeliver o lane (hitRecord (some h) 2 0 0) { susp := some ⟨w, h⟩, last := some h }
          | .out e => s.travStopped o lane e
    | _, _ => s

/-- Steps of the engine that one TRAVERSAL_COMPLETE makes at most; a longer traversal goes on at the next. -/
def travSteps : Nat := 65536

/-- A lane of a traversal operation completes (R344, R349). -/
def State.travComplete (s : State) (id lane : Nat) : State := s.travGo id lane travSteps

/-- A lane of a traversal operation reads an aligned granule ahead of the fetch that returns it (R349). -/
def State.travAhead (s : State) (id lane addr : Nat) : State :=
  match s.op? id with
  | none => s
  | some o =>
    match o.lane? lane with
    | none => s
    | some l =>
      let a := addr / 8 * 8
      let view : Option W64 := match o.instr, (s.travRun id lane).walk with
        | _, some w => w.view
        | .trace _, none => if l.data = 0 then none else some l.view
        | .bvhchk _, none => none
        | _, none => ((s.group? o.gid).bind (fun g => (g.travOf id lane).susp)).bind (·.walk.view)
      if !s.travReady o l then s
      else
        match s.travBytes o.core o.asid.toNat view a 8 with
        | .error _ => s
        | .ok bs =>
          let r := s.travRun id lane
          s.setTravRun { r with seen := (a / 8, bs) :: r.seen.filter (fun e => e.1 != a / 8) }

/-- A path cache of a core takes a line as it stands (R161, R349). -/
def State.pathFill (s : State) (path core asid line : Nat) : State :=
  match s.lineNow asid (64 * line) .read none with
  | .error _ => s
  | .ok (l, po) =>
    if path < 2 || 4 < path || (s.pathLine? path core asid line).isSome || s.shut asid (64 * line) 64 then s
    else { s with pathLines := s.pathLines ++ [⟨path, core, asid, line, l, po⟩] }

/-! ### Random streams -/

/-- Philox4x32-10 (R351): rounds left, the words, the key. -/
def philox : Nat → W32 × W32 × W32 × W32 → W32 × W32 → W32 × W32 × W32 × W32
  | 0, x, _ => x
  | n + 1, (x0, x1, x2, x3), (j0, j1) =>
    let p0 : W64 := 0xD2511F53 * x0.setWidth 64
    let p1 : W64 := 0xCD9E8D57 * x2.setWidth 64
    philox n ((p1 >>> 32).setWidth 32 ^^^ x1 ^^^ j0, p1.setWidth 32, (p0 >>> 32).setWidth 32 ^^^ x3 ^^^ j1, p0.setWidth 32)
      (j0 + 0x9E3779B9, j1 + 0xBB67AE85)

/-- RNGKEY (R350). -/
def rngkeyLanes (c : Ctx) : Except TrapInfo Res :=
  .ok { s := c.s.modGroup c.g.gid (fun g => g.modThreads (fun h => c.act.contains h) (fun h t =>
    { t with key0 := (c.val 1 h).setWidth 32, key1 := (c.val 2 h).setWidth 32 })) }

/-- The words that RNG writes in lane h (R351). -/
def Ctx.rngWords (c : Ctx) (h : Nat) : List W32 :=
  let w (j : Nat) := c.g.vreg h (c.fieldCode 1 + j)
  let k := match c.g.threads[h]? with
    | some t => (t.key0, t.key1)
    | none => (0, 0)
  let (x0, x1, x2, x3) := philox 10 (w 0, w 1, w 2, w 3) k
  [x0, x1, x2, x3]

/-- RNG (R351). -/
def rngLanes (c : Ctx) : Except TrapInfo Res :=
  .ok { s := c.s.modGroup c.g.gid (fun g => c.act.foldl (fun g h => g.deliverWords (c.fieldCode 0) h (c.rngWords h)) g) }

/-- RNGF: A[31:8] × 2^-24 as FP32 (R352). -/
def rngfOut (c : Ctx) (h : Nat) : LaneOut :=
  { val := BitVec.ofNat 64 (fp32.encodeExact false ((c.val 1 h).toNat / 256 % 2 ^ 24) (-24)) }

/-! ### Meanings -/

/-- TRACE (R338, R344). -/
def execTrace (x : XForm) (s : State) : Host.Outcome State Fault Refusal := 
  done s (issueWord (.trace x) (travIssue (fun c h => c.val 2 h) (fun c h => c.vregsAt 1 h 8) (x.imm.getLsbD 12)) s)
/-- TRESUME (R346). -/
def execTresume (x : XForm) (s : State) : Host.Outcome State Fault Refusal :=
  done s (issueWord (.tresume x) (travIssue (fun _ _ => 0) (fun c h => [(c.val 1 h).setWidth 32]) false) s)
/-- HITGET (R347). -/
def execHitget (x : XForm) (s : State) : Host.Outcome State Fault Refusal :=
  done s (issueWord (.hitget x) (travIssue (fun _ _ => 0) (fun _ _ => []) false) s)
/-- BVHCHK (R348). -/
def execBvhchk (x : XForm) (s : State) : Host.Outcome State Fault Refusal :=
  done s (issueWord (.bvhchk x) (travIssue (fun c h => c.val 1 h) (fun _ _ => []) false) s)
/-- RNGKEY (R350). -/
def execRngkey (x : XForm) (s : State) : Host.Outcome State Fault Refusal := done s (issueWord (.rngkey x) rngkeyLanes s)
/-- RNG (R351). -/
def execRng (x : XForm) (s : State) : Host.Outcome State Fault Refusal := done s (issueWord (.rng x) rngLanes s)
/-- RNGF (R352). -/
def execRngf (x : XForm) (s : State) : Host.Outcome State Fault Refusal := done s (issueWord (.rngf x) (laneOp rngfOut) s)
/-- TRAVERSAL_COMPLETE (R344, R346, R349). -/
def execTraversalComplete (op lane : Nat) (s : State) : Host.Outcome State Fault Refusal := done s (s.travComplete op lane)

end Sys2Proof.Machine
end

