-- ==== Sys2Proof/Machine/Issue.lean ====
section
/-! DEFINITION. The issue choice of a partition, the fetch and entry of a line, pairs, and packed and formed issues (R18,
R19, R104, R105, R204 to R211, R321). -/

namespace Sys2Proof.Machine

/-! ### Who may issue -/

/-- Home lanes of a group that belong to a formed issue group (R208). -/
def State.formedLanes (s : State) (gid : Nat) : W64 :=
  maskOf (s.formed.flatMap (fun f => (f.members.filter (fun m => m.1 == gid)).map (·.2)))

/-- Neither exited, held nor blocked (R105). -/
def Thread.issuable (t : Thread) : Bool := !t.exited && t.wait == .none && !t.held

/-- The group may issue: resident, in the active tier, with no trap to take first, and none of its threads at a line that a command
is changing (R320, R367, R422). -/
def State.groupRuns (s : State) (g : Group) : Bool :=
  !g.stopped && !g.retired && g.tier == .active && g.ipart < 4 && g.nextTrap.isNone && s.unstopped g &&
    !(s.fwWait.isSome && g.threads.any (fun t => !t.exited && s.shut g.asid.toNat (lineBase t.pc).toNat 64)) &&
    match s.coreOf g, (s.wg? g.wid).bind (fun w => s.launch? w.lid) with
    | some core, some la => s.coreRuns core la.part
    | _, _ => false

/-- A path or a formed issue group that could issue: its groups with their issuing lanes, its address, and what R105 and
R209 need. -/
structure Cand where
  parts : List (Nat × W64)
  pc : W64
  prio : Nat
  last : Nat
  demoted : Bool
  passed : Nat
  formed : Option W32
  deriving DecidableEq, Repr

/-- The largest and smallest of a list of numbers. -/
def maxOf (l : List Nat) : Nat := l.foldl max 0

/-- The candidate of some threads that stand at an address; priority, recency and demotion count threads that do not issue
too: a demoted path that comes to held or blocked threads has joined their path (R107, R208). -/
def candOf (parts : List (Nat × W64)) (pc : W64) (all run : List Thread) (formed : Option W32) : Cand :=
  ⟨parts, pc, maxOf (all.map (fun t => t.prio.toNat)), maxOf (all.map (·.lastIssue)), all.all (·.demoted),
    maxOf (run.map (·.passed)), formed⟩

/-- The issuable paths of a group (R208). -/
def State.pathsOf (s : State) (g : Group) : List Cand :=
  let out := s.formedLanes g.gid
  let lanes := g.live.filter (fun h => !laneIn out h)
  let at' (f : Thread → Bool) : List Nat := lanes.filter (fun h => (g.threads[h]?).any f)
  let ths (l : List Nat) : List Thread := l.filterMap (fun h => g.threads[h]?)
  let pcs := ((ths (at' Thread.issuable)).map (·.pc)).eraseDups
  pcs.map (fun pc =>
    let run := at' (fun t => t.issuable && t.pc == pc)
    candOf [(g.gid, maskOf run)] pc (ths (at' (fun t => t.pc == pc))) (ths run) none)

/-- The threads of a formed issue group. -/
def State.formedThreads (s : State) (f : Formed) : List Thread :=
  f.members.filterMap (fun m => (s.group? m.1).bind (fun g => g.threads[m.2]?))

/-- The member with the lowest grp, whose group a formed issue group competes as (R211). -/
def State.formedLead (s : State) (f : Formed) : Option Nat :=
  (earliest (fun g => g.grp) (f.members.filterMap (fun m => s.group? m.1))).map (·.gid)

/-- Every group of a formed issue group may issue, from the cycle in which it is issuable (R210, R211, R321). -/
def State.formedRuns (s : State) (f : Formed) : Bool :=
  f.members.all (fun m => (s.group? m.1).any (fun g => s.groupRuns g && (s.coreOf g).any (fun c => f.start ≤ s.cycle c)))

/-- The formed issue groups that compete as a group (R211). -/
def State.formedOf (s : State) (g : Group) : List Cand :=
  (s.formed.filter (fun f => s.formedLead f == some g.gid && s.formedRuns f)).filterMap (fun f =>
    match s.formedThreads f with
    | [] => none
    | t :: ts =>
      let gids := (f.members.map (·.1)).eraseDups
      let parts := gids.map (fun gid => (gid, maskOf ((f.members.filter (fun m => m.1 == gid)).map (·.2))))
      some (candOf parts t.pc (t :: ts) (t :: ts) (some f.igid)))

/-! ### Fetch and readiness -/

/-- An issue of some groups on a core (R206, R210). Packed groups stand at multiples of their width. R206 does not say
whether igsize counts threads of a path that are held or blocked and so are not carried: it counts the threads that issue
(log entry 47). -/
def State.issueOf (s : State) (core : Nat) (c : Cand) : Issue :=
  let part (p : (Nat × W64) × Nat) : Part :=
    ⟨p.1.1, p.1.2, if c.formed.isSome then 0 else p.2 * ((s.group? p.1.1).map (·.width)).getD 0⟩
  { id := s.tick
    core := core
    parts := c.parts.zipIdx.map part
    pc := c.pc
    igid := match c.formed with
      | some g => g
      | none => BitVec.ofNat 32 (((c.parts.head?).bind (fun p => (s.group? p.1).map (·.gslot))).getD 0)
    igsize := (c.parts.map (fun p => (lanesOf p.2 64).length)).foldl (· + ·) 0
    formed := c.formed.isSome, second := false, pushed := false, before := [] }

/-- Slot k issues together with slot k + 1: its PAIR bit is set and it is not itself the second slot of a pair, which a path
that lands on it issues alone (R19, R67). -/
def formsPair (l : LineData) (k : Nat) : Bool := linePair l k && !(k != 0 && linePair l (k - 1))

/-- The line and slot of a candidate's next instruction. -/
def State.candLine (s : State) (c : Cand) : Option (Except LaneFault LineData × Nat) :=
  match (c.parts.head?).bind (fun p => s.group? p.1), slotOf c.pc with
  | some g, some k => some (s.codeLine g.asid.toNat (lineBase c.pc).toNat, k)
  | _, _ => none

/-- The next instruction, and the second of its pair (R19); none where fetch or decoding fails. -/
def State.candWords (s : State) (c : Cand) : Option (Option Instr × Option (Option Instr)) :=
  match s.candLine c with
  | some (.ok l, k) => some ((decode (lineSlot l k)).toOption,
      if formsPair l k then some (decode (lineSlot l (k + 1))).toOption else none)
  | _ => none

/-- A condition holds of an instruction for every group of a candidate; one that faults in decoding meets it. -/
def State.wordAll (s : State) (core : Nat) (c : Cand) (p : Ctx → Bool) (i : Instr) : Bool :=
  let s : State := { s with issue := s.issueOf core c }
  s.issue.parts.all (fun q =>
    match mkCtx s i q with
    | none => true
    | some x => x.decodeFault.isSome || p x)

/-- A condition holds of the words of a candidate's next issue. -/
def State.candAll (s : State) (core : Nat) (c : Cand) (p : Ctx → Bool) : Bool :=
  match s.candWords c with
  | none => true
  | some (i, j) => i.all (s.wordAll core c p) && j.all (fun k => k.all (s.wordAll core c p))

/-- The groups of a candidate find room beside one another for their next instruction (R207, R234, R325, R369). -/
def State.candFits (s : State) (core : Nat) (c : Cand) : Bool :=
  let s : State := { s with issue := s.issueOf core c }
  let fits (i : Instr) : Bool :=
    partsFit [] ((s.issue.parts.filterMap (mkCtx s i)).filter (fun x => x.decodeFault.isNone))
  match s.candWords c with
  | none => true
  | some (i, j) => i.all fits && j.all (fun k => k.all fits)

/-- The scoreboard and the holds allow a candidate's next instruction, room in the reservation table aside (R209, R325). -/
def State.candAllowed (s : State) (core : Nat) (c : Cand) : Bool := s.candAll core c Ctx.ready && s.candFits core c

/-- A candidate's next instruction finds room where it needs an entry of the reservation table (R325). -/
def State.candRoom (s : State) (core : Nat) (c : Cand) : Bool := s.candAll core c (fun x => !x.matrixFull)

/-- The scoreboard, the pipes and the holds of R153 allow a candidate's next instruction (R209, R321). -/
def State.candReady (s : State) (core : Nat) (c : Cand) : Bool := s.candAllowed core c && s.candRoom core c

/-- A candidate's next instruction is one of the matrix range. -/
def State.candMatrix (s : State) (core : Nat) (c : Cand) : Bool := !s.candAll core c (fun x => !x.sh.isMatrix)

/-! ### The choice -/

/-- The first of a list in an order. -/
def firstBy {α : Type} (before : α → α → Bool) : List α → Option α
  | [] => none
  | x :: t => some (t.foldl (fun m y => if before y m then y else m) x)

/-- Least recently issued, then lower address (R105, R209). -/
def Cand.older (a b : Cand) : Bool := if a.last != b.last then a.last < b.last else a.pc < b.pc

/-- Order of issuable paths (R105). -/
def Cand.before (a b : Cand) : Bool := if a.prio != b.prio then b.prio < a.prio else a.older b

/-- The path that a group would issue if the reservation table had room (R105, R107, R209). A group that is stalled on a full
table stays at its matrix instruction (R325). -/
def State.wouldIssue (s : State) (core : Nat) (g : Group) : Option Cand :=
  let all := s.pathsOf g ++ s.formedOf g
  let held := if g.mxStall.isSome then all.filter (fun c => s.candMatrix core c && s.candAllowed core c) else []
  match firstBy Cand.before held, firstBy Cand.older (all.filter (fun c => 64 ≤ c.passed && s.candReady core c)) with
  | some c, _ => some c
  | none, some c => some c
  | none, none =>
    let up := all.filter (fun c => !c.demoted)
    firstBy Cand.before ((if up = [] then all else up).filter (s.candAllowed core))

/-- The path that a group issues: none while it stalls at a matrix instruction for want of room (R325). -/
def State.choosePath (s : State) (core : Nat) (g : Group) : Option Cand := (s.wouldIssue core g).filter (s.candRoom core)

/-- Groups of an issue partition that may issue, with the path each would issue. -/
def State.readyGroups (s : State) (core ipart : Nat) : List (Group × Cand) :=
  (s.groups.filter (fun g => s.coreOf g == some core && g.ipart == ipart && s.groupRuns g)).filterMap (fun g =>
    (s.choosePath core g).map (fun c => (g, c)))

/-- Priority of a group's workgroup. -/
def State.wgPrio (s : State) (g : Group) : Nat := ((s.wg? g.wid).map (fun w => w.prio.toNat)).getD 0

/-- The group has been passed over for 4,096 cycles of its partition while ready (R321). -/
def Group.overdue (g : Group) : Bool := g.starved || 4096 ≤ g.passed

/-- Order of ready groups (R321). -/
def State.groupBefore (s : State) (a b : Group × Cand) : Bool :=
  if a.1.overdue != b.1.overdue then a.1.overdue
  else if !a.1.overdue && s.wgPrio a.1 != s.wgPrio b.1 then s.wgPrio b.1 < s.wgPrio a.1
  else if a.1.lastIssue != b.1.lastIssue then a.1.lastIssue < b.1.lastIssue
  else a.1.gslot < b.1.gslot

/-- Instructions that never pack (R205) and never issue in a formed issue group (R211, R212). -/
def Instr.alone (i : Instr) : Bool :=
  match i with
  | .switchpt _ => true
  | .regroup _ => true
  | .cvdecl _ => true
  | .migrate _ => true
  | _ => match i.shape with
    | some sh => sh.wide
    | none => false

/-- Instructions at which a formed issue group dissolves first (R211). -/
def Instr.dissolves (i : Instr) : Bool :=
  match i with
  | .qpush _ => true
  | .qpop _ => true
  | _ => Instr.alone i

/-- The words of a candidate's next issue satisfy p. -/
def State.candAny (s : State) (c : Cand) (p : Instr → Bool) : Bool :=
  match s.candWords c with
  | some (i, j) => i.any p || j.any (fun k => k.any p)
  | none => false

/-- Packs further groups with the first, each that finds an offset and room beside those before it (R205, R207). -/
def State.pack (s : State) (core : Nat) (ready : List (Group × Cand)) (x : Group × Cand) : Cand :=
  let (g, c) := x
  if 32 ≤ g.width || c.formed.isSome || s.candAny c Instr.alone then c
  else
    let wg (k : Group) : Option (Nat × Nat) := (s.wg? k.wid).map (fun w => (w.lid, w.variant))
    let fit := ready.filter (fun y => y.1.gid != g.gid && y.1.width == g.width && y.1.asid == g.asid && wg y.1 == wg g
      && y.2.pc == c.pc && y.2.formed.isNone)
    (fit.sortBy (fun a b => s.groupBefore a b)).foldl (fun c y =>
      let d : Cand := { c with parts := c.parts ++ y.2.parts }
      if d.parts.length * g.width ≤ 32 && s.candFits core d then d else c) c

/-- The issue that a partition chooses now (R321). -/
def State.chooseIssue (s : State) (core ipart : Nat) : Option Cand :=
  let ready := s.readyGroups core ipart
  (firstBy s.groupBefore ready).map (s.pack core ready)

/-! ### Formed issue groups -/

/-- A formed issue group stays: its members stand issuable at one address, at an instruction it may issue (R211). -/
def State.formedStays (s : State) (f : Formed) : Bool :=
  match s.formedThreads f with
  | [] => false
  | t :: ts =>
    let gids := (f.members.map (·.1)).eraseDups
    let c : Cand := candOf (gids.map (fun gid => (gid, 0))) t.pc [] [] none
    (t :: ts).all (fun u => u.issuable && u.pc == t.pc) && !s.candAny c Instr.dissolves

/-- Exited members leave, and formed issue groups that may not stay dissolve (R211). -/
def State.tidyFormed (s : State) : State :=
  let gone (m : Nat × Nat) : Bool := (s.group? m.1).any (fun g => g.gone m.2)
  let fs := s.formed.map (fun f => { f with members := f.members.filter (fun m => !gone m) })
  { s with formed := fs.filter s.formedStays }

/-! ### Accounting -/

/-- A thread of a group that issues: its path's record of being passed over, and of a demotion (R107, R209). Where a demoted
path splits, the demotion stays with every thread that issued, and leaves the held and blocked ones that stay behind
(DESIGN CHOICE, log entry 64). -/
def Thread.account (t : Thread) (mine ready demoted : Bool) : Thread :=
  if mine then { t with passed := 0, demoted := demoted }
  else { t with demoted := false, passed := if ready then t.passed + 1 else t.passed }

/-- Cycles for which an issue takes its partition: two for groups of width 64 (R204). -/
def State.issueCycles (s : State) (c : Cand) : Nat :=
  if c.parts.any (fun p => (s.group? p.1).any (fun g => g.width == 64)) then 2 else 1

/-- Recency and passing over at an issue of a partition (R207, R208, R209, R321). -/
def State.account (s : State) (core ipart : Nat) (c : Cand) : State :=
  let readyGids := (s.readyGroups core ipart).map (fun x => x.1.gid)
  let upd (g : Group) : Group :=
    match c.parts.find? (fun p => p.1 == g.gid) with
    | some (_, mask) =>
      let others := ((s.pathsOf g ++ s.formedOf g).filter (fun d => d.parts != c.parts && s.candReady core d)).flatMap
        (fun d => (d.parts.filter (fun p => p.1 == g.gid)).map (·.2))
      let g := g.modThreads (fun _ => true) (fun h t =>
        let t := t.account (laneIn mask h) (others.any (fun m => laneIn m h)) c.demoted
        if laneIn mask h then { t with lastIssue := s.tick + 1 } else t)
      { g with passed := 0, starved := false, forced := false, lastIssue := s.tick, notIssuableSince := 0 }
    | none =>
      if s.coreOf g == some core && g.ipart == ipart then
        if readyGids.contains g.gid then { g with passed := g.passed + s.issueCycles c } else { g with passed := 0, starved := false }
      else g
  { s with groups := s.groups.map upd }

/-! ### Preparing an issue -/

/-- Threads that enter a line clear their latches; the line is theirs from now on (R18, R37, R38). -/
def Thread.enter (t : Thread) : Thread :=
  if t.exited then t
  else { t with latches := if t.losesLatches then Latches.cleared else t.latches, lastLine := some (lineBase t.pc), arrival := .sequence }

/-- The checks of a line for each group of an issue: a group whose check fails traps and leaves the issue (R18, R207). -/
def State.enterLine (s : State) (l : LineData) : State :=
  s.issue.parts.foldl (fun s p =>
    match s.group? p.gid with
    | none => s
    | some g =>
      match s.lineFault g p.mask s.issue.pc l with
      | some t => (s.takeTrap p.gid t).dropPart p.gid
      | none => s.modGroup p.gid (fun g => g.modThreads (laneIn p.mask) (fun _ t => t.enter))) s

/-- The decode fault of one word of a pair (R19, R45). -/
def State.wordFault (s : State) (i : Option Instr) (p : Part) (pc : W64) : Option TrapInfo :=
  let s : State := { s with issue := { s.issue with pc := pc } }
  let ill : TrapInfo := { cause := 0x01, epc := pc, path := p.mask }
  match i with
  | none => some ill
  | some i => if i.shape.isNone then some ill else (mkCtx s i p).bind (fun c => c.decodeFault)

/-- The decode fault of a pair, in the order of R19. Where the slots fault with different causes, the first cause in that
order is reported at the slot that has it; slot j is reported when both have it (log entry 48). -/
def State.pairFault (s : State) (i j : Option Instr) (p : Part) : Option TrapInfo :=
  let pc := s.issue.pc
  let fs := [s.wordFault i p pc, s.wordFault j p (nextPc pc)].filterMap id
  let of (k : Nat) : Option TrapInfo := fs.find? (fun t => t.cause == k)
  let legal : Bool := match i, j with
    | some i, some j =>
      (match mkCtx s i p, mkCtx s j p with
      | some ci, some cj => pairLegal i j ci.uses cj.uses
      | _, _ => true)
    | _, _ => true
  match of 0x01, of 0x02 with
  | some t, _ => some t
  | none, some t => some t
  | none, none => if legal then of 0x03 else some { cause := 0x04, epc := pc, path := p.mask }

/-- Two PAIR bits in a row put one slot into two pairs; the fault stands at the first slot of the two pairs (R19).
A landing on the second slot of a pair issues that slot alone, whatever its own PAIR bit (log entry 48). -/
def pairOverlap (l : LineData) (k : Nat) : Bool := linePair l k && linePair l (k + 1)

/-- The checks of a pair for each group of an issue (R19, R207). -/
def State.checkPair (s : State) (l : LineData) (k : Nat) (i j : Option Instr) : State :=
  s.issue.parts.foldl (fun s p =>
    let f := match s.pairFault i j p with
      | some t => if t.cause = 0x03 && pairOverlap l k then some { cause := 0x04, epc := s.issue.pc, path := p.mask } else some t
      | none => if pairOverlap l k then some { cause := 0x04, epc := s.issue.pc, path := p.mask } else none
    match f with
    | some t => (s.takeTrap p.gid t).dropPart p.gid
    | none => s) s

/-- The latches of every lane that issues, before a pair (R19). -/
def State.latchesBefore (s : State) : List (Nat × Nat × Latches) :=
  s.issue.parts.flatMap (fun p =>
    match s.group? p.gid with
    | none => []
    | some g => (lanesOf p.mask g.width).filterMap (fun h => (g.threads[h]?).map (fun t => (p.gid, h, t.latches))))

/-- An issue made ready: the state in which the first instruction executes, and the instructions; none for a word that
does not decode. `stop` is set when the fetch has faulted and nothing executes. -/
structure Prep where
  s : State
  first : Option Instr
  second : Option (Option Instr)
  stop : Bool

/-- Prepares the issue of a candidate: recency, fetch, the checks of the line and of a pair. -/
def State.prepare (s : State) (core ipart : Nat) (c : Cand) : Prep :=
  let acc := s.account core ipart c
  let s : State := { s with tick := s.tick + 1, issue := s.issueOf core c }
  match s.candLine c with
  | none =>
    let s := c.parts.foldl (fun s p => s.takeTrap p.1 { cause := 0x05, epc := c.pc, faddr := c.pc, path := p.2 }) s
    ⟨{ s with issue := Issue.idle }, none, none, true⟩
  | some (.error f, _) =>
    let s := c.parts.foldl (fun s p => s.fetchFault p.1 p.2 c.pc f) s
    ⟨{ s with issue := Issue.idle }, none, none, true⟩
  | some (.ok l, k) =>
    let s := ({ acc with tick := s.tick, issue := s.issue } : State).enterLine l
    let i := (decode (lineSlot l k)).toOption
    if formsPair l k then
      let j := (decode (lineSlot l (k + 1))).toOption
      let s := s.checkPair l k i j
      ⟨{ s with issue := { s.issue with before := s.latchesBefore } }, i, some j, false⟩
    else ⟨s, i, none, false⟩

/-- The second instruction of a pair follows the first, for the groups that still issue (R19, R68). -/
def State.secondSlot (s : State) (i : Instr) : State :=
  let pushes : Bool := match i.shape with
    | some sh => sh.result && !sh.long
    | none => false
  { s with issue := { s.issue with pc := nextPc s.issue.pc, second := true, pushed := pushes } }

/-- Instructions at which a formed issue group dissolves as its members arrive, whether or not they then wait (R211,
R213). -/
def Instr.parts (i : Instr) : Bool :=
  match i with
  | .bar _ => true
  | .bara _ => true
  | .cbar _ => true
  | .sstep _ => true
  | .mmas _ => true
  | _ => false

/-- A demoted thread that has come to a path of its group that is not demoted has joined it: its demotion ends. Lanes of formed
issue groups are no part of a path (R107, R208). -/
def Group.joined (g : Group) (formed : W64) : Group :=
  let there (pc : W64) : Bool := g.threads.zipIdx.any (fun p =>
    !p.1.exited && !p.1.demoted && p.1.pc == pc && !laneIn formed p.2)
  g.modThreads (fun h => !laneIn formed h) (fun _ t => if t.demoted && there t.pc then { t with demoted := false } else t)

/-- Nothing issues any more: paths that have met join (R107); a formed issue group whose members have arrived at a barrier or
signed dissolves, and so does one of which a member may not go on with the rest (R211). -/
def State.endIssue (s : State) (is : List Instr) : State :=
  let s := if s.issue.formed && is.any Instr.parts then
      s.issue.parts.foldl (fun s p => s.dissolve p.gid) s
    else s
  let s := if s.formed = [] then s else s.tidyFormed
  { s with
    groups := s.groups.map (fun g => if g.threads.any (·.demoted) then g.joined (s.formedLanes g.gid) else g)
    issue := Issue.idle }

end Sys2Proof.Machine
end

