-- ==== Sys2Proof/Machine/Dispatcher.lean ====
section
/-! DEFINITION. The dispatcher and the core scheduler: admission and refusal of launches, retirement, variant orders and
the rendezvous, register tiers (R102, R202, R203, R308 to R322, R384, R430). -/

namespace Sys2Proof.Machine

/-! ### Resources -/

/-- Bytes of a group context (R318). -/
def ctxBytes (regs width : Nat) : Nat := (regs * 4 * width + 64 * width + 1024 + 511) / 512 * 512

/-- What an admitted or planned workgroup takes on its core. -/
structure Usage where
  core : Nat
  tiles : Nat
  scratch : Nat
  ngrp : Nat
  deriving DecidableEq, Repr

/-- The variants of a workgroup's code that it holds resources for: the running one, and the target of its order (R314). -/
def State.heldVariants (s : State) (w : Workgroup) : List Variant :=
  match (s.launch? w.lid).bind s.codeOf with
  | none => []
  | some c => (w.variant :: (w.order.map (·.target)).toList).filterMap c.variant?

/-- Groups of a workgroup that hold a slot (R311). -/
def State.groupCount (s : State) (w : Workgroup) : Nat := (s.groups.filter (fun g => g.wid == w.wid && !g.retired)).length

/-- What a workgroup takes on a core. -/
def State.usageOf (s : State) (w : Workgroup) (core : Nat) : Usage :=
  let vs := s.heldVariants w
  ⟨core, maxOf (vs.map (·.tiles)), maxOf (vs.map (·.scratch)), s.groupCount w⟩

/-- What every resident workgroup but some takes. -/
def State.usages (s : State) (except : List Nat) : List Usage :=
  (s.wgs.filter (fun w => !w.retired && !except.contains w.wid)).filterMap (fun w => w.core.map (s.usageOf w))

/-- Sum of a list. -/
def sumOf (l : List Nat) : Nat := l.foldl (· + ·) 0

/-- Variant v with n groups of a width is eligible on a core beside the given usage (R201, R312). -/
def State.variantFits (s : State) (us : List Usage) (width : Nat) (v : Variant) (n core : Nat) : Bool :=
  let here := us.filter (fun u => u.core == core)
  let quad := us.filter (fun u => quadOf u.core == quadOf core)
  let caps := (s.fuses.mxcap[quadOf core]?).getD []
  core < 256 && s.coreMap.getLsbD core
    && (v.mxmin.zip caps).all (fun p => p.1 ≤ p.2)
    && sumOf (quad.map (·.tiles)) + v.tiles ≤ 512
    && sumOf (here.map (·.scratch)) + v.scratch ≤ 524288
    && here.length < 64 && 1 ≤ n && n ≤ 32 && n * width ≤ 1024 && sumOf (here.map (·.ngrp)) + n ≤ 256
    && ctxBytes v.regs width ≤ 524288

/-- The lowest-numbered variant eligible for a workgroup of a launch on a core (R313). -/
def State.pickVariant (s : State) (c : CodeObj) (r : LaunchRec) (us : List Usage) (core : Nat) : Option Nat :=
  (List.range 4).find? (fun k =>
    match c.variant? k with
    | some v => s.variantFits us c.width v ((r.ngrp[k]?).getD 0) core
    | none => false)

/-- Workgroups of a launch (R201). -/
def LaunchRec.count (r : LaunchRec) : Nat := r.nx * r.ny * r.nz

/-- A placement: core and variant of each workgroup, in linear order. -/
abbrev Placing := List (Nat × Nat)

/-- Places one more workgroup on a core. -/
def State.placeOn (s : State) (c : CodeObj) (r : LaunchRec) (p : Option (Placing × List Usage)) (core : Nat) :
    Option (Placing × List Usage) :=
  match p with
  | none => none
  | some (ps, us) =>
    match s.pickVariant c r us core with
    | none => none
    | some k =>
      match c.variant? k with
      | none => none
      | some v => some (ps ++ [(core, k)], us ++ [⟨core, v.tiles, v.scratch, (r.ngrp[k]?).getD 0⟩])

/-- Cores given for a launch suit its clusters: distinct cores of one quad that the list names, in increasing order
(R202). -/
def clustersOk (quads : List Nat) (k : Nat) (cores : List Nat) : Bool :=
  cores.zipIdx.all (fun p => quads.contains (quadOf p.1) &&
    (p.2 % k = 0 || match cores[p.2 - 1]? with
      | some q => q < p.1 && quadOf q == quadOf p.1
      | none => false))

/-- The placement of a launch on given cores (R311, R313). -/
def State.placeGiven (s : State) (c : CodeObj) (r : LaunchRec) (us : List Usage) (quads cores : List Nat) : Option Placing :=
  if cores.length != r.count || !clustersOk quads r.k cores then none
  else (cores.foldl (s.placeOn c r) (some ([], us))).map (·.1)

/-- Cores for one more cluster of n workgroups: the first quad with n cores that fit, its least loaded cores first. -/
def State.clusterCores (s : State) (c : CodeObj) (r : LaunchRec) (us : List Usage) (quads : List Nat) (n : Nat) :
    Option (List Nat) :=
  quads.findSome? (fun q =>
    let fit := ([0, 1, 2, 3].map (4 * q + ·)).filter (fun core => (s.pickVariant c r us core).isSome)
    let load (core : Nat) : Nat := (us.filter (fun u => u.core == core)).length
    let picked := ((fit.sortBy (fun a b => load a < load b || (load a == load b && a ≤ b))).take n).sortBy (fun a b => a < b)
    if picked.length = n then some picked else none)

/-- Cores for every workgroup of a launch, cluster by cluster, with fuel for the clusters. -/
def State.spread (s : State) (c : CodeObj) (r : LaunchRec) (quads : List Nat) : Nat → Nat → List Usage → Option (List Nat)
  | 0, left, _ => if left = 0 then some [] else none
  | fuel + 1, left, us =>
    if left = 0 then some []
    else
      let n := min r.k left
      match s.clusterCores c r us quads n with
      | none => none
      | some cs =>
        match cs.foldl (s.placeOn c r) (some ([], us)) with
        | none => none
        | some (_, us') => (s.spread c r quads fuel (left - n) us').map (cs ++ ·)

/-- The choices of n elements of a list, in its order. -/
def combos {α : Type} : Nat → List α → List (List α)
  | 0, _ => [[]]
  | _ + 1, [] => []
  | n + 1, x :: t => (combos n t).map (x :: ·) ++ combos (n + 1) t

/-- What a quad holds after some clusters of a launch, and the cores that they took. -/
structure Filled where
  us : List Usage
  cores : List Nat

/-- What decides the room left on a quad: workgroups, groups and scratchpad of each core, and the quad's tiles (R312). -/
def Filled.room (f : Filled) (q : Nat) : List (Nat × Nat × Nat) × Nat :=
  (([0, 1, 2, 3].map (4 * q + ·)).map (fun core =>
      let here := f.us.filter (fun u => u.core == core)
      (here.length, sumOf (here.map (·.ngrp)), sumOf (here.map (·.scratch)))),
    sumOf ((f.us.filter (fun u => quadOf u.core == q)).map (·.tiles)))

/-- Every way to place one more cluster of n workgroups on a quad, once for each room left. -/
def State.addCluster (s : State) (c : CodeObj) (r : LaunchRec) (q n : Nat) (fs : List Filled) : List Filled :=
  (fs.flatMap (fun f => (combos n ([0, 1, 2, 3].map (4 * q + ·))).filterMap (fun cs =>
    (cs.foldl (s.placeOn c r) (some ([], f.us))).map (fun p => (⟨p.2, f.cores ++ cs⟩ : Filled))))).foldl
    (fun l f => if l.any (fun g => g.room q == f.room q) then l else l ++ [f]) []

/-- The ways to place 0, 1, 2, … clusters on a quad, up to n or as many as fit. -/
def State.fillings (s : State) (c : CodeObj) (r : LaunchRec) (q : Nat) : Nat → List Filled → List (List Filled)
  | 0, fs => [fs]
  | n + 1, fs =>
    match s.addCluster c r q r.k fs with
    | [] => [fs]
    | fs' => fs :: s.fillings c r q n fs'

/-- Cores for n clusters, from the cores that each quad gives to 0, 1, 2, … of them. -/
def takeLevels : Nat → List (List (List Nat)) → Option (List Nat)
  | n, [] => if n = 0 then some [] else none
  | n, l :: rest =>
    let m := min n (l.length - 1)
    (takeLevels (n - m) rest).map ((l[m]?).getD [] ++ ·)

/-- Cores on which a launch can be placed, by a search of every placement: quads fill independently, and a last cluster
that is not full goes to some quad after the clusters there (R202, R311, R313, R329). -/
def State.searchCores (s : State) (c : CodeObj) (r : LaunchRec) (us : List Usage) (quads : List Nat) : Option (List Nat) :=
  let n := r.count / r.k
  let p := r.count % r.k
  let fills := quads.map (fun q => (q, s.fillings c r q n [⟨us, []⟩]))
  let full := fills.map (fun f => f.2.map (fun l => ((l.head?).map (·.cores)).getD []))
  if p = 0 then takeLevels n full
  else fills.zipIdx.findSome? (fun f =>
    (f.1.2.reverse.findSome? (fun l => (s.addCluster c r f.1.1 p l).head?)).bind (fun g =>
      let m := g.cores.length - p
      (takeLevels (n - m / r.k) (full.eraseIdx f.2)).map (fun rest => g.cores.take m ++ rest ++ g.cores.drop m)))

/-- The smallest of the needs of a launch's variants. -/
def leastNeed (c : CodeObj) (r : LaunchRec) (need : Variant → Nat → Nat) : Nat :=
  (earliest id ((List.range 4).filterMap (fun k => (c.variant? k).map (fun v => need v ((r.ngrp[k]?).getD 0))))).getD 0

/-- No more than so many workgroups of a launch fit a quad, whatever their variants (R311, R312). -/
def quadBound (c : CodeObj) (r : LaunchRec) (us : List Usage) (q : Nat) : Nat :=
  let times (room need : Nat) : Nat := if need = 0 then 256 else room / need
  let f : Filled := ⟨us, []⟩
  min (times (512 - (f.room q).2) (leastNeed c r (fun v _ => v.tiles)))
    (sumOf ((f.room q).1.map (fun h => min (64 - h.1) (min (times (256 - h.2.1) (leastNeed c r (fun _ n => n)))
      (times (524288 - h.2.2) (leastNeed c r (fun v _ => v.scratch)))))))

/-- Cores on which a launch can be placed (R311): the least loaded ones where that succeeds, else whatever a search of every
placement finds. -/
def State.findCores (s : State) (c : CodeObj) (r : LaunchRec) (us : List Usage) (quads : List Nat) : Option (List Nat) :=
  if r.k = 0 || sumOf (quads.map (quadBound c r us)) < r.count then none
  else
    match s.spread c r quads r.count r.count us with
    | some l => some l
    | none => s.searchCores c r us quads

/-! ### Images in the context area -/

/-- The largest image of a workgroup of a launch, with its cluster record and every group in its handler (R429, R430).
A group has at most 32 log entries of its partition, a workgroup those of four partitions. -/
def imageBytes (c : CodeObj) (r : LaunchRec) : Nat :=
  maxOf ((List.range 4).filterMap (fun k =>
    (c.variant? k).map (fun v =>
      let n := (r.ngrp[k]?).getD 0
      1024 + n * (ctxBytes v.regs c.width + 64 * c.width + 512) + 32 * min n 4 * 512 + v.scratch + v.tiles * 8704
        + n * c.width * 256 + 2048)))

/-- Images that the admitted workgroups of a partition could need. -/
def State.imagesOf (s : State) (part : Nat) : Nat :=
  sumOf ((s.launches.filter (fun l => l.part == part)).map (fun l =>
    match s.codeOf l with
    | some c => imageBytes c l.record * (s.wgs.filter (fun w => w.lid == l.lid && !w.retired)).length
    | none => 0))

/-- Bytes of a partition's context area (R439). -/
def State.areaBytes (s : State) (part : Nat) : Nat := ((s.part? part).map (·.areaFrames)).getD 0 * 65536

/-! ### The queue of a partition -/

/-- The partition that a VF is bound to. -/
def State.partOf (s : State) (vf : Nat) : Option Nat := (s.func? vf).bind (·.bound)

/-- Order in which eligible launches are considered (R310). -/
def QEntry.before (a b : QEntry) : Bool :=
  if a.level != b.level then b.level < a.level else if a.entered != b.entered then a.entered < b.entered else a.vf < b.vf

/-- The eligible launches of a partition that are not admitted. -/
def State.waitingLaunches (s : State) (part : Nat) : List QEntry :=
  s.queue.filter (fun e => !e.admitted && s.partOf e.vf == some part && s.eligible e)

/-- The eligible launch that the dispatcher considers next for a partition: every later one waits for it (R310). -/
def State.headLaunch (s : State) (part : Nat) : Option QEntry := firstBy QEntry.before (s.waitingLaunches part)

/-- The first eligible launch of each level of a partition: each is checked for refusal (R311). -/
def State.levelHeads (s : State) (part : Nat) : List QEntry :=
  (List.range 8).filterMap (fun l => firstBy QEntry.before ((s.waitingLaunches part).filter (fun e => e.level == l)))

/-- Quads on which a partition may take in or resume now (R409, R414). -/
def State.openQuads (s : State) (part : Nat) : List Nat :=
  (List.range 64).filter (fun q =>
    match s.quads[q]? with
    | some k => k.owner == some part && s.quadOpen q && k.idleUntil ≤ s.time 0
    | none => false)

/-- Quads that a row gives to a partition (R404). -/
def Row.quadsOf (r : Row) (part : Nat) : List Nat := (List.range 64).filter (fun q => (r.qmap[q]?).join == some part)

/-- A launch could be placed in some row with the partition otherwise empty (R311, R430). -/
def State.possible (s : State) (part : Nat) (c : CodeObj) (r : LaunchRec) : Bool :=
  imageBytes c r * r.count ≤ s.areaBytes part && s.rows.any (fun row => (s.findCores c r [] (row.quadsOf part)).isSome)

/-! ### Admission -/

/-- A thread at its first instruction (R97, R125, R313, R350). -/
def Thread.start (pc : W64) : Thread :=
  { pc := pc, exited := false, meet := 0, prio := 0, blockedUntil := 0, wait := .none, latches := Latches.cleared,
    preds := 0, fpstat := 0, key0 := 0, key1 := 0, trav := ⟨none, none⟩, lastLine := none, arrival := .noCheck,
    lastIssue := 0, passed := 0, demoted := false }

/-- A group at its first instruction, outside the active set (R313, R419, R420). -/
def Group.start (gid wid grp gslot width : Nat) (pc : W64) (la : Launch) (now : W64) : Group :=
  { gid := gid, wid := wid, grp := grp, gslot := gslot, ipart := 0, width := width,
    threads := List.replicate width (Thread.start pc), vregs := [], sregs := Cells.set [] 0 la.record.args,
    badV := [], badS := [],
    inh := false, deferred := false, stepFlag := false, blv := la.baseLevel, lvl := la.baseLevel, cause := 0, epc := 0,
    faddr := 0, finfo := 0, oplogTv := false, oplogTent := 0, asid := la.record.asid,
    viewcur := la.record.viewcur &&& 0x3FFFFFFFFF, cvs := [], mmas := [], ch := 0, eh := 0, tw := 0, wakeTick := 0,
    serviceTick := 0, cmds := [], cmdSeq := 0, keptCode := 0, keptTick := 0, pend := [], holds := [], traps := [],
    mxStall := none, atSwitch := none, frame := none, stepPath := 0, landing := none, landDie := none, landSince := 0, tier := .pending,
    tierSince := now, notIssuableSince := 0, passed := 0, lastIssue := 0, stopped := false, retired := false,
    forced := false, starved := false }

/-- The lowest n group slots of a core that are free (R311). -/
def State.freeSlots (s : State) (core n : Nat) : List Nat :=
  let used := (s.groups.filter (fun g => !g.retired && ((s.wg? g.wid).bind (·.core)) == some core)).map (·.gslot)
  ((List.range 256).filter (fun k => !used.contains k)).take n

/-- The groups of a new workgroup. -/
def State.startGroups (s : State) (la : Launch) (wid core n width : Nat) (pc : W64) : State :=
  let slots := s.freeSlots core n
  { s with
    groups := s.groups ++ (List.range n).map (fun j => Group.start (s.tick + j) wid j ((slots[j]?).getD 0) width pc la (s.cycle core))
    tick := s.tick + n }

/-- One workgroup of a launch starts: index, core, variant (R202, R236, R280, R313). -/
def State.startWg (s : State) (la : Launch) (c : CodeObj) (cid ix core k : Nat) : State :=
  match c.variant? k with
  | none => s
  | some v =>
    let r := la.record
    let n := (r.ngrp[k]?).getD 0
    let (wid, s) := s.newId
    let w : Workgroup :=
      { wid := wid, lid := la.lid, cid := cid, index := ix, wgx := (ix % r.nx), wgy := (ix / r.nx % r.ny),
        wgz := (ix / (r.nx * r.ny)), cwg := (ix % r.k), core := some core, variant := k, ngrp := n,
        prio := BitVec.ofNat 3 la.level, bars := List.replicate 16 Barrier.fresh, scratch := [], scratchSize := v.scratch,
        tiles := List.replicate 32 Tile.fresh, order := none, ended := false, retired := false, savedTick := 0 }
    { s with wgs := s.wgs ++ [w] }.startGroups la wid core n c.width (c.kobj + BitVec.ofNat 64 (v.entry + 4))

/-- One workgroup of a placement starts, and its cluster with the first of it. -/
def State.startPlaced (la : Launch) (c : CodeObj) (s : State) (p : (Nat × Nat) × Nat) : State :=
  let index := p.2
  let clus := index / la.record.k
  let s := if index % la.record.k = 0 then
      let (cid, s) := s.newId
      { s with clusters := s.clusters ++ [⟨cid, la.lid, clus, List.replicate 4 Barrier.fresh, List.replicate 16 0, [],
          List.replicate 16 [], [], []⟩] }
    else s
  let cid := ((s.clusters.find? (fun k => k.lid == la.lid && k.index == clus)).map (·.cid)).getD 0
  s.startWg la c cid index p.1.1 p.1.2

/-- Admits a queue entry under a placement (R311, R313, R418). -/
def State.takeIn (s : State) (e : QEntry) (part : Nat) (c : CodeObj) (pl : Placing) : State :=
  let (lid, s) := s.newId
  let la : Launch := ⟨lid, e.vf, e.id, part, e.level, e.record, e.record.fpctl &&& 0x1F, if e.firmware then 2 else 0, 0, Barrier.fresh, 0⟩
  let s : State := { s with
    launches := s.launches ++ [la]
    queue := s.queue.map (fun x => if x.vf = e.vf ∧ x.id = e.id then { x with admitted := true } else x) }
  pl.zipIdx.foldl (State.startPlaced la c) s

/-! ### Switch orders -/

/-- Group slot of a workgroup's group 0. -/
def State.slot0 (s : State) (w : Workgroup) : Nat :=
  ((s.groups.find? (fun g => g.wid == w.wid && g.grp == 0)).map (·.gslot)).getD 0

/-- A declared queue of the cluster has a slot byte of this workgroup at or above an offset (R314). -/
def State.queueAbove (s : State) (w : Workgroup) (lim : Nat) : Bool :=
  match s.cluster? w.cid with
  | none => false
  | some c => c.qslots.any (fun e => e.2.1 == w.wid && qDcl (c.qb e.1)
      && lim < e.2.2 + (qNs (c.qb e.1) + 1) * qBytes (c.qb e.1))

/-- A workgroup may be ordered to a variant (R314). -/
def State.mayOrder (s : State) (w : Workgroup) (u : Nat) : Bool :=
  match s.launch? w.lid, w.core with
  | some la, some core =>
    (match s.codeOf la with
      | none => false
      | some c =>
        match c.variant? w.variant, c.variant? u with
        | some vv, some vu =>
          w.order.isNone && !w.ended && (la.record.ngrp[u]?).getD 0 == w.ngrp
            && (List.range 256).any (fun n => c.listed n w.variant && c.listed n u)
            && s.variantFits (s.usages [w.wid]) c.width vu (s.groupCount w) core
            && (vv.scratch ≤ vu.scratch || !s.queueAbove w vu.scratch)
        | _, _ => false)
  | _, _ => false

/-- Makes an order (R314). It counts as pending at a point that a group has reached in this cycle (R301). -/
def State.order (s : State) (wid u : Nat) : State :=
  let s := s.modWg wid (fun w => { w with order := some ⟨u⟩ })
  (s.groups.filter (fun g => g.wid == wid && !g.retired && !g.inh)).foldl (fun s g =>
    match g.atSwitch, s.coreOf g with
    | some (n, t), some c => if s.cycle c = t then s.reachPoint wid g.gid n else s
    | _, _ => s) s

/-- Resident workgroups of a quad that make no edge. -/
def State.quadWgs (s : State) (q : Nat) : List Workgroup :=
  s.wgs.filter (fun w => !w.retired && !w.ended && w.core.any (fun c => quadOf c == q)
    && s.quadOpen q)

/-- Tiles or scratchpad of a quad were freed: orders to lower variants (R314). -/
def State.ordersOnFree (s : State) (q : Nat) : State :=
  let before (a b : Workgroup) : Bool :=
    if a.prio != b.prio then b.prio < a.prio
    else if a.core != b.core then a.core.getD 0 < b.core.getD 0
    else s.slot0 a < s.slot0 b
  ((s.quadWgs q).sortBy before).foldl (fun s w =>
    match (List.range w.variant).find? (s.mayOrder w) with
    | some u => s.order w.wid u
    | none => s) s

/-- Usage once every pending order has been carried out. -/
def State.usagesAfter (s : State) : List Usage :=
  (s.wgs.filter (fun w => !w.retired)).filterMap (fun w =>
    match w.core, (s.launch? w.lid).bind s.codeOf with
    | some core, some c =>
      let k := (w.order.map (·.target)).getD w.variant
      (c.variant? k).map (fun v => ⟨core, v.tiles, v.scratch, s.groupCount w⟩)
    | _, _ => none)

/-- Usage without the tiles, the scratchpad or both of one quad. -/
def freeQuad (us : List Usage) (q : Nat) (tiles scratch : Bool) : List Usage :=
  us.map (fun u => if quadOf u.core = q then
    { u with tiles := if tiles then 0 else u.tiles, scratch := if scratch then 0 else u.scratch } else u)

/-- A variant u of a workgroup frees what a launch needs on a quad: tiles where more tiles alone would let it in, scratchpad where more
scratchpad alone would, and some of either, taking no more of the other, where it needs both; what u takes counts (R314). -/
def State.freesNeed (s : State) (e : QEntry) (c : CodeObj) (q : Nat) (quads : List Nat) (w : Workgroup) (u : Nat) : Bool :=
  match (s.launch? w.lid).bind s.codeOf with
  | none => false
  | some k =>
    match k.variant? w.variant, k.variant? u with
    | some a, some b =>
      let after := (s.modWg w.wid (fun w => { w with order := some ⟨u⟩ })).usagesAfter
      let fits (us : List Usage) (tiles scratch : Bool) : Bool := (s.findCores c e.record (freeQuad us q tiles scratch) quads).isSome
      let lessT : Bool := b.tiles < a.tiles
      let lessS : Bool := b.scratch < a.scratch
      let now := s.usagesAfter
      (lessT && fits now true false && fits after true false) || (lessS && fits now false true && fits after false true)
        || (!fits now true false && !fits now false true && (lessT || lessS) && b.tiles ≤ a.tiles && b.scratch ≤ a.scratch)
    | _, _ => false

/-- Orders for a launch that only tiles or scratchpad of a quad block: to higher variants that free what it needs, one at a time, until
it would fit (R314). -/
def State.ordersForLaunch (s : State) (e : QEntry) (part : Nat) (c : CodeObj) (q : Nat) : State :=
  let quads := s.openQuads part
  if !quads.contains q || (s.findCores c e.record (freeQuad (s.usages []) q true true) quads).isNone then s
  else
    let before (a b : Workgroup) : Bool :=
      if a.prio != b.prio then a.prio < b.prio
      else if a.core != b.core then b.core.getD 0 < a.core.getD 0
      else s.slot0 b < s.slot0 a
    let lower (w : Workgroup) : Bool := (s.launch? w.lid).any (fun l => l.level < e.level && l.part == part)
    (((s.quadWgs q).filter lower).sortBy before).foldl (fun s w =>
      if (s.findCores c e.record s.usagesAfter quads).isSome then s
      else
        match (List.range 4).find? (fun u => w.variant < u && s.freesNeed e c q quads w u && s.mayOrder w u) with
        | some u => s.order w.wid u
        | none => s) s

/-- Saved workgroups of a partition, in the order of their save (R414). -/
def State.savedOf (s : State) (part : Nat) : List Workgroup :=
  (s.wgs.filter (fun w => w.core.isNone && !w.retired && (s.launch? w.lid).any (fun l => l.part == part))).sortBy
    (fun a b => a.savedTick < b.savedTick)

/-- The first launch of a level of a partition is considered: refused when no row could place it; the first of all is
admitted on the given cores, or left to wait (R310, R311, R314). -/
def State.considerLaunch (s : State) (vf id : Nat) (cores : List Nat) : State :=
  match s.partOf vf with
  | none => s
  | some part =>
    match (s.levelHeads part).find? (fun e => e.vf == vf && e.id.toNat == id) with
    | none => s
    | some e =>
      match s.code? e.record.asid e.record.kobj with
      | none => s.finishTask vf e.id 1 4 false
      | some c =>
        if !s.possible part c e.record then s.finishTask vf e.id 1 4 false
        else if s.headLaunch part != some e || s.savedOf part != [] then s
        else if s.areaBytes part < s.imagesOf part + imageBytes c e.record * e.record.count then s
        else
          match s.placeGiven c e.record (s.usages []) (s.openQuads part) cores with
          | some pl => s.takeIn e part c pl
          | none =>
            if (s.findCores c e.record (s.usages []) (s.openQuads part)).isSome then s
            else (s.openQuads part).foldl (fun s q => s.ordersForLaunch e part c q) s

/-- Cores that the dispatcher chooses for the next launch of a partition. -/
def State.chosenCores (s : State) (part : Nat) (e : QEntry) : List Nat :=
  match s.code? e.record.asid e.record.kobj with
  | none => []
  | some c => (s.findCores c e.record (s.usages []) (s.openQuads part)).getD []

/-! ### Retirement -/

/-- A launch whose workgroups have all retired completes, and its units are gone (R181, R384, R442). -/
def State.endLaunch (s : State) (lid : Nat) : State :=
  match s.launch? lid with
  | none => s
  | some la =>
    let mine := s.wgs.filter (fun w => w.lid == lid)
    if mine.any (fun w => !w.retired) then s
    else
      let wids := mine.map (·.wid)
      let s := s.finishTask la.vf la.id la.status.toNat la.status.toNat false
      { s with
        launches := s.launches.filter (fun l => l.lid != lid)
        clusters := s.clusters.filter (fun c => c.lid != lid)
        wgs := s.wgs.filter (fun w => w.lid != lid)
        groups := s.groups.filter (fun g => !wids.contains g.wid) }

/-- A workgroup whose groups have all retired frees what it holds (R102, R314, R387). -/
def State.retireWg (s : State) (wid : Nat) : State :=
  match s.wg? wid with
  | none => s
  | some w =>
    if w.retired || s.groups.any (fun g => g.wid == wid && !g.retired) then s
    else
      let held := s.heldVariants w
      let s := s.clearQueues wid
      let s := s.modWg wid (fun w => { w with retired := true, core := none, order := none, scratch := [], scratchSize := 0, tiles := [] })
      let s : State := { s with
        badScratch := s.badScratch.filter (fun b => b.1 != wid)
        groups := s.groups.map (fun g => if g.wid = wid then { g with vregs := [], sregs := [], badV := [], badS := [] } else g) }
      let s := match w.core with
        | some core => if held.any (fun v => v.tiles != 0 || v.scratch != 0) then s.ordersOnFree (quadOf core) else s
        | none => s
      s.endLaunch w.lid

/-- Nothing of a group is outstanding any more, and its writes have completed at package scope (R102, R262, R267). -/
def State.groupIdle (s : State) (g : Group) : Bool :=
  !s.ops.any (fun o => o.gid == g.gid) && !s.mx.any (fun e => e.gid == g.gid) && !s.acks.any (fun a => a.gid == g.gid)
    && g.cmds.all (fun k => k.isFree) && s.past g g.ch && s.past g g.eh && s.past g g.tw

/-- A group may retire now: not while it is saved, nor once the boundary of a slot edge that stops it has passed; an ended one
retires wherever it is (R398, R401). -/
def State.mayRetire (s : State) (g : Group) : Bool :=
  g.stopped || ((s.coreOf g).any (fun c => !s.edgePassed c) && ((s.wg? g.wid).bind (·.core)).any (fun c => !s.edgePassed c))

/-- A group whose threads have exited, or whose workgroup has ended, retires once its operations have completed (R102,
R392). -/
def State.retireGroup (s : State) (gid : Nat) : State :=
  match s.group? gid with
  | none => s
  | some g =>
    if g.retired || !(g.live = [] || g.stopped) || !s.groupIdle g || !s.mayRetire g then s
    else
      let s := (s.dropTraps gid).dissolve gid
      let s := s.modGroup gid (fun g => { g with retired := true, landing := none, tier := .parked })
      s.retireWg g.wid

/-! ### The rendezvous -/

/-- The point at which a group waits with every live thread (R110). -/
def Group.atPoint (g : Group) : Option Nat :=
  if g.frame.isSome then none
  else
    match g.threads.filter (fun t => !t.exited) with
    | [] => none
    | t :: ts =>
      match t.wait with
      | .switchpt n => if ts.all (fun u => u.wait == .switchpt n) then some n else none
      | _ => none

/-- The point at which every non-retired group of a workgroup waits (R110). -/
def State.meetingPoint (s : State) (wid : Nat) : Option Nat :=
  let gs := s.groups.filter (fun g => g.wid == wid && !g.retired)
  match gs with
  | [] => none
  | g :: rest =>
    match g.atPoint with
    | some n => if rest.all (fun h => h.atPoint == some n) then some n else none
    | none => none

/-- The addresses of a command's scratchpad sides (R185). -/
def CmdSlot.scratchAddrs (k : CmdSlot) : List W64 :=
  let side (b : Bool) (a : W64) : List W64 := if b then [a] else []
  match k.instr with
  | .cpy x => side (x.cmd.getLsbD 0) k.a ++ side (x.cmd.getLsbD 1) k.b
  | .cpyw x => side (x.cmd.getLsbD 0) k.a ++ side (x.cmd.getLsbD 1) k.b
  | .gath x => side (x.cmd.getLsbD 21) k.a ++ side (x.cmd.getLsbD 22) k.c
  | .scat x => side (x.cmd.getLsbD 21) k.b ++ side (x.cmd.getLsbD 22) k.c
  | _ => []

/-- A group's open commands with a scratchpad side in a workgroup's allocation (R151, R315). -/
def State.scratchCmds (s : State) (g : Group) (wid : Nat) : List CmdSlot :=
  match s.wg? g.wid with
  | some x => g.cmds.filter (fun k => !k.isFree && k.scratchAddrs.any (fun a => (s.scratchTarget x a 0).any (fun p => p.1 == wid)))
  | none => []

/-- An operation that the rendezvous waits for: a matrix access, an open entry of the log, or an access to a scratchpad, whose effect
comes before the move (R301, R315; DEDUCED of the last, log entry 67). A result still to come shows in the group's pending marks. -/
def MemOp.beforeMove (o : MemOp) : Bool := isTileMem o.instr || o.openEntry || o.scratch

/-- Nothing that the rendezvous waits for is outstanding (R301, R315). -/
def State.rendezvousClear (s : State) (wid : Nat) : Bool :=
  s.groups.all (fun g => g.retired || s.scratchCmds g wid == [])
  && (s.groups.filter (fun g => g.wid == wid && !g.retired)).all (fun g =>
    !s.ops.any (fun o => o.gid == g.gid && o.beforeMove) && !s.mx.any (fun e => e.gid == g.gid)
      && g.pend.all (fun p => p.lanes == 0))

/-- Pairs of locations, in the old and the new variant, of one kind of entry (R316). -/
def moves (es : List SwitchEnt) (kind v u : Nat) : List (Nat × Nat) :=
  (es.filter (fun e => e.kind == kind)).map (fun e => ((e.locs[v]?).getD 0, (e.locs[u]?).getD 0))

/-- A group's registers and program counters after the move (R316). -/
def Group.moveTo (g : Group) (es : List SwitchEnt) (v u : Nat) (pc : W64) : Group :=
  let vm := moves es 0 v u
  let sm := moves es 1 v u
  let pm := moves es 2 v u
  let vregs := (List.range g.width).flatMap (fun h => vm.map (fun m => (h * 256 + m.2, g.vreg h m.1)))
  { g with
    vregs := Cells.setAll [] vregs
    sregs := Cells.setAll [] (sm.map (fun m => (m.2, g.sreg m.1)))
    badV := [], badS := []
    threads := g.threads.map (fun t =>
      let t := { t with preds := pm.foldl (fun p m => if t.preds.getLsbD m.1 then p ||| ((1 : BitVec 8) <<< m.2) else p) 0 }
      if t.exited then t
      else { t with pc := pc, wait := .none, latches := Latches.cleared, lastLine := none, arrival := .noCheck }) }

/-- A workgroup's tiles and scratchpad after the move (R280, R316). -/
def Workgroup.moveTo (w : Workgroup) (es : List SwitchEnt) (v u old new : Nat) : Workgroup :=
  let tm := moves es 3 v u
  { w with
    tiles := (List.range 32).map (fun k => match tm.find? (fun m => m.2 == k) with
      | some m => w.tile m.1
      | none => Tile.fresh)
    scratch := w.scratch.clear (fun a => min old new ≤ a)
    scratchSize := new
    variant := u
    order := none }

/-- A workgroup that stands at a listed point moves to another variant (R110, R316). -/
def State.switchWg (s : State) (w : Workgroup) (c : CodeObj) (n u : Nat) : State :=
  match c.variant? w.variant, c.variant? u, c.points.find? (fun p => p.1 == u && p.2.1 == n) with
  | some vv, some vu, some p =>
    let es := c.switches.filter (fun e => e.point == n)
    let pc := nextPc (c.kobj + BitVec.ofNat 64 p.2.2)
    let s : State := { s with
      badScratch := s.badScratch.filter (fun b => b.1 != w.wid || 8 * b.2 < min vv.scratch vu.scratch)
      groups := s.groups.map (fun g => if g.wid = w.wid && !g.retired then g.moveTo es w.variant u pc else g) }
    s.modWg w.wid (fun w => w.moveTo es w.variant u vv.scratch vu.scratch)
  | _, _, _ => s

/-- The rendezvous completes (R110, R315, R316). -/
def State.rendezvous (s : State) (wid : Nat) : State :=
  match s.wg? wid with
  | none => s
  | some w =>
    match w.order, w.core, (s.launch? w.lid).bind s.codeOf, s.meetingPoint wid with
    | some o, some core, some c, some n =>
      if !s.rendezvousClear wid || !s.edgeOpen core then s
      else s.switchWg w c n o.target
    | _, _, _, _ => s

/-! ### Register tiers -/

/-- Units of 512 bytes of a group's context (R318). -/
def State.unitsOf (s : State) (g : Group) : Nat :=
  match (s.wg? g.wid).bind s.variantOf with
  | some v => ctxBytes v.regs g.width / 512
  | none => 0

/-- The group has an issuable thread. -/
def Group.issuable (g : Group) : Bool := !g.stopped && !g.retired && g.threads.any Thread.issuable

/-- Groups on a core. -/
def State.groupsOn (s : State) (core : Nat) : List Group :=
  s.groups.filter (fun g => !g.retired && s.coreOf g == some core)

/-- A register-writing result of the group is outstanding, that of a wait among them; logged destinations do not count (R59, R60,
R320). -/
def State.resultsOut (s : State) (g : Group) : Bool :=
  g.pend.any (fun p => p.lanes != 0 && !s.ops.any (fun o => o.id == p.op && o.lanes.all LaneReq.isLogged))

/-- Order of promotion (R320 rule 1). -/
def State.promoteBefore (s : State) (a b : Group) : Bool :=
  if s.wgPrio a != s.wgPrio b then s.wgPrio b < s.wgPrio a
  else if a.tierSince != b.tierSince then a.tierSince < b.tierSince
  else a.gslot < b.gslot

/-- The cycle from which a group that is not issuable has been so; one that has become so in this cycle comes last. -/
def Group.idleKey (g : Group) : Nat := if g.notIssuableSince = 0 then 2 ^ 64 else g.notIssuableSince.toNat

/-- Groups that may leave a tier for a candidate of a priority, in order: those not issuable, then those of lower priority
(R320 rule 2). -/
def State.leaveOrder (s : State) (prio : Nat) (gs : List Group) : List Group :=
  (gs.filter (fun g => !g.issuable)).sortBy (fun a b =>
    if a.idleKey != b.idleKey then a.idleKey < b.idleKey else a.gslot < b.gslot)
  ++ (gs.filter (fun g => g.issuable && s.wgPrio g < prio)).sortBy (fun a b =>
    if s.wgPrio a != s.wgPrio b then s.wgPrio a < s.wgPrio b
    else if a.tierSince != b.tierSince then a.tierSince < b.tierSince
    else a.gslot < b.gslot)

/-- Active groups that may be demoted for a candidate of a priority, in order (R320 rule 2). -/
def State.victims (s : State) (core prio : Nat) : List Group :=
  s.leaveOrder prio ((s.groupsOn core).filter (fun g => g.tier == .active && !s.resultsOut g))

/-- The first groups of a list whose units reach a need; none when all together do not. -/
def State.enough (s : State) : Nat → List Group → Option (List Group)
  | 0, _ => some []
  | _, [] => none
  | need, g :: t => (s.enough (need - s.unitsOf g) t).map (g :: ·)

/-- Moves a group to a tier. -/
def State.setTier (s : State) (core : Nat) (t : Tier) (g : Group) : State :=
  s.modGroup g.gid (fun g => { g with tier := t, tierSince := s.cycle core, passed := 0 })

/-- Pending groups beyond the pending file's room are parked in the order of rule 2 (R320 rule 4, R392). -/
def State.overflow (s : State) (core : Nat) : State :=
  let pend := (s.groupsOn core).filter (fun g => g.tier == .pending && g.landing.isNone)
  match s.enough (sumOf (pend.map s.unitsOf) - 3544) (s.leaveOrder 8 pend) with
  | some gs => gs.foldl (fun s g => s.modGroup g.gid (fun g => { g with tier := .parked })) s
  | none => s

/-- Active groups beyond the fast file's room, after a switch to a variant with more registers, leave in the order of rule 2
(R318, R320; log entry 49). -/
def State.trimActive (s : State) (core : Nat) : State :=
  let act := (s.groupsOn core).filter (fun g => g.tier == .active)
  match s.enough (sumOf (act.map s.unitsOf) - 1024) (s.leaveOrder 8 (act.filter (fun g => !s.resultsOut g))) with
  | some gs => gs.foldl (State.setTier · core .pending) s
  | none => s

/-- The register files of every core hold no more than their units (R318). -/
def State.fitTiers (s : State) : State :=
  ((s.groups.filter (fun g => !g.retired)).filterMap s.coreOf).eraseDups.foldl (fun s c => (s.trimActive c).overflow c) s

/-- Logged entries of a group return to the log of the partition where the group now issues, as do all its entries when it has
changed core: each keeps its number where that is free and takes the lowest free one otherwise (R375). -/
def State.moveEntries (s : State) (gid core ipart : Nat) : State :=
  (s.ops.filter (fun o => o.gid == gid && ((o.isLogged && (o.core != core || o.ipart != ipart)) || o.ipart == 4))).foldl (fun s o =>
    let free := s.freeEntries core ipart
    let e := if o.entry = 32 || free.contains o.entry then o.entry else (free.head?).getD o.entry
    let s := s.modOp o.id (fun o => { o with core := core, ipart := ipart, entry := e })
    s.modGroup gid (fun g => { g with
      oplogTent := if g.oplogTv && g.oplogTent.toNat = o.entry then BitVec.ofNat 5 e else g.oplogTent
      traps := g.traps.map (fun t => if t.op = o.id then { t with entry := t.entry.map (fun _ => e) } else t) })) s

/-- A group enters the active set when the victims given make room; it takes its partition at the end of the cycle, in its turn
(R203, R216, R320). -/
def State.promoteOver (s : State) (core : Nat) (g : Group) (vs : List Group) : Option State :=
  let used := sumOf (((s.groupsOn core).filter (fun x => x.tier == .active)).map s.unitsOf)
  match s.enough (used + s.unitsOf g - 1024) vs with
  | none => none
  | some out =>
    let s := out.foldl (State.setTier · core .pending) s
    let k := ((s.groupsOn core).filter (fun x => x.tier == .active && 4 ≤ x.ipart)).length
    some (((s.setTier core .active g).modGroup g.gid (fun g => { g with ipart := 4 + k })).overflow core)

/-- The groups that have entered the active set of a core in this cycle take their partitions, after its departures and in the order
of their promotion (R203, R216). -/
def State.takeParts (s : State) (core : Nat) : State :=
  (((s.groupsOn core).filter (fun g => g.tier == .active && 4 ≤ g.ipart)).sortBy (fun a b => a.ipart < b.ipart)).foldl (fun s g =>
    let p := s.pickIpart core
    (s.modGroup g.gid (fun g => { g with ipart := p })).moveEntries g.gid core p) s

/-- A group has a replay entry, or a serviced one, to perform once it is active (R320, R374, R396). -/
def State.replayWaits (s : State) (g : Group) : Bool :=
  s.ops.any (fun o => o.gid == g.gid && (o.lanes.any LaneReq.withdrawn || (o.log == .replay && o.isLogged)))

/-- A group outside the active set is a candidate for it: it is issuable, or has an entry to replay (R320, R396; DEDUCED, log entry
67). -/
def State.wantsIn (s : State) (g : Group) : Bool :=
  g.tier != .active && !g.stopped && !g.retired && (g.issuable || s.replayWaits g)

/-- Candidates of a core for the active set. -/
def State.waitingGroups (s : State) (core : Nat) : List Group := (s.groupsOn core).filter s.wantsIn

/-- The promotion of a group that has aged, where one has and finds room (R320 rule 3). -/
def State.aged (s : State) (core : Nat) : Option State :=
  let now := s.cycle core
  let old := ((s.waitingGroups core).filter (fun g => 65536 ≤ (now - g.tierSince).toNat)).sortBy s.promoteBefore
  let vs := ((s.groupsOn core).filter (fun g => g.tier == .active && !s.resultsOut g && 16384 ≤ (now - g.tierSince).toNat)).sortBy
    (fun a b => if a.tierSince != b.tierSince then a.tierSince < b.tierSince else a.gslot < b.gslot)
  old.findSome? (fun g => s.promoteOver core g vs)

/-- CONTEXT_PROMOTE (R320 rules 1 to 5); an ageing promotion of the same cycle is made first (R322). -/
def State.promoteNext (s : State) (core : Nat) : State :=
  if (s.aged core).isSome then s
  else (((s.waitingGroups core).sortBy s.promoteBefore).findSome? (fun g =>
    s.promoteOver core g (s.victims core (s.wgPrio g)))).getD s

/-- CONTEXT_AGEING (R320 rule 3). -/
def State.ageNext (s : State) (core : Nat) : State := (s.aged core).getD s

/-! ### Meanings -/

/-- GROUP_RETIRE (R102). -/
def execGroupRetire (gid : Nat) (s : State) : Host.Outcome State Fault Refusal := done s (s.retireGroup gid)
/-- LAUNCH_ADMIT (R310 to R314). -/
def execLaunchAdmit (vf id : Nat) (cores : List Nat) (s : State) : Host.Outcome State Fault Refusal :=
  done s (s.considerLaunch vf id cores).fitTiers
/-- SWITCH_RENDEZVOUS (R315, R316). -/
def execSwitchRendezvous (wid : Nat) (s : State) : Host.Outcome State Fault Refusal := done s (s.rendezvous wid).fitTiers
/-- CONTEXT_PROMOTE (R320). -/
def execContextPromote (core : Nat) (s : State) : Host.Outcome State Fault Refusal := done s (s.promoteNext core)
/-- CONTEXT_AGEING (R320). -/
def execContextAgeing (core : Nat) (s : State) : Host.Outcome State Fault Refusal := done s (s.ageNext core)

end Sys2Proof.Machine
end

