-- ==== Sys2Proof/Machine/FloatOps.lean ====
section
/-! DEFINITION. The floating-point instructions (R125 to R145). -/

namespace Sys2Proof.Machine

/-! ### Shared computations -/

/-- A value with its flags. -/
def flagged (v : W64) (f : Flags) : LaneOut := { val := v, flags := f }

/-- Element-wise results under a T code with the OR of their flags (R129). -/
def eachElem (t : Nat) (f : Nat → Nat × Flags) : LaneOut :=
  flagged (ofElems t (fun i => (f i).1)) ((List.range (elemN t)).foldl (fun r i => r ||| (f i).2) 0)

/-- Element-wise operation of A and B on encodings. -/
def laneF (x : XForm) (op : FFmt → Nat → Nat → Nat × Flags) (c : Ctx) (h : Nat) : LaneOut :=
  let t := x.t.toNat
  let va := c.val 1 h
  let vb := c.val 2 h
  eachElem t (fun i => op (fmtT t) (elemNat t i va) (elemNat t i vb))

/-- Element-wise operation of A, B and C that rounds once (R130). -/
def laneFma (x : XForm) (op : FFmt → Nat → Nat → Nat → FVal × Flags) (c : Ctx) (h : Nat) : LaneOut :=
  let t := x.t.toNat
  let va := c.val 1 h
  let vb := c.val 2 h
  let vc := c.val 3 h
  eachElem t (fun i =>
    let (v, nv) := op (fmtT t) (elemNat t i va) (elemNat t i vb) (elemNat t i vc)
    let (r, f) := (fmtT t).round x.rm.toNat false v
    (r, nv ||| f))

/-- A 32-bit integer result of a scalar floating source (R136, R140). -/
def laneF1 (x : XForm) (op : FFmt → Nat → Int × Flags) (c : Ctx) (h : Nat) : LaneOut :=
  let t := x.t.toNat
  let (v, f) := op (fmtT t) (elemNat t 0 (c.val 1 h))
  flagged ((BitVec.ofInt 32 v).setWidth 64) f

/-- FCMP (R134). -/
def laneFcmp (x : XForm) (c : Ctx) (h : Nat) : LaneOut :=
  let t := x.t.toNat
  let f := fmtT t
  let (b, fl) := fcompare x.c.toNat (f.unpack (elemNat t 0 (c.val 1 h))) (f.unpack (elemNat t 0 (c.val 2 h)))
  flagged (if b then 1 else 0) fl

/-- One element of FSET (R134). -/
def fsetElem (cond : Nat) (f : FFmt) (a b : Nat) : Nat × Flags :=
  let (r, fl) := fcompare cond (f.unpack a) (f.unpack b)
  (if r then f.const 0x161 else 0, fl)

/-- One element of FSGN (R135). -/
def fsgnElem (mode : Nat) (f : FFmt) (a b : Nat) : Nat × Flags :=
  let sa := a.testBit (f.width - 1)
  let sb := b.testBit (f.width - 1)
  let neg := match mode with
    | 0 => sb
    | 1 => !sb
    | 2 => sa != sb
    | 3 => false
    | _ => !sa
  (a % 2 ^ (f.width - 1) + f.sign neg, 0)

/-- FLDEXP (R139). -/
def laneLdexp (x : XForm) (c : Ctx) (h : Nat) : LaneOut :=
  let t := x.t.toNat
  let f := fmtT t
  let n := sext 32 (c.val 2 h).toNat
  match f.unpack (elemNat t 0 (c.val 1 h)) with
  | .nan s => flagged (BitVec.ofNat 64 f.nanBits) (flagIf fNV s)
  | .inf neg => flagged (BitVec.ofNat 64 (f.infBits neg)) 0
  | .fin neg m e =>
    let (r, fl) := f.roundFin x.rm.toNat false neg m (if m = 0 then e else ldexpExp f m e n) false
    flagged (BitVec.ofNat 64 r) fl
where
  /-- The scaled exponent, held within reach of the format: beyond it every n rounds alike. -/
  ldexpExp (f : FFmt) (m : Nat) (e n : Int) : Int :=
    let top : Int := (Nat.log2 m : Int) + e + n
    let lo : Int := f.qmin - 2 * (f.fb + 2)
    let hi : Int := 2 ^ f.eb
    if top < lo then lo - Nat.log2 m else if hi < top then hi - Nat.log2 m else e + n

/-- Element width of an R141 format in a register. -/
def cvtWidth (c : Nat) : Nat :=
  match c with
  | 0 => 64
  | 1 => 32
  | 2 => 16
  | 3 => 16
  | 8 => 4
  | _ => 8

/-- FCVT (R141). -/
def laneFcvt (x : XForm) (c : Ctx) (h : Nat) : LaneOut :=
  let dst := x.c.toNat % 16
  let src := x.c.toNat / 16 % 16
  let dk := x.imm.toNat % 8
  let sk := x.imm.toNat / 8 % 8
  let e := (c.val 1 h).toNat / 2 ^ (cvtWidth src * sk) % 2 ^ cvtWidth src
  let v := if src = 9 then unpackE8m0 e else (fmtCode src).unpack e
  let (r, fl) := (fmtCode dst).round x.rm.toNat (x.sat == 1) v
  let fl := fl ||| flagIf fNV v.isSig
  if dst ≤ 1 then flagged (BitVec.ofNat 64 r) fl
  else
    let w := cvtWidth dst
    let b := (c.val 2 h).toNat % 2 ^ 32
    let old := b / 2 ^ (w * dk) % 2 ^ w
    flagged (BitVec.ofNat 64 (b - old * 2 ^ (w * dk) + r * 2 ^ (w * dk))) fl

/-- F2I (R142). -/
def laneF2i (x : XForm) (c : Ctx) (h : Nat) : LaneOut :=
  let t := x.t.toNat
  let st := x.c.toNat
  let (r, fl) := f2int x.rm.toNat (loT t) (hiT t) ((fmtT st).unpack (elemNat st 0 (c.val 1 h)))
  flagged (BitVec.ofNat 64 (intMod (elemW t) r)) fl

/-- I2F (R143). -/
def laneI2f (x : XForm) (c : Ctx) (h : Nat) : LaneOut :=
  let (r, fl) := (fmtT x.t.toNat).round x.rm.toNat false (FVal.ofInt (elemInt x.c.toNat 0 (c.val 1 h)))
  flagged (BitVec.ofNat 64 r) fl

/-- Products of the 16-bit elements of A and B, n of them, summed with the FP32 addend C and rounded once (R144). -/
def laneDot (x : XForm) (n : Nat) (c : Ctx) (h : Nat) : LaneOut :=
  let f := fmtT x.t.toNat
  let el (v : W64) (i : Nat) : FVal := f.unpack (v.toNat / 2 ^ (16 * i) % 2 ^ 16)
  let va := c.val 1 h
  let vb := c.val 2 h
  let (v, nv) := sumProducts x.rm.toNat ((List.range n).map (fun i => (el va i, el vb i)))
    [fp32.unpack ((c.val 3 h).toNat % 2 ^ 32)]
  let (r, fl) := fp32.round x.rm.toNat false v
  flagged (BitVec.ofNat 64 r) (nv ||| fl)

/-- HFMA2 (R145). -/
def laneHfma2 (x : XForm) (c : Ctx) (h : Nat) : LaneOut :=
  let f := fmtT x.t.toNat
  let el (v : W64) (i w : Nat) : Nat := v.toNat / 2 ^ (w * i) % 2 ^ w
  let half (i : Nat) : Nat × Flags :=
    let (v, nv) := sumProducts x.rm.toNat [(f.unpack (el (c.val 1 h) i 16), f.unpack (el (c.val 2 h) i 16))]
      [fp32.unpack (el (c.val 3 h) i 32)]
    let (r, fl) := fp32.round x.rm.toNat false v
    (r, nv ||| fl)
  flagged (BitVec.ofNat 64 ((half 0).1 + (half 1).1 * 2 ^ 32)) ((half 0).2 ||| (half 1).2)

/-! ### Meanings -/

/-- FADD (R130). -/
def execFadd (x : XForm) (s : State) : Host.Outcome State Fault Refusal :=
  done s (issueWord (.fadd x) (laneOp (laneFma x (fun f a b _ => sumProducts x.rm.toNat [] [f.unpack a, f.unpack b]))) s)
/-- FSUB (R130). -/
def execFsub (x : XForm) (s : State) : Host.Outcome State Fault Refusal :=
  done s (issueWord (.fsub x) (laneOp (laneFma x (fun f a b _ => sumProducts x.rm.toNat [] [f.unpack a, (f.unpack b).negate]))) s)
/-- FMUL (R130). -/
def execFmul (x : XForm) (s : State) : Host.Outcome State Fault Refusal :=
  done s (issueWord (.fmul x) (laneOp (laneFma x (fun f a b _ => sumProducts x.rm.toNat [(f.unpack a, f.unpack b)] []))) s)
/-- FFMA (R130). -/
def execFfma (x : XForm) (s : State) : Host.Outcome State Fault Refusal :=
  done s (issueWord (.ffma x) (laneOp (laneFma x (fun f a b c => sumProducts x.rm.toNat [(f.unpack a, f.unpack b)] [f.unpack c]))) s)
/-- FMIN (R133). -/
def execFmin (x : XForm) (s : State) : Host.Outcome State Fault Refusal :=
  done s (issueWord (.fmin x) (laneOp (laneF x (fun f a b => f.minMax false false a b))) s)
/-- FMAX (R133). -/
def execFmax (x : XForm) (s : State) : Host.Outcome State Fault Refusal :=
  done s (issueWord (.fmax x) (laneOp (laneF x (fun f a b => f.minMax true false a b))) s)
/-- FMINNM (R133). -/
def execFminnm (x : XForm) (s : State) : Host.Outcome State Fault Refusal :=
  done s (issueWord (.fminnm x) (laneOp (laneF x (fun f a b => f.minMax false true a b))) s)
/-- FMAXNM (R133). -/
def execFmaxnm (x : XForm) (s : State) : Host.Outcome State Fault Refusal :=
  done s (issueWord (.fmaxnm x) (laneOp (laneF x (fun f a b => f.minMax true true a b))) s)
/-- FCMP (R134). -/
def execFcmp (x : XForm) (s : State) : Host.Outcome State Fault Refusal :=
  done s (issueWord (.fcmp x) (laneOp (laneFcmp x)) s)
/-- FSET (R134). -/
def execFset (x : XForm) (s : State) : Host.Outcome State Fault Refusal :=
  done s (issueWord (.fset x) (laneOp (laneF x (fsetElem x.c.toNat))) s)
/-- FCLASS (R136). -/
def execFclass (x : XForm) (s : State) : Host.Outcome State Fault Refusal :=
  done s (issueWord (.fclass x) (laneOp (laneF1 x (fun f a => (((2 ^ f.classBit a : Nat) : Int), 0)))) s)
/-- FSGN (R135). -/
def execFsgn (x : XForm) (s : State) : Host.Outcome State Fault Refusal :=
  done s (issueWord (.fsgn x) (laneOp (laneF x (fsgnElem x.c.toNat))) s)
/-- FDIV (R131). -/
def execFdiv (x : XForm) (s : State) : Host.Outcome State Fault Refusal :=
  done s (issueWord (.fdiv x) (laneOp (laneF x (fun f a b => f.div x.rm.toNat (f.unpack a) (f.unpack b)))) s)
/-- FSQRT (R131). -/
def execFsqrt (x : XForm) (s : State) : Host.Outcome State Fault Refusal :=
  done s (issueWord (.fsqrt x) (laneOp (laneF x (fun f a _ => f.sqrt x.rm.toNat (f.unpack a)))) s)
/-- FRCPE (R132). -/
def execFrcpe (x : XForm) (s : State) : Host.Outcome State Fault Refusal :=
  done s (issueWord (.frcpe x) (laneOp (laneF x (fun f a _ => f.recip (f.unpack a)))) s)
/-- FRSQE (R132). -/
def execFrsqe (x : XForm) (s : State) : Host.Outcome State Fault Refusal :=
  done s (issueWord (.frsqe x) (laneOp (laneF x (fun f a _ => f.rsqrt (f.unpack a)))) s)
/-- FRND (R138). -/
def execFrnd (x : XForm) (s : State) : Host.Outcome State Fault Refusal :=
  done s (issueWord (.frnd x) (laneOp (laneF x (fun f a _ => f.rnd x.rm.toNat a))) s)
/-- FLDEXP (R139). -/
def execFldexp (x : XForm) (s : State) : Host.Outcome State Fault Refusal :=
  done s (issueWord (.fldexp x) (laneOp (laneLdexp x)) s)
/-- FGETEXP (R140). -/
def execFgetexp (x : XForm) (s : State) : Host.Outcome State Fault Refusal :=
  done s (issueWord (.fgetexp x) (laneOp (laneF1 x (fun f a => fgetexp (f.unpack a)))) s)
/-- FCVT (R141). -/
def execFcvt (x : XForm) (s : State) : Host.Outcome State Fault Refusal :=
  done s (issueWord (.fcvt x) (laneOp (laneFcvt x)) s)
/-- F2I (R142). -/
def execF2i (x : XForm) (s : State) : Host.Outcome State Fault Refusal :=
  done s (issueWord (.f2i x) (laneOp (laneF2i x)) s)
/-- I2F (R143). -/
def execI2f (x : XForm) (s : State) : Host.Outcome State Fault Refusal :=
  done s (issueWord (.i2f x) (laneOp (laneI2f x)) s)
/-- DOT2 (R144). -/
def execDot2 (x : XForm) (s : State) : Host.Outcome State Fault Refusal :=
  done s (issueWord (.dot2 x) (laneOp (laneDot x 2)) s)
/-- DOT4 (R144). -/
def execDot4 (x : XForm) (s : State) : Host.Outcome State Fault Refusal :=
  done s (issueWord (.dot4 x) (laneOp (laneDot x 4)) s)
/-- HFMA2 (R145). -/
def execHfma2 (x : XForm) (s : State) : Host.Outcome State Fault Refusal :=
  done s (issueWord (.hfma2 x) (laneOp (laneHfma2 x)) s)
/-- FSAT (R137). -/
def execFsat (x : XForm) (s : State) : Host.Outcome State Fault Refusal :=
  done s (issueWord (.fsat x) (laneOp (laneF x (fun f a _ => f.clamp a))) s)

end Sys2Proof.Machine
end

