-- ==== Sys2Proof/Machine/Host.lean ====
section
/-! DEFINITION. The host interface: the register block, command and launch rings, completions, the aperture and
configuration requests (R433 to R443). -/

namespace Sys2Proof.Machine

/-! ### Functions and health status -/

/-- Functions 1 to 256 exist whether bound or not (R433); a function never touched has every register zero. -/
def State.withFunc (s : State) (fn : Nat) : State :=
  if (s.func? fn).isSome || 256 < fn then s else { s with funcs := s.funcs ++ [Func.reset fn] }

/-- Throttling now or within the last second (R473, R475). -/
def State.throttling (s : State) : Bool :=
  s.dies.any (fun d => d.clockSteps != 0) ||
    match s.throtEnd with
    | some t => s.time 0 < t + 1000000000
    | none => false

/-- HSTAT (R473). -/
def State.hstatNow (s : State) : W32 :=
  BitVec.ofNat 32 (boolNat s.replReq + 2 * boolNat s.degraded + 4 * boolNat s.recovery
    + 8 * boolNat (s.dies.any (fun d => !d.synced)) + 16 * boolNat s.throttling)

/-- A function is there: the device has booted, and a recovery PF has no VFs (R469, R472). -/
def State.answers (s : State) (fn : Nat) : Bool := s.boot.isNone && (fn == 0 || !s.recovery && fn ≤ 256)

/-- A change of HSTAT is signalled to the PF and to every VF (R433). -/
def State.noteHealth (s : State) : State :=
  let h := s.hstatNow
  if h = s.hstat || s.boot.isSome then s
  else
    ((List.range 256).map (· + 1)).foldl (fun s fn => if s.answers fn then s.signal fn 3 else s) (({ s with hstat := h }).signal 0 1)

/-! ### The register block -/

/-- Reads a register (R435). -/
def State.readReg (s : State) (fn off : Nat) : W64 :=
  match s.func? fn with
  | none => BitVec.ofNat 64 (if off = 0 then fn else 0)
  | some f =>
    match off with
    | 0x000 => BitVec.ofNat 64 (fn + (match f.bound with
        | some p => p * 65536 + 2 ^ 31
        | none => 0))
    | 0x008 => f.cqBase
    | 0x010 => f.cqCfg.setWidth 64
    | 0x018 => f.cqCi.setWidth 64
    | 0x020 => f.cpBase
    | 0x028 => f.cpCfg.setWidth 64
    | 0x02C => f.cpCi.setWidth 64
    | 0x080 => f.fqPi.setWidth 64
    | 0x084 => f.fqCi.setWidth 64
    | 0x090 => f.apAsid.setWidth 64
    | 0x098 => f.apBase
    | 0x0C0 => f.fstat.setWidth 64
    | n => if 0x060 ≤ n && n < 0x080 && n % 4 = 0 then ((f.lqCi[(n - 0x060) / 4]?).getD 0).setWidth 64 else 0

/-- Writes a register without behaviour of its own (R435): reserved bits read zero, other offsets are ignored. -/
def Func.writeReg (f : Func) (off : Nat) (v : W64) : Func :=
  match off with
  | 0x008 => { f with cqBase := v &&& ~~~63#64 }
  | 0x010 => { f with cqCfg := v.setWidth 32 &&& 0x8000000F }
  | 0x020 => { f with cpBase := v &&& ~~~63#64 }
  | 0x028 => { f with cpCfg := v.setWidth 32 &&& 0x8000000F }
  | 0x090 => { f with apAsid := v.setWidth 16 }
  | 0x098 => { f with apBase := v &&& ~~~0xFFFF#64 }
  | _ => f

/-- A doorbell was ignored, or an aperture access would have faulted (R435, R436). -/
def State.ringErr (s : State) (fn : Nat) : State := s.modFunc fn (fun f => { f with fstat := f.fstat ||| 1 })

/-! ### Command rings and completions -/

/-- Entries of a ring with a configuration word (R435). -/
def ringSize (cfg : W32) : Nat := 2 ^ (cfg.toNat % 16)

/-- The ring is enabled (R435). -/
def ringOn (cfg : W32) : Bool := cfg.getLsbD 31

/-- Entries of a ring position range: the n entries from index i, each of a size (R435). -/
def State.ringEntries (s : State) (base size len i n : Nat) : List (List Byte) :=
  (List.range n).map (fun k => s.hostMem.bytes (base + len * ((i + k) % size)) len)

/-- CQDB (R435): submits the entries up to a producer index, or is ignored. -/
def State.commandDoorbell (s : State) (fn : Nat) (v : W32) : State :=
  match s.func? fn with
  | none => s
  | some f =>
    let pidx : BitVec 16 := v.setWidth 16
    let n := (pidx - f.cqPi).toNat
    let size := ringSize f.cqCfg
    if !ringOn f.cqCfg || size < (f.cqPi - f.cqCi).toNat + n then s.ringErr fn
    else s.modFunc fn (fun f => { f with
      cqPi := pidx, cmds := f.cmds ++ s.ringEntries f.cqBase.toNat size 64 f.cqPi.toNat n })

/-- Deferred commands of a function that still owe a completion (R438). -/
def State.owed (s : State) (fn : Nat) : Nat :=
  boolNat (s.pendingTable.any (fun t => t.head.fn == fn)) + (s.tableWait.filter (fun t => t.1.fn == fn)).length
    + (s.deferredCmds.filter (fun d => match d with
        | .partDelete h _ _ => h.fn == fn
        | .keyRotate h _ _ => h.fn == fn)).length
    + boolNat (s.fwWait.any (fun w => w.head.fn == fn))

/-- The completion ring has a free entry for one more command (R438). -/
def State.completionFree (s : State) (fn : Nat) : Bool :=
  match s.func? fn with
  | none => false
  | some f => ringOn f.cpCfg && (f.cpPi - f.cpCi).toNat + s.owed fn < ringSize f.cpCfg

/-- Bytes of a completion (R437). -/
def completionBytes (tag : W32) (status phase : Nat) (result : W64) : List Byte :=
  natBytes 4 tag.toNat ++ natBytes 2 status ++ [byteOf phase, 0] ++ natBytes 8 result.toNat

/-- Writes a completion: PHASE inverts on each pass of the ring, and vector 0 is signalled when FLG asks for it (R433,
R437). -/
def State.complete (s : State) (h : CmdHead) (status : Nat) (result : W64) : State :=
  match s.func? h.fn with
  | none => s
  | some f =>
    let size := ringSize f.cpCfg
    let i := f.cpPi.toNat
    let bs := completionBytes h.tag status (1 - i / size % 2) result
    let s : State := { s with hostMem := s.hostMem.setBytes (f.cpBase.toNat + 16 * (i % size)) bs }
    let s := s.modFunc h.fn (fun f => { f with cpPi := f.cpPi + 1 })
    if h.flg.getLsbD 0 then s.signal h.fn 0 else s

/-- Firmware takes the oldest submitted command of a function, and the turn passes to the next function (R438). -/
def State.takeCommand (s : State) (fn : Nat) : State :=
  { s.modFunc fn (fun f => { f with cmds := f.cmds.drop 1, cqCi := f.cqCi + 1 }) with nextCmdFn := fn + 1 }

/-- Statuses (R440). -/
def stOk : Nat := 0
def stBadOpcode : Nat := 1
def stBadParam : Nat := 2
def stDenied : Nat := 3
def stNotFound : Nat := 4
def stExists : Nat := 5
def stBusy : Nat := 6
def stNoResource : Nat := 7
def stTable : Nat := 8
def stFormat : Nat := 9
def stNotOpen : Nat := 10
def stReplaced : Nat := 11
def stAborted : Nat := 12

/-! ### Reading a descriptor -/

/-- Number in n parameter bytes at an offset. -/
def par (d : List Byte) (off n : Nat) : Nat := fieldAt d (8 + off) n

/-- Every parameter byte outside the named spans is zero (R437). -/
def restZero (d : List Byte) (spans : List (Nat × Nat)) : Bool :=
  (List.range 56).all (fun k => spans.any (fun p => p.1 ≤ k && k < p.1 + p.2) || (d[8 + k]?).getD 0 == 0)

/-- The command that a descriptor holds, with the parameter spans that it names (R439, R462). -/
def commandOf (h : CmdHead) (d : List Byte) : Option (Instr × List (Nat × Nat)) :=
  let v (w off n : Nat) : BitVec w := BitVec.ofNat w (par d off n)
  match fieldAt d 0 2 with
  | 0x0001 => some (.partCreate h (v 8 0 1) (v 8 1 1) (v 64 8 8) (v 32 16 4), [(0, 2), (8, 12)])
  | 0x0002 => some (.partDelete h (v 8 0 1), [(0, 1)])
  | 0x0003 =>
    let n := par d 10 1
    some (.partMode h (v 64 0 8) (v 16 8 2) ((List.range n).map (fun k => (v 8 (16 + 2 * k) 1, v 8 (17 + 2 * k) 1))),
      [(0, 11), (16, 2 * n)])
  | 0x0004 => some (.slotWrite h (v 64 0 8) (v 16 8 2), [(0, 10)])
  | 0x0008 => some (.vfBind h (v 16 0 2) (v 8 2 1) (v 64 8 8) (v 8 16 1), [(0, 3), (8, 9)])
  | 0x0009 => some (.vfUnbind h (v 16 0 2), [(0, 2)])
  | 0x0010 => some (.asidCreate h (v 16 0 2) (v 16 2 2) (v 64 8 8) (v 16 16 2), [(0, 4), (8, 10)])
  | 0x0011 => some (.asidDelete h (v 16 0 2), [(0, 2)])
  | 0x0012 => some (.regionSet h (v 16 0 2) (v 8 2 1) (v 32 4 4), [(0, 3), (4, 4)])
  | 0x0013 => some (.leaseSet h (v 16 0 2) (v 16 2 2), [(0, 4)])
  | 0x0018 => some (.map h (v 16 0 2) (v 8 2 1) (v 8 3 1) (v 32 4 4) (v 64 8 8) (v 64 16 8), [(0, 24)])
  | 0x0019 => some (.unmap h (v 16 0 2) (v 8 2 1) (v 32 4 4) (v 64 8 8), [(0, 3), (4, 12)])
  | 0x001A => some (.frameGrant h (v 8 0 1) (v 8 1 1) (v 8 2 1) (v 8 3 1) (v 32 4 4) (v 64 8 8) (v 64 16 8), [(0, 24)])
  | 0x001B => some (.frameRevoke h (v 8 0 1) (v 32 4 4) (v 64 8 8), [(0, 1), (4, 12)])
  | 0x0020 => some (.codeLoad h (v 16 0 2) (v 64 8 8) (v 32 16 4) (v 64 24 8), [(0, 2), (8, 12), (24, 8)])
  | 0x0021 => some (.codeUnload h (v 16 0 2) (v 64 8 8), [(0, 2), (8, 8)])
  | 0x0022 => some (.lqCreate h (v 64 0 8) (v 8 8 1) (v 64 16 8) (v 8 24 1), [(0, 9), (16, 9)])
  | 0x0023 => some (.lqDelete h, [])
  | 0x0028 => some (.fsetCreate h (v 8 0 1) (v 8 1 1) (v 8 2 1) (v 32 4 4) (v 64 8 8), [(0, 3), (4, 12)])
  | 0x0029 => some (.fsetDelete h (v 8 0 1) (v 8 1 1), [(0, 2)])
  | 0x0030 => some (.keyRotate h (v 8 0 1), [(0, 1)])
  | 0x0031 =>
    match par d 4 1 with
    | 0 => some (.fqServiceReplay h (v 32 0 4), [(0, 5)])
    | 1 => some (.fqServiceDrop h (v 32 0 4), [(0, 5)])
    | 2 => some (.fqServiceTrap h (v 32 0 4), [(0, 5)])
    | _ => some (.fqServiceTrap h (v 32 0 4), [(0, 4)])
  | 0x0038 =>
    some (.collJoin h (v 8 0 1) (v 16 2 2) (v 16 4 2) (v 16 6 2) (v 32 8 4) (v 16 12 2) (v 64 16 8) (v 64 24 8),
      [(0, 1), (2, 12), (16, 16)])
  | 0x0039 => some (.collLeave h (v 8 0 1) (v 16 2 2), [(0, 1), (2, 2)])
  | 0x0040 => some (.attest h ((d.drop 8).take 32) (v 64 32 8), [(0, 40)])
  | 0x0041 => some (.health h (v 64 0 8), [(0, 8)])
  | _ => none

/-- Commands that a VF may issue, and those that only a VF issues (R439). -/
def vfMay : Instr → Bool
  | .codeLoad _ _ _ _ _ => true
  | .codeUnload _ _ _ => true
  | .lqCreate _ _ _ _ _ => true
  | .lqDelete _ => true
  | .fqServiceReplay _ _ => true
  | .fqServiceDrop _ _ => true
  | .fqServiceTrap _ _ => true
  | .attest _ _ _ => true
  | .health _ _ => true
  | _ => false
def pfMay : Instr → Bool
  | .lqCreate _ _ _ _ _ => false
  | .lqDelete _ => false
  | .fqServiceReplay _ _ => false
  | .fqServiceDrop _ _ => false
  | .fqServiceTrap _ _ => false
  | _ => true

/-- A recovery PF serves only HEALTH (R472). -/
def recoveryMay : Instr → Bool
  | .health _ _ => true
  | _ => false

/-- The oldest submitted command of a function: a command to run, or the status that refuses its descriptor (R437, R438,
R440, R472). -/
def State.headCommand (s : State) (fn : Nat) : Option (CmdHead × Except Nat Instr) :=
  match s.func? fn with
  | none => none
  | some f =>
    match f.cmds with
    | [] => none
    | d :: _ =>
      let h : CmdHead := ⟨fn, BitVec.ofNat 16 (fieldAt d 2 2), BitVec.ofNat 32 (fieldAt d 4 4)⟩
      match commandOf h d with
      | none => some (h, .error stBadOpcode)
      | some (i, spans) =>
        if s.recovery && !recoveryMay i then some (h, .error stDenied)
        else if !(if fn = 0 then pfMay i else vfMay i && f.bound.isSome) then some (h, .error stDenied)
        else if 1 < h.flg.toNat || !restZero d spans then some (h, .error stBadParam)
        else some (h, .ok i)

/-- Functions in the order of the round robin (R438). -/
def State.serveOrder (s : State) : List Nat :=
  let fs := ((s.funcs.map (·.fn)).filter s.answers).sortBy (fun a b => a < b)
  fs.filter (fun f => s.nextCmdFn ≤ f) ++ fs.filter (fun f => f < s.nextCmdFn)

/-- The next function whose ring firmware serves, with its command (R438). -/
def State.nextCommand (s : State) : Option (CmdHead × Except Nat Instr) :=
  if s.fwWait.isSome || s.boot.isSome then none else (s.serveOrder.filter s.completionFree).findSome? s.headCommand

/-- Firmware may take this command: it is about no other, and the turn of the round robin is the command's (R438). -/
def State.mayTake (s : State) (h : CmdHead) (i : Instr) : Bool :=
  match s.nextCommand with
  | some (h', .ok j) => h' == h && j == i
  | _ => false

/-- What a command ends with: the state, its status and its result. -/
structure CmdEnd where
  s : State
  status : Nat
  result : W64

/-- A refused command has no effect (R438). -/
def State.refuse (s : State) (status : Nat) : CmdEnd := ⟨s, status, 0⟩

/-- A command that is done. -/
def State.ok (s : State) (result : W64 := 0) : CmdEnd := ⟨s, stOk, result⟩

/-- A lease record has run out: TIME has passed it (R241). -/
def State.leasePassed (s : State) (lease : W64) : Bool := lease == 0 || lease < s.time 0

/-- A command that has run completes (R438). -/
def CmdEnd.complete (r : CmdEnd) (h : CmdHead) : State := r.s.complete h r.status r.result

/-- An immediate command: taken, run to completion and completed (R438). -/
def State.command (s : State) (h : CmdHead) (i : Instr) (run : State → CmdEnd) : State :=
  if !s.mayTake h i then s else (run (s.takeCommand h.fn)).complete h

/-- The largest lease record of the lines of some ranges, and the ranges' lines evicted from every cache (R241, R367). -/
def State.leaseOver (s : State) (rs : List (Nat × Nat × Nat)) : W64 :=
  rs.foldl (fun w r => maxT w (s.leaseBound r.1 (fun line => r.2.1 ≤ line * 64 && line * 64 < r.2.2))) 0
def State.evictOver (s : State) (rs : List (Nat × Nat × Nat)) : State :=
  rs.foldl (fun s r => s.evictLines r.1 (fun line => r.2.1 ≤ line * 64 && line * 64 < r.2.2)) s

/-- A command that changes what stands over some ranges: where it is not refused, their lines are evicted, and it runs and completes
once TIME has passed their leases (R241, R367, R438). -/
def State.commandOver (s : State) (h : CmdHead) (i : Instr) (rs : State → List (Nat × Nat × Nat)) (run : State → CmdEnd) : State :=
  if !s.mayTake h i then s
  else
    let s := s.takeCommand h.fn
    let lease := s.leaseOver (rs s)
    if (run s).status != stOk then (run s).complete h
    else if s.leasePassed lease then (run (s.evictOver (rs s))).complete h
    else { s.evictOver (rs s) with fwWait := some ⟨h, i, rs s, lease⟩ }

/-- A deferred command: accepted, or refused at once (R438). -/
def State.deferred (s : State) (h : CmdHead) (i : Instr) (run : State → Except Nat State) : State :=
  if !s.mayTake h i then s
  else
    let s := s.takeCommand h.fn
    match run s with
    | .ok s => s
    | .error status => s.complete h status 0

/-- Firmware refuses the next command when its descriptor holds no command that its function may issue (R437, R438). -/
def State.refuseBad (s : State) : State :=
  match s.nextCommand with
  | some (h, .error status) => (s.takeCommand h.fn).complete h status 0
  | _ => s

/-! ### Launch rings -/

/-- A host launch record (R441). -/
def State.parseLaunch (s : State) (vf : Nat) (bs : List Byte) : LaunchRec :=
  let asid : BitVec 16 := BitVec.ofNat 16 (fieldAt bs 0xA2 2)
  let w (off : Nat) : W64 := BitVec.ofNat 64 (fieldAt bs off 8)
  let r := parseTask s bs asid (BitVec.ofNat 32 (fieldAt bs 0xA8 4)) (w 0xB0) (w 0xB8)
  let k := fieldAt bs 0xA0 1
  let ngrp := (List.range 4).map (fun v => fieldAt bs (0xA4 + v) 1)
  let badGroups := match s.code? asid r.kobj with
    | none => true
    | some c => (List.range 4).any (fun v => c.vmask.getLsbD v &&
        ((ngrp[v]?).getD 0 == 0 || 32 < (ngrp[v]?).getD 0 || 1024 < (ngrp[v]?).getD 0 * c.width))
  let tvecOk := r.tvec == 0 || (r.tvec.toNat < 2 ^ 57 && 4 ≤ r.tvec.toNat % 64 && (r.tvec.toNat % 64 - 4) % 12 == 0)
  { r with
    k := k
    ngrp := ngrp
    user := w 0xC0
    fromHost := true
    malformed := r.malformed || k == 0 || 4 < k || (s.asid? asid.toNat).all (fun c => c.vf != vf) || badGroups
      || 32 ≤ r.fpctl.toNat || 2 ^ 38 ≤ r.viewcur.toNat || fieldAt bs 0xA1 1 != 0 || fieldAt bs 0xAC 4 != 0 || (bs.drop 0xC8).any (· != 0) || !tvecOk }

/-- Copies one submitted record of a level into the launch queue (R383, R441). -/
def State.copyRecord (s : State) (vf level : Nat) : State :=
  match s.func? vf with
  | none => s
  | some f =>
    let size := 2 ^ f.lqLog
    let i := ((f.lqCi[level]?).getD 0).toNat
    let bs := s.hostMem.bytes (f.lqBase.toNat + level * 256 * size + 256 * (i % size)) 256
    let (s, _) := s.addTask vf level (s.parseLaunch vf bs) none
    s.modFunc vf (fun f => { f with lqCi := modNth f.lqCi level (· + 1) })

/-- Copies up to n records of a level while the queue has room; the number left stays in the ring (R441). -/
def State.copyLevel (vf level : Nat) : Nat → State → State × Nat
  | 0, s => (s, 0)
  | n + 1, s => if s.queueFree vf then State.copyLevel vf level n (s.copyRecord vf level) else (s, n + 1)

/-- Copies submitted records in doorbell order while the queue has room (R441). -/
def State.copyRecords (vf : Nat) : List (Nat × Nat) → State → State
  | [], s => s.modFunc vf (fun f => { f with lqSubmitted := [] })
  | (level, n) :: rest, s =>
    match State.copyLevel vf level n s with
    | (s, 0) => State.copyRecords vf rest s
    | (s, k) => s.modFunc vf (fun f => { f with lqSubmitted := (level, k) :: rest })

/-- Records that wait in the rings are copied once the queue has room (R441). -/
def State.fillQueues (s : State) : State :=
  (s.funcs.filter (fun f => f.lqSubmitted != [] && s.queueFree f.fn)).foldl
    (fun s f => State.copyRecords f.fn f.lqSubmitted s) s

/-- LQDBn (R435, R441): submits the records up to a producer index, or is ignored. -/
def State.launchDoorbell (s : State) (vf level : Nat) (v : W32) : State :=
  match s.func? vf with
  | none => s
  | some f =>
    let pidx : BitVec 16 := v.setWidth 16
    let pi := (f.lqPi[level]?).getD 0
    let n := (pidx - pi).toNat
    if !f.lqMade || 8 ≤ level || 2 ^ f.lqLog < (pi - (f.lqCi[level]?).getD 0).toNat + n then s.ringErr vf
    else
      let s := s.modFunc vf (fun f => { f with
        lqPi := modNth f.lqPi level (fun _ => pidx), lqSubmitted := f.lqSubmitted ++ (if n = 0 then [] else [(level, n)]) })
      State.copyRecords vf (f.lqSubmitted ++ (if n = 0 then [] else [(level, n)])) s

/-! ### The aperture and configuration requests -/

/-- Sends a read completion over PCI Express. -/
def State.sendRead (s : State) (kind fn off : Nat) (bs : List Byte) : State :=
  { s with mgmt := s.mgmt ++ [⟨kind, natBytes 2 fn ++ natBytes 8 off ++ bs⟩] }

/-- An aperture access (R436): at APBASE plus the offset under APASID, which must belong to the function's partition. An
access that would fault reads all ones or is discarded, and sets RINGERR. -/
def State.aperture (s : State) (fn : Nat) (off : Nat) (write : Bool) (data : List Byte) : State :=
  match s.func? fn with
  | none => s
  | some f =>
    let n := data.length
    let va := f.apBase.toNat + off
    let own := match s.asid? f.apAsid.toNat with
      | some c => f.bound == some c.part
      | none => false
    let waits := f.bound.any (fun p => (s.part? p).any (·.rotating)) || s.shut f.apAsid.toNat va n
    if 2 ^ 34 < off + n || f.resetting || waits then s
    else
      let refused : State := if write then s.ringErr fn else (s.ringErr fn).sendRead 0x300 fn off (List.replicate n 0xFF)
      if !own || 2 ^ 57 < va + n then refused
      else if write then
        match s.engineWriteLr f.apAsid.toNat va data with
        | .ok (s, lr) => { s with dmaW := maxT s.dmaW s.latest, dmaLr := maxT s.dmaLr lr }
        | .error _ => refused
      else
        match s.engineReadAll f.apAsid.toNat va n with
        | .ok (s, bs, bad) => if bad then refused else s.sendRead 0x300 fn off bs
        | .error _ => refused

/-- A base address word: its low half says that it is 64 bits wide, and whether it is prefetchable (R434). -/
def barLow (pref : Bool) (bar : W64) : W32 := bar.setWidth 32 ||| (if pref then 0xC else 4)

/-- log2 of the size of BAR0 (R434). -/
def barLog (fn : Nat) : Nat := if fn = 0 then 20 else 16

/-- A configuration register, by byte offset (R434, R472): identity, class and BARs as the rule gives them, the rest of the
image open (log entry 70). -/
def State.configRead (s : State) (fn reg : Nat) : W32 :=
  let f := (s.func? fn).getD (Func.reset fn)
  let device : Nat := if s.recovery then 0xC4AF else if fn = 0 then 0xC4A0 else 0xC4A1
  match reg with
  | 0x00 => BitVec.ofNat 32 (Config.vendorId.toNat + device * 65536)
  | 0x08 => 0x12000000#32 ||| ((Config.configWord fn reg) &&& 0xFF)
  | 0x10 => barLow false f.bar0
  | 0x14 => (f.bar0 >>> 32).setWidth 32
  | 0x18 => if s.recovery then 0 else barLow true f.bar2
  | 0x1C => if s.recovery then 0 else (f.bar2 >>> 32).setWidth 32
  | _ => Config.configWord fn reg

/-- A configuration write (R434): a BAR keeps the address bits above its size. -/
def Func.configWrite (f : Func) (reg : Nat) (v : W32) : Func :=
  let low (b : W64) (log : Nat) : W64 := ((b >>> 32 <<< 32) ||| v.setWidth 64) >>> log <<< log
  let high (b : W64) : W64 := (v.setWidth 64 <<< 32) ||| (b.setWidth 32).setWidth 64
  match reg with
  | 0x10 => { f with bar0 := low f.bar0 (barLog f.fn) }
  | 0x14 => { f with bar0 := high f.bar0 }
  | 0x18 => { f with bar2 := low f.bar2 34 }
  | 0x1C => { f with bar2 := high f.bar2 >>> 34 <<< 34 }
  | _ => f

/-- Answers a configuration request: a read with the register, a write with its completion, and one that arrives before
step 0x08 completes with Configuration Request Retry Status; a recovery PF has no VFs (R434, R469, R472). -/
def State.configRequest (s : State) (fn reg : Nat) (write : Option W32) : State :=
  if s.boot.isSome then s.sendRead 0x302 fn reg []
  else if !s.answers fn then s
  else
    match write with
    | none => s.sendRead 0x301 fn reg (natBytes 4 (s.configRead fn reg).toNat)
    | some v => ((s.withFunc fn).modFunc fn (fun f => f.configWrite reg v)).sendRead 0x303 fn reg []

/-- An access to a function's registers or aperture, which only a function that is there takes (R469, R472). -/
def State.access (s : State) (fn : Nat) (f : State → State) : State := if s.answers fn then f (s.withFunc fn) else s

/-! ### Meanings -/

/-- CQDB (R435). -/
def execCqdb (fn : Nat) (value : W32) (s : State) : Host.Outcome State Fault Refusal :=
  done s (s.access fn (·.commandDoorbell fn value))
/-- LQDB (R435, R441). -/
def execLqdb (fn level : Nat) (value : W32) (s : State) : Host.Outcome State Fault Refusal :=
  done s (s.access fn (·.launchDoorbell fn level value))
/-- CPCI (R435). -/
def execCpci (fn : Nat) (value : W32) (s : State) : Host.Outcome State Fault Refusal :=
  done s (s.access fn (·.modFunc fn (fun f => { f with cpCi := value.setWidth 16 })))
/-- FQCI (R443). -/
def execFqci (fn : Nat) (value : W32) (s : State) : Host.Outcome State Fault Refusal :=
  done s (s.access fn (fun s => (s.modFunc fn (fun f => { f with fqCi := value })).postHeld fn))
/-- APSYNC (R436): reads 0; the writes before it were applied when they were made, so their acknowledgement changes no
state. -/
def execApsync (fn : Nat) (s : State) : Host.Outcome State Fault Refusal := 
  done s (s.access fn (·.sendRead 0x300 fn 0xA0 (natBytes 8 0)))
/-- FSTAT (R435). -/
def execFstat (fn : Nat) (value : W32) (s : State) : Host.Outcome State Fault Refusal :=
  done s (s.access fn (·.modFunc fn (fun f => { f with fstat := f.fstat &&& ~~~(value.setWidth 2) })))
/-- A write of another register (R435). -/
def execRegisterWrite (fn off : Nat) (value : W64) (s : State) : Host.Outcome State Fault Refusal :=
  done s (s.access fn (·.modFunc fn (fun f => f.writeReg off value)))
/-- APERTURE_ACCESS (R436). -/
def execApertureAccess (fn : Nat) (off : W64) (write : Bool) (data : List Byte) (s : State) : Host.Outcome State Fault Refusal :=
  done s (s.access fn (fun s => if s.recovery then s else s.aperture fn off.toNat write data))
/-- CONFIG_REQUEST (R434). -/
def execConfigRequest (fn : Nat) (access : ConfigAccess) (s : State) : Host.Outcome State Fault Refusal :=
  done s (s.configRequest fn access.reg access.write)

end Sys2Proof.Machine
end

