-- ==== Sys2Proof/Machine/Slots.lean ====
section
/-! DEFINITION. The slot table in time: boundaries, slot edges, saves and resumes, Overrun, donation, and the deferred
commands that boundaries carry out (R316, R317, R394 to R398, R403 to R417, R429, R438, R439, R445). -/

namespace Sys2Proof.Machine

/-- Replaces a quad by f of it. -/
def State.modQuad (s : State) (q : Nat) (f : QuadState → QuadState) : State := { s with quads := modNth s.quads q f }

/-! ### The stop -/

/-- Groups that a slot edge on a quad stops: those of workgroups placed there and those landed there (R409). -/
def State.stopGroups (s : State) (q : Nat) : List Group :=
  s.groups.filter (fun g => !g.retired &&
    (((s.wg? g.wid).bind (·.core)).any (fun c => quadOf c == q) || g.landing.any (fun l => quadOf l.core == q)))

/-- A chain not yet accepted becomes a replay entry (R396). -/
def MemOp.withdraw (o : MemOp) : MemOp :=
  if o.instr.isAtomic || o.instr.isDeque then
    { o with lanes := o.lanes.map (fun l => if l.isTodo then
        { l with stage := .logged ⟨0, 0, false, false, l.addr, 0, none, 0⟩ } else l) }
  else o

/-- Issue stops for a group: REGROUP and Flock waits end, and unaccepted chains are withdrawn (R116, R396, R409). -/
def State.stopGroup (s : State) (gid : Nat) : State :=
  let s := (s.dissolve gid).modGroup gid (fun g => g.mapThreads (fun t => match t.wait with
    | .regroup _ _ _ => { t with wait := .none }
    | _ => t))
  { s with ops := s.ops.map (fun o => if o.gid = gid then o.withdraw else o) }

/-- Issue stops on a quad for a boundary (R409). -/
def State.stopAt (s : State) (q b : Nat) : State :=
  let s := (s.stopGroups q).foldl (fun s g => s.stopGroup g.gid) s
  s.modQuad q (fun k => { k with edge := .stopped, leaver := k.owner, bound := BitVec.ofNat 64 b, overran := false })

/-- ISSUE_STOP of a quad, 20 µs before its owner leaves it (R409). -/
def State.issueStop (s : State) (q : Nat) : State :=
  match s.quads[q]?, s.leavesAt q with
  | some k, some b => if k.edge == .running && s.stopDue q then s.stopAt q b else s
  | _, _ => s

/-! ### Quiescence and the save -/

/-- A lane stands until an entry of its group is replayed: it is logged, or it waits behind lanes that stand; `t` is the state with
only those (R153, R155, R264, R410). -/
def State.stands (s t : State) (o : MemOp) (l : LaneReq) : Bool :=
  l.isLogged || (l.isTodo &&
    ((2 ≤ o.instr.order && t.ops.any (fun x => x.gid == o.gid && x.id < o.id && x.instr.isStore && x.lanes != []))
      || t.behind o l (fun _ => true) || t.travBlocked o l.lane || t.travBehind o || (isTileMem o.instr && s.tileBehind t o)))

/-- The lanes that stand, as (operation, lane), found in order of issue. -/
def State.standing (s : State) : List (Nat × Nat) :=
  (s.ops.sortBy (fun a b => a.id < b.id)).foldl (fun held o => o.lanes.foldl (fun held l =>
    let t : State := { s with ops := s.ops.map (fun x => { x with lanes := x.lanes.filter (fun y => held.contains (x.id, y.lane)) }) }
    if s.stands t o l then held ++ [(o.id, l.lane)] else held) held) []

/-- An operation that a save need not wait for: every lane stands until an entry of the group is replayed; or it is a LAUNCH, a DROP or
a PROMOTE, which no item of the rule names (R410). -/
def MemOp.quiet (o : MemOp) (standing : List (Nat × Nat)) : Bool :=
  isLaunch o.instr || isCacheOp o.instr || o.lanes.all (fun l => standing.contains (o.id, l.lane))

/-- A command that a save need not wait for: finished, paused with a record, or behind such a command (R190, R410). -/
def Group.cmdQuiet (g : Group) (k : CmdSlot) : Bool := k.isFree || (!k.performed && (k.fid.isSome || (k.round.isNone && g.pathBusy k)))

/-- Quiescence of the groups that stopped on a quad: their writes have completed at package scope too (R279, R410). -/
def State.quiet (s : State) (q : Nat) : Bool :=
  let st := s.standing
  (s.stopGroups q).all (fun g =>
    (s.ops.filter (fun o => o.gid == g.gid)).all (fun o => o.quiet st) && !s.acks.any (fun a => a.gid == g.gid)
      && !s.mx.any (fun e => e.gid == g.gid) && g.cmds.all g.cmdQuiet && s.past g g.ch)

/-- QUIESCENCE_COMPLETE (R410). -/
def State.quiesce (s : State) (q : Nat) : State :=
  match s.quads[q]? with
  | some k => if k.edge == .stopped && s.quiet q then s.modQuad q (fun k => { k with edge := .quiesced }) else s
  | none => s

/-- A thread as it is saved from a core: a back-off keeps its remaining count, and a MIGRATE that waits stands before the
instruction again (R111, R182). -/
def Thread.saved (t : Thread) (now : W64) : Thread :=
  match t.wait with
  | .backoff => { t with blockedUntil := if now < t.blockedUntil then t.blockedUntil - now else 0 }
  | .migrate _ _ _ => { t with wait := .none, pc := prevPc t.pc }
  | _ => t

/-- A thread as it resumes on a core (R111). -/
def Thread.resumed (t : Thread) (now : W64) : Thread :=
  match t.wait with
  | .backoff => { t with blockedUntil := t.blockedUntil + now }
  | _ => t

/-- A group that resumes competes for the active set (R320). -/
def Group.awake (g : Group) (now : W64) : Group :=
  { (g.mapThreads (Thread.resumed · now)) with tier := .pending, tierSince := now, passed := 0 }

/-- A group is saved: a landed group keeps its landing die, one that waits for a slot resumes unmigrated. The L1 of the core where it
landed drops the lines of its address space (R248, R394, R397). -/
def State.saveGroup (s : State) (gid : Nat) : State :=
  match s.group? gid with
  | none => s
  | some g =>
    let now := s.cycle ((s.coreOf g).getD 0)
    let waits : Bool := g.migrateWait.any (fun w => w.2.2.isSome)
    let die := if waits then none else (g.landing.map (fun l => dieOf l.core)).orElse (fun _ => g.landDie)
    let s := match g.landing with
      | some l => (s.dropL1 (fun x => x.core == l.core && x.asid == g.asid.toNat)).dropPath (fun x => x.core == l.core && x.asid == g.asid.toNat)
      | none => s
    s.modGroup gid (fun g => { (g.mapThreads (Thread.saved · now)) with
      landing := none, landDie := die, landSince := now, tier := .parked })

/-- A workgroup is saved: it leaves its core and keeps what its image holds (R397, R414, R429). -/
def State.saveWg (s : State) (wid : Nat) : State :=
  let gids := (s.groups.filter (fun g => g.wid == wid && !g.retired)).map (·.gid)
  let s := gids.foldl State.saveGroup s
  let (t, s) := s.newId
  s.modWg wid (fun w => { w with core := none, savedTick := t })

/-- Every context of a quad is saved; groups and workgroups with nothing left retire instead (R394, R398, R410). -/
def State.saveQuad (s : State) (q : Nat) : State :=
  let s := (s.stopGroups q).foldl (fun s g => s.retireGroup g.gid) s
  let wids := (s.wgs.filter (fun w => !w.retired && w.core.any (fun c => quadOf c == q))).map (·.wid)
  let landed := (s.stopGroups q).filter (fun g => !wids.contains g.wid)
  let s := wids.foldl State.saveWg s
  landed.foldl (fun s g => s.saveGroup g.gid) s

/-- Nanoseconds as whole microseconds, saturating at 32 bits (R450). -/
def addSat (a : W32) (n : Nat) : W32 := if 2 ^ 32 ≤ a.toNat + n then BitVec.allOnes 32 else a + BitVec.ofNat 32 n

/-- Another quad that a partition left at a boundary is still unfinished, or overran there. -/
def State.overranElse (s : State) (q : Nat) (p : Option Nat) (b : W64) (unfinished : Bool) : Bool :=
  s.quads.zipIdx.any (fun e => e.2 != q && e.1.leaver == p && e.1.bound == b
    && if unfinished then e.1.edge != .running else e.1.overran)

/-- An Overrun is recorded once for a partition and a boundary, and the PF is told; none for a rotation (R413, R433,
R445). -/
def State.overrunAt (s : State) (q : Nat) : State :=
  match s.quads[q]? with
  | none => s
  | some k =>
    match k.leaver with
    | none => s
    | some p =>
      if k.overran || (s.part? p).all (·.rotating) then s
      else
        let s' := s.modQuad q (fun k => { k with overran := true })
        if s.overranElse q k.leaver k.bound false then s'
        else (s'.modPart p (fun x => { x with overruns := addSat x.overruns 1 })).signal 0 3

/-- OVERRUN: a save is unfinished 10 µs after the boundary (R413). -/
def State.overrunDue (s : State) (q : Nat) : State :=
  match s.quads[q]? with
  | some k =>
    if (k.edge == .stopped || k.edge == .quiesced) && k.bound.toNat + 10000 < (s.time 0).toNat
      && k.bound ≤ s.rowStart then s.overrunAt q else s
  | none => s

/-- The excess of the last quad that a partition saves late at a boundary: it goes to the total, and the partition owes it
at its next entry (R413). -/
def State.excessAt (s : State) (q : Nat) : State :=
  match s.quads[q]? with
  | none => s
  | some k =>
    match k.leaver with
    | none => s
    | some p =>
      if !k.overran || s.overranElse q k.leaver k.bound true then s
      else
        let x := (s.time 0).toNat - k.bound.toNat
        s.modPart p (fun y => { y with excessUs := addSat y.excessUs (x / 1000), carry := max y.carry x })

/-- Table changes whose leaving quads have all been saved complete (R415). -/
def State.settleTables (s : State) : State :=
  let ready := s.tableWait.filter (fun t => !s.quads.any (fun k => k.edge != .running && k.bound == t.2))
  ready.foldl (fun s t => s.complete t.1 stOk 0) { s with tableWait := s.tableWait.filter (fun t => !ready.contains t) }

/-- The quad's cores and engine are cleared for the next partition (R412). -/
def State.clearQuad (s : State) (q : Nat) : State :=
  (s.dropL1 (fun x => quadOf x.core == q)).dropPath (fun x => quadOf x.core == q)

/-- CONTEXT_SAVE_COMPLETE: the images are written and the quad is cleared; after the boundary the entering partition may
begin (R409, R412). -/
def State.saveDone (s : State) (q : Nat) : State :=
  match s.quads[q]? with
  | some k =>
    if k.edge != .quiesced then s
    else
      let s := (s.saveQuad q).clearQuad q
      if k.bound ≤ s.rowStart then
        let s := if k.bound.toNat + 10000 < (s.time 0).toNat then s.overrunAt q else s
        let s := s.excessAt q
        (s.modQuad q (fun k => { k with edge := .running })).settleTables
      else s.modQuad q (fun k => { k with edge := .saved })
  | none => s

/-! ### Deferred commands at a boundary -/

/-- A snapshot command (R226, R228). -/
def snapshotOf : Instr → Bool
  | .publish _ => true
  | .vhold _ => true
  | .vrel _ => true
  | _ => false

/-- Open commands that satisfy p end with ABORTED (R186, R229, R444). -/
def State.abortCmds (s : State) (p : Group → CmdSlot → Bool) : State :=
  s.groups.foldl (fun s g => (List.range 16).foldl (fun s j =>
    match g.cmds[j]? with
    | some k => if p g k then s.cmdPerformed g.gid j 0x08 0 else s
    | none => s) s) s

/-- A field set is deleted: its open commands end with ABORTED, its holds are discarded, and its frames stay with the
partition, free, a pinned one once it is unpinned (R233). -/
def State.dropFset (s : State) (part num : Nat) : State :=
  match s.fset? part num with
  | none => s
  | some f =>
    let open' (g : Group) (k : CmdSlot) : Bool :=
      !k.isFree && !k.performed && snapshotOf k.instr && viewSet k.a == num && s.partOfGroup g == some part && f.num == num
    let s : State := { s with
      fsets := s.fsets.filter (fun x => !(x.part == part && x.num == num))
      pinnedFree := s.pinnedFree.map (fun e => if e.part = part ∧ e.fset = some num then { e with fset := none } else e) }
    s.abortCmds open'

/-- Drops every cached line and translation of an ASID without write-back (R255). -/
def State.forgetAsid (s : State) (asid : Nat) : State :=
  { s with
    l1 := s.l1.filter (fun x => x.asid != asid), rdc := s.rdc.filter (fun x => x.asid != asid)
    home := s.home.filter (fun x => x.asid != asid), notices := s.notices.filter (fun x => x.asid != asid)
    tlb := s.tlb.filter (fun x => x.asid != asid) }

/-- A partition is torn down: its key is discarded, its frames and field sets return to firmware, the scope records of its
lines go, its groups and rounds in collectives end (R233, R255, R269, R439, R459). -/
def State.tearDown (s : State) (p : Nat) : State :=
  let asids := (s.asids.filter (fun c => c.part == p)).map (·.asid)
  let s := asids.foldl State.forgetAsid s
  { s with
    parts := s.parts.filter (fun x => x.num != p)
    asids := s.asids.filter (fun c => c.part != p)
    codes := s.codes.filter (fun c => !asids.contains c.asid.toNat)
    fsets := s.fsets.filter (fun f => f.part != p)
    pages := s.pages.filter (fun g => g.part != p)
    pinnedFree := s.pinnedFree.filter (fun e => e.part != p)
    hbmScope := s.hbmScope.filter (fun e => (s.frameOwners.get (e.1 / 1024) &&& 0x3F).toNat != p)
    frameOwners := s.frameOwners.filter (fun e => (e.2 &&& 0x3F).toNat != p)
    colls := s.colls.filter (fun c => c.part != p)
    collLeft := (s.colls.filter (fun c => c.part == p)).map (fun c => (c.part, c.group)) ++ s.collLeft }

/-- A deferred command other than a table change takes effect (R439, R445). -/
def State.runDeferred (s : State) : Deferred → State
  | .partDelete h p _ => (s.tearDown p).complete h stOk 0
  | .keyRotate _ p _ => s.modPart p (fun x => { x with rotating := true })

/-- Deferred commands that a boundary carries out; a rotation stays listed until it completes (R438, R445). -/
def State.deferredAt (s : State) (b : Nat) : State :=
  let due := s.deferredCmds.filter (fun d => match d with
    | .partDelete _ _ t => dueBy t b
    | .keyRotate _ p t => dueBy t b && !(s.part? p).any (·.rotating))
  let s : State := { s with deferredCmds := s.deferredCmds.filter (fun d => match d with
    | .partDelete _ _ t => !dueBy t b
    | .keyRotate _ _ _ => true) }
  due.foldl State.runDeferred s

/-- A table change takes effect: rows, parents, and a completion owed (R415, R439). -/
def State.tableAt (s : State) (b : Nat) : State :=
  match s.pendingTable with
  | some t =>
    if dueBy t.accepted b then
      { s with
        rows := t.rows, curRow := 0, pendingTable := none
        tableWait := s.tableWait ++ [(t.head, BitVec.ofNat 64 b)]
        parts := s.parts.map (fun p => match t.children.find? (fun c => c.1 == p.num) with
          | some c => { p with parent := c.2 }
          | none => p) }
    else { s with curRow := (s.curRow + 1) % s.rows.length }
  | none => { s with curRow := (s.curRow + 1) % s.rows.length }

/-! ### SLOT_BOUNDARY -/

/-- A quad crosses a boundary: it continues, or changes hands, at once when its contexts are saved or it had none, and
once they are saved otherwise (R408, R409, R413). -/
def State.crossQuad (b : Nat) (s : State) (q : Nat) : State :=
  match s.quads[q]? with
  | none => s
  | some k =>
    let next := s.entitled b s.row q
    if k.donor.isNone && next == k.owner && (k.edge == .running || b < k.bound.toNat) then s
    else
      let s := if k.edge == .running && k.owner.isSome then s.stopAt q b else s
      let dur := s.row.durUs * 1000
      let late := match next.bind s.part? with
        | some p => min p.carry dur
        | none => 0
      let t := if late = 0 then 0 else BitVec.ofNat 64 (b + late)
      s.modQuad q (fun k => { k with
        owner := next, donor := none, idleUntil := t, idleSince := BitVec.ofNat 64 b, crossed := s.cycle (4 * q)
        edge := if k.edge == .saved then .running else k.edge })

/-- Partitions that enter a quad at a boundary have paid their delay, up to the row's length (R413). -/
def State.payDelay (s : State) (entering : List Nat) : State :=
  { s with parts := s.parts.map (fun p => if entering.contains p.num then { p with carry := p.carry - s.row.durUs * 1000 } else p) }

/-- SLOT_BOUNDARY (R403, R408, R409, R415, R438). -/
def State.boundary (s : State) : State :=
  let b := s.rowEnd
  if (s.time 0).toNat < b then s
  else
    let old := s.quads
    let s := (s.deferredAt b).tableAt b
    let s : State := { s with rowStart := BitVec.ofNat 64 b }
    let entering := (List.range 64).filterMap (fun q =>
      let next := s.entitled b s.row q
      match old[q]? with
      | some k => if k.donor.isSome || next != k.owner || (k.edge != .running && k.bound.toNat ≤ b) then next else none
      | none => none)
    (((List.range 64).foldl (State.crossQuad b) s).payDelay entering).settleTables

/-- OVERRUN_DELAY_END: the delay of a quad is over, and it runs (R413). -/
def State.delayEnd (s : State) (q : Nat) : State :=
  match s.quads[q]? with
  | some k => if k.idleUntil != 0 && k.idleUntil ≤ s.time 0 then s.modQuad q (fun k => { k with idleUntil := 0 }) else s
  | none => s

/-! ### Donation -/

/-- A quad has runnable work of its owner (R411). -/
def State.hasWork (s : State) (q : Nat) : Bool :=
  s.stopGroups q != [] || s.wgs.any (fun w => !w.retired && w.core.any (fun c => quadOf c == q)) ||
    match s.quads[q]? with
    | some k =>
      s.queue.any (fun e => !e.admitted && s.partOf e.vf == k.owner && s.eligible e &&
        match s.code? e.record.asid e.record.kobj with
        | some c => (List.range 4).any (fun j => (s.pickVariant c e.record [] (4 * q + j)).isSome)
        | none => false)
    | none => false

/-- The time since which a quad has had no runnable work is kept up to date (R411). -/
def State.markIdle (s : State) : State :=
  { s with quads := s.quads.mapIdx (fun q k => if k.owner.isNone || s.hasWork q then { k with idleSince := s.time 0 } else k) }

/-- SLACK_DONATION (R411). -/
def State.donate (s : State) (q : Nat) : State :=
  match s.quads[q]? with
  | none => s
  | some k =>
    match k.owner.bind (fun p => s.row.ents.find? (fun e => e.part == p)) with
    | none => s
    | some e =>
      match e.donTo with
      | none => s
      | some t =>
        if k.edge != .running || k.donor.isSome || s.hasWork q || (s.time 0).toNat < k.idleSince.toNat + 10000
            || s.rowEnd < (s.time 0).toNat + 40000 || !s.mayHold (s.time 0).toNat t then s
        else s.modQuad q (fun k => { k with owner := some t, donor := some e.part, idleSince := s.time 0 })

/-! ### Resume -/

/-- Variants in which a saved workgroup may resume, in order, and whether it stands at a switch point (R317). -/
def State.resumeVariants (s : State) (w : Workgroup) (c : CodeObj) (r : LaunchRec) : List Nat × Option Nat :=
  match s.meetingPoint w.wid with
  | some n =>
    if s.rendezvousClear w.wid then
      let ok (u : Nat) : Bool := c.listed n u && (r.ngrp[u]?).getD 0 == w.ngrp
      let pref := (w.order.map (·.target)).toList.filter ok ++ [w.variant] ++ (List.range 4).filter ok
      (pref.eraseDups, some n)
    else ([w.variant], none)
  | none => ([w.variant], none)

/-- The variant in which a saved workgroup would resume on a core beside given usage (R317). -/
def State.resumeVariant (s : State) (w : Workgroup) (us : List Usage) (core : Nat) : Option Nat :=
  match (s.launch? w.lid) with
  | none => none
  | some la =>
    match s.codeOf la with
    | none => none
    | some c => (s.resumeVariants w c la.record).1.find? (fun u =>
        match c.variant? u with
        | some v => s.variantFits us c.width v (s.groupCount w) core
        | none => false)

/-- Workgroups of a cluster that are still to resume can follow on further cores of a quad, in cluster order (R202). -/
def State.clusterFits (s : State) (q : Nat) : List Workgroup → List Usage → Nat → Bool
  | [], _, _ => true
  | w :: rest, us, from' =>
    (List.range 4).any (fun j =>
      let core := 4 * q + j
      from' ≤ core &&
        match s.resumeVariant w us core, (s.launch? w.lid).bind s.codeOf with
        | some u, some c =>
          (match c.variant? u with
            | some v => s.clusterFits q rest (us ++ [⟨core, v.tiles, v.scratch, s.groupCount w⟩]) (core + 1)
            | none => false)
        | _, _ => false)

/-- Saved members of a workgroup's cluster after it, in cluster order. -/
def State.laterSaved (s : State) (w : Workgroup) : List Workgroup :=
  (s.wgs.filter (fun x => x.cid == w.cid && !x.retired && x.core.isNone && w.cwg < x.cwg)).sortBy (fun a b => a.cwg < b.cwg)

/-- A core suits a saved workgroup: open to its partition, distinct from and above the cores of earlier cluster members,
in their quad, and with room for the members to follow (R202, R317, R414). -/
def State.resumeFits (s : State) (w : Workgroup) (part core : Nat) : Bool :=
  let placed := s.wgs.filter (fun x => x.cid == w.cid && !x.retired && x.wid != w.wid && x.core.isSome)
  (s.openQuads part).contains (quadOf core) && core < 256
    && placed.all (fun x => x.core.any (fun c => quadOf c == quadOf core && c < core))
    && match s.resumeVariant w (s.usages []) core, (s.launch? w.lid).bind s.codeOf with
      | some u, some c =>
        (match c.variant? u with
          | some v => s.clusterFits (quadOf core) (s.laterSaved w) (s.usages [] ++ [⟨core, v.tiles, v.scratch, s.groupCount w⟩]) (core + 1)
          | none => false)
      | _, _ => false

/-- A group of a workgroup that resumes on a core, in a slot: a migrated one waits from now on to land again on its die if the
partition holds a core there; another, or one whose die has none, resumes on that core (R394, R397). -/
def State.resumeGroup (s : State) (part core slot gid : Nat) : State :=
  let now := s.cycle core
  match s.group? gid with
  | none => s
  | some g =>
    let s := s.modGroup gid (fun g => { g with gslot := slot })
    if g.landDie.any (fun die => !(s.dieCores die part).isEmpty) then s.modGroup gid (fun g => { g with landSince := now })
    else (s.moveGroup gid core none).modGroup gid (fun g => g.awake now)

/-- A saved group that waits to land again takes its slot, in its turn (R392, R394, R410). -/
def State.landSaved (s : State) (gid : Nat) : State :=
  match s.group? gid with
  | none => s
  | some g =>
    match g.landDie, s.slotFor g with
    | some _, some l => (s.moveGroup gid l.core (some l)).modGroup gid (fun g => g.awake (s.cycle l.core))
    | _, _ => s

/-- A saved workgroup resumes on a core (R317, R394, R397, R414). -/
def State.resumeWg (s : State) (wid core : Nat) : State :=
  match s.wg? wid with
  | none => s
  | some w =>
    match s.launch? w.lid with
    | none => s
    | some la =>
      match (s.savedOf la.part).head?, s.codeOf la, s.resumeVariant w (s.usages []) core with
      | some first, some c, some u =>
        if first.wid != wid || !s.resumeFits w la.part core then s
        else
          let gids := (s.groups.filter (fun g => g.wid == wid && !g.retired)).map (·.gid)
          let s := s.modWg wid (fun w => { w with core := some core })
          let s : State := { s with
            groups := s.groups.map (fun g => if gids.contains g.gid then { g with gslot := 256 } else g) }
          let s := gids.foldl (fun s gid =>
            s.resumeGroup la.part core (((s.freeSlots core 1).head?).getD 0) gid) s
          let (_, point) := s.resumeVariants w c la.record
          match point with
          | some n =>
            if u != w.variant then s.switchWg { w with core := some core } c n u
            else if w.order.isSome then (s.modWg wid (fun w => { w with order := none })).endSwitchWaits wid
            else s
          | none =>
            match w.order with
            | none => s
            | some o =>
              let keep := match c.variant? o.target with
                | some v => s.variantFits (s.usages [wid]) c.width v (s.groupCount w) core
                | none => false
              if keep then s else (s.modWg wid (fun w => { w with order := none })).endSwitchWaits wid
      | _, _, _ => s

/-- The resume that the dispatcher would make next for a partition: its first saved workgroup and the lowest core that
suits it (R414). -/
def State.nextResume (s : State) (part : Nat) : Option (Nat × Nat) :=
  match s.savedOf part with
  | [] => none
  | w :: _ =>
    ((s.openQuads part).flatMap (fun q => [4 * q, 4 * q + 1, 4 * q + 2, 4 * q + 3])).findSome? (fun core =>
      if s.resumeFits w part core then some (w.wid, core) else none)

/-! ### Key rotation -/

/-- Every frame that a partition owns is re-encrypted: lines under its old key are sealed under the new one (R445). -/
def State.reseal (s : State) (part old new : Nat) : State :=
  let mine := s.seals.filter (fun e => e.2.toNat == old + 1 && (s.frameOwners.get (e.1 / 1024) &&& 0x3F).toNat == part)
  { s with seals := Cells.setAll s.seals (mine.map (fun e => (e.1, BitVec.ofNat 32 (new + 1)))) }

/-- KEY_ROTATE_COMPLETE (R445). -/
def State.rotateDone (s : State) (p : Nat) : State :=
  match s.part? p with
  | none => s
  | some x =>
    if !x.rotating || s.quads.any (fun k => k.leaver == some p && k.edge != .running && k.bound ≤ s.rowStart)
        || s.quads.any (fun k => k.owner == some p) then s
    else
      let asids := (s.asids.filter (fun c => c.part == p)).map (·.asid)
      let s := asids.foldl (fun s a => s.evictLines a (fun _ => true)) s
      let g := s.keyGen + 1
      let s := { s with keyGen := g }.reseal p x.keyGen g
      let s := s.modPart p (fun x => { x with keyGen := g, rotating := false })
      match s.deferredCmds.findSome? (fun d => match d with
        | .keyRotate h q _ => if q = p then some h else none
        | _ => none) with
      | some h =>
        let s : State := { s with deferredCmds := s.deferredCmds.filter (fun d => match d with
          | .keyRotate _ q _ => q != p
          | _ => true) }
        s.complete h stOk 0
      | none => s

/-! ### Meanings -/

/-- ISSUE_STOP (R409). -/
def execIssueStop (quad : Nat) (s : State) : Host.Outcome State Fault Refusal := done s (s.issueStop quad)
/-- QUIESCENCE_COMPLETE (R410). -/
def execQuiescenceComplete (quad : Nat) (s : State) : Host.Outcome State Fault Refusal := done s (s.quiesce quad)
/-- CONTEXT_SAVE_COMPLETE (R412, R429). -/
def execContextSaveComplete (quad : Nat) (s : State) : Host.Outcome State Fault Refusal := done s (s.saveDone quad)
/-- SLOT_BOUNDARY (R408). -/
def execSlotBoundary (s : State) : Host.Outcome State Fault Refusal := done s s.boundary
/-- OVERRUN (R413). -/
def execOverrun (quad : Nat) (s : State) : Host.Outcome State Fault Refusal := done s (s.overrunDue quad)
/-- SLACK_DONATION (R411). -/
def execSlackDonation (quad : Nat) (s : State) : Host.Outcome State Fault Refusal := done s (s.donate quad)
/-- WORKGROUP_RESUME (R317, R414). -/
def execWorkgroupResume (wid core : Nat) (s : State) : Host.Outcome State Fault Refusal := done s (s.resumeWg wid core).fitTiers
/-- OVERRUN_DELAY_END (R413). -/
def execOverrunDelayEnd (quad : Nat) (s : State) : Host.Outcome State Fault Refusal := done s (s.delayEnd quad)
/-- KEY_ROTATE_COMPLETE (R445). -/
def execKeyRotateComplete (part : Nat) (s : State) : Host.Outcome State Fault Refusal := done s (s.rotateDone part)

end Sys2Proof.Machine
end

