-- ==== Sys2Proof/Machine/Tuinko.lean ====
section
/-! DEFINITION. The Tuinko commands on partitions, slot tables, functions, address spaces, frames, code, queues, field
sets, keys and fault records (R217 to R219, R231, R233, R238, R241, R243, R255, R306 to R309, R364, R367, R374, R402 to
R406, R439, R440, R445, R462, R467, R477). Each takes the command that heads its function's ring (R438). Checks run in
the order: field values, absent objects, present objects, objects in use (log entry 33). -/

namespace Sys2Proof.Machine

/-- A pending deletion names a partition (R438). -/
def State.doomed (s : State) (p : Nat) : Bool :=
  s.deferredCmds.any (fun d => match d with
    | .partDelete _ q _ => q == p
    | .keyRotate _ _ _ => false)

/-- TIME of die 0, at which firmware accepts commands (R415). -/
def State.now (s : State) : W64 := s.time 0

/-! ### Partitions -/

/-- The HBM stack of a host-physical address, of the 16 of the package (R363). -/
def stackOf (hpa : Nat) : Nat := 4 * bits hpa 39 38 + bits hpa 17 16

/-- The n frames from an address are HBM frames of stacks in use (R363, R474). -/
def State.hbmFrames (s : State) (hpa n : Nat) : Bool :=
  hpa + n * 65536 ≤ 2 ^ 40 && (List.range n).all (fun k => (s.hbmRate[stackOf (hpa + k * 65536)]?).getD 0 != 0)

/-- Writes one ownership entry for the n frames from an address (R364). -/
def State.setOwners (s : State) (hpa n : Nat) (e : Byte) : State :=
  { s with frameOwners := (List.range n).foldl (fun c k => c.set (hpa / 65536 + k) e) s.frameOwners }

/-- Some of the n frames from an address is granted (R364). -/
def State.anyOwned (s : State) (hpa n : Nat) : Bool :=
  (List.range n).any (fun k => s.frameOwners.get (hpa / 65536 + k) != 0)

/-! ### Page tables -/

/-- Puts an entry into a stage's tables, over the one of its level and index. -/
def putPte (table : List Pte) (e : Pte) : List Pte :=
  table.filter (fun x => !(x.level == e.level && x.index == e.index)) ++ [e]

/-- Frames that a table of a level takes: each table has frames of its own (R359, log entry 52). -/
def tableFrames (level : Nat) : Nat := (tableBytes level + 65535) / 65536

/-- The frames that firmware takes for a table of n frames: the highest of the highest die that are granted to none and
belong to stacks in use (log entry 52). -/
def State.spareFrames (s : State) (n : Nat) : Option Nat :=
  ([4, 3, 2, 1].flatMap (fun d => (List.range (s.frameOwners.length + 1)).map (fun k => d * 2 ^ 38 - (k + 1) * n * 65536))).find?
    (fun a => s.hbmFrames a n && !s.anyOwned a n)

/-- Firmware takes frames of its own for a table (R364). -/
def State.takeTable (s : State) (part level : Nat) : Option (Nat × State) :=
  (s.spareFrames (tableFrames level)).map (fun a => (a, s.setOwners a (tableFrames level) (byteOf (0xC0 + part))))

/-- The pointers of a partition's stage-2 tables down to the entry of a level for an address, with new tables where there are
none; none when firmware lacks table memory (R359, R439). -/
def State.path2 (s : State) (part level a : Nat) : Option State :=
  (List.range level).foldl (fun r l => r.bind (fun s => (s.part? part).bind (fun p =>
    let w := entryOf p.table l a
    if pteV w && !pteLeaf w then some s
    else (s.takeTable part (l + 1)).map (fun t =>
      t.2.modPart part (fun p => { p with table := putPte p.table ⟨l, a >>> levelShift l, mkTablePte t.1⟩ })))) ) (some s)

/-- Maps a page at stage 2 (R359, R439). -/
def State.map2 (s : State) (part level a : Nat) (w : W64) : Option State :=
  (s.path2 part level a).map (fun s => s.modPart part (fun p => { p with table := putPte p.table ⟨level, a >>> levelShift level, w⟩ }))

/-- The guest-physical address at which a stage-1 table in a host frame is reached (log entry 52). -/
def tableGpa (hpa : Nat) : Nat := 2 ^ 51 + hpa

/-- Maps the n frames of a stage-1 table at a guest-physical address (R361). -/
def State.mapTable (s : State) (part gpa hpa n : Nat) : Option State :=
  (List.range n).foldl (fun r k => r.bind (fun s => s.map2 part 3 (gpa + k * 65536) (mkPte (hpa + k * 65536) false false false))) (some s)

/-- Changes the stage-1 tables of an ASID: every context of the partition with the same root has them (R358). -/
def State.modTables (s : State) (asid : Nat) (f : List Pte → List Pte) : State :=
  match s.asid? asid with
  | none => s
  | some c => { s with asids := s.asids.map (fun x => if x.part = c.part ∧ x.root = c.root then { x with table := f x.table } else x) }

/-- The pointers of an ASID's stage-1 tables down to the entry of a level for an address, with new tables where there are
none (R359, R361, R439). -/
def State.path1 (s : State) (asid level a : Nat) : Option State :=
  (List.range level).foldl (fun r l => r.bind (fun s => (s.asid? asid).bind (fun c =>
    let w := entryOf c.table l a
    if pteV w && !pteLeaf w then some s
    else (s.takeTable c.part (l + 1)).bind (fun t => (t.2.mapTable c.part (tableGpa t.1) t.1 (tableFrames (l + 1))).map (fun s =>
      s.modTables asid (fun tb => putPte tb ⟨l, a >>> levelShift l, mkTablePte (tableGpa t.1)⟩)))))) (some s)

/-- Maps a page at stage 1 (R359, R439). -/
def State.map1 (s : State) (asid level a : Nat) (w : W64) : Option State :=
  (s.path1 asid level a).map (fun s => s.modTables asid (fun tb => putPte tb ⟨level, a >>> levelShift level, w⟩))

/-- Some leaf of a table maps an address of a range. -/
def leafMeets (table : List Pte) (lo hi : Nat) : Bool :=
  table.any (fun e => pteV e.word && pteLeaf e.word && e.index * 2 ^ levelShift e.level < hi
    && lo < (e.index + 1) * 2 ^ levelShift e.level)

/-- Gives back the frames of the stage-1 tables of a context: those that lie in frames of firmware (R364). -/
def State.freeTables (s : State) (c : AsidCtx) : State :=
  let pages := (List.range (tableFrames 0)).map (fun k => c.root.toNat + k * 65536)
    ++ (c.table.filter (fun e => pteV e.word && !pteLeaf e.word)).flatMap (fun e =>
      (List.range (tableFrames (e.level + 1))).map (fun k => pteAddr e.word + k * 65536))
  pages.foldl (fun s g =>
    match (s.part? c.part).bind (fun p => leafOf p.table g) with
    | some (l, w) =>
      let h := pteAddr w + g % 2 ^ levelShift l
      if s.tableFrame h then
        (s.setOwners h 1 0).modPart c.part (fun p => { p with table := p.table.filter (fun e => !(e.level == l && e.index == g >>> levelShift l)) })
      else s
    | none => s) s

/-! ### Partition commands -/

/-- PART_CREATE (R255, R358, R402, R439). -/
def State.partCreate (s : State) (part parent : Nat) (area frames : Nat) : CmdEnd :=
  if 64 ≤ part || 64 ≤ parent || area % 65536 != 0 || 2 ^ 40 < area + frames * 65536 then s.refuse stBadParam
  else if !s.hbmFrames area frames then s.refuse stNotFound
  else if s.doomed part || s.doomed parent then s.refuse stBusy
  else if (s.part? part).isSome then s.refuse stExists
  else if parent != part && (s.part? parent).isNone then s.refuse stNotFound
  else if parent != part && (s.part? parent).any (fun p => p.parent != parent) then s.refuse stBadParam
  else if s.anyOwned area frames then s.refuse stBusy
  else
    let g := s.keyGen + 1
    match (s.setOwners area frames (byteOf (0xC0 + part))).takeTable part 0 with
    | none => s.refuse stNoResource
    | some (root, s) =>
      ({ s with keyGen := g, parts := s.parts ++ [⟨part, parent, g, area, frames, root, [], 0, 0, 0, false⟩] } : State).ok

/-- A rotation of a partition that has not completed ends with REPLACED (R451). -/
def State.replaceRotation (s : State) (p : Nat) : State :=
  s.deferredCmds.foldl (fun s d => match d with
    | .keyRotate h q t => if q = p then
        ({ s with deferredCmds := s.deferredCmds.filter (fun x => x != Deferred.keyRotate h q t) } : State).complete h stReplaced 0
      else s
    | .partDelete _ _ _ => s) s

/-- PART_DELETE is accepted, or refused (R438, R439, R451). -/
def State.partDelete (s : State) (h : CmdHead) (p : Nat) : Except Nat State :=
  if 64 ≤ p then .error stBadParam
  else if (s.part? p).isNone then .error stNotFound
  else if s.doomed p || s.parts.any (fun x => x.parent == p && x.num != p) || s.funcs.any (fun f => f.bound == some p)
      || s.asids.any (fun c => c.part == p) then .error stBusy
  else
    let s := s.replaceRotation p
    .ok { s with deferredCmds := s.deferredCmds ++ [.partDelete h p s.now] }

/-! ### Slot tables -/

/-- A partition entry of a row (R405); a byte that R405 fixes to zero, or a field out of range, is an error. -/
def parseEnt (d : List Byte) (k : Nat) : Option (Option RowEnt) :=
  let b (off n : Nat) : Nat := fieldAt d (0x48 + 16 * k + off) n
  let p := b 0 1
  let don := b 1 1
  if p.testBit 6 || don.testBit 7 || b 2 2 != 0 || b 0xC 4 != 0 || 64 < b 0xA 1 || 64 < b 0xB 1 then none
  else if !p.testBit 7 then some none
  else some (some ⟨p % 64, if don.testBit 6 then some (don % 64) else none, BitVec.ofNat 32 (b 4 4),
    BitVec.ofNat 16 (b 8 2), b 0xA 1, b 0xB 1⟩)

/-- A row from its 384 bytes (R404). -/
def parseRow (d : List Byte) : Option Row :=
  let dur := fieldAt d 0 4
  let nent := fieldAt d 4 1
  let zero (a n : Nat) : Bool := ((d.drop a).take n).all (· == 0)
  let q (k : Nat) : Nat := fieldAt d (8 + k) 1
  if dur = 0 || 65535 < dur || nent = 0 || 16 < nent || !zero 5 3 || !zero 0x148 56
      || !zero (0x48 + 16 * nent) (16 * (16 - nent))
      || (List.range 64).any (fun k => if (q k).testBit 7 then q k != 0x80 else (q k).testBit 6) then none
  else
    match (List.range nent).mapM (parseEnt d) with
    | none => none
    | some es => some ⟨dur, (List.range 64).map (fun k => if (q k).testBit 7 then none else some (q k)), es.filterMap id⟩

/-- The parent of a partition under new parents; a top-level partition is its own (R402). -/
def State.parentIn (s : State) (kids : List (Nat × Nat)) (p : Nat) : Nat :=
  match kids.find? (fun k => k.1 == p) with
  | some k => k.2
  | none => ((s.part? p).map (·.parent)).getD p

/-- The target that a donation may name: the donor's parent, a sibling, or a child of a top-level donor (R411). -/
def donationOk (par : Nat → Nat) (p t : Nat) : Bool := t != p && (if par p = p then par t == p else t == par p || par t == par p)

/-- A row keeps the conditions of R406 under given parents. -/
def State.rowOk (s : State) (par : Nat → Nat) (r : Row) : Bool :=
  let ent (p : Nat) : Option RowEnt := r.ents.find? (fun e => e.part == p)
  let kids (p : Nat) : List RowEnt := r.ents.filter (fun e => e.part != p && par e.part == p)
  let tops := r.ents.filter (fun e => par e.part == e.part)
  r.ents.all (fun e => (s.part? e.part).isSome
      && (r.ents.filter (fun x => x.part == e.part)).length == 1
      && (match e.donTo with
        | some t => (s.part? t).isSome && (ent t).isSome && donationOk par e.part t
        | none => true)
      && (par e.part == e.part || match ent (par e.part) with
        | some f => e.hcw &&& ~~~f.hcw == 0 && e.rdcw &&& ~~~f.rdcw == 0
        | none => false)
      && sumOf ((kids e.part).map (·.hbms)) ≤ e.hbms && sumOf ((kids e.part).map (·.uls)) ≤ e.uls
      && tops.all (fun t => t.part == e.part || par e.part != e.part || (t.hcw &&& e.hcw == 0 && t.rdcw &&& e.rdcw == 0)))
    && sumOf (tops.map (·.hbms)) ≤ 64 && sumOf (tops.map (·.uls)) ≤ 64
    && r.qmap.zipIdx.all (fun q => match q.1 with
      | none => true
      | some p => (ent p).isSome && [0, 1, 2, 3].any (fun j => s.coreMap.getLsbD (4 * q.2 + j)))

/-- The rows of a table in host memory, checked (R403, R404, R406). -/
def State.readTable (s : State) (addr n : Nat) (par : Nat → Nat) : Option (List Row) :=
  match (List.range n).mapM (fun k => parseRow (s.hostMem.bytes (addr + 384 * k) 384)) with
  | some rows => if rows.all (s.rowOk par) then some rows else none
  | none => none

/-- A table names a partition that a pending PART_DELETE removes (R438). -/
def State.namesDoomed (s : State) (rows : List Row) : Bool := rows.any (fun r => r.ents.any (fun e => s.doomed e.part))

/-- A table change is accepted and supersedes the one that waits (R415). -/
def State.acceptTable (s : State) (h : CmdHead) (rows : List Row) (kids : List (Nat × Nat)) : State :=
  let old := s.pendingTable
  let s : State := { s with pendingTable := some ⟨h, rows, kids, s.now⟩ }
  match old with
  | some t => s.complete t.head stReplaced 0
  | none => s

/-- SLOT_WRITE (R406, R415, R439). -/
def State.slotWrite (s : State) (h : CmdHead) (table n : Nat) : Except Nat State :=
  if n = 0 || 256 < n then .error stBadParam
  else
    match s.readTable table n (s.parentIn []) with
    | some rows => if s.namesDoomed rows then .error stBusy else .ok (s.acceptTable h rows [])
    | none => .error stTable

/-- PART_MODE: new parents and a table checked under them (R402, R415, R439). -/
def State.partMode (s : State) (h : CmdHead) (table n : Nat) (kids : List (Nat × Nat)) : Except Nat State :=
  let par := s.parentIn kids
  if n = 0 || 256 < n || 8 < kids.length || kids.any (fun k => 64 ≤ k.1 || 64 ≤ k.2) || (kids.map (·.1)).eraseDups.length != kids.length then
    .error stBadParam
  else if kids.any (fun k => (s.part? k.1).isNone || (s.part? k.2).isNone) then .error stNotFound
  else if kids.any (fun k => s.doomed k.1 || s.doomed k.2) then .error stBusy
  else if s.parts.any (fun p => par p.num != p.num && par (par p.num) != par p.num) then .error stBadParam
  else
    match s.readTable table n par with
    | some rows => if s.namesDoomed rows then .error stBusy else .ok (s.acceptTable h rows kids)
    | none => .error stTable

/-! ### Virtual functions and address spaces -/

/-- VF_BIND (R439). -/
def State.vfBind (s : State) (vf part ring log : Nat) : CmdEnd :=
  if vf = 0 || 256 < vf || ring % 64 != 0 || log < 4 || 16 < log || 64 ≤ part then s.refuse stBadParam
  else if (s.part? part).isNone then s.refuse stNotFound
  else if (s.partOf vf).isSome then s.refuse stExists
  else if s.doomed part then s.refuse stBusy
  else ((s.withFunc vf).modFunc vf (fun f => { f with
    bound := some part, fqRing := BitVec.ofNat 64 ring, fqLog := log, fqPi := 0, fqCi := 0, heldRecs := [], openFids := [] })).ok

/-- VF_UNBIND (R439). -/
def State.vfUnbind (s : State) (vf : Nat) : CmdEnd :=
  if vf = 0 || 256 < vf then s.refuse stBadParam
  else if (s.partOf vf).isNone then s.refuse stNotFound
  else if s.asids.any (fun c => c.vf == vf) then s.refuse stBusy
  else (s.modFunc vf (fun f => { f with bound := none })).ok

/-- The frame that a guest-physical page has now at stage 2. -/
def State.frameOf (s : State) (part gpa : Nat) : Option Nat :=
  ((s.part? part).bind (fun p => leafOf p.table gpa)).map (fun l => pteAddr l.2 + gpa % 2 ^ levelShift l.1)

/-- The field set of a partition whose ranges hold a page (R217, R218). -/
def State.fsetAt (s : State) (part va : Nat) : Option FieldSet :=
  s.fsets.find? (fun f => f.part == part && f.ranges.any (fun r => r.1 ≤ va && va < r.1 + r.2))

/-- The first frame of a newly tracked page (R221). -/
def firstFrame (f : FieldSet) (hpa : Option Nat) : List Frame :=
  match hpa with
  | some h => [⟨h, f.wstep, BitVec.allOnes 1024, .current, none⟩]
  | none => []

/-- Pages (address, guest-physical address) are tracked for an ASID (R217, R221). A page without a frame is listed without one, and its
first frame comes with FRAME_GRANT; two tracked pages of one guest-physical page start with the same frame (DESIGN CHOICE, log entry
66). -/
def State.track (s : State) (part asid : Nat) (pages : List (Nat × Nat)) : State :=
  { s with pages := s.pages ++ pages.filterMap (fun p => (s.fsetAt part p.1).map (fun f =>
      (⟨part, f.num, asid, p.1 / 65536, p.2, firstFrame f (s.frameOf part p.2)⟩ : TrackedPage))) }

/-- ASID_CREATE (R243, R357, R358, R439). Firmware maps frames for the root table at its guest-physical address, unless that
is mapped; a context with the root of another shares its tables,
whose tracked leaves are tracked pages of its own (R217, log entry 52). -/
def State.asidCreate (s : State) (asid vf : Nat) (root : W64) (len : W64) : CmdEnd :=
  let r := root.toNat
  if vf = 0 || 256 < vf || r % tableBytes 0 != 0 || 2 ^ 52 < r + tableBytes 0 then s.refuse stBadParam
  else
    match s.partOf vf with
    | none => s.refuse stNotFound
    | some p =>
      if (s.asid? asid).isSome then s.refuse stExists
      else
        let made : Option State :=
          if (s.part? p).any (fun q => leafMeets q.table r (r + tableBytes 0)) then some s
          else (s.takeTable p 0).bind (fun t => t.2.mapTable p r t.1 (tableFrames 0))
        let table := ((s.asids.find? (fun c => c.part == p && c.root == root)).map (·.table)).getD []
        match made with
        | none => s.refuse stNoResource
        | some s =>
          let s : State := { s with asids := s.asids ++ [⟨asid, p, vf, root, leaseLen len, [], table⟩] }
          (s.track p asid ((table.filter (fun e => pteV e.word && pteLeaf e.word && pteTrk e.word)).map (fun e =>
            (e.index * 65536, pteAddr e.word)))).ok

/-- Frames that nothing pins any longer go back to their pools, or to the partition's free memory (R227, R231, R233). -/
def State.unpin (s : State) : State :=
  let kept (e : PinnedFrame) : Bool := e.pins.any s.pinStands || s.pinsOf e.hpa != []
  (s.pinnedFree.filter (fun e => !kept e)).foldl (fun s e => match e.fset with
      | some n => s.modFset e.part n (fun f => { f with pool := f.pool ++ [e.hpa] })
      | none => s)
    { s with pinnedFree := s.pinnedFree.filter kept }

/-- The 64 KiB pages of a partition's address spaces that reach a guest-physical page, as (ASID, page number). -/
def State.reaching (s : State) (part gpa : Nat) : List (Nat × Nat) :=
  (s.asids.filter (fun c => c.part == part)).flatMap (fun c =>
    (c.table.filter (fun e => e.mapsGpa gpa)).map (fun e => (c.asid, (e.index * 2 ^ levelShift e.level + (gpa - pteAddr e.word)) / 65536)))

/-- Evicts the lines of the pages that reach a guest-physical page, and invalidates their translations (R366, R367). -/
def State.leaveGpa (s : State) (part gpa : Nat) : State :=
  (s.reaching part gpa).foldl (fun s r =>
    let s := s.evictLines r.1 (fun line => line / 1024 == r.2)
    { s with tlb := s.tlb.filter (fun t => !(t.asid == r.1 && t.page == r.2 * 65536 >>> t.size)) }) s

/-- The contexts that have the tables of an ASID: those of its partition with its root (R358). -/
def State.sharers (s : State) (asid : Nat) : List Nat :=
  match s.asid? asid with
  | some c => (s.asids.filter (fun x => x.part == c.part && x.root == c.root)).map (·.asid)
  | none => []

/-- The ranges whose accesses a change of an ASID's leaves from an address up to another touches: its own, those of the contexts
that share its tables, and, where a tracked page ends there whose guest-physical page firmware points at another frame, every page
that reaches that one (R367, R477). -/
def State.rangesOf (s : State) (asids : List Nat) (lo hi : Nat) : List (Nat × Nat × Nat) :=
  asids.map (fun a => (a, lo, hi)) ++
    (s.pages.filter (fun p => asids.contains p.asid && lo ≤ p.page * 65536 && p.page * 65536 < hi
      && s.frameOf p.part p.gpa != p.current.map (·.hpa))).flatMap (fun p =>
        (s.reaching p.part p.gpa).map (fun r => (r.1, r.2 * 65536, (r.2 + 1) * 65536)))

/-- The frame chain of a tracked page ends: its retained frames return to the pool, a pinned one once it is unpinned, and the
stage-2 entry is pointed at the current frame, under R367 where it named another (R477). -/
def State.endChain (s : State) (p : TrackedPage) : State :=
  let s : State := { s with pages := s.pages.filter (fun x => !(x.asid == p.asid && x.page == p.page)) }
  match p.frames with
  | [] => s
  | c :: older =>
    let s := older.foldl (fun s f => s.freeFrame p.part p.fset f.hpa) s
    if s.frameOf p.part p.gpa = some c.hpa then s
    else
      (s.leaveGpa p.part p.gpa).modPart p.part (fun q => { q with table := q.table.map (fun e =>
        if e.level = 3 ∧ e.index = p.gpa / 65536 then { e with word := mkPte c.hpa (pteW e.word) (pteX e.word) false } else e) })

/-- Removes the stage-1 leaves of an ASID that satisfy p, in every context that shares its tables: lines are written back and
evicted under the old translation, chains of tracked pages end, and translations are invalidated (R366, R367, R477). -/
def State.removeLeaves (s : State) (asid : Nat) (p : Pte → Bool) : State :=
  match s.asid? asid with
  | none => s
  | some c =>
    let mine := s.sharers asid
    let gone := c.table.filter (fun e => pteLeaf e.word && p e)
    let inGone (va : Nat) : Bool := gone.any (fun e => e.index == va / 2 ^ levelShift e.level)
    let s := mine.foldl (fun s a => s.evictLines a (fun line => inGone (line * 64))) s
    let s := (s.pages.filter (fun g => mine.contains g.asid && inGone (g.page * 65536))).foldl State.endChain s
    let s := s.modTables asid (fun tb => tb.filter (fun e => !(pteLeaf e.word && p e)))
    let s : State := { s with tlb := s.tlb.filter (fun t => !(mine.contains t.asid && inGone (t.page * 2 ^ t.size))) }
    s.unpin

/-- Work, tasks or log entries of an ASID exist (R439). -/
def State.asidBusy (s : State) (asid : Nat) : Bool :=
  s.queue.any (fun e => e.record.asid.toNat == asid) || s.launches.any (fun l => l.record.asid.toNat == asid)
    || s.ops.any (fun o => o.asid.toNat == asid)

/-- ASID_DELETE (R439). -/
def State.asidDelete (s : State) (asid : Nat) : CmdEnd :=
  if (s.asid? asid).isNone then s.refuse stNotFound
  else if s.asidBusy asid then s.refuse stBusy
  else
    let s := s.evictLines asid (fun _ => true)
    let s := (s.pages.filter (fun g => g.asid == asid)).foldl State.endChain s
    let shared := (s.asid? asid).any (fun c => s.asids.any (fun x => x.asid != asid && x.part == c.part && x.root == c.root))
    let s := if shared then s
      else match (s.removeLeaves asid (fun _ => true)).asid? asid with
        | some c => (s.removeLeaves asid (fun _ => true)).freeTables c
        | none => s
    ({ s with
      asids := s.asids.filter (fun c => c.asid != asid)
      codes := s.codes.filter (fun c => c.asid.toNat != asid)
      tlb := s.tlb.filter (fun t => t.asid != asid) } : State).unpin.ok

/-- The range of a valid region entry of an ASID (R238, R241). -/
def State.regionRange (s : State) (asid region : Nat) : List (Nat × Nat × Nat) :=
  if (s.asid? asid).any (fun c => (c.regions.get region).getLsbD 31) then [(asid, region * 2 ^ 49, (region + 1) * 2 ^ 49)] else []

/-- REGION_SET, once a valid entry's lines are evicted and TIME has passed their leases; reserved fields read zero (R10, R238,
R241). -/
def State.regionSet (s : State) (asid region : Nat) (entry : W32) : CmdEnd :=
  match s.asid? asid with
  | none => s.refuse stNotFound
  | some _ =>
    let s : State := { s with tlb := s.tlb.filter (fun t => !(t.asid == asid && t.page * 2 ^ t.size / 2 ^ 49 == region)) }
    (s.modAsid asid (fun c => { c with regions := c.regions.set region (entry &&& 0x8C0F0300) })).ok

/-- LEASE_SET (R243). -/
def State.leaseSet (s : State) (asid : Nat) (len : W64) : CmdEnd :=
  if (s.asid? asid).isNone then s.refuse stNotFound else (s.modAsid asid (fun c => { c with len := leaseLen len })).ok

/-! ### Maps -/

/-- Level of a SIZE code (R359, R439). -/
def sizeLevel (size : Nat) : Nat := 3 - size

/-- Bytes that a range of pages of a SIZE code covers. -/
def spanOf (size count : Nat) : Nat := count * 2 ^ levelShift (sizeLevel size)

/-- MAP: all COUNT pages or none; a tracked page is one of every context that has the tables (R217, R221, R367, R439). -/
def State.mapPages (s : State) (asid size attrs count va gpa : Nat) : CmdEnd :=
  let unit := 2 ^ levelShift (sizeLevel size)
  let trk := attrs.testBit 2
  let n := spanOf size count
  if 2 < size || 8 ≤ attrs || (trk && size != 0) || count = 0 || va % unit != 0 || gpa % unit != 0
      || 2 ^ 57 < va + n || 2 ^ 52 < gpa + n then s.refuse stBadParam
  else
    match s.asid? asid with
    | none => s.refuse stNotFound
    | some c =>
      let pages := (List.range count).map (fun k => (va + k * unit, gpa + k * unit))
      if trk && pages.any (fun p => (s.fsetAt c.part p.1).isNone) then s.refuse stNotFound
      else if leafMeets c.table va (va + n) then s.refuse stExists
      else
        match pages.foldl (fun (r : Option State) p => r.bind (fun s =>
            s.map1 asid (sizeLevel size) p.1 (mkPte p.2 (attrs.testBit 0) (attrs.testBit 1) trk))) (some s) with
        | none => s.refuse stNoResource
        | some s =>
        (if trk then (s.sharers asid).foldl (fun s a => s.track c.part a pages) s else s).ok

/-- UNMAP: all COUNT pages or none (R367, R439, R477). -/
def State.unmapPages (s : State) (asid size count va : Nat) : CmdEnd :=
  let unit := 2 ^ levelShift (sizeLevel size)
  if 2 < size || count = 0 || va % unit != 0 || 2 ^ 57 < va + spanOf size count then s.refuse stBadParam
  else
    match s.asid? asid with
    | none => s.refuse stNotFound
    | some c =>
      if (List.range count).all (fun k => c.table.any (fun e => pteLeaf e.word && e.level == sizeLevel size && e.index == va / unit + k)) then
        (s.removeLeaves asid (fun e => e.level == sizeLevel size && va / unit ≤ e.index && e.index < va / unit + count)).ok
      else s.refuse stNotFound

/-! ### Frames -/

/-- Tracked pages whose guest-physical page has just received its frame start their chain (R221): at the writers' step of the grant
(DESIGN CHOICE, log entry 66). -/
def State.startChains (s : State) (part : Nat) : State :=
  { s with pages := s.pages.map (fun p =>
      if p.part = part ∧ p.frames = [] then
        (match s.fset? part p.fset with
          | some f => { p with frames := firstFrame f (s.frameOf part p.gpa) }
          | none => p)
      else p) }

/-- The scope records kept with the lines of n frames go (R269). -/
def State.forgetRecords (s : State) (hpa n : Nat) : State :=
  { s with hbmScope := s.hbmScope.filter (fun e => !(hpa ≤ e.1 * 64 && e.1 * 64 < hpa + n * 65536)) }

/-- FRAME_GRANT to stage 2 or to a pool (R219, R364, R439). Frames of host memory have no ownership entry. -/
def State.frameGrant (s : State) (part dest fset attrs count hpa gpa : Nat) : CmdEnd :=
  let old := s
  let host := 2 ^ 51 ≤ hpa
  let n := count * 65536
  if 1 < dest || 4 ≤ attrs || count = 0 || hpa % 65536 != 0 || (dest = 0 && (gpa % 65536 != 0 || 2 ^ 52 < gpa + n))
      || 64 ≤ part || 64 ≤ fset || (host && (dest = 1 || 2 ^ 52 < hpa + n)) || (!host && 2 ^ 40 < hpa + n) then s.refuse stBadParam
  else
    match s.part? part with
    | none => s.refuse stNotFound
    | some p =>
      if !host && !s.hbmFrames hpa count then s.refuse stNotFound
      else if dest = 1 && (s.fset? part fset).isNone then s.refuse stNotFound
      else if dest = 1 && (s.fset? part fset).any (fun f => 2 ^ 20 < f.pool.length + count) then s.refuse stBadParam
      else if dest = 0 && leafMeets p.table gpa (gpa + n) then s.refuse stExists
      else if s.doomed part || (!host && s.anyOwned hpa count) then s.refuse stBusy
      else
        let s := if host then s else (s.setOwners hpa count (byteOf (0x80 + part))).forgetRecords hpa count
        if dest = 1 then
          (s.modFset part fset (fun f => { f with pool := f.pool ++ (List.range count).map (fun k => hpa + k * 65536) })).ok
        else
          match (List.range count).foldl (fun (r : Option State) k => r.bind (fun s =>
              s.map2 part 3 (gpa + k * 65536) (mkPte (hpa + k * 65536) (attrs.testBit 0) (attrs.testBit 1) false))) (some s) with
          | none => old.refuse stNoResource
          | some s => (s.startChains part).ok

/-- A frame is reached by a stage-1 mapping of its partition (R439). -/
def State.frameMapped (s : State) (p : Partition) (hpa : Nat) : Bool :=
  (p.gpasOf hpa).any (fun g => s.asids.any (fun c => c.part == p.num && c.table.any (fun e => e.mapsGpa g)))

/-- FRAME_REVOKE (R231, R364, R439). -/
def State.frameRevoke (s : State) (part count hpa : Nat) : CmdEnd :=
  if count = 0 || hpa % 65536 != 0 || 2 ^ 40 < hpa + count * 65536 || 64 ≤ part then s.refuse stBadParam
  else
    match s.part? part with
    | none => s.refuse stNotFound
    | some p =>
      if s.doomed part then s.refuse stBusy
      else
      let fs := (List.range count).map (fun k => hpa + k * 65536)
      if fs.any (fun f => !s.ownsFrame part f) then
        s.refuse (if fs.all (fun f => (s.frameOwners.get (f / 65536)).toNat % 128 % 64 == part
          && (s.frameOwners.get (f / 65536)).getLsbD 7) then stBusy else stNotFound)
      else if fs.any (fun f => s.frameMapped p f || s.isPinned f || s.pages.any (fun g => g.frames.any (fun x => x.hpa == f))) then
        s.refuse stBusy
      else
        let s := (s.setOwners hpa count 0).forgetRecords hpa count
        let s := s.modPart part (fun p => { p with table := p.table.filter (fun e => !(pteLeaf e.word && fs.contains (pteAddr e.word))) })
        ({ s with
          fsets := s.fsets.map (fun f => if f.part = part then { f with pool := f.pool.filter (fun x => !fs.contains x) } else f)
          pinnedFree := s.pinnedFree.filter (fun e => !fs.contains e.hpa) } : State).ok

/-! ### Code objects -/

/-- The present variant descriptors of an object (R306, R307). -/
def parseVariant (d : List Byte) (v : Nat) : Variant × Nat × Nat :=
  let b (off n : Nat) : Nat := fieldAt d (8 + 32 * v + off) n
  (⟨b 0 8, b 8 2, b 0xA 1, b 0xB 1, b 0xC 4, (List.range 5).map (fun k => b (0x10 + k) 1)⟩, b 0x18 4, b 0x1C 4)

/-- A descriptor keeps the limits of R52 and names a line of the object. -/
def variantOk (v : Variant) (width len : Nat) : Bool :=
  8 ≤ v.regs && v.regs ≤ 256 && v.regs % 8 = 0 && v.tiles ≤ 32 && 1 ≤ v.tngrp && v.tngrp ≤ 32
    && v.tngrp * width ≤ 1024 && v.scratch % 256 = 0 && v.scratch ≤ 524288 && v.entry % 64 = 0 && v.entry + 64 ≤ len

/-- A switch-map entry (R309). -/
def parseSwitch (d : List Byte) (off : Nat) : Option SwitchEnt :=
  let b (k : Nat) : Nat := fieldAt d (off + k) 1
  if 3 < b 1 || 16 ≤ b 6 || b 7 != 0 || d.length < off + 8 then none
  else some ⟨b 0, b 1, [b 2, b 3, b 4, b 5], byteOf (b 6)⟩

/-- Every location of an entry that a variant has exists in it (R309). -/
def switchOk (vs : List (Nat × Variant)) (e : SwitchEnt) : Bool :=
  (List.range 4).all (fun v => e.abs.getLsbD v || match vs.find? (fun x => x.1 == v) with
    | none => false
    | some (_, d) =>
      let l := (e.locs[v]?).getD 0
      match e.kind with
      | 0 => l < d.regs
      | 1 => l < 64
      | 2 => l < 7
      | _ => l < d.tiles)

/-- Two entries at one point share a location in one variant (R309). -/
def switchClash (es : List SwitchEnt) : Bool :=
  es.zipIdx.any (fun a => es.zipIdx.any (fun b => a.2 < b.2 && a.1.point == b.1.point && a.1.kind == b.1.kind &&
    (List.range 4).any (fun v => !a.1.abs.getLsbD v && !b.1.abs.getLsbD v && a.1.locs[v]? == b.1.locs[v]?)))

/-- The point of a SWITCHPT word. -/
def switchPoint (w : Word96) : Option Nat :=
  match decode w with
  | .ok (.switchpt x) => some (x.imm.toNat % 256)
  | _ => none

/-- SWITCHPT instructions in the lines from lo up to hi of an object, with their byte offsets (R309). -/
def switchPoints (d : List Byte) (lo hi : Nat) : List (Nat × Nat) :=
  (List.range ((hi - lo) / 64)).flatMap (fun k => (List.range 5).filterMap (fun j =>
    let off := lo + 64 * k + 4 + 12 * j
    (switchPoint (BitVec.ofNat 96 (fieldAt d off 12))).map (fun n => (n, off))))

/-- A code object from its bytes, or none where R306 refuses it. A variant's code runs to the next entry or the end. -/
def parseObject (d : List Byte) (asid : BitVec 16) (kobj : W64) : Option CodeObj :=
  let len := d.length
  let width := fieldAt d 4 1
  let vmask := fieldAt d 6 1
  let nums := (List.range 4).filter (fun v => vmask.testBit v)
  let raw := nums.map (fun v => (v, parseVariant d v))
  let vs := raw.map (fun r => (r.1, r.2.1))
  match raw.head? with
  | none => none
  | some (_, _, smoff, smcnt) =>
    if len < 136 || fieldAt d 0 4 != 0x43524B31 || !(([8, 16, 32, 64] : List Nat).contains width) || 1 < fieldAt d 5 1 || 16 ≤ vmask
        || fieldAt d 7 1 != 0 || !vs.all (fun v => variantOk v.2 width len) || len < smoff + 8 * smcnt then none
    else
      match (List.range smcnt).mapM (fun k => parseSwitch d (smoff + 8 * k)) with
      | none => none
      | some es =>
        let points := vs.flatMap (fun v =>
          let ends := (vs.filter (fun u => v.2.entry < u.2.entry)).map (·.2.entry)
          (switchPoints d v.2.entry (ends.foldl min len)).map (fun p => (v.1, p)))
        if !es.all (switchOk vs) || switchClash es
            || es.any (fun e => nums.any (fun v => 1 < (points.filter (fun p => p.1 == v && p.2.1 == e.point)).length)) then none
        else some ⟨asid, kobj, width, fieldAt d 5 1 == 1, byteOf vmask, vs.map (·.2), es, points⟩

/-- The pages of a range are mapped in an ASID with X at both stages, on granted frames (R439). -/
def State.codeMapped (s : State) (asid va len : Nat) : Bool :=
  (piecesOf va len).all (fun p => match s.resolve asid p.1 .fetch with
    | .ok (.line _ _ _ _ _) => true
    | _ => false)

/-- Firmware writes bytes of one line under the partition's key, past the caches, whose copies are evicted first (R439). -/
def State.firmwareWrite (s : State) (asid va : Nat) (bs : List Byte) : State :=
  match s.resolve asid va .fetch with
  | .ok (.line _ a v hpa _) =>
    let s := s.evictLines a (fun line => line == v / 64)
    let gen := s.genOf a
    s.writeHbmLine hpa gen (lineSet (s.hbmLine hpa gen) (v % 64) bs) 0xFF 0
  | _ => s

/-- CODE_LOAD (R306, R439). -/
def State.codeLoad (s : State) (h : CmdHead) (asid : BitVec 16) (source len dest : Nat) : CmdEnd :=
  let d := s.hostMem.bytes source len
  if dest % 64 != 0 || len = 0 || 2 ^ 57 < dest + len then s.refuse stBadParam
  else
    match s.asid? asid.toNat with
    | none => s.refuse stNotFound
    | some c =>
      if h.fn != 0 && s.partOf h.fn != some c.part then s.refuse stDenied
      else
        match parseObject d asid (BitVec.ofNat 64 dest) with
        | none => s.refuse stFormat
        | some o =>
          if !s.codeMapped asid.toNat dest len then s.refuse stNotFound
          else if (s.code? asid (BitVec.ofNat 64 dest)).isSome then s.refuse stExists
          else
            let s := (piecesOf dest len).foldl (fun s p => s.firmwareWrite asid.toNat p.1 ((d.drop (p.1 - dest)).take p.2)) s
            ({ s with codes := s.codes ++ [o] } : State).ok (BitVec.ofNat 64 dest)

/-- CODE_UNLOAD (R439). -/
def State.codeUnload (s : State) (h : CmdHead) (asid : BitVec 16) (kobj : W64) : CmdEnd :=
  if h.fn != 0 && (s.asid? asid.toNat).any (fun c => s.partOf h.fn != some c.part) then s.refuse stDenied
  else if (s.code? asid kobj).isNone then s.refuse stNotFound
  else if s.queue.any (fun e => e.record.asid == asid && e.record.kobj == kobj) then s.refuse stBusy
  else ({ s with codes := s.codes.filter (fun c => !(c.asid == asid && c.kobj == kobj)) } : State).ok

/-! ### Queues and field sets -/

/-- LQ_CREATE (R383, R439, R441, R442). -/
def State.lqCreate (s : State) (vf : Nat) (base log cring clog : Nat) : CmdEnd :=
  if log < 2 || 12 < log || clog < 4 || 12 < clog then s.refuse stBadParam
  else if (s.func? vf).any (·.lqMade) then s.refuse stExists
  else
    let s : State := { s with done := s.done.filter (fun d => d.vf != vf) }
    (s.modFunc vf (fun f => { f with
      lqMade := true, lqBase := BitVec.ofNat 64 base, lqLog := log, lqSubmitted := [], lcRing := BitVec.ofNat 64 cring
      lcLog := clog, lcPi := 0, lcCi := 0, lcHeld := [], nextId := 0, lqPi := List.replicate 8 0, lqCi := List.replicate 8 0 })).ok

/-- LQ_DELETE (R439, R451). -/
def State.lqDelete (s : State) (vf : Nat) : CmdEnd :=
  if !(s.func? vf).any (·.lqMade) then s.refuse stNotFound
  else if s.queued vf != 0 || (s.func? vf).any (fun f => f.lqSubmitted != []) then s.refuse stBusy
  else (s.modFunc vf (fun f => { f with lqMade := false })).ok

/-- Two ranges share an address. -/
def rangesCross (a b : Nat × Nat) : Bool := a.1 < b.1 + b.2 && b.1 < a.1 + a.2

/-- FSET_CREATE (R218, R219, R439). -/
def State.fsetCreate (s : State) (part fset nr : Nat) (wstep : W32) (addr : Nat) : CmdEnd :=
  let rs := (List.range nr).map (fun k => (s.hostMem.le (addr + 16 * k) 8, s.hostMem.le (addr + 16 * k + 8) 8))
  if 64 ≤ part || 64 ≤ fset || nr = 0 || 16 < nr
      || rs.any (fun r => r.1 % 65536 != 0 || r.2 % 65536 != 0 || r.2 == 0 || 2 ^ 57 < r.1 + r.2)
      || (s.fsets.filter (fun f => f.part == part)).any (fun f => f.ranges.any (fun r => rs.any (rangesCross r))) then
    s.refuse (if (s.fset? part fset).isSome then stExists else stBadParam)
  else if (s.part? part).isNone then s.refuse stNotFound
  else if (s.fset? part fset).isSome then s.refuse stExists
  else if s.doomed part then s.refuse stBusy
  else ({ s with fsets := s.fsets ++ [⟨part, fset, rs, wstep, [], []⟩] } : State).ok

/-- FSET_DELETE (R233, R439). -/
def State.fsetDelete (s : State) (part fset : Nat) : CmdEnd :=
  if 64 ≤ part || 64 ≤ fset then s.refuse stBadParam
  else if (s.fset? part fset).isNone then s.refuse stNotFound
  else if s.doomed part || s.pages.any (fun p => p.part == part && p.fset == fset) then s.refuse stBusy
  else (s.dropFset part fset).ok

/-- KEY_ROTATE (R438, R439, R445). -/
def State.keyRotate (s : State) (h : CmdHead) (p : Nat) : Except Nat State :=
  if 64 ≤ p then .error stBadParam
  else if (s.part? p).isNone then .error stNotFound
  else if s.doomed p || s.deferredCmds.any (fun d => match d with
      | .keyRotate _ _ _ => true
      | .partDelete _ _ _ => false) then .error stBusy
  else .ok { s with deferredCmds := s.deferredCmds ++ [.keyRotate h p s.now] }

/-! ### Fault records -/

/-- A group whose record was serviced is told (R195). -/
def State.serviced (s : State) (gid : Nat) : State :=
  let (t, s) := s.newId
  s.modGroup gid (fun g => { g with serviceTick := t + 1 })

/-- The reference of an open FID of a function (R374). -/
def State.fidRef (s : State) (fn : Nat) (fid : W32) : Option FidRef :=
  ((s.func? fn).bind (fun f => f.openFids.find? (fun e => e.1 == fid))).map (·.2)

/-- FQ_SERVICE with REPLAY (R374, R375, R377). -/
def State.fqReplay (s : State) (fn : Nat) (fid : W32) : CmdEnd :=
  match s.fidRef fn fid with
  | none => s.refuse stNotOpen
  | some (.op id) =>
    match s.op? id with
    | none => s.refuse stNotOpen
    | some o =>
      if o.log = .handler then s.refuse stDenied
      else ((s.modOp id (fun o => { o with log := .replay })).serviced o.gid).ok
  | some (.command gid slot) => (((s.cmdResume gid slot).closeFid fn fid).serviced gid).ok
  | some (.fetch gid line _) =>
    ((((s.closeFid fn fid).modGroup gid (fun g => g.mapThreads (fun t =>
      if t.wait = .fetch line (some fid) then { t with wait := .fetch line none } else t)))).serviced gid).ok

/-- FQ_SERVICE with DROP (R194, R374). -/
def State.fqDrop (s : State) (fn : Nat) (fid : W32) : CmdEnd :=
  match s.fidRef fn fid with
  | some (.op id) =>
    match s.op? id with
    | none => s.refuse stNotOpen
    | some o => if o.log = .handler then s.refuse stDenied else ((s.dropLogged fn o).serviced o.gid).ok
  | some _ => s.refuse stDenied
  | none => s.refuse stNotOpen

/-- The trap of an operation's logged lanes under a TRAP action (R368, R374, R422). -/
def MemOp.trapOf (o : MemOp) : Option DefTrap :=
  (o.lanes.findSome? (fun l => l.fault?.filter (fun f => f.cause != 0))).map (fun f =>
    ⟨o.id, f.cause, o.pc, f.addr, trapInfoOf f o.entry, some o.entry, 0⟩)

/-- FQ_SERVICE with TRAP (R374, R377). The fault of a path that stands in the trap frame is taken after ERET (R422). -/
def State.fqTrap (s : State) (fn : Nat) (fid : W32) : CmdEnd :=
  match s.fidRef fn fid with
  | some (.op id) =>
    match s.op? id with
    | none => s.refuse stNotOpen
    | some o =>
      match o.trapOf with
      | none => s.refuse stDenied
      | some t =>
        if o.log = .handler then s.refuse stDenied
        else
          let s := s.modOp id (fun o => { o with log := .handler })
          ((s.modGroup o.gid (fun g => { g with traps := g.traps ++ [t] })).serviced o.gid).ok
  | some (.fetch gid line info) =>
    match s.group? gid with
    | none => s.refuse stNotOpen
    | some g =>
      let stalled (t : Thread) : Bool := !t.exited && t.wait == .fetch line (some fid)
      let ths := match g.frame with
        | some f => f.threads
        | none => g.threads
      let mask := maskOf ((List.range g.width).filter (fun h => (ths[h]?).any stalled))
      let pc := ((ths.find? stalled).map (·.pc)).getD line
      let s := (s.closeFid fn fid).modGroup gid (fun g => g.mapThreads (fun t => if stalled t then { t with wait := .none } else t))
      let (id, s) := s.newId
      if g.inh && g.threads.any stalled then (s.endWorkgroup g 0x08 pc 0).ok
      else ((s.modGroup gid (fun g => { g with traps := g.traps ++ [⟨id, 0x08, pc, line, info, none, mask⟩] })).serviced gid).ok
  | some _ => s.refuse stDenied
  | none => s.refuse stNotOpen

/-! ### Collective membership -/

/-- The number of the latest round of a kind and offset that a rejoining member knows of, for every kind and offset
(R467). -/
def State.knownRounds (s : State) (part group : Nat) : List (Nat × W64 × Nat) :=
  let rs := s.rounds.filter (fun r => r.part == part && r.group == group)
  ((rs.map (fun r => (r.kind, r.off))).eraseDups).map (fun k =>
    (k.1, k.2, maxOf ((rs.filter (fun r => r.kind == k.1 && r.off == k.2)).map (·.num))))

/-- COLL_JOIN (R462, R467). -/
def State.collJoin (s : State) (part group rank members timeout wasid wbase wlen : Nat) : CmdEnd :=
  if 64 ≤ part || members = 0 || 1024 < members || members ≤ rank || 60000 < timeout || wbase % 65536 != 0
      || wlen % 65536 != 0 || wlen = 0 || 2 ^ 39 < wlen then s.refuse stBadParam
  else if (s.part? part).isNone then s.refuse stNotFound
  else if (s.coll? part group).isSome then s.refuse stExists
  else if !s.asids.any (fun c => c.asid == wasid && c.part == part) then s.refuse stNotFound
  else if s.doomed part then s.refuse stBusy
  else
    let others := (s.heard.filter (fun a => a.1 == part && a.2.1 == group)).map (·.2.2)
    let c : CollGroup := ⟨part, group, rank, members, if timeout = 0 then 100 else timeout, wasid, wbase, wlen,
      [⟨Config.stationId, rank, members, false⟩], false,
      if s.collLeft.contains (part, group) then s.knownRounds part group else []⟩
    (({ s with colls := s.colls ++ [others.foldl CollGroup.hear c] } : State).sendLink part 0x202
      (natBytes 2 group ++ natBytes 2 rank ++ natBytes 2 members ++ [0])).ok

/-- A collective command of a group is outstanding; one whose header is not read may name any (R462). -/
def State.collBusy (s : State) (part group : Nat) : Bool :=
  s.groups.any (fun g => g.cmds.any (fun k => !k.isFree && Instr.isColl k.instr && s.partOfGroup g == some part
    && k.collGroup.all (· == group)))

/-- COLL_LEAVE (R462, R467). -/
def State.collLeave (s : State) (part group : Nat) : CmdEnd :=
  if 64 ≤ part then s.refuse stBadParam
  else
  match s.coll? part group with
  | none => s.refuse stNotFound
  | some c =>
    if s.doomed part || s.collBusy part group then s.refuse stBusy
    else (({ s with
      colls := s.colls.filter (fun x => !(x.part == part && x.group == group))
      collLeft := (part, group) :: s.collLeft } : State).sendLink part 0x202
      (natBytes 2 group ++ natBytes 2 c.rank ++ natBytes 2 c.members ++ [1])).ok

/-- What a command that has waited for leases still does (R241, R367). -/
def State.finishCommand (s : State) : Instr → CmdEnd
  | .asidDelete _ asid => s.asidDelete asid.toNat
  | .regionSet _ asid region entry => s.regionSet asid.toNat region.toNat entry
  | .unmap _ asid size count va => s.unmapPages asid.toNat size.toNat count.toNat va.toNat
  | _ => s.ok

/-- A command that waits for leases takes effect and completes once TIME has passed them; the waiting accesses go on (R241, R367). -/
def State.endWait (s : State) : State :=
  match s.fwWait with
  | some w => if s.leasePassed w.lease then (({ s with fwWait := none } : State).finishCommand w.cmd).complete w.head else s
  | none => s

/-! ### Meanings -/

/-- PART_CREATE (R439). -/
def execPartCreate (h : CmdHead) (part parent : BitVec 8) (area : W64) (frames : W32) (s : State) : Host.Outcome State Fault Refusal :=
  done s (s.command h (.partCreate h part parent area frames) (·.partCreate part.toNat parent.toNat area.toNat frames.toNat))
/-- PART_DELETE (R439). -/
def execPartDelete (h : CmdHead) (part : BitVec 8) (s : State) : Host.Outcome State Fault Refusal :=
  done s (s.deferred h (.partDelete h part) (·.partDelete h part.toNat))
/-- PART_MODE (R415, R439). -/
def execPartMode (h : CmdHead) (table : W64) (nrows : BitVec 16) (children : List (BitVec 8 × BitVec 8)) (s : State) :
    Host.Outcome State Fault Refusal :=
  done s (s.deferred h (.partMode h table nrows children)
    (·.partMode h table.toNat nrows.toNat (children.map (fun c => (c.1.toNat, c.2.toNat)))))
/-- SLOT_WRITE (R415, R439). -/
def execSlotWrite (h : CmdHead) (table : W64) (nrows : BitVec 16) (s : State) : Host.Outcome State Fault Refusal :=
  done s (s.deferred h (.slotWrite h table nrows) (·.slotWrite h table.toNat nrows.toNat))
/-- VF_BIND (R439). -/
def execVfBind (h : CmdHead) (vf : BitVec 16) (part : BitVec 8) (ring : W64) (log : BitVec 8) (s : State) :
    Host.Outcome State Fault Refusal :=
  done s (s.command h (.vfBind h vf part ring log) (·.vfBind vf.toNat part.toNat ring.toNat log.toNat))
/-- VF_UNBIND (R439). -/
def execVfUnbind (h : CmdHead) (vf : BitVec 16) (s : State) : Host.Outcome State Fault Refusal :=
  done s (s.command h (.vfUnbind h vf) (·.vfUnbind vf.toNat))
/-- ASID_CREATE (R439). -/
def execAsidCreate (h : CmdHead) (asid vf : BitVec 16) (root : W64) (len : BitVec 16) (s : State) : Host.Outcome State Fault Refusal :=
  done s (s.command h (.asidCreate h asid vf root len) (·.asidCreate asid.toNat vf.toNat root (len.setWidth 64)))
/-- ASID_DELETE (R439). -/
def execAsidDelete (h : CmdHead) (asid : BitVec 16) (s : State) : Host.Outcome State Fault Refusal :=
  done s (s.commandOver h (.asidDelete h asid) (·.rangesOf [asid.toNat] 0 (2 ^ 57)) (·.asidDelete asid.toNat))
/-- REGION_SET (R241, R439). -/
def execRegionSet (h : CmdHead) (asid : BitVec 16) (region : BitVec 8) (entry : W32) (s : State) : Host.Outcome State Fault Refusal :=
  done s (s.commandOver h (.regionSet h asid region entry) (·.regionRange asid.toNat region.toNat)
    (·.regionSet asid.toNat region.toNat entry))
/-- LEASE_SET (R243, R439). -/
def execLeaseSet (h : CmdHead) (asid len : BitVec 16) (s : State) : Host.Outcome State Fault Refusal :=
  done s (s.command h (.leaseSet h asid len) (·.leaseSet asid.toNat (len.setWidth 64)))
/-- MAP (R367, R439). -/
def execMap (h : CmdHead) (asid : BitVec 16) (size attrs : BitVec 8) (count : W32) (va gpa : W64) (s : State) :
    Host.Outcome State Fault Refusal :=
  done s (s.command h (.map h asid size attrs count va gpa)
    (·.mapPages asid.toNat size.toNat attrs.toNat count.toNat va.toNat gpa.toNat))
/-- UNMAP (R367, R439, R477). -/
def execUnmap (h : CmdHead) (asid : BitVec 16) (size : BitVec 8) (count : W32) (va : W64) (s : State) : Host.Outcome State Fault Refusal :=
  done s (s.commandOver h (.unmap h asid size count va)
    (fun s => s.rangesOf (s.sharers asid.toNat) va.toNat (va.toNat + spanOf size.toNat count.toNat))
    (·.unmapPages asid.toNat size.toNat count.toNat va.toNat))
/-- FRAME_GRANT (R364, R439). -/
def execFrameGrant (h : CmdHead) (part dest fset attrs : BitVec 8) (count : W32) (hpa gpa : W64) (s : State) :
    Host.Outcome State Fault Refusal :=
  done s (s.command h (.frameGrant h part dest fset attrs count hpa gpa)
    (·.frameGrant part.toNat dest.toNat fset.toNat attrs.toNat count.toNat hpa.toNat gpa.toNat))
/-- FRAME_REVOKE (R364, R439). -/
def execFrameRevoke (h : CmdHead) (part : BitVec 8) (count : W32) (hpa : W64) (s : State) : Host.Outcome State Fault Refusal :=
  done s (s.command h (.frameRevoke h part count hpa) (·.frameRevoke part.toNat count.toNat hpa.toNat))
/-- CODE_LOAD (R306, R439). -/
def execCodeLoad (h : CmdHead) (asid : BitVec 16) (source : W64) (length : W32) (dest : W64) (s : State) : Host.Outcome State Fault Refusal :=
  done s (s.command h (.codeLoad h asid source length dest) (·.codeLoad h asid source.toNat length.toNat dest.toNat))
/-- CODE_UNLOAD (R439). -/
def execCodeUnload (h : CmdHead) (asid : BitVec 16) (kobj : W64) (s : State) : Host.Outcome State Fault Refusal :=
  done s (s.command h (.codeUnload h asid kobj) (·.codeUnload h asid kobj))
/-- LQ_CREATE (R439). -/
def execLqCreate (h : CmdHead) (base : W64) (log : BitVec 8) (cring : W64) (clog : BitVec 8) (s : State) : Host.Outcome State Fault Refusal :=
  done s (s.command h (.lqCreate h base log cring clog) (·.lqCreate h.fn base.toNat log.toNat cring.toNat clog.toNat))
/-- LQ_DELETE (R439). -/
def execLqDelete (h : CmdHead) (s : State) : Host.Outcome State Fault Refusal := done s (s.command h (.lqDelete h) (·.lqDelete h.fn))
/-- FSET_CREATE (R219, R439). -/
def execFsetCreate (h : CmdHead) (part fset nr : BitVec 8) (wstep : W32) (ranges : W64) (s : State) : Host.Outcome State Fault Refusal :=
  done s (s.command h (.fsetCreate h part fset nr wstep ranges) (·.fsetCreate part.toNat fset.toNat nr.toNat wstep ranges.toNat))
/-- FSET_DELETE (R233, R439). -/
def execFsetDelete (h : CmdHead) (part fset : BitVec 8) (s : State) : Host.Outcome State Fault Refusal :=
  done s (s.command h (.fsetDelete h part fset) (·.fsetDelete part.toNat fset.toNat))
/-- KEY_ROTATE (R445). -/
def execKeyRotate (h : CmdHead) (part : BitVec 8) (s : State) : Host.Outcome State Fault Refusal :=
  done s (s.deferred h (.keyRotate h part) (·.keyRotate h part.toNat))
/-- FQ_SERVICE, REPLAY (R374). -/
def execFqServiceReplay (h : CmdHead) (fid : W32) (s : State) : Host.Outcome State Fault Refusal :=
  done s (s.command h (.fqServiceReplay h fid) (·.fqReplay h.fn fid))
/-- FQ_SERVICE, DROP (R374). -/
def execFqServiceDrop (h : CmdHead) (fid : W32) (s : State) : Host.Outcome State Fault Refusal :=
  done s (s.command h (.fqServiceDrop h fid) (·.fqDrop h.fn fid))
/-- FQ_SERVICE, TRAP (R374). -/
def execFqServiceTrap (h : CmdHead) (fid : W32) (s : State) : Host.Outcome State Fault Refusal :=
  done s (s.command h (.fqServiceTrap h fid) (·.fqTrap h.fn fid))
/-- COLL_JOIN (R462). -/
def execCollJoin (h : CmdHead) (part : BitVec 8) (group rank members : BitVec 16) (timeout : W32) (wasid : BitVec 16)
    (wbase wlen : W64) (s : State) : Host.Outcome State Fault Refusal :=
  done s (s.command h (.collJoin h part group rank members timeout wasid wbase wlen)
    (·.collJoin part.toNat group.toNat rank.toNat members.toNat timeout.toNat wasid.toNat wbase.toNat wlen.toNat))
/-- COLL_LEAVE (R462, R467). -/
def execCollLeave (h : CmdHead) (part : BitVec 8) (group : BitVec 16) (s : State) : Host.Outcome State Fault Refusal :=
  done s (s.command h (.collLeave h part group) (·.collLeave part.toNat group.toNat))

end Sys2Proof.Machine
end

