-- ==== Sys2Proof/Machine/Health.lean ====
section
/-! DEFINITION. The HEALTH report, the measurement blocks, and management messages (R448 to R450, R473). -/

namespace Sys2Proof.Machine

/-! ### The HEALTH report -/

/-- Bytes of a bit vector, lowest first. -/
def vecBytes {w : Nat} (n : Nat) (v : BitVec w) : List Byte := natBytes n v.toNat

/-- Averages and coolant temperatures are values of their own at each report: the counter advances. -/
def State.tickFree (s : State) : State := { s with freeCtr := s.freeCtr + 1 }

/-- The device section, 512 bytes (R473). -/
def State.deviceSection (s : State) : List Byte :=
  vecBytes 4 s.hstatNow ++ vecBytes 4 s.bootCount ++ vecBytes 32 s.coreMap ++ s.hbmRate.flatMap (vecBytes 2)
    ++ vecBytes 2 s.portUp ++ vecBytes 2 s.pcie ++ natBytes 4 0
    ++ s.dies.flatMap (fun d => vecBytes 8 d.corrected ++ vecBytes 8 d.uncorrected)
    ++ vecBytes 8 s.mchk ++ s.dies.flatMap (fun d => vecBytes 2 d.tempC)
    ++ vecBytes 4 (Config.coolant s.freeCtr) ++ natBytes 4 0 ++ vecBytes 8 (Config.powerMw s.freeCtr)
    ++ List.replicate 336 0

/-- A partition's entry: Overrun count and excess (R450). -/
def State.overrunEntry (s : State) (p : Nat) : List Byte :=
  match s.part? p with
  | some x => vecBytes 4 x.overruns ++ vecBytes 4 x.excessUs
  | none => natBytes 8 0

/-- The report of 1,024 bytes; a VF's issuer sees its own partition's entry only (R450). -/
def State.healthReport (s : State) (own : Option Nat) : List Byte :=
  s.deviceSection ++ (List.range 64).flatMap (fun p =>
    if own.all (fun q => q == p) then s.overrunEntry p else natBytes 8 0)

/-- The partition that a command's issuer is confined to; none for the PF. -/
def State.confines (s : State) (h : CmdHead) : Option Nat := if h.fn = 0 then none else s.partOf h.fn

/-- HEALTH (R439, R450). -/
def State.healthCmd (s : State) (h : CmdHead) (addr : Nat) : CmdEnd :=
  let bs := s.healthReport (s.confines h)
  ({ s.tickFree with hostMem := s.hostMem.setBytes addr bs } : State).ok 1024

/-! ### Measurements -/

/-- The 384 bytes of a row (R404, R405). -/
def Row.bytes (r : Row) : List Byte :=
  let ent (e : RowEnt) : List Byte :=
    natBytes 1 (0x80 + e.part) ++ natBytes 1 (match e.donTo with
      | some t => 0x40 + t
      | none => 0) ++ natBytes 2 0 ++ vecBytes 4 e.hcw ++ vecBytes 2 e.rdcw ++ natBytes 1 e.hbms ++ natBytes 1 e.uls ++ natBytes 4 0
  natBytes 4 r.durUs ++ natBytes 1 r.ents.length ++ natBytes 3 0 ++ r.qmap.flatMap (fun q => natBytes 1 (q.getD 0x80))
    ++ r.ents.flatMap ent ++ List.replicate (16 * (16 - r.ents.length)) 0 ++ natBytes 56 0

/-- The contents of a measurement block (R448). -/
def State.measurement (s : State) (own : Option Nat) (block : Nat) : List Byte :=
  match block with
  | 3 => (List.range 64).map (fun i => if s.patched then Config.mgmtByte 0x10 3 i else 0)
  | 4 => s.fuses.mxcap.flatMap (fun l => l.flatMap (natBytes 1)) ++ vecBytes 32 s.fuses.fusedOff
      ++ natBytes 4 s.fuses.secVersion ++ natBytes 1 (boolNat s.fuses.pqReq) ++ vecBytes 32 s.coreMap
  | 5 => s.rows.flatMap Row.bytes
  | 6 => (s.parts.filter (fun p => own.all (fun q => q == p.num))).flatMap (fun p =>
      natBytes 1 p.num ++ natBytes 1 p.parent ++ natBytes 4 p.keyGen)
  | k => (List.range 64).map (fun i => Config.mgmtByte 0x10 k i)

/-- n bytes of a signature or digest whose value the spec does not give, by message kind. -/
def State.openBytes (s : State) (kind n : Nat) : List Byte := (List.range n).map (fun i => Config.mgmtByte kind s.freeCtr i)

/-- A signed measurement response to a nonce: the blocks, the nonce, and an RSA-4096 signature (R448). -/
def State.measured (s : State) (own : Option Nat) (blocks : List Nat) (nonce : List Byte) : List Byte :=
  blocks.flatMap (fun b => natBytes 1 b ++ natBytes 4 (s.measurement own b).length ++ s.measurement own b) ++ nonce
    ++ s.openBytes 7 512

/-- ATTEST: the signed response to the nonce, written at the report address (R439, R448). -/
def State.attestCmd (s : State) (h : CmdHead) (nonce : List Byte) (addr : Nat) : CmdEnd :=
  let bs := s.measured (s.confines h) [1, 2, 3, 4, 5, 6] nonce
  ({ s.tickFree with hostMem := s.hostMem.setBytes addr bs } : State).ok (BitVec.ofNat 64 bs.length)

/-! ### Management messages -/

/-- Kinds of the messages that the device sends: SPDM responses 1 to 7 in the order of R448, 8 an MCTP control response,
9 ERROR_UNSUPPORTED_CMD, 10 the HEALTH report, 11 an SPDM error, 12 an SMBus NAK (log entry 36). -/
def State.respond (s : State) (kind : Nat) (body : List Byte) : State :=
  { s.tickFree with mgmt := s.mgmt ++ [⟨kind, body⟩] }

/-- The byte that names a binding. -/
def busByte (b : MctpBus) : Byte :=
  match b with
  | .pcieVdm => 0
  | .smbus _ => 1

/-- Answers on the binding that the request came by. -/
def State.reply (s : State) (b : MctpBus) (kind : Nat) (body : List Byte) : State := s.respond kind (busByte b :: body)

/-- A management request reaches the device: by ID over PCI Express, or at its own SMBus address (R449). -/
def reaches (b : MctpBus) : Bool :=
  match b with
  | .pcieVdm => true
  | .smbus a => a == Config.smbusAddress

/-- Answers a management request that reaches the device: before the hypervisor core has booted an SMBus request is NAKed,
and PCI Express has no link (R449, R468, R476). -/
def State.manage (s : State) (b : MctpBus) (f : State → State) : State :=
  if !reaches b then s
  else if s.boot.isNone then f s
  else
    match b with
    | .pcieVdm => s
    | .smbus _ => s.respond 12 []

/-- An SPDM response, on the binding that the requester uses (R448, R449). -/
def State.spdm (s : State) (kind : Nat) (body : List Byte) : State := s.manage s.binding (·.reply s.binding kind body)

/-! ### Meanings -/

/-- HEALTH (R450). -/
def execHealth (h : CmdHead) (report : W64) (s : State) : Host.Outcome State Fault Refusal :=
  done s (s.command h (.health h report) (·.healthCmd h report.toNat))
/-- ATTEST (R448). -/
def execAttest (h : CmdHead) (nonce : List Byte) (report : W64) (s : State) : Host.Outcome State Fault Refusal :=
  done s (s.command h (.attest h nonce report) (·.attestCmd h nonce report.toNat))
/-- An MCTP control message is answered (R449). -/
def execMctpControl (bus : MctpBus) (body : List Byte) (s : State) : Host.Outcome State Fault Refusal :=
  done s (s.manage bus (fun s => if s.recovery then s else s.reply bus 8 (s.openBytes 8 body.length)))
/-- A message type that is none of the supported ones is answered with ERROR_UNSUPPORTED_CMD (R449). -/
def execMctpUnsupported (bus : MctpBus) (type : Byte) (s : State) : Host.Outcome State Fault Refusal :=
  done s (s.manage bus (fun s => if s.recovery || [0x00, 0x05, 0x7E].contains type then s else s.reply bus 9 [type]))
/-- The vendor-defined message carries the HEALTH report (R449). -/
def execHealthVdm (bus : MctpBus) (s : State) : Host.Outcome State Fault Refusal :=
  done s (s.manage bus (fun s => s.reply bus 10 (s.healthReport none)))
/-- GET_VERSION: SPDM 1.2 (R448). -/
def execGetVersion (s : State) : Host.Outcome State Fault Refusal := done s (s.spdm 1 [0x12])
/-- GET_CAPABILITIES (R448). -/
def execGetCapabilities (s : State) : Host.Outcome State Fault Refusal := done s (s.spdm 2 (s.openBytes 2 4))
/-- NEGOTIATE_ALGORITHMS: RSASSA-4096 and SHA-512 of what the requester offers (R448). -/
def execNegotiateAlgorithms (asym hash : W32) (s : State) : Host.Outcome State Fault Refusal :=
  done s (s.spdm 3 (vecBytes 4 (asym &&& 0x20) ++ vecBytes 4 (hash &&& 4)))
/-- GET_DIGESTS (R448). -/
def execGetDigests (s : State) : Host.Outcome State Fault Refusal :=
  done s (s.spdm 4 ((List.range 64).map (fun i => Config.mgmtByte 4 0 i)))
/-- GET_CERTIFICATE: the part of the chain asked for, and how much is left (R448). -/
def execGetCertificate (offset length : BitVec 16) (s : State) : Host.Outcome State Fault Refusal :=
  let n := min length.toNat (Config.certLength - offset.toNat)
  done s (s.spdm 5 (natBytes 2 n ++ natBytes 2 (Config.certLength - offset.toNat - n)
    ++ (List.range n).map (fun i => Config.mgmtByte 5 0 (offset.toNat + i))))
/-- CHALLENGE: a signed answer to the nonce (R448). -/
def execChallenge (nonce : List Byte) (s : State) : Host.Outcome State Fault Refusal :=
  done s (s.spdm 6 ((List.range 64).map (fun i => Config.mgmtByte 4 0 i) ++ nonce ++ s.openBytes 6 512))
/-- GET_MEASUREMENTS: one block, all of them, or their number (R448). -/
def execGetMeasurements (block : Byte) (nonce : List Byte) (s : State) : Host.Outcome State Fault Refusal :=
  done s (match block.toNat with
    | 0 => s.spdm 7 [6]
    | 255 => s.spdm 7 (s.measured none [1, 2, 3, 4, 5, 6] nonce)
    | b => if b ≤ 6 then s.spdm 7 (s.measured none [b] nonce) else s.spdm 11 [block])

end Sys2Proof.Machine
end

