-- ==== Sys2Proof/Machine/LaneExchange.lean ====
section
/-! DEFINITION. Lane exchange within the architectural group (R91 to R96). -/

namespace Sys2Proof.Machine

/-- SHFL (R92). -/
def laneShfl (x : XForm) (c : Ctx) (h : Nat) : LaneOut :=
  match shflLane (x.c.toNat % 4) (x.c.toNat / 4 % 8) h ((c.val 2 h).toNat % 2 ^ 32) with
  | some j => pure1 (c.val 1 j)
  | none => pure1 0

/-- Active lanes whose A satisfies p. -/
def Ctx.votes (c : Ctx) (p : W64 → Bool) : List Nat := c.act.filter (fun h => p (c.val 1 h))

/-- BALLOT (R93). -/
def laneBallot (c : Ctx) (_h : Nat) : LaneOut := pure1 (maskOf (c.votes (fun v => v.setWidth 32 != 0#32)))

/-- The result of a VOTE mode (R94). -/
def voteOf (c : Ctx) (x : XForm) : Nat :=
  let yes := (c.votes (fun v => v != 0)).length
  let all := c.act.length
  match x.c.toNat with
  | 0 => boolNat (yes == all)
  | 1 => boolNat (0 < yes)
  | 2 => boolNat ((c.votes (fun v => v == c.uval 1)).length == all)
  | 3 => yes
  | _ => boolNat (all < 2 * yes)

/-- VOTE (R94): a p destination receives whether the result is nonzero. -/
def laneVote (x : XForm) (c : Ctx) (_h : Nat) : LaneOut :=
  let r := voteOf c x
  pure1 (BitVec.ofNat 64 (if 0x144 ≤ x.d.toNat ∧ x.d.toNat < 0x14C then boolNat (r != 0) else r))

/-- READLANE (R95). -/
def laneReadlane (c : Ctx) (_h : Nat) : LaneOut := pure1 (c.val 1 ((c.uval 2).toNat % 2 ^ 32 % c.g.width))

/-- SHFL (R92). -/
def execShfl (x : XForm) (s : State) : Host.Outcome State Fault Refusal :=
  done s (issueWord (.shfl x) (laneOp (laneShfl x)) s)
/-- BALLOT (R93). -/
def execBallot (x : XForm) (s : State) : Host.Outcome State Fault Refusal :=
  done s (issueWord (.ballot x) (laneOp laneBallot) s)
/-- VOTE (R94). -/
def execVote (x : XForm) (s : State) : Host.Outcome State Fault Refusal :=
  done s (issueWord (.vote x) (laneOp (laneVote x)) s)
/-- READLANE (R95). -/
def execReadlane (x : XForm) (s : State) : Host.Outcome State Fault Refusal :=
  done s (issueWord (.readlane x) (laneOp laneReadlane) s)

end Sys2Proof.Machine
end

