-- ==== Sys2Proof/Machine/Resets.lean ====
section
/-! DEFINITION. Function-level and package resets, the boot steps and their record, soft errors, time synchronisation and
throttling (R242, R256, R428, R444, R467 to R476). -/

namespace Sys2Proof.Machine

/-! ### Function-level reset -/

/-- Groups of a VF's launches. -/
def State.groupsOfVf (s : State) (vf : Nat) : List Group :=
  s.groups.filter (fun g => ((s.wg? g.wid).bind (fun w => s.launch? w.lid)).any (fun l => l.vf == vf))

/-- Every workgroup of a VF ends with status 1, without records or completion entries (R444); its requests to peers that have
not left are dropped (R467). -/
def State.endVfWork (s : State) (vf : Nat) : State :=
  let gids := (s.groupsOfVf vf).map (·.gid)
  let s := s.abortCmds (fun g k => gids.contains g.gid && !k.isFree && !k.performed)
  let s := (s.ops.filter (fun o => gids.contains o.gid && o.isLogged)).foldl (fun s o => s.dropLogged vf o) s
  let s := (s.ops.filter (fun o => gids.contains o.gid && !o.scratch)).foldl (fun s o =>
    (o.lanes.filter (fun l => l.isTodo && (s.peerPort o.asid.toNat l.addr.toNat).isSome)).foldl (fun s l =>
      s.laneDone o.gid o.id l.lane) s) s
  let s := gids.foldl (fun s gid => s.dissolve gid) s
  let s : State := { s with
    ops := s.ops.filter (fun o => !(gids.contains o.gid && (match o.instr with
      | .launch _ => true
      | _ => false)))
    groups := s.groups.map (fun g => if gids.contains g.gid then { g with stopped := true, traps := [] } else g)
    wgs := s.wgs.map (fun w => if (s.launch? w.lid).any (fun l => l.vf == vf) then { w with ended := true } else w)
    launches := s.launches.map (fun l => if l.vf = vf then { l with status := 1 } else l)
    queue := s.queue.map (fun e => if e.vf = vf then { e with record := { e.record with fromHost := false } } else e) }
  (s.queue.filter (fun e => e.vf == vf && !e.admitted)).foldl (fun s e => s.finishTask vf e.id 1 1 true) s

/-- Rings, launch queue and code objects of a VF are disabled and deleted; the binding and the fault ring's place are kept
(R444). -/
def Func.flr (f : Func) : Func :=
  { f with
    cqCfg := 0, cqPi := 0, cqCi := 0, cpCfg := 0, cpCi := 0, cpPi := 0, lqPi := List.replicate 8 0, lqCi := List.replicate 8 0
    fqPi := 0, fqCi := 0, cmds := [], heldRecs := [], openFids := [], lqMade := false, lqSubmitted := [], lcPi := 0, lcCi := 0
    lcHeld := [] }

/-- FUNCTION_LEVEL_RESET of a VF (R444). -/
def State.flr (s : State) (vf : Nat) : State :=
  if vf = 0 || 256 < vf then s
  else
    let s := (s.withFunc vf).endVfWork vf
    let asids := (s.asids.filter (fun c => c.vf == vf)).map (·.asid)
    let s : State := { s with codes := s.codes.filter (fun c => !asids.contains c.asid.toNat) }
    s.modFunc vf (fun f => { f.flr with resetting := true })

/-- FUNCTION_LEVEL_RESET_DONE: once the VF's work is gone, FLRDONE is set and the PF told (R433, R444). -/
def State.flrDone (s : State) (vf : Nat) : State :=
  match s.func? vf with
  | some f =>
    if f.resetting && !s.launches.any (fun l => l.vf == vf) then
      (s.modFunc vf (fun f => { f with resetting := false, fstat := f.fstat ||| 2 })).signal 0 4
    else s
  | none => s

/-! ### PF, warm and cold reset -/

/-- A function after its partition is gone: every VF exists, and its reset is done (R433, R444). -/
def Func.unbound (f : Func) : Func :=
  let g := f.flr
  if f.fn = 0 then g
  else { g with bound := none, resetting := false, fstat := f.fstat ||| 2, fqRing := 0, fqLog := 0 }

/-- Every partition ends at once: its work, contexts, caches' lines, address spaces, frames and key (R255, R444, R468). -/
def State.endAll (s : State) : State :=
  { s with
    launches := [], clusters := [], wgs := [], groups := [], formed := [], ops := [], acks := [], mx := []
    l1 := [], pathLines := [], travRuns := [], home := [], rdc := [], notices := [], tlb := [], hbmScope := [], frameOwners := [], asids := [], parts := []
    fsets := [], pages := [], codes := [], pinnedFree := [], rows := [Row.idle], curRow := 0, rowStart := s.time 0
    quads := List.replicate 64 QuadState.idle, pendingTable := none, tableWait := [], deferredCmds := []
    funcs := (List.range 257).map (fun fn => ((s.func? fn).getD (Func.reset fn)).unbound), queue := [], done := [], nextCmdFn := 0, colls := []
    collLeft := s.colls.map (fun c => (c.part, c.group)) ++ s.collLeft, sends := []
    badScratch := [], badFetch := [], issue := Issue.idle, fwWait := none, coreW := [] }

/-- Deferred commands that firmware has accepted, and the command that it is about. -/
def State.accepted (s : State) : List CmdHead :=
  (s.pendingTable.toList.map (·.head)) ++ s.tableWait.map (·.1) ++ s.deferredCmds.map (fun d => match d with
    | .partDelete h _ _ => h
    | .keyRotate h _ _ => h) ++ s.fwWait.toList.map (·.head)

/-- A reset of the PF: its accepted commands complete with ABORTED, every VF is reset, every partition ends, and the end of
each VF's reset is signalled (R433, R440, R444). -/
def State.pfReset (s : State) : State :=
  let s := s.accepted.foldl (fun s h => s.complete h stAborted 0) s
  let s : State := { s.endAll with keyGen := s.keyGen + 1 }
  (List.range 256).foldl (fun s _ => s.signal 0 4) s

/-! ### The boot steps -/

/-- Two's alternatives: what a unit's step yields, OUT and SET, and whether no alternative is left (R470 to R472). -/
structure StepEnd where
  out : Nat
  set : W32
  fatal : Bool
  deriving DecidableEq, Repr

/-- An optional step (R472): skipped after a failed boot. -/
def optionalStep (prev : Option BootEntry) (set : W32) (works : Bool) : StepEnd :=
  if prev.any (fun e => e.out == 1) then ⟨2, 0, false⟩
  else if works then ⟨0, set, false⟩ else ⟨1, set, false⟩

/-- The alternative that a required step starts from (R472). -/
def firstAlt (prev : Option BootEntry) (n : Nat) (idx : BootEntry → Nat) : Nat :=
  match prev with
  | some e => if e.out = 1 then min (idx e + 1) (n - 1) else if e.out = 3 then idx e else 0
  | none => 0

/-- An attempt of a required step, first or a retry with alternative k: it passes, fails with no alternative left, or is
retried once with the next alternative; a setting of 0 after a retry that failed at 8,000 Mb/s leaves the stack out (R472). -/
def requiredStep (sets : List W32) (start : Nat) (retry : Option Nat) (works : Nat → Bool) : Except Nat StepEnd :=
  let set (k : Nat) : W32 := (sets[k]?).getD 0
  let k := retry.getD start
  if works k then .ok ⟨if k = 0 then 0 else 3, set k, false⟩
  else if sets.length ≤ k + 1 then .ok ⟨1, set k, true⟩
  else if retry.isNone then .error (k + 1)
  else if set k = 8000 then .ok ⟨3, 0, false⟩
  else .ok ⟨1, set k, false⟩

/-- The entry of the previous boot for a step and unit (R472). -/
def State.prevEntry (s : State) (step unit : Nat) : Option BootEntry :=
  s.bootRecord.find? (fun e => e.boot == s.bootCount - 1 && e.step.toNat == step && e.unit.toNat == unit)

/-- Writes an entry to the ring of 256, with TIME in µs, saturating (R471). -/
def State.record (s : State) (step unit : Nat) (r : StepEnd) : State :=
  let time := BitVec.ofNat 32 (min ((s.time 0).toNat / 1000) (2 ^ 32 - 1))
  let l := s.bootRecord ++ [⟨s.bootCount, byteOf step, byteOf r.out, BitVec.ofNat 16 unit, r.set, time⟩]
  { s with bootRecord := l.drop (l.length - 256) }

/-- Index of a recorded setting among the alternatives. -/
def setIndex (sets : List W32) (e : BootEntry) : Nat := (sets.findIdx? (fun x => x == e.set)).getD 0

/-- The data rates of step 0x04, the last leaving the stack out (R470). -/
def hbmSets : List W32 := [11000, 9600, 8000, 0]

/-- The rates of step 0x08 (R433). -/
def pcieSets : List W32 := [128, 64, 32]

/-- Removes cores from the core map. -/
def State.loseCores (s : State) (cs : List Nat) : State :=
  { s with coreMap := cs.foldl (fun m c => m &&& ~~~((1 : BitVec 256) <<< c)) s.coreMap }

/-- Sets or clears a port. -/
def State.setPort (s : State) (p : Nat) (up : Bool) : State :=
  { s with portUp := if up then s.portUp ||| ((1 : BitVec 16) <<< p) else s.portUp &&& ~~~((1 : BitVec 16) <<< p) }

/-- An image may be used (R447): its signature verifies, its security version reaches the fused minimum, an ML-DSA-87
signature that it has verifies, and PQREQ asks for one. -/
def imageOk (f : Fuses) (i : ImageCheck) : Bool :=
  i.rsaOk && f.secVersion ≤ i.version && i.mldsa != some false && (!f.pqReq || i.mldsa == some true)

/-- Steps and units in the order in which a boot runs them: a cold one all, a warm one from step 0x05 (R468 to R470). -/
def bootSteps (cold : Bool) (f : Fuses) : List (Nat × Nat) :=
  (if cold then [(1, 0), (2, 0)] ++ (List.range 6).map (fun u => (3, u)) ++ (List.range 16).map (fun u => (4, u)) else [])
    ++ ((List.range 256).filter (fun c => !f.fusedOff.getLsbD c)).map (fun c => (5, c))
    ++ (List.range 64).map (fun q => (6, q)) ++ (List.range 16).map (fun p => (7, p)) ++ [(8, 0)]

/-- Every stack but this one is left out. -/
def State.lastStack (s : State) (u : Nat) : Bool := u == 15 && (s.hbmRate.take 15).all (· == 0)

/-- The settings of a required step, the alternatives after the first; an optional step has none (R470, R472). -/
def State.bootSets (s : State) (step unit : Nat) : List W32 :=
  match step with
  | 1 => [0, 1]
  | 3 => [Config.filleyLanes false, Config.filleyLanes true]
  | 4 => if s.lastStack unit then hbmSets.take 3 else hbmSets
  | 8 => pcieSets
  | _ => []

/-- The setting that an optional step records (R471). -/
def bootSet (step : Nat) : W32 := if step = 7 then 200 else 0

/-- A step works on a unit with alternative k (R447, R470). -/
def stepWorks (r : BootResults) (f : Fuses) (step unit k : Nat) : Bool :=
  match step with
  | 1 => imageOk f (if k = 0 then r.imageA else r.imageB)
  | 2 => r.patch.all (imageOk f)
  | 3 => !r.linkFail.contains (unit + 6 * k)
  | 4 => k = 3 || !r.hbmFail.contains (unit, ((hbmSets[k]?).getD 0).toNat)
  | 5 => !r.coreFail.contains unit
  | 6 => !r.engineFail.contains unit
  | 7 => !r.portFail.contains unit
  | _ => !r.pcieFail.contains ((pcieSets[k]?).getD 0).toNat

/-- What a step that ended does to the machine (R470, R472). -/
def State.bootUse (s : State) (r : BootResults) (step unit : Nat) (e : StepEnd) : State :=
  match step with
  | 2 => { s with patched := e.out = 0 && r.patch.isSome }
  | 4 => { s with hbmRate := modNth s.hbmRate unit (fun _ => if e.out = 1 then 0 else e.set.setWidth 16) }
  | 5 => if e.out = 0 then s else s.loseCores [unit]
  | 6 => if e.out = 0 then s else s.loseCores [4 * unit, 4 * unit + 1, 4 * unit + 2, 4 * unit + 3]
  | 7 => s.setPort unit (e.out == 0)
  | 8 => { s with pcie := if e.out = 1 then 0 else BitVec.ofNat 16 ((if r.pcieX8 then 8 else 16) * 256) + e.set.setWidth 16 }
  | _ => s

/-- An attempt of a step on a unit: how it ends, or the alternative of its retry at once (R472). -/
def State.bootTry (s : State) (b : BootRun) (step unit : Nat) : Except Nat StepEnd :=
  let prev := s.prevEntry step unit
  let sets := s.bootSets step unit
  let works := stepWorks b.results s.fuses step unit
  if sets = [] then .ok (optionalStep prev (bootSet step) (works 0))
  else requiredStep sets (firstAlt prev sets.length (fun e => if step = 3 then boolNat (e.out != 0) else setIndex sets e)) b.retry works

/-- The end of a boot: REPL, DEGR and RECOV, and the host is told (R472 to R474). -/
def State.bootEnd (s : State) (b : BootRun) (fatal : Bool) : State :=
  ({ s with
    boot := none, recovery := fatal, replReq := s.replReq || b.marked
    degraded := b.degraded || s.earlyDegraded || s.coreMap != ~~~s.fuses.fusedOff } : State).noteHealth

/-- An attempt of a boot step takes time, which the manual leaves open. -/
def State.bootPass (s : State) : State :=
  { s with
    dies := s.dies.map (fun d => { d with time := d.time + BitVec.ofNat 64 (Config.bootNs s.freeCtr) })
    cores := s.cores.map (fun k => { k with cycle := k.cycle + BitVec.ofNat 64 (Config.bootCycles s.freeCtr) })
    freeCtr := s.freeCtr + 1 }

/-- The next attempt of a boot (R469 to R472): one step on one unit, retried once at once, with one entry at its end. The boot
ends after its last step, or where a required step has no alternative left or every stack is left out. -/
def State.bootNext (s : State) : State :=
  match s.boot with
  | none => s
  | some b =>
    match b.todo with
    | [] => s.bootEnd b false
    | (step, unit) :: rest =>
      let s := s.bootPass
      match s.bootTry b step unit with
      | .error k => { s with boot := some { b with retry := some k } }
      | .ok e =>
        let s := (s.record step unit e).bootUse b.results step unit e
        let s := { s with earlyDegraded := s.earlyDegraded || step ≤ 4 && e.out != 0 }
        let b : BootRun := { b with
          todo := rest, retry := none, marked := b.marked || e.out == 1 || e.out == 3, degraded := b.degraded || e.out != 0 }
        let fatal := e.fatal || step == 4 && unit == 15 && s.hbmRate.all (· == 0)
        if fatal || rest.isEmpty then s.bootEnd b fatal else { s with boot := some b }

/-- A boot begins. -/
def State.startBoot (s : State) (cold : Bool) (r : BootResults) : State :=
  { s with
    bootCount := s.bootCount + 1, portUp := 0, pcie := 0, recovery := false
    boot := some ⟨r, cold, bootSteps cold s.fuses, none, false, false⟩ }

/-- COLD_RESET: everything but the fuses, the boot record and the world outside returns to its reset value, HBM loses its
contents, and the boot runs every step (R468). One that meets a boot loses the entry being written (R476). -/
def State.coldReset (s : State) (r : BootResults) : State :=
  let z := State.reset
  let dead := s.keyGen + 1
  let lines := (s.hbm.map (fun e => e.1 / 64)).eraseDups
  let s : State := { z with
    fuses := s.fuses, coreMap := ~~~s.fuses.fusedOff, hbm := s.hbm, hostMem := s.hostMem, peerMem := s.peerMem
    seals := Cells.setAll [] (lines.map (fun l => (l, BitVec.ofNat 32 (dead + 1))))
    peerRefuse := s.peerRefuse, peerLen := s.peerLen, heard := s.heard, keyGen := dead, vectors := s.vectors, mgmt := s.mgmt, binding := s.binding
    bootCount := s.bootCount, bootRecord := s.bootRecord, hstat := s.hstat, turns := s.turns, tick := s.tick
    hbmRate := List.replicate 16 0, freeCtr := s.freeCtr }
  s.startBoot true r

/-- WARM_RESET: every partition ends, caches and tables are cleared, and the boot runs from step 0x05; TIME, HBM training,
the core map and the health counts are kept (R468). The link that asks for it is down while a boot runs. -/
def State.warmReset (s : State) (r : BootResults) : State :=
  if s.boot.isSome then s
  else ({ s.endAll with evictBound := [], keyGen := s.keyGen + 1 } : State).startBoot false r

/-! ### Soft errors and the clocks -/

/-- Replaces a die by f of it. -/
def State.modDie (s : State) (d : Nat) (f : Die → Die) : State := { s with dies := modNth s.dies d f }

/-- Counts a corrected or an uncorrected error of a base die (R256, R473). -/
def State.countEcc (s : State) (d : Nat) (double : Bool) (n : Nat := 1) : State :=
  s.modDie d (fun x => if double then { x with uncorrected := satInc x.uncorrected n } else { x with corrected := satInc x.corrected n })

/-- Replacement is requested (R474). -/
def State.requestRepl (s : State) : State := ({ s with replReq := true } : State).noteHealth

/-- A double error in a store-buffer entry: the store is not applied, and its group takes Machine check (R256, R428). -/
def State.storeError (s : State) (op lane : Nat) : State :=
  match s.op? op with
  | none => s
  | some o =>
    match o.lane? lane with
    | none => s
    | some l =>
      if !o.instr.isPlainStore || !l.isTodo then s
      else
        let s := s.laneDone o.gid op lane
        if (s.group? o.gid).any (fun g => !g.stopped && !g.retired) then
          s.takeTrap o.gid { cause := 0x14, epc := o.pc, finfo := 3, path := o.path }
        else s.machineRecord

/-- Lost lines are counted, and firmware is told (R256, R428, R474). -/
def State.linesLost (s : State) (die n : Nat) : State := (s.countEcc die true n).machineRecord.requestRepl

/-- A tag or directory error of a home cache: the lines of the set are recalled and lost; their lease records bound those of
the set's later lines (R245, R256). -/
def State.tagError (s : State) (die set : Nat) : State :=
  let lost := s.setOf die set
  (lost.foldl (fun s h =>
    let s := (s.quietLine h.asid h.line).dirRecall h.asid h.line
    match s.home? h.asid h.line with
    | none => s
    | some x =>
      let s := if x.dirty = 0 then s
        else ({ s with freeCtr := s.freeCtr + 1 } : State).writeHbmLine x.backing (s.genOf x.asid) (Config.freeLine s.freeCtr) x.dirty 0
      s.leaveHome x.asid x.line) s).linesLost die lost.length

/-- A tag error of an RDC: the lines of the set are recalled to their homes, and what a dirty copy held is lost (R256). -/
def State.rdcTagError (s : State) (die set : Nat) : State :=
  let lost := s.rdc.filter (fun r => r.die == die && rdcSet r.line == rdcSet set)
  (lost.foldl (fun s r =>
    let dirty : Bool := r.st == .m || r.st == .o
    let s := if dirty then { s.putRdc { r with data := Config.freeLine s.freeCtr } with freeCtr := s.freeCtr + 1 } else s
    (s.quietLine r.asid r.line).dirRecall r.asid r.line) s).linesLost die lost.length

/-- A tag error of an L1: the lines of the set are dropped and lost (R256). -/
def State.l1TagError (s : State) (core set : Nat) : State :=
  let mine (x : L1Line) : Bool := x.core == core && l1Set x.line == l1Set set
  (s.dropL1 mine).linesLost (dieOf core) (s.l1.filter mine).length

/-- SOFT_ERROR (R256). Single errors are corrected and counted. -/
def State.softError (s : State) (e : SoftError) : State :=
  match e with
  | .l1 core asid line double =>
    let s := s.countEcc (dieOf core) double
    if double then s.dropL1 (fun x => x.core == core && x.asid == asid && x.line == line) else s
  | .storeBuffer op lane double =>
    let die := ((s.op? op).map (fun o => dieOf o.core)).getD 0
    let s := s.countEcc die double
    if double then s.storeError op lane else s
  | .scratchpad wid off double =>
    let die := (((s.wg? wid).bind (·.core)).map dieOf).getD 0
    let s := s.countEcc die double
    if double then { s with badScratch := if s.badScratch.contains (wid, off / 8) then s.badScratch else s.badScratch ++ [(wid, off / 8)] } else s
  | .homeData asid line granule double =>
    match s.home? asid line with
    | none => s
    | some h =>
      let s := s.countEcc h.die double
      let g : BitVec 8 := 1 <<< granule
      if double && h.dirty != 0 then s.putHome { h with poison := h.poison ||| g, dirty := h.dirty ||| g } else s
  | .rdcData die asid line granule double =>
    match s.rdc? die asid line with
    | none => s
    | some r =>
      let s := s.countEcc die double
      if double && (r.st == .m || r.st == .o) then s.putRdc { r with poison := r.poison ||| ((1 : BitVec 8) <<< granule) } else s
  | .tags die set double => if double then s.tagError die set else s.countEcc die false
  | .l1Tags core set double => if double then s.l1TagError core set else s.countEcc (dieOf core) false
  | .rdcTags die set double => if double then s.rdcTagError die set else s.countEcc die false
  | .hbm addr double =>
    let s := s.countEcc (bits addr 39 38) double
    if double then
      ({ s with poison := if s.poison.contains (addr / 8 * 8) then s.poison else s.poison ++ [addr / 8 * 8] } : State).requestRepl
    else s
  | .vreg gid lane reg => s.modGroup gid (fun g => { g with badV := g.badV ++ [lane * 256 + reg % 256] })
  | .sreg gid reg => s.modGroup gid (fun g => { g with badS := g.badS ++ [reg % 64] })
  | .latch gid lane idx => s.modGroup gid (fun g => g.modThreads (fun h => h == lane) (fun _ t =>
      { t with latches := { t.latches with bad := t.latches.bad ||| ((1 : BitVec 4) <<< (idx % 4)) } }))
  | .fetch asid line persists => if persists then { s with badFetch := s.badFetch ++ [(asid, line)] } else s

/-- TIME_SYNC_LOSS: the die stops granting leases, and firmware is told (R242, R474). -/
def State.syncLoss (s : State) (die : Nat) : State :=
  ((s.modDie die (fun d => { d with synced := false, lostAt := s.time 0 })).machineRecord).requestRepl

/-- A die's junction temperature is read: at 120 °C the package removes its main power (R475). -/
def State.heat (s : State) (die : Nat) (temp : BitVec 16) (f : Die → Die) : State :=
  let s := s.modDie die (fun d => f { d with tempC := temp })
  if 120 ≤ temp.toNat then { s with powered := false } else s

/-- THERMAL_THROTTLE: another sixteenth off the die's clock at 105 °C or more, down to half (R475). -/
def State.throttle (s : State) (die : Nat) (temp : BitVec 16) : State :=
  (s.heat die temp (fun d => { d with clockSteps := if 105 ≤ temp.toNat then min 8 (d.clockSteps + 1) else d.clockSteps })).noteHealth

/-- THROTTLING_END below 100 °C (R475). -/
def State.unthrottle (s : State) (die : Nat) (temp : BitVec 16) : State :=
  let was := (s.dies[die]?).any (fun d => d.clockSteps != 0)
  let s := s.heat die temp (fun d => { d with clockSteps := if temp.toNat < 100 then 0 else d.clockSteps })
  (if was && temp.toNat < 100 then { s with throtEnd := some (s.time 0) } else s).noteHealth

/-! ### Meanings -/

/-- FUNCTION_LEVEL_RESET (R444, R467). -/
def execFunctionLevelReset (vf : Nat) (s : State) : Host.Outcome State Fault Refusal := done s (s.flr vf)
/-- FUNCTION_LEVEL_RESET_DONE (R444). -/
def execFunctionLevelResetDone (vf : Nat) (s : State) : Host.Outcome State Fault Refusal := done s (s.flrDone vf)
/-- PF_RESET (R444). -/
def execPfReset (s : State) : Host.Outcome State Fault Refusal := done s s.pfReset
/-- COLD_RESET (R468). -/
def execColdReset (b : BootResults) (s : State) : Host.Outcome State Fault Refusal := done s (s.coldReset b)
/-- WARM_RESET (R468). -/
def execWarmReset (b : BootResults) (s : State) : Host.Outcome State Fault Refusal := done s (s.warmReset b)
/-- VENDOR_RESET_MESSAGE: a warm reset (R468); before the device has booted no message reaches it. -/
def execVendorResetMessage (b : BootResults) (s : State) : Host.Outcome State Fault Refusal := done s (s.warmReset b)
/-- SOFT_ERROR (R256). -/
def execSoftError (e : SoftError) (s : State) : Host.Outcome State Fault Refusal := done s (s.softError e)
/-- SCRUB_PASS: single errors are corrected when they are met, so a pass finds none to rewrite (R256). -/
def execScrubPass (_hbm : Bool) (_unit : Nat) (s : State) : Host.Outcome State Fault Refusal := done s s
/-- TIME_SYNC_LOSS (R242). -/
def execTimeSyncLoss (die : Nat) (s : State) : Host.Outcome State Fault Refusal := done s (s.syncLoss die)
/-- THERMAL_THROTTLE (R475). -/
def execThermalThrottle (die : Nat) (temp : BitVec 16) (s : State) : Host.Outcome State Fault Refusal := done s (s.throttle die temp)
/-- THROTTLING_END (R475). -/
def execThrottlingEnd (die : Nat) (temp : BitVec 16) (s : State) : Host.Outcome State Fault Refusal := done s (s.unthrottle die temp)
/-- THERMAL_SHUTDOWN, where a die has reached 120 °C: main power is off until a cold reset (R475). -/
def execThermalShutdown (s : State) : Host.Outcome State Fault Refusal :=
  .next (if s.dies.any (fun d => 120 ≤ d.tempC.toNat) then { s with powered := false } else s)

end Sys2Proof.Machine
end

