-- ==== Sys2Proof/Machine/Dispatch.lean ====
section
/-! DEFINITION. The one dispatch from an instruction to its meaning, in the order of the type. -/

namespace Sys2Proof.Machine

def exec (i : Instr) (s : State) : Host.Outcome State Fault Refusal :=
  match i with
  | .ill rest => Sys2Proof.Machine.execIll rest s
  | .ill3ff rest => Sys2Proof.Machine.execIll3ff rest s
  | .unassignedOpcode op rest => Sys2Proof.Machine.execUnassignedOpcode op rest s
  | .nop x => Sys2Proof.Machine.execNop x s
  | .iadd x => Sys2Proof.Machine.execIadd x s
  | .isub x => Sys2Proof.Machine.execIsub x s
  | .iaddc x => Sys2Proof.Machine.execIaddc x s
  | .imul x => Sys2Proof.Machine.execImul x s
  | .imulh x => Sys2Proof.Machine.execImulh x s
  | .imad x => Sys2Proof.Machine.execImad x s
  | .imadw x => Sys2Proof.Machine.execImadw x s
  | .iabs x => Sys2Proof.Machine.execIabs x s
  | .imin x => Sys2Proof.Machine.execImin x s
  | .imax x => Sys2Proof.Machine.execImax x s
  | .shl x => Sys2Proof.Machine.execShl x s
  | .shr x => Sys2Proof.Machine.execShr x s
  | .sar x => Sys2Proof.Machine.execSar x s
  | .rot x => Sys2Proof.Machine.execRot x s
  | .logic x => Sys2Proof.Machine.execLogic x s
  | .bfe x => Sys2Proof.Machine.execBfe x s
  | .bfi x => Sys2Proof.Machine.execBfi x s
  | .popc x => Sys2Proof.Machine.execPopc x s
  | .clz x => Sys2Proof.Machine.execClz x s
  | .ctz x => Sys2Proof.Machine.execCtz x s
  | .brev x => Sys2Proof.Machine.execBrev x s
  | .prmt x => Sys2Proof.Machine.execPrmt x s
  | .icmp x => Sys2Proof.Machine.execIcmp x s
  | .iset x => Sys2Proof.Machine.execIset x s
  | .sel x => Sys2Proof.Machine.execSel x s
  | .plog x => Sys2Proof.Machine.execPlog x s
  | .mov x => Sys2Proof.Machine.execMov x s
  | .movi x => Sys2Proof.Machine.execMovi x s
  | .lea x => Sys2Proof.Machine.execLea x s
  | .icvt x => Sys2Proof.Machine.execIcvt x s
  | .shfl x => Sys2Proof.Machine.execShfl x s
  | .ballot x => Sys2Proof.Machine.execBallot x s
  | .vote x => Sys2Proof.Machine.execVote x s
  | .readlane x => Sys2Proof.Machine.execReadlane x s
  | .bra x => Sys2Proof.Machine.execBra x s
  | .brx x => Sys2Proof.Machine.execBrx x s
  | .call x => Sys2Proof.Machine.execCall x s
  | .callx x => Sys2Proof.Machine.execCallx x s
  | .ret x => Sys2Proof.Machine.execRet x s
  | .exit x => Sys2Proof.Machine.execExit x s
  | .setmeet x => Sys2Proof.Machine.execSetmeet x s
  | .setprio x => Sys2Proof.Machine.execSetprio x s
  | .yield x => Sys2Proof.Machine.execYield x s
  | .regroup x => Sys2Proof.Machine.execRegroup x s
  | .switchpt x => Sys2Proof.Machine.execSwitchpt x s
  | .cvdecl x => Sys2Proof.Machine.execCvdecl x s
  | .backoff x => Sys2Proof.Machine.execBackoff x s
  | .sleep x => Sys2Proof.Machine.execSleep x s
  | .trap x => Sys2Proof.Machine.execTrap x s
  | .bkpt x => Sys2Proof.Machine.execBkpt x s
  | .clock x => Sys2Proof.Machine.execClock x s
  | .fadd x => Sys2Proof.Machine.execFadd x s
  | .fsub x => Sys2Proof.Machine.execFsub x s
  | .fmul x => Sys2Proof.Machine.execFmul x s
  | .ffma x => Sys2Proof.Machine.execFfma x s
  | .fmin x => Sys2Proof.Machine.execFmin x s
  | .fmax x => Sys2Proof.Machine.execFmax x s
  | .fminnm x => Sys2Proof.Machine.execFminnm x s
  | .fmaxnm x => Sys2Proof.Machine.execFmaxnm x s
  | .fcmp x => Sys2Proof.Machine.execFcmp x s
  | .fset x => Sys2Proof.Machine.execFset x s
  | .fclass x => Sys2Proof.Machine.execFclass x s
  | .fsgn x => Sys2Proof.Machine.execFsgn x s
  | .fdiv x => Sys2Proof.Machine.execFdiv x s
  | .fsqrt x => Sys2Proof.Machine.execFsqrt x s
  | .frcpe x => Sys2Proof.Machine.execFrcpe x s
  | .frsqe x => Sys2Proof.Machine.execFrsqe x s
  | .frnd x => Sys2Proof.Machine.execFrnd x s
  | .fldexp x => Sys2Proof.Machine.execFldexp x s
  | .fgetexp x => Sys2Proof.Machine.execFgetexp x s
  | .fcvt x => Sys2Proof.Machine.execFcvt x s
  | .f2i x => Sys2Proof.Machine.execF2i x s
  | .i2f x => Sys2Proof.Machine.execI2f x s
  | .dot2 x => Sys2Proof.Machine.execDot2 x s
  | .dot4 x => Sys2Proof.Machine.execDot4 x s
  | .hfma2 x => Sys2Proof.Machine.execHfma2 x s
  | .fsat x => Sys2Proof.Machine.execFsat x s
  | .ld x => Sys2Proof.Machine.execLd x s
  | .st x => Sys2Proof.Machine.execSt x s
  | .lds x => Sys2Proof.Machine.execLds x s
  | .sts x => Sys2Proof.Machine.execSts x s
  | .ldq x => Sys2Proof.Machine.execLdq x s
  | .stq x => Sys2Proof.Machine.execStq x s
  | .ldv x => Sys2Proof.Machine.execLdv x s
  | .pref x => Sys2Proof.Machine.execPref x s
  | .atom x => Sys2Proof.Machine.execAtom x s
  | .cas x => Sys2Proof.Machine.execCas x s
  | .red x => Sys2Proof.Machine.execRed x s
  | .fence x => Sys2Proof.Machine.execFence x s
  | .fencex x => Sys2Proof.Machine.execFencex x s
  | .drop x => Sys2Proof.Machine.execDrop x s
  | .promote x => Sys2Proof.Machine.execPromote x s
  | .cctl x => Sys2Proof.Machine.execCctl x s
  | .bar x => Sys2Proof.Machine.execBar x s
  | .bara x => Sys2Proof.Machine.execBara x s
  | .barw x => Sys2Proof.Machine.execBarw x s
  | .cbar x => Sys2Proof.Machine.execCbar x s
  | .sstep x => Sys2Proof.Machine.execSstep x s
  | .qdecl x => Sys2Proof.Machine.execQdecl x s
  | .qpush x => Sys2Proof.Machine.execQpush x s
  | .qpop x => Sys2Proof.Machine.execQpop x s
  | .qtry x => Sys2Proof.Machine.execQtry x s
  | .dqpush x => Sys2Proof.Machine.execDqpush x s
  | .dqpop x => Sys2Proof.Machine.execDqpop x s
  | .dqsteal x => Sys2Proof.Machine.execDqsteal x s
  | .launch x => Sys2Proof.Machine.execLaunch x s
  | .twait x => Sys2Proof.Machine.execTwait x s
  | .migrate x => Sys2Proof.Machine.execMigrate x s
  | .priowg x => Sys2Proof.Machine.execPriowg x s
  | .cpy x => Sys2Proof.Machine.execCpy x s
  | .cpyw x => Sys2Proof.Machine.execCpyw x s
  | .gath x => Sys2Proof.Machine.execGath x s
  | .scat x => Sys2Proof.Machine.execScat x s
  | .publish x => Sys2Proof.Machine.execPublish x s
  | .vhold x => Sys2Proof.Machine.execVhold x s
  | .vrel x => Sys2Proof.Machine.execVrel x s
  | .coll x => Sys2Proof.Machine.execColl x s
  | .mldred x => Sys2Proof.Machine.execMldred x s
  | .cwait x => Sys2Proof.Machine.execCwait x s
  | .halo x => Sys2Proof.Machine.execHalo x s
  | .estat x => Sys2Proof.Machine.execEstat x s
  | .tshape x => Sys2Proof.Machine.execTshape x s
  | .tld x => Sys2Proof.Machine.execTld x s
  | .tst x => Sys2Proof.Machine.execTst x s
  | .tzero x => Sys2Proof.Machine.execTzero x s
  | .tmovv x => Sys2Proof.Machine.execTmovv x s
  | .tmovt x => Sys2Proof.Machine.execTmovt x s
  | .mma x => Sys2Proof.Machine.execMma x s
  | .mmas x => Sys2Proof.Machine.execMmas x s
  | .gmma x => Sys2Proof.Machine.execGmma x s
  | .tcvt x => Sys2Proof.Machine.execTcvt x s
  | .mxscl x => Sys2Proof.Machine.execMxscl x s
  | .mxsclFill x => Sys2Proof.Machine.execMxsclFill x s
  | .tadd x => Sys2Proof.Machine.execTadd x s
  | .tscale x => Sys2Proof.Machine.execTscale x s
  | .tred x => Sys2Proof.Machine.execTred x s
  | .trace x => Sys2Proof.Machine.execTrace x s
  | .tresume x => Sys2Proof.Machine.execTresume x s
  | .hitget x => Sys2Proof.Machine.execHitget x s
  | .bvhchk x => Sys2Proof.Machine.execBvhchk x s
  | .rngkey x => Sys2Proof.Machine.execRngkey x s
  | .rng x => Sys2Proof.Machine.execRng x s
  | .rngf x => Sys2Proof.Machine.execRngf x s
  | .mfsr x => Sys2Proof.Machine.execMfsr x s
  | .mtsr x => Sys2Proof.Machine.execMtsr x s
  | .eret x => Sys2Proof.Machine.execEret x s
  | .opreplay x => Sys2Proof.Machine.execOpreplay x s
  | .opdrop x => Sys2Proof.Machine.execOpdrop x s
  | .halt x => Sys2Proof.Machine.execHalt x s
  | .idle x => Sys2Proof.Machine.execIdle x s
  | .syscall x => Sys2Proof.Machine.execSyscall x s
  | .deferredTrap gid => Sys2Proof.Machine.execDeferredTrap gid s
  | .loadReturn op lane => Sys2Proof.Machine.execLoadReturn op lane s
  | .storeApply op lane => Sys2Proof.Machine.execStoreApply op lane s
  | .storeAck ack => Sys2Proof.Machine.execStoreAck ack s
  | .atomicUnitChain op addr => Sys2Proof.Machine.execAtomicUnitChain op addr s
  | .dequeChain op addr => Sys2Proof.Machine.execDequeChain op addr s
  | .fenceComplete gid hold => Sys2Proof.Machine.execFenceComplete gid hold s
  | .gets die asid line => Sys2Proof.Machine.execGets die asid line s
  | .getm die asid line => Sys2Proof.Machine.execGetm die asid line s
  | .homeReadMiss asid line => Sys2Proof.Machine.execHomeReadMiss asid line s
  | .recallLine asid line => Sys2Proof.Machine.execRecallLine asid line s
  | .rdcForward die asid line => Sys2Proof.Machine.execRdcForward die asid line s
  | .puts die asid line => Sys2Proof.Machine.execPuts die asid line s
  | .pute die asid line => Sys2Proof.Machine.execPute die asid line s
  | .putm die asid line => Sys2Proof.Machine.execPutm die asid line s
  | .puto die asid line => Sys2Proof.Machine.execPuto die asid line s
  | .leaseExpiry core asid line => Sys2Proof.Machine.execLeaseExpiry core asid line s
  | .translationWalk op lane => Sys2Proof.Machine.execTranslationWalk op lane s
  | .fetchLineArrival gid line => Sys2Proof.Machine.execFetchLineArrival gid line s
  | .oplogReplay op => Sys2Proof.Machine.execOplogReplay op s
  | .replayEntry op => Sys2Proof.Machine.execReplayEntry op s
  | .publishCut gid slot => Sys2Proof.Machine.execPublishCut gid slot s
  | .fillForwardComplete part fset asid page => Sys2Proof.Machine.execFillForwardComplete part fset asid page s
  | .engineCommandDone gid slot => Sys2Proof.Machine.execEngineCommandDone gid slot s
  | .meetRelease gid addr => Sys2Proof.Machine.execMeetRelease gid addr s
  | .backoffExpiry gid lane => Sys2Proof.Machine.execBackoffExpiry gid lane s
  | .sleepExpiry gid lane => Sys2Proof.Machine.execSleepExpiry gid lane s
  | .flockBinRelease wid addr => Sys2Proof.Machine.execFlockBinRelease wid addr s
  | .passedOverGuard gid => Sys2Proof.Machine.execPassedOverGuard gid s
  | .partitionStarvation core ipart => Sys2Proof.Machine.execPartitionStarvation core ipart s
  | .barrierPhaseComplete wid bar => Sys2Proof.Machine.execBarrierPhaseComplete wid bar s
  | .cbarPhaseComplete cid bar => Sys2Proof.Machine.execCbarPhaseComplete cid bar s
  | .sstepRelease lid => Sys2Proof.Machine.execSstepRelease lid s
  | .qpushProceed cid q => Sys2Proof.Machine.execQpushProceed cid q s
  | .qpopProceed cid q => Sys2Proof.Machine.execQpopProceed cid q s
  | .cvdeclWrite gid tok => Sys2Proof.Machine.execCvdeclWrite gid tok s
  | .launchEntryGrant op lane => Sys2Proof.Machine.execLaunchEntryGrant op lane s
  | .twaitComplete gid tok => Sys2Proof.Machine.execTwaitComplete gid tok s
  | .migrateLand gid => Sys2Proof.Machine.execMigrateLand gid s
  | .cwaitComplete gid tok => Sys2Proof.Machine.execCwaitComplete gid tok s
  | .idleWake gid lane => Sys2Proof.Machine.execIdleWake gid lane s
  | .groupRetire gid => Sys2Proof.Machine.execGroupRetire gid s
  | .launchAdmit vf id cores => Sys2Proof.Machine.execLaunchAdmit vf id cores s
  | .switchRendezvous wid => Sys2Proof.Machine.execSwitchRendezvous wid s
  | .contextPromote core => Sys2Proof.Machine.execContextPromote core s
  | .contextAgeing core => Sys2Proof.Machine.execContextAgeing core s
  | .matrixGrant quad => Sys2Proof.Machine.execMatrixGrant quad s
  | .matrixPassComplete quad => Sys2Proof.Machine.execMatrixPassComplete quad s
  | .traversalComplete op lane => Sys2Proof.Machine.execTraversalComplete op lane s
  | .issueStop quad => Sys2Proof.Machine.execIssueStop quad s
  | .quiescenceComplete quad => Sys2Proof.Machine.execQuiescenceComplete quad s
  | .contextSaveComplete quad => Sys2Proof.Machine.execContextSaveComplete quad s
  | .slotBoundary => Sys2Proof.Machine.execSlotBoundary s
  | .overrun quad => Sys2Proof.Machine.execOverrun quad s
  | .slackDonation quad => Sys2Proof.Machine.execSlackDonation quad s
  | .workgroupResume wid core => Sys2Proof.Machine.execWorkgroupResume wid core s
  | .keyRotateComplete part => Sys2Proof.Machine.execKeyRotateComplete part s
  | .partCreate h part parent area frames => Sys2Proof.Machine.execPartCreate h part parent area frames s
  | .partDelete h part => Sys2Proof.Machine.execPartDelete h part s
  | .partMode h table nrows children => Sys2Proof.Machine.execPartMode h table nrows children s
  | .slotWrite h table nrows => Sys2Proof.Machine.execSlotWrite h table nrows s
  | .vfBind h vf part ring log => Sys2Proof.Machine.execVfBind h vf part ring log s
  | .vfUnbind h vf => Sys2Proof.Machine.execVfUnbind h vf s
  | .asidCreate h asid vf root len => Sys2Proof.Machine.execAsidCreate h asid vf root len s
  | .asidDelete h asid => Sys2Proof.Machine.execAsidDelete h asid s
  | .regionSet h asid region entry => Sys2Proof.Machine.execRegionSet h asid region entry s
  | .leaseSet h asid len => Sys2Proof.Machine.execLeaseSet h asid len s
  | .map h asid size attrs count va gpa => Sys2Proof.Machine.execMap h asid size attrs count va gpa s
  | .unmap h asid size count va => Sys2Proof.Machine.execUnmap h asid size count va s
  | .frameGrant h part dest fset attrs count hpa gpa => Sys2Proof.Machine.execFrameGrant h part dest fset attrs count hpa gpa s
  | .frameRevoke h part count hpa => Sys2Proof.Machine.execFrameRevoke h part count hpa s
  | .codeLoad h asid source length dest => Sys2Proof.Machine.execCodeLoad h asid source length dest s
  | .codeUnload h asid kobj => Sys2Proof.Machine.execCodeUnload h asid kobj s
  | .lqCreate h base log cring clog => Sys2Proof.Machine.execLqCreate h base log cring clog s
  | .lqDelete h => Sys2Proof.Machine.execLqDelete h s
  | .fsetCreate h part fset nr wstep ranges => Sys2Proof.Machine.execFsetCreate h part fset nr wstep ranges s
  | .fsetDelete h part fset => Sys2Proof.Machine.execFsetDelete h part fset s
  | .keyRotate h part => Sys2Proof.Machine.execKeyRotate h part s
  | .fqServiceReplay h fid => Sys2Proof.Machine.execFqServiceReplay h fid s
  | .fqServiceDrop h fid => Sys2Proof.Machine.execFqServiceDrop h fid s
  | .fqServiceTrap h fid => Sys2Proof.Machine.execFqServiceTrap h fid s
  | .collJoin h part group rank members timeout wasid wbase wlen => Sys2Proof.Machine.execCollJoin h part group rank members timeout wasid wbase wlen s
  | .collLeave h part group => Sys2Proof.Machine.execCollLeave h part group s
  | .attest h nonce report => Sys2Proof.Machine.execAttest h nonce report s
  | .health h report => Sys2Proof.Machine.execHealth h report s
  | .roundClosure part group kind round off => Sys2Proof.Machine.execRoundClosure part group kind round off s
  | .collectiveTimeout part group kind round off => Sys2Proof.Machine.execCollectiveTimeout part group kind round off s
  | .functionLevelResetDone vf => Sys2Proof.Machine.execFunctionLevelResetDone vf s
  | .overrunDelayEnd quad => Sys2Proof.Machine.execOverrunDelayEnd quad s
  | .softError e => Sys2Proof.Machine.execSoftError e s
  | .scrubPass hbm unit => Sys2Proof.Machine.execScrubPass hbm unit s
  | .timeSyncLoss die => Sys2Proof.Machine.execTimeSyncLoss die s
  | .thermalThrottle die temp => Sys2Proof.Machine.execThermalThrottle die temp s
  | .thermalShutdown => Sys2Proof.Machine.execThermalShutdown s
  | .throttlingEnd die temp => Sys2Proof.Machine.execThrottlingEnd die temp s
  | .coldReset b => Sys2Proof.Machine.execColdReset b s
  | .warmReset b => Sys2Proof.Machine.execWarmReset b s
  | .functionLevelReset vf => Sys2Proof.Machine.execFunctionLevelReset vf s
  | .pfReset => Sys2Proof.Machine.execPfReset s
  | .configRequest fn access => Sys2Proof.Machine.execConfigRequest fn access s
  | .cqdb fn value => Sys2Proof.Machine.execCqdb fn value s
  | .lqdb fn level value => Sys2Proof.Machine.execLqdb fn level value s
  | .cpci fn value => Sys2Proof.Machine.execCpci fn value s
  | .fqci fn value => Sys2Proof.Machine.execFqci fn value s
  | .apsync fn => Sys2Proof.Machine.execApsync fn s
  | .fstat fn value => Sys2Proof.Machine.execFstat fn value s
  | .registerWrite fn off value => Sys2Proof.Machine.execRegisterWrite fn off value s
  | .apertureAccess fn off write data => Sys2Proof.Machine.execApertureAccess fn off write data s
  | .mctpControl bus body => Sys2Proof.Machine.execMctpControl bus body s
  | .mctpUnsupported bus type => Sys2Proof.Machine.execMctpUnsupported bus type s
  | .healthVdm bus => Sys2Proof.Machine.execHealthVdm bus s
  | .vendorResetMessage b => Sys2Proof.Machine.execVendorResetMessage b s
  | .getVersion => Sys2Proof.Machine.execGetVersion s
  | .getCapabilities => Sys2Proof.Machine.execGetCapabilities s
  | .negotiateAlgorithms asym hash => Sys2Proof.Machine.execNegotiateAlgorithms asym hash s
  | .getDigests => Sys2Proof.Machine.execGetDigests s
  | .getCertificate offset length => Sys2Proof.Machine.execGetCertificate offset length s
  | .challenge nonce => Sys2Proof.Machine.execChallenge nonce s
  | .getMeasurements block nonce => Sys2Proof.Machine.execGetMeasurements block nonce s
  | .peerRequest r => Sys2Proof.Machine.execPeerRequest r s
  | .linkReplayFailure port => Sys2Proof.Machine.execLinkReplayFailure port s
  | .ualinkLinkUp port => Sys2Proof.Machine.execUalinkLinkUp port s
  | .collAnnounce part group rank members leave => Sys2Proof.Machine.execCollAnnounce part group rank members leave s
  | .memberArrival a => Sys2Proof.Machine.execMemberArrival a s
  | .haloSendAck part group round rank refused => Sys2Proof.Machine.execHaloSendAck part group round rank refused s
  | .haloReport part group round rank => Sys2Proof.Machine.execHaloReport part group round rank s

end Sys2Proof.Machine
end

