-- ==== Sys2Proof/Machine/Due.lean ====
section
/-! DEFINITION. What a step does when the world outside has chosen nothing: work of firmware that is no row of the table,
the events whose condition holds, the issue of a partition, the end of a cycle and its passing (log entry 3). -/

namespace Sys2Proof.Machine

/-- Continues an outcome with a next state. -/
def andThen (o : Host.Outcome State Fault Refusal) (f : State → Host.Outcome State Fault Refusal) :
    Host.Outcome State Fault Refusal :=
  match o with
  | .next s => f s
  | .fault r => .fault r
  | .refused r => .refused r

/-! ### Work that is no row of the table -/

/-- A group that waits to land again may land now. -/
def State.landsNow (s : State) (g : Group) : Bool :=
  g.landDie.isSome && !g.retired && (((s.landSaved g.gid).group? g.gid).any (fun x => x.landDie.isNone))

/-- The next piece of work of firmware or hardware that is no row of the table: the boot (R469), a refused descriptor (R437), records that
wait for a launch queue (R441), a command whose leases have run out (R241), a group that lands again (R394), a change of
HSTAT (R433). -/
def State.chore (s : State) : Option State :=
  match s.nextCommand with
  | some (_, .error _) => some s.refuseBad
  | _ =>
    if s.boot.isSome then some s.bootNext
    else if s.fwWait.any (fun w => s.leasePassed w.lease) then some s.endWait
    else if s.funcs.any (fun f => f.lqSubmitted != [] && s.queueFree f.fn) then some s.fillQueues
    else
      match s.groups.find? s.landsNow with
      | some g => some (s.landSaved g.gid)
      | none => if s.hstatNow = s.hstat then none else some s.noteHealth

/-! ### Events whose condition may hold -/

/-- An event of a condition. -/
def whenever (b : Bool) (i : Instr) : List Instr := if b then [i] else []

/-- Events of a quad's slot edges (R409 to R413). -/
def State.quadEvents (s : State) (q : Nat) : List Instr :=
  match s.quads[q]? with
  | none => []
  | some k =>
    match k.edge with
    | .running =>
      if k.owner.isNone then whenever (k.idleUntil != 0 && k.idleUntil ≤ s.time 0) (.overrunDelayEnd q)
      else whenever (s.stopDue q) (.issueStop q)
        ++ whenever (k.idleUntil != 0 && k.idleUntil ≤ s.time 0) (.overrunDelayEnd q)
    | .stopped => [.quiescenceComplete q, .overrun q]
    | .quiesced => [.contextSaveComplete q, .overrun q]
    | .saved => []

/-- Events of a thread's wait (R109 to R112, R181, R189, R195, R377). -/
def State.waitEvents (s : State) (g : Group) (h : Nat) (t : Thread) : List Instr :=
  if t.exited then []
  else
    match t.wait with
    | .backoff => whenever ((s.coreOf g).any (fun c => t.blockedUntil ≤ s.cycle c)) (.backoffExpiry g.gid h)
    | .sleep => whenever (t.blockedUntil ≤ s.time (s.groupDie g)) (.sleepExpiry g.gid h)
    | .idle _ _ => [.idleWake g.gid h]
    | .fetch line none => [.fetchLineArrival g.gid line]
    | .twait tok _ _ => [.twaitComplete g.gid tok]
    | .cwait tok _ _ _ => [.cwaitComplete g.gid tok]
    | .cvdecl tok _ _ => [.cvdeclWrite g.gid tok]
    | .migrate _ _ _ => [.migrateLand g.gid]
    | _ => []

/-- Events of a group; a command whose writes are made is due 100 ns after them (R102, R160, R182 to R190, R209, R226, R422). -/
def State.groupEvents (s : State) (g : Group) : List Instr :=
  if g.retired then []
  else
    whenever g.nextTrap.isSome (.deferredTrap g.gid)
    ++ (g.holds.filter (s.holdDone g)).map (fun h => .fenceComplete g.gid h.id)
    ++ g.cmds.zipIdx.flatMap (fun e =>
        if e.1.isFree || e.1.st == 3 then []
        else
          match e.1.instr with
          | .publish _ => [.publishCut g.gid e.2, .engineCommandDone g.gid e.2]
          | _ => whenever (!e.1.performed || e.1.w.toNat + 100 ≤ s.latest.toNat) (.engineCommandDone g.gid e.2))
    ++ g.threads.zipIdx.flatMap (fun e => s.waitEvents g e.2 e.1)
    ++ whenever (!g.forced && g.threads.any (fun t => !t.exited && 64 ≤ t.passed)) (.passedOverGuard g.gid)
    ++ whenever ((g.live = [] || g.stopped) && s.groupIdle g) (.groupRetire g.gid)

/-- Events of an outstanding operation; the load-store unit's requests reach their lines after the cycle of the issue (R158, R164, R180, R244, R246, R289, R344, R361, R374, R388, R396). -/
def State.opEvents (s : State) (o : MemOp) : List Instr :=
  let todo := o.lanes.filter LaneReq.isTodo
  let addrs := (todo.map (·.addr)).eraseDups
  whenever (s.mayReplay o) (.oplogReplay o.id)
  ++ whenever (o.lanes.any LaneReq.withdrawn && s.groupActive o.gid && !s.logBefore o) (.replayEntry o.id)
  ++ match o.instr with
    | .tld _ => whenever (todo != []) (.translationWalk o.id 0)
    | .tst _ => whenever (todo != []) (.translationWalk o.id 0)
    | .promote _ => [.fenceComplete o.gid o.id]
    | .drop _ => [.fenceComplete o.gid o.id]
    | .launch _ =>
      (todo.filter (fun l => s.needsWalk o.asid.toNat l.addr.toNat)).map (fun l => .translationWalk o.id l.lane)
      ++ (o.lanes.filter (fun l => !l.isLogged)).map (fun l => .launchEntryGrant o.id l.lane)
    | i =>
      if isTravState i || isBvhchk i then todo.map (fun l => .traversalComplete o.id l.lane)
      else
        (todo.filter (s.walkFirst o)).map (fun l => .translationWalk o.id l.lane)
        ++ if s.cycle o.core ≤ o.since then []
          else if i.isAtomic then (addrs.filter (s.chainReady o)).map (fun a => .atomicUnitChain o.id a)
          else if i.isDeque then (addrs.filter (s.chainReady o)).map (fun a => .dequeChain o.id a)
          else if i.isLaneStore then (todo.filter (s.laneReady o)).map (fun l => .storeApply o.id l.lane)
          else if i.isPlainLoad then (todo.filter (s.laneReady o)).map (fun l => .loadReturn o.id l.lane)
          else []

/-- Some thread of a barrier's groups waits for a phase that has completed. -/
def State.barOverdue (s : State) (w : Workgroup) (k : Nat) : Bool :=
  s.groups.any (fun g => s.atBarrier w k g && g.threads.any (fun t => t.overdue k (s.barrier w k).phase))

/-- Barrier k of a workgroup can complete or release a waiter. -/
def State.barDue (s : State) (w : Workgroup) (k : Nat) : Bool := s.barrierMet w k || s.barOverdue w k

/-- Waiters of a queue are all of earlier cycles: those of this one take their turn at its end (R196). -/
def State.waitedOn (s : State) (ws : List QueueWait) : Bool := 
  !ws.isEmpty && ws.all (fun p => ((s.group? p.gid).bind s.coreOf).all (fun c => p.since < s.cycle c))

/-- Events of the barriers and queues (R170 to R175). -/
def State.syncEvents (s : State) : List Instr :=
  let wgs := s.wgs.filter (fun w => !w.retired)
  wgs.flatMap (fun w => ((List.range 16).filter (s.barDue w)).map (fun k => .barrierPhaseComplete w.wid k))
  ++ s.clusters.flatMap (fun c =>
      (match s.wgs.find? (fun w => w.cid == c.cid) with
        | some w => ((List.range 4).filter (fun k => s.barDue w (16 + k))).map (fun k => .cbarPhaseComplete c.cid k)
        | none => [])
      ++ (List.range 16).flatMap (fun q => whenever (s.waitedOn (s.pushWaits c.cid q)) (.qpushProceed c.cid q)
          ++ whenever (s.waitedOn (s.popWaits c.cid q)) (.qpopProceed c.cid q)))
  ++ s.launches.flatMap (fun l =>
      match s.wgs.find? (fun w => w.lid == l.lid) with
      | some w => whenever (s.barDue w 20) (.sstepRelease l.lid)
      | none => [])

/-- Events of the matrix engines, snapshots, collectives and directories (R227, R249 to R252, R323, R327, R454). -/
def State.unitEvents (s : State) : List Instr :=
  ((s.mx.map (·.quad)).eraseDups.flatMap (fun q => [.matrixPassComplete q, .matrixGrant q]))
  ++ (s.pages.filter (fun p => p.frames.any (fun f => f.state == .released))).map (fun p =>
      .fillForwardComplete p.part p.fset p.asid p.page)
  ++ (s.rounds.filter (fun r => !r.closed && !r.ok)).map (fun r => .collectiveTimeout r.part r.group r.kind r.num r.off)
  ++ s.home.flatMap (fun h => match h.busy with
      | some b => b.waitFor.map (fun d => .rdcForward d h.asid h.line)
      | none => [])
  ++ s.notices.flatMap (fun n => match n.st with
      | .s => [.puts n.die n.asid n.line]
      | .e => [.pute n.die n.asid n.line]
      | .m => [.putm n.die n.asid n.line]
      | .o => [.puto n.die n.asid n.line]
      | .i => [])

/-- Events of the dispatcher and of each core's scheduler (R310, R316, R317, R320, R321, R444, R445). -/
def State.dispatchEvents (s : State) : List Instr :=
  s.parts.flatMap (fun p =>
    whenever p.rotating (.keyRotateComplete p.num)
    ++ (match s.nextResume p.num with
      | some (wid, core) => [.workgroupResume wid core]
      | none => [])
    ++ (s.levelHeads p.num).map (fun e =>
      .launchAdmit e.vf e.id.toNat (if s.headLaunch p.num == some e then s.chosenCores p.num e else [])))
  ++ (s.wgs.filter (fun w => w.order.isSome && (s.meetingPoint w.wid).isSome)).map (fun w => .switchRendezvous w.wid)
  ++ (s.groups.filter (fun g => !g.retired && 4096 ≤ g.passed && !s.groups.any (fun x => x.starved && x.ipart == g.ipart
        && s.coreOf x == s.coreOf g))).filterMap (fun g => (s.coreOf g).map (fun c => .partitionStarvation c g.ipart))
  ++ (s.funcs.filter (·.resetting)).map (fun f => .functionLevelResetDone f.fn)

/-- Events whose condition may hold now, in the order in which the model lets them happen. -/
def State.candidates (s : State) : List Instr :=
  whenever (s.rowEnd ≤ (s.time 0).toNat) .slotBoundary
  ++ (List.range 64).flatMap s.quadEvents
  ++ s.acks.map (fun a => .storeAck a.id)
  ++ s.groups.flatMap s.groupEvents
  ++ (s.ops.sortBy (fun a b => a.rank s < b.rank s)).flatMap s.opEvents
  ++ s.unitEvents ++ s.syncEvents ++ s.dispatchEvents
  ++ (match s.nextCommand with
    | some (_, .ok i) => [i]
    | _ => [])

/-- An event changes the state. -/
def State.changes (s : State) (i : Instr) : Bool :=
  match exec i s with
  | .next s' => s' != s
  | _ => true

/-- The event that happens next. -/
def State.due (s : State) : Option Instr := s.candidates.find? s.changes

/-! ### Issue -/

/-- A partition may issue in this cycle: no issue of it is in progress (R203, R204). -/
def State.partFree (s : State) (core ipart : Nat) : Bool :=
  (s.core? core).all (fun k => (k.free[ipart]?).getD 0 ≤ k.cycle)

/-- Core and issue partition pairs with a group that may issue in this cycle, lowest core and partition first. -/
def State.issuers (s : State) : List (Nat × Nat) :=
  let all := (s.groups.filter s.groupRuns).filterMap (fun g =>
    match s.coreOf g with
    | some c => if s.partFree c g.ipart then some (c, g.ipart) else none
    | none => none)
  all.eraseDups.sortBy (fun a b => if a.1 != b.1 then a.1 < b.1 else a.2 < b.2)

/-- The partition that issues next in this cycle, and its choice (R204, R321). -/
def State.nextIssue (s : State) : Option (Nat × Nat × Cand) :=
  s.issuers.findSome? (fun p => (s.chooseIssue p.1 p.2).map (fun c => (p.1, p.2, c)))

/-- Executes one word of an issue: its meaning, or Illegal instruction where it does not decode. -/
def runWord (i : Option Instr) (s : State) : Host.Outcome State Fault Refusal :=
  match i with
  | some i => exec i s
  | none => .next (illegalWord s)

/-- The issue of a partition's choice: one instruction, or the two of a pair in order (R19, R204). -/
def State.runIssue (s : State) (core ipart : Nat) (c : Cand) : Host.Outcome State Fault Refusal :=
  let p := s.prepare core ipart c
  if p.stop then .next p.s
  else
    andThen (runWord p.first p.s) (fun t =>
      match p.first, p.second with
      | some i, some j => andThen (runWord j (t.secondSlot i)) (fun u => .next (u.endIssue (i :: j.toList)))
      | i, _ => .next (t.endIssue i.toList))

/-- An issue takes its partition for its cycles (R203, R204). -/
def State.served (s : State) (core ipart : Nat) (c : Cand) : State :=
  { s with cores := modNth s.cores core (fun k =>
      { k with free := modNth k.free ipart (fun _ => k.cycle + BitVec.ofNat 64 (s.issueCycles c)) }) }

/-- A partition of a core issues, if it has a choice and no issue of it is in progress (R203). -/
def State.issueAt (s : State) (core ipart : Nat) : Host.Outcome State Fault Refusal :=
  match if s.partFree core ipart then s.chooseIssue core ipart else none with
  | some c => (s.served core ipart c).runIssue core ipart c
  | none => .next s

/-! ### The end of a cycle, and time -/

/-- The proceeding of every waiter of every queue, as often as there are waiters. -/
def State.queueEnds (s : State) (push : Bool) (f : Nat → Nat → Instr) : List Instr :=
  s.clusters.flatMap (fun c => (List.range 16).flatMap (fun q =>
    List.replicate (s.queueWaits c.cid q push).length (f c.cid q)))

/-- A quad that may be donated: what a launch of the same cycle makes eligible counts first (R411, R417). -/
def State.donorQuads (s : State) : List Nat :=
  (List.range 64).filter (fun q => (s.quads[q]?).any (fun k => k.owner.isSome && k.edge == .running && k.donor.isNone
    && k.idleSince.toNat + 10000 ≤ (s.time 0).toNat && s.row.ents.any (fun e => e.donTo.isSome)))

/-- Events at the end of a cycle (R104, R210): pushes perform before pops (R196). A context enters the active set after the departures of the cycle, and one that
has aged first (R216, R320, R322). -/
def State.cycleEnds (s : State) : List Instr :=
  s.groups.flatMap (fun g =>
    if g.retired then []
    else (((g.threads.filter Thread.held).map (·.meet)).eraseDups.filter g.meetReady).map (fun x => .meetRelease g.gid x))
  ++ s.groups.flatMap (fun g =>
    if g.retired || g.stopped then []
    else ((g.threads.filterMap (fun t => match t.wait with
      | .regroup _ _ a => if t.exited then none else some a
      | _ => none)).eraseDups).map (fun a => .flockBinRelease g.wid a))
  ++ ((s.groups.filter s.wantsIn).filterMap s.coreOf).eraseDups.flatMap (fun c =>
      let n := (s.waitingGroups c).length
      List.replicate n (.contextAgeing c) ++ List.replicate n (.contextPromote c))
  ++ s.queueEnds true .qpushProceed ++ s.queueEnds false .qpopProceed ++ s.donorQuads.map .slackDonation

/-- A signer of an MMAS that has issued is issuable again (R213). -/
def Thread.afterCycle (t : Thread) : Thread := if t.wait = .signed then { t with wait := .none } else t

/-- Cycles and nanoseconds pass on every core and die (R114, R242). -/
def State.pass (s : State) (cycles ns : Nat) : State :=
  { s with
    groups := if cycles = 0 then s.groups else s.groups.map (fun g => g.mapThreads Thread.afterCycle)
    lineTurns := if cycles = 0 then s.lineTurns else []
    cores := s.cores.map (fun k => { k with cycle := k.cycle + BitVec.ofNat 64 cycles })
    dies := s.dies.map (fun d => { d with time := d.time + BitVec.ofNat 64 ns }) }

/-- Groups that have become, or have stopped being, not issuable (R320). -/
def State.markSince (s : State) : State :=
  { s with groups := s.groups.map (fun g =>
      if g.issuable then { g with notIssuableSince := 0 }
      else if g.notIssuableSince = 0 then { g with notIssuableSince := s.cycle ((s.coreOf g).getD 0) + 1 }
      else g) }

/-- The group is ready: in the active set, with a path that the scoreboard and pipes let issue (R321). -/
def State.ready (s : State) (g : Group) : Bool :=
  s.groupRuns g && (s.coreOf g).any (fun c => (s.choosePath c g).isSome)

/-- A group that is not ready has no longer been passed over while ready (R321). -/
def State.markPassed (s : State) : State :=
  { s with groups := s.groups.map (fun g =>
      if (g.passed != 0 || g.starved) && !s.ready g then { g with passed := 0, starved := false } else g) }

/-- The group stalls at a matrix instruction, or one of its TLDs or TSTs waits to enter the table (R325). -/
def State.stallsMx (s : State) (g : Group) : Bool :=
  (s.coreOf g).any (fun core => (s.groupRuns g && (s.wouldIssue core g).any (fun c => !s.candRoom core c))
    || (g.mxStall.isSome && s.tileWalks g.gid))

/-- Groups that have been stalled for want of an entry since this cycle, and those that no longer are (R325). -/
def State.markStalls (s : State) : State :=
  if s.mx.length < 8 && s.groups.all (·.mxStall.isNone) then s
  else { s with groups := s.groups.map (fun g =>
      if !s.stallsMx g then { g with mxStall := none }
      else if g.mxStall.isSome then g
      else { g with mxStall := some (s.cycle ((s.coreOf g).getD 0)) }) }

/-- Time passes, and what is counted in time is brought up to date (R320, R321, R411). -/
def State.elapse (s : State) (cycles ns : Nat) : State := (s.markStalls.markPassed.markSince.pass cycles ns).markIdle

/-- Nanoseconds of the cycle after c at 1.75 GHz. -/
def cycleNs (c : Nat) : Nat := 4 * (c + 1) / 7 - 4 * c / 7

/-- One cycle passes. -/
def State.tickCycle (s : State) : State := s.elapse 1 (cycleNs (s.cycle 0).toNat)

/-! ### Turns -/

/-- Groups that entered the active set of their core in this cycle take their partitions (R203, R216). -/
def State.seatGroups (s : State) : State :=
  ((s.groups.filter (fun g => g.tier == .active && 4 ≤ g.ipart)).filterMap s.coreOf).eraseDups.foldl State.takeParts s

/-- The events at the end of this cycle; the directory requests that arrived in it begin (R249). -/
def State.endCycle (s : State) : State :=
  (s.cycleEnds.foldl (fun s i => match exec i s with
    | .next t => t
    | _ => s) s).settleRounds.fitTiers.seatGroups.startLines

/-- Cycles until the next end of a REGROUP window (R210). -/
def State.windowIn (s : State) : Option Nat :=
  earliest id (s.groups.flatMap (fun g => match s.coreOf g with
    | none => []
    | some c => g.threads.filterMap (fun t => match t.wait with
      | .regroup _ stop _ => if !t.exited && s.cycle c < stop then some (stop - s.cycle c).toNat else none
      | _ => none)))

/-- Cycles and nanoseconds pass, no further at once than to the end of a REGROUP window; the rest stays the next turn
(R104, R210). -/
def State.advance (s : State) (cycles ns : Nat) : State :=
  if cycles = 0 then s.elapse 0 ns
  else
    let s := s.endCycle
    let k := match s.windowIn with
      | some w => min w cycles
      | none => cycles
    if k = cycles then s.elapse cycles ns
    else
      let n := ns * k / cycles
      let t := s.elapse k n
      { t with turns := .advance (cycles - k) (ns - n) :: t.turns }

/-- What the world outside may choose besides events of the table (R245, R251, R461). -/
def State.takeTurn (t : Turn) (s : State) : Host.Outcome State Fault Refusal :=
  match t with
  | .event i => exec i s
  | .issue core ipart => s.tidyFormed.issueAt core ipart
  | .advance cycles ns => .next (s.advance cycles ns)
  | .rdcEvict die asid line => Machine.done s (s.rdcReplace die asid line)
  | .homeEvict asid line =>
    Machine.done s (if (s.home? asid line).any (fun h => h.busy.isNone) then s.evictHome asid line else s)
  | .l1Evict core asid line => Machine.done s (s.dropL1 (fun x => x.core == core && x.asid == asid && x.line == line))
  | .pathFill path core asid line => Machine.done s (s.pathFill path core asid line)
  | .travStep op lane => Machine.done s (s.travGo op lane 1)
  | .travRead op lane addr => Machine.done s (s.travAhead op lane addr)
  | .hostWrite addr data => .next { s with hostMem := s.hostMem.setBytes addr data }
  | .bindTo bus => .next { s with binding := bus }
  | .launchRead vf n => .next (s.launchRead vf n)
  | .firmLaunch vf level r => .next (s.firmLaunch vf level { r with fromHost := false })
  | .peerWrite addr data => .next { s with peerMem := s.peerMem.setBytes addr data }
  | .peerState key rank len refuses =>
    .next { s with
      peerLen := (key, rank, len) :: s.peerLen.filter (fun e => !(e.1 == key && e.2.1 == rank))
      peerRefuse := (if refuses then [(key, rank)] else []) ++ s.peerRefuse.filter (fun e => e != (key, rank)) }

/-- What happens when the world outside has chosen nothing: work of firmware, then an event that is due, then an issue,
then the end of the cycle, then the next cycle. -/
def State.proceed (s : State) : Host.Outcome State Fault Refusal :=
  match s.chore with
  | some s' => Machine.done s s'
  | none =>
    match s.due with
    | some i => exec i s
    | none =>
      let t := s.tidyFormed
      match t.nextIssue with
      | some (core, ipart, c) => (t.served core ipart c).runIssue core ipart c
      | none => .next t.endCycle.tickCycle

/-- A cold reset, the one turn that a package without main power takes (R475). -/
def Turn.isColdReset : Turn → Bool
  | .event (.coldReset _) => true
  | _ => false

end Sys2Proof.Machine
end

