-- ==== Sys2Proof/Machine/Loaded.lean ====
section
/-! DEFINITION. A machine with a loaded and admitted program of one line of code: what the commands PART_CREATE,
SLOT_WRITE, VF_BIND, ASID_CREATE, REGION_SET, FRAME_GRANT, MAP, CODE_LOAD, LQ_CREATE and a launch leave behind for it
(log entry 9). -/

namespace Sys2Proof.Machine

/-- Address of the code object, in its address space and in HBM. -/
def loadBase : Nat := 0x10000

/-- A leaf entry for a 64 KiB page that maps an address to itself with every permission (R360). -/
def loadLeaf (k : Nat) : Pte := ⟨3, k, mkPte (k * 65536) true true false⟩

/-- Tables whose pages 0 to 31 have these leaves: the tables of levels 0 to 3 stand from an address on, 128 KiB apart
(R359). -/
def loadTables (base : Nat) (leaves : List Pte) : List Pte :=
  [⟨0, 0, mkTablePte (base + 0x20000)⟩, ⟨1, 0, mkTablePte (base + 0x40000)⟩, ⟨2, 0, mkTablePte (base + 0x60000)⟩] ++ leaves

/-- Host-physical roots of the stage-2 tables and of the stage-1 tables; the latter's guest-physical root. -/
def loadRoot2 : Nat := 0x100000
def loadRoot1 : Nat := 0x180000
def loadRootGpa : Nat := 0x80000

/-- Stage-2 leaves of the stage-1 tables' frames: guest-physical pages 8 to 15. -/
def loadTableLeaves : List Pte :=
  (List.range 8).map (fun k => ⟨3, 8 + k, mkPte (loadRoot1 + k * 65536) false false false⟩)

/-- A code object of one line and one variant of width w (R306, R307). -/
def loadCode (w : Nat) : CodeObj :=
  { asid := 1, kobj := BitVec.ofNat 64 loadBase, width := w, modsel := false, vmask := 1
    variants := [{ entry := 0, regs := 256, tiles := 32, tngrp := 1, scratch := 4096, mxmin := [32, 32, 32, 32, 32] }]
    switches := [], points := [] }

/-- Its launch record (R441). -/
def loadRecord : LaunchRec :=
  { kobj := BitVec.ofNat 64 loadBase, args := 0, nx := 1, ny := 1, nz := 1, reads := [], writes := [], k := 1, asid := 1
    ngrp := [1, 0, 0, 0], fpctl := 0, viewcur := 0, tvec := 0, user := 0, fromHost := true, malformed := false }

/-- The admitted launch (R313). -/
def loadLaunch : Launch := ⟨1, 1, 0, 1, 0, loadRecord, 0, 0, 0, Barrier.fresh, 0⟩

/-- Its workgroup, on core 0. -/
def loadWg : Workgroup :=
  { wid := 3, lid := 1, cid := 2, index := 0, wgx := 0, wgy := 0, wgz := 0, cwg := 0, core := some 0
    variant := 0, ngrp := 1, prio := 0, bars := List.replicate 16 Barrier.fresh, scratch := [], scratchSize := 4096
    tiles := List.replicate 32 Tile.fresh, order := none, ended := false, retired := false, savedTick := 0 }

/-- Its group of w threads, in the active set. -/
def loadGroup (w : Nat) : Group :=
  { Group.start 4 3 0 0 w (BitVec.ofNat 64 (loadBase + 4)) loadLaunch 0 with tier := .active }

/-- s with a program loaded that consists of one line, its one group of w threads ready to issue slot 0. Pages 1 (the
code) and 2 (data) of the address space are mapped. -/
def State.loadedWith (s : State) (w : Nat) (line : LineData) : State :=
  { s with
    powered := true, boot := none
    parts := [⟨1, 1, 0, 0, 0, loadRoot2, loadTables loadRoot2 ([loadLeaf 1, loadLeaf 2] ++ loadTableLeaves), 0, 0, 0, false⟩]
    asids := [⟨1, 1, 1, BitVec.ofNat 64 loadRootGpa, 0, [(0, 0x84010000)], loadTables loadRootGpa [loadLeaf 1, loadLeaf 2]⟩]
    frameOwners := Cells.setAll ((s.frameOwners.set 1 0x81).set 2 0x81) ((List.range 16).map (fun k => (16 + k, 0xC1)))
    codes := [loadCode w]
    hbm := s.hbm.setBytes loadBase (lineBytes line 0 64)
    seals := s.seals.set (loadBase / 64) 0
    home := [], rdc := [], l1 := [], pathLines := [], pages := [], ops := [], formed := [], badFetch := []
    launches := [loadLaunch]
    clusters := [⟨2, 1, 0, List.replicate 4 Barrier.fresh, List.replicate 16 0, [], List.replicate 16 [], [], []⟩]
    wgs := [loadWg]
    groups := [loadGroup w]
    funcs := [Func.reset 0, { Func.reset 1 with bound := some 1, nextId := 1 }]
    queue := [⟨1, 0, 0, loadRecord, [], 0, true, none, 0, false⟩]
    rows := [⟨1000, some 1 :: List.replicate 63 none, [⟨1, none, 0xFFFFFFFF, 0xFFFF, 64, 64⟩]⟩]
    curRow := 0, rowStart := s.time 0, fwWait := none
    quads := { QuadState.idle with owner := some 1 } :: List.replicate 63 QuadState.idle
    coreMap := s.coreMap ||| 1
    cores := modNth s.cores 0 (fun k => { k with free := [0, 0, 0, 0] })
    tick := s.tick + 8 }

/-- s with a loaded program of one line in a group of 8 threads. -/
def State.loaded (s : State) (line : LineData) : State := s.loadedWith 8 line

end Sys2Proof.Machine
end

