-- ==== Sys2Proof/Machine/Step.lean ====
section
/-! DEFINITION. One step of the machine. -/

namespace Sys2Proof.Machine

/-- One step: the turn that the world outside has chosen, or what happens without one (log entry 3). Without main power
only a cold reset happens (R475). -/
def step (s : State) : Host.Outcome State Fault Refusal :=
  match s.turns with
  | [] => if s.powered then s.proceed else .fault .powerOff
  | t :: rest => if s.powered || t.isColdReset then State.takeTurn t { s with turns := rest } else .fault .powerOff

/-- s with a loaded program whose next instruction is the word w, and with the issue of that program as the next turn
(log entry 9). -/
def State.withFetchWord (s : State) (nbits w : Nat) : State :=
  { s.loaded (makeLine [BitVec.ofNat 96 (w % 2 ^ nbits)] 0 0x1F) with turns := .issue 0 0 :: s.turns }

end Sys2Proof.Machine
end

