-- ==== Sys2Proof/Safety.lean ====
section
/-! DEFINITION. What a safe run is, and the words in which the statements speak of an issue: when a word executes, what it
leaves when it delivers results or traps, and what it leaves alone. -/

namespace Sys2Proof.Machine

/-- A step answers a next state. -/
def State.runs (s : State) : Bool :=
  match step s with
  | .next _ => true
  | _ => false

/-- The context in which a word executes for the one group of the issue: it decodes without a fault (R45), need not wait
(R91, R153, R209), reads nothing that fails its parity check (R256), and no single step is pending (R427). -/
def State.issues (s : State) (i : Instr) : Option Ctx :=
  match s.issue.parts with
  | [p] =>
    match mkCtx s i p with
    | some c => if c.decodeFault.isNone && c.ready && c.parityTrap.isNone && c.g.stepPath == 0 then some c else none
    | none => none
  | _ => none

/-- The state in which an instruction has completed for the issuing path with effect r: program counters, latches and
recency moved on (R15, R35 to R37, R208). -/
def Ctx.completes (c : Ctx) (r : Res) : State :=
  r.s.modGroup c.g.gid (fun g => g.modThreads (laneIn c.part.mask) (c.advance r))

/-- Nothing but one group differs between two states. -/
def State.onlyGroup (s t : State) (gid : Nat) : Prop :=
  { t with groups := s.groups } = s ∧ ∀ k, k ≠ gid → t.group? k = s.group? k

/-- Thread y stands behind the instruction that thread x issued, at the next address in sequence; of x's other state only
latches, predicates and FPSTAT may differ (R15, R18, R208). -/
def Ctx.movesOn (c : Ctx) (x y : Thread) : Prop :=
  { y with latches := x.latches, preds := x.preds, fpstat := x.fpstat } =
    { x with pc := nextPc c.pc, arrival := .sequence, lastLine := some (lineBase c.pc), lastIssue := c.s.tick }

/-- The state in which the lane results f have been written to D, FPSTAT and the latches, and the path has moved on (R29,
R33, R35, R127). -/
def Ctx.lands (c : Ctx) (f : Nat → LaneOut) : State :=
  c.completes { s := c.s.modGroup c.g.gid (c.write (c.outs f)), vals := c.latchVals (c.outs f) }

/-- As `lands`, with predicate q of each active lane written too (R77). -/
def Ctx.landsPred (c : Ctx) (q : Nat) (f : Nat → LaneOut) : State :=
  c.completes { s := c.s.modGroup c.g.gid (fun g => (c.write (c.outs f) g).modThreads
                  (fun h => (c.outs f).any (fun p => p.1 == h)) (fun h t =>
                    match (c.outs f).find? (fun p => p.1 == h) with
                    | some p => t.setPred q p.2.pq
                    | none => t))
                vals := c.latchVals (c.outs f) }

/-- Element i of field k in lane h as the integer that T gives (R43, R74). -/
def Ctx.elem (c : Ctx) (t : BitVec 4) (k h i : Nat) : Int := elemInt t.toNat i (c.val k h)

/-- Lane results without flags, whose elements are the integers x, saturated where the instruction says so, modulo the
element width (R74). -/
def elementsAre (t : BitVec 4) (sat : BitVec 1) (f : Nat → LaneOut) (x : Nat → Nat → Int) : Prop :=
  ∀ h, (f h).flags = 0 ∧ ∀ i, i < elemN t.toNat →
    (elemNat t.toNat i (f h).val : Int) =
      (if sat = 1 then max (loT t.toNat) (min (hiT t.toNat) (x h i)) else x h i) % 2 ^ elemW t.toNat

/-- Lane results without flags, each the natural number v. -/
def valuesAre (f : Nat → LaneOut) (v : Nat → Nat) : Prop := ∀ h, (f h).flags = 0 ∧ (f h).val.toNat = v h

/-- The state in which the group has trapped at its instruction, which had no effect (R422). -/
def Ctx.traps (c : Ctx) (t : TrapInfo) : State := (c.s.takeTrap c.part.gid t).dropPart c.part.gid

/-- The state in which the threads of the active lanes have become f of them. -/
def Ctx.withThreads (c : Ctx) (f : Nat → Thread → Thread) : State :=
  c.s.modGroup c.g.gid (fun g => g.modThreads c.act.contains f)

/-- The trap that a word itself takes as its effect (R113, R195): it completes, so its latches stay. -/
def Ctx.softly (c : Ctx) (cause : Nat) (finfo : W32) (epc : W64) : TrapInfo :=
  { c.trap cause finfo with epc := epc, clear := false }

/-- A workgroup has ended: its groups issue nothing more, none of their operations holds a logged entry, its task status is 1, and
the function's next record is of KIND 5 with this cause, address and code, held or posted (R195, R426). -/
def State.workgroupEnds (s t : State) (w : Workgroup) (la : Launch) (cause : Nat) (epc : W64) (code : W32) : Prop :=
  (∀ g ∈ t.groups, g.wid = w.wid → g.stopped = true) ∧
  (∀ o ∈ t.ops, (∃ g ∈ s.groups, g.wid = w.wid ∧ g.gid = o.gid) → o.isLogged = false) ∧
  (∃ w', t.wg? w.wid = some w' ∧ w'.ended = true) ∧ (∃ l, t.launch? la.lid = some l ∧ l.status = 1) ∧
  ∀ f, s.func? la.vf = some f → ∃ f' r, t.func? la.vf = some f' ∧ f'.nextFid = f.nextFid + 1 ∧
    r.fid = f.nextFid ∧ r.kind = 5 ∧ r.cause = BitVec.ofNat 8 cause ∧ r.epc = epc ∧ r.tag = code ∧ r.entry = 0xFF ∧
    r.lanes = 0 ∧ r.fset = 0 ∧
    (f'.heldRecs.getLast? = some r ∨ f'.heldRecs = [] ∧
      t.hostMem.bytes (f'.fqRing.toNat + 64 * ((f'.fqPi - 1).toNat % 2 ^ f'.fqLog)) 64 = r.bytes)

/-- A state as it is when the fuses of another are kept. -/
def State.fused (t s : State) : State := { t with fuses := s.fuses }

/-- One byte of memory as the owner of the array reads it: HBM, host memory, a peer's window. -/
def State.byteOf (s : State) (a : Nat) : Byte × Byte × Byte := (s.hbm.get a, s.hostMem.get a, s.peerMem.get a)

/-- Memories, and the register files of every group, are in their canonical form: rising indices, no zero value. -/
def State.memWf (s : State) : Bool :=
  s.hbm.wf && s.seals.wf && s.hostMem.wf && s.peerMem.wf && s.frameOwners.wf

end Sys2Proof.Machine

namespace Sys2Proof

open Machine

/-- r is the natural number to which m / d rounds in direction rm for a result of the given sign (R44, R46): ties to even, toward
zero, up, down, ties away. -/
def roundsTo (rm : Nat) (neg : Bool) (m d r : Nat) : Prop :=
  let up := (m + d - 1) / d
  match rm with
  | 0 => 2 * m ≤ 2 * r * d + d ∧ 2 * r * d ≤ 2 * m + d ∧ (2 * m = 2 * r * d + d ∨ 2 * r * d = 2 * m + d → 2 ∣ r)
  | 1 => r = m / d
  | 2 => r = if neg then m / d else up
  | 3 => r = if neg then up else m / d
  | _ => r = (2 * m + d) / (2 * d)

/-- a stands before b, or level with it: −0 before +0 (R133). -/
def FVal.notAbove (a b : FVal) : Prop := a.cmp b < 0 ∨ a.cmp b = 0 ∧ (b.neg = true → a.neg = true)

/-- A word that issues completes: its lane results, of which P speaks, land. -/
def Instr.delivers (i : Instr) (P : Ctx → (Nat → LaneOut) → Prop) : Prop :=
  ∀ (s : State) (c : Ctx), s.issues i = some c → ∃ f, exec i s = .next (c.lands f) ∧ P c f

/-- A word that issues completes with the effect that e gives. -/
def Instr.completesAs (i : Instr) (e : Ctx → Res) : Prop :=
  ∀ (s : State) (c : Ctx), s.issues i = some c → exec i s = .next (c.completes (e c))

/-- A word that issues and has an active lane completes with the effect that e gives; without an active lane it moves on and
changes nothing else. -/
def Instr.completesActive (i : Instr) (e : Ctx → Res) : Prop :=
  ∀ (s : State) (c : Ctx), s.issues i = some c →
    exec i s = .next (c.completes (if c.act = [] then { s := s } else e c))

/-- A word that issues completes when its lane results, of which P speaks, raise no flag that is enabled; they land. It
traps with Arithmetic exception otherwise (R127). -/
def Instr.deliversFloat (i : Instr) (P : Ctx → (Nat → LaneOut) → Prop) : Prop :=
  ∀ (s : State) (c : Ctx), s.issues i = some c → ∃ f, P c f ∧
    exec i s = if orFlags (c.outs f) &&& c.enables = 0 then .next (c.lands f)
      else .next ((c.traps (c.arith (c.outs f))).fused s)

end Sys2Proof
end

