-- ==== Sys2Proof/Certificates/Slice0/Obligations.lean ====
section
/-! DEFINITION. The statements for the provers: `Obligations.<Name>` is one obligation of OBLIGATIONS.json; `Statements.<Name>`
is a part of one. -/

open Sys2Proof Sys2Proof.Machine

/-- R15, R18, R19, R45, R204: a turn that lets a free partition issue runs, on the state that `prepare` leaves (recency counted, line
entered), the instruction that decodes at the program counter of the chosen path and then, in a pair of which that is the first slot, the
one in the next slot; a word that does not decode raises Illegal instruction there; a program counter that is no instruction address
raises Illegal target with that address in EPC and FADDR, for every part of the issue. `served` takes the partition for the cycles of the issue; `endIssue` dissolves a formed issue group whose members
have arrived at a barrier (R211). Without a chosen turn the machine does what is due, and issues when nothing is (log entry 3). -/
def Obligations.StepRunsTheDecodedInstruction : Prop :=
  (∀ (s : State) (core ipart : Nat) (rest : List Turn) (c : Cand), s.powered = true → s.turns = .issue core ipart :: rest →
    let u := ({ s with turns := rest }).tidyFormed
    u.partFree core ipart = true → u.chooseIssue core ipart = some c → step s = (u.served core ipart c).runIssue core ipart c) ∧
  (∀ (s : State) (i : Instr), s.powered = true → s.turns = [] → s.chore = none → s.due = some i → step s = exec i s) ∧
  (∀ (s : State) (core ipart : Nat) (c : Cand), s.powered = true → s.turns = [] → s.chore = none → s.due = none →
    s.tidyFormed.nextIssue = some (core, ipart, c) → step s = (s.tidyFormed.served core ipart c).runIssue core ipart c) ∧
  ∀ (u : State) (core ipart : Nat) (c : Cand) (gid : Nat) (mask : W64) (g : Group),
    c.parts.head? = some (gid, mask) → u.group? gid = some g →
    let p := u.prepare core ipart c
    (slotOf c.pc = none → u.runIssue core ipart c = .next { c.parts.foldl (fun t q =>
      t.takeTrap q.1 { cause := 0x05, epc := c.pc, faddr := c.pc, path := q.2 })
      { u with tick := u.tick + 1, issue := u.issueOf core c } with issue := Issue.idle }) ∧
    ∀ l k, u.codeLine g.asid.toNat (lineBase c.pc).toNat = .ok l → slotOf c.pc = some k →
      p.s.issue.core = core ∧ p.s.issue.pc = c.pc ∧ p.s.issue.second = false ∧ p.s.tick ≥ u.tick + 1 ∧
      let word (n : Nat) (t : State) (a : List Instr → State → State) : Prop :=
        (∀ i, decode (lineSlot l n) = .ok i → ∀ v, exec i t = .next v → u.runIssue core ipart c = .next (a [i] v)) ∧
        ((∀ i, decode (lineSlot l n) ≠ .ok i) → u.runIssue core ipart c = .next (a [] (illegalWord t)))
      let pair : Prop := linePair l k = true ∧ (k = 0 ∨ linePair l (k - 1) = false)
      (¬pair → word k p.s (fun is v => v.endIssue is)) ∧
      (pair → ∀ i, decode (lineSlot l k) = .ok i → ∀ v, exec i p.s = .next v →
        word (k + 1) (v.secondSlot i) (fun is v => v.endIssue (i :: is)))

/-- R18: the checks of a line that a path enters, in order: parity, reserved bits, target bits of taken transfers. A path that passes
them has its latches cleared where it enters (not where ERET takes a thread on in the line it stood in, R38), and the line is its own
from then on; a path of which no thread enters meets none.
Where the manual leaves a choice, the model's is that of log entry 44. -/
def Statements.LineEntry : Prop :=
  ∀ (s : State) (l : LineData) (p : Part) (g : Group) (k : Nat), s.issue.parts = [p] → s.group? p.gid = some g →
    slotOf s.issue.pc = some k →
    let base := lineBase s.issue.pc
    let enters (x : Thread) : Prop := x.lastLine ≠ some (lineBase x.pc) ∨ x.arrival ≠ .sequence
    let mine (x : Thread) : Prop := ∃ h, h < g.width ∧ laneIn p.mask h = true ∧ g.threads[h]? = some x ∧ x.exited = false ∧ enters x
    let fault (t : TrapInfo) : Prop := s.enterLine l = (s.takeTrap p.gid t).dropPart p.gid
    let bad : Prop := s.parityBad g.asid.toNat base.toNat l = true
    let goes : Prop := s.onlyGroup (s.enterLine l) p.gid ∧ ∃ g', (s.enterLine l).group? p.gid = some g' ∧
      { g' with threads := g.threads } = g ∧ ∀ (h : Nat) (x y : Thread), g.threads[h]? = some x → g'.threads[h]? = some y →
        y = if laneIn p.mask h = true ∧ x.exited = false then { x with
          latches := if x.lastLine ≠ some (lineBase x.pc) ∨ (x.arrival ≠ .sequence ∧ x.arrival ≠ .resume) then Latches.cleared
            else x.latches
          lastLine := some (lineBase x.pc), arrival := .sequence } else x
    ((∃ x, mine x) →
      (bad → fault { cause := 0x06, epc := s.issue.pc, faddr := base, path := p.mask }) ∧
      (¬bad → lineReserved l = true → fault { cause := 0x01, epc := base + 4, finfo := 1, path := p.mask }) ∧
      (¬bad → lineReserved l = false → lineTgt l k = false → ∀ src, (∃ x, mine x ∧ x.arrival = .transfer src) →
        (∀ x a, mine x → x.arrival = .transfer a → a = src) →
        fault { cause := 0x05, epc := src, faddr := s.issue.pc, path := p.mask }) ∧
      (¬bad → lineReserved l = false → lineTgt l k = true ∨ (∀ x a, mine x → x.arrival ≠ .transfer a) → goes)) ∧
    ((∀ x, ¬mine x) → goes)

/-- R45: the checks of a word, in order, before its effect: Illegal instruction, Illegal operand, Stale latch. One that fails
raises its trap, and the word has no effect. NOP moves on and does nothing else (R54). ILL, its second opcode and every unassigned
opcode raise Illegal instruction (R54, R64).
Where the manual leaves a choice, the model's is that of log entry 14. -/
def Statements.DecodeFaults : Prop :=
  (∀ (s : State) (i : Instr) (p : Part) (c : Ctx) (t : TrapInfo), s.issue.parts = [p] → mkCtx s i p = some c →
    c.decodeFault = some t → exec i s = .next (((s.takeTrap p.gid t).dropPart p.gid).fused s)) ∧
  (∀ c : Ctx,
    let sound : Prop := c.i.wellFormed = true ∧ c.i.modOk c.code.modsel c.g.width = true
    (¬sound → c.decodeFault = some (c.trap 0x01)) ∧
    (sound → ∀ k, c.i.badOperand c.code.modsel c.vd.regs c.vd.tiles = some k →
      c.decodeFault = some (c.trap 0x02 (BitVec.ofNat 32 k))) ∧
    (sound → c.i.badOperand c.code.modsel c.vd.regs c.vd.tiles = none → ∀ k ∈ [1, 2, 3], c.staleLanes k ≠ [] →
      (∀ j, 1 ≤ j → j < k → c.staleLanes j = []) → ∃ m, c.decodeFault =
        some (c.trap 0x03 (BitVec.ofNat 32 (c.fieldCode k - 0x140 + 4 * k)) m) ∧
        ∀ h, h < 64 → (m.getLsbD h = true ↔ ∃ j, 1 ≤ j ∧ j ≤ 3 ∧ h ∈ c.staleLanes j)) ∧
    (sound → c.i.badOperand c.code.modsel c.vd.regs c.vd.tiles = none → (∀ k ∈ [1, 2, 3], c.staleLanes k = []) →
      c.decodeFault = none)) ∧
  (∀ x : XForm, (Instr.nop x).completesAs (fun c => { s := c.s })) ∧
  ∀ (s : State) (p : Part) (r : BitVec 86) (op : BitVec 10), s.issue.parts = [p] →
    ∀ i ∈ [Instr.ill r, .ill3ff r, .unassignedOpcode op r], exec i s = .next (((s.takeTrap p.gid
      { cause := 0x01, epc := s.issue.pc, path := p.mask }).dropPart p.gid).fused s)

/-- The checks of a line that is entered and of a word before its effect, in order; NOP, ILL and unassigned opcodes: the statements `Statements.LineEntry`, `Statements.DecodeFaults` together. -/
def Obligations.LineAndWordChecks : Prop :=
  Statements.LineEntry ∧ Statements.DecodeFaults

/-- Every well-formed instruction word is what its encoding decodes to, with every operand at every value that the encoding
admits (R21 to R27), and every word that decodes is the encoding of what it decodes to: no word has a second spelling. -/
def Obligations.EncodingRoundTrip : Prop :=
  (∀ (i : Instr) (w : Word96), i.wellFormed = true → encode i = some w → decode w = .ok i) ∧
  ∀ (i : Instr) (w : Word96), decode w = .ok i → i.wellFormed = true ∧ encode i = some w

/-- Words written out from the encodings of the opcode map, one of each of six families. -/
def Obligations.WrittenWordsDecode : Prop :=
  decode 0x011C0002022C000040000001#96 = .ok (.iaddc ⟨0, 7, 0, 0, 4, 8, 0x160, 0, 2, 0, 0, 1⟩) ∧
  decode 0x30DC080302014000A0000000#96 = .ok (.ffma ⟨0, 7, 4, 0, 6, 8, 10, 0, 5, 0, 0, 0⟩) ∧
  decode 0x200400000000000000000008#96 = .ok (.bra ⟨0, 1, 0, 0, 0, 0, 1, 0⟩) ∧
  decode 0x501C088181BFE95601000040#96 = .ok (.ld ⟨0, 7, 4, 0, 0x103, 6, 0x1FF, 0x4AB, 0, 0, 1, 0x40⟩) ∧
  decode 0x721E12850000000000000000#96 = .ok (.publish ⟨0, 7, 0x109, 0x10A, 0, 0, 0⟩) ∧
  decode 0x821C04000040000000000000#96 = .ok (.mma ⟨0, 7, 2, 0, 0, 1, 0, 0, 0, 0, 0, 0⟩) ∧
  decode 0x985C00940000000000000002#96 = .ok (.mtsr ⟨0, 7, 0, 0, 0x128, 0, 0, 0, 0, 0, 0, 2⟩) ∧
  decode 0x000000000000000000000000#96 = .ok (.ill 0)

/-- R332: no step changes MXCAP, or any other value fixed by fuses; so its fields stay what R284 allows, 8, 16, 24 or 32. -/
def Obligations.FusesNeverChange : Prop :=
  ∀ s t : State, step s = .next t → t.fuses = s.fuses ∧
    ((∀ q ∈ s.fuses.mxcap, q.length = 5 ∧ ∀ n ∈ q, n = 8 ∨ n = 16 ∨ n = 24 ∨ n = 32) →
      ∀ q ∈ t.fuses.mxcap, q.length = 5 ∧ ∀ n ∈ q, n = 8 ∨ n = 16 ∨ n = 24 ∨ n = 32)

/-- Every step keeps HBM, its seals, host memory, the peers' windows and the frame owners in their canonical form, indices rising and no zero
value listed, so that equal memories are equal data (R9, R254, R364).
Where the manual leaves a choice, the model's is that of log entries 1 and 2. -/
def Obligations.MemoryKeepsCanonicalForm : Prop :=
  ∀ s t : State, s.memWf = true → step s = .next t → t.memWf = true

/-- The machine at reset: every MXCAP field as R284 allows and 64 engines (R4), memories and files in canonical form, no group, no
workgroup, no operation outstanding, no line held in a cache; CYCLE and TIME 0 (log entries 1, 2 and 5 for what the manual leaves open). -/
def Obligations.ResetState : Prop :=
  (State.reset.fuses.mxcap.length = 64 ∧ ∀ q ∈ State.reset.fuses.mxcap, q.length = 5 ∧ ∀ n ∈ q, n = 8 ∨ n = 16 ∨ n = 24 ∨ n = 32) ∧
  State.reset.memWf = true ∧ State.reset.groups = [] ∧ State.reset.wgs = [] ∧ State.reset.ops = [] ∧ State.reset.l1 = [] ∧
  State.reset.home = [] ∧ State.reset.rdc = [] ∧ State.reset.powered = true ∧
  (∀ c, c < 256 → State.reset.cycle c = 0) ∧ ∀ d, d < 4 → State.reset.time d = 0

/-- R15, R16, R35 to R37, R99 and the frame of every word that moves its path on: what `completes` adds to an effect. Each thread of
the path that has not exited stands at its transfer target, or else at the next slot, or at the next line after slot 4; its
latches are cleared by SWITCHPT, cleared by a long-class word (but for the result of the first slot of its pair, R68), moved down by a
word with a result, and unchanged otherwise;
nothing else of it changes but its recency and its line. -/
def Obligations.IssuedPathMovesOn : Prop :=
  ∀ (s : State) (i : Instr) (c : Ctx) (r : Res), s.issues i = some c →
    let t := c.completes r
    r.s.onlyGroup t c.g.gid ∧ ∀ g, r.s.group? c.g.gid = some g → ∃ g', t.group? c.g.gid = some g' ∧
      { g' with threads := g.threads } = g ∧ g'.threads.length = g.threads.length ∧
      ∀ (h : Nat) (x y : Thread), g.threads[h]? = some x → g'.threads[h]? = some y →
        (laneIn c.part.mask h = false ∨ x.exited = true → y = x) ∧
        (laneIn c.part.mask h = true → x.exited = false →
          { y with pc := x.pc, latches := x.latches, lastLine := x.lastLine, arrival := x.arrival, lastIssue := x.lastIssue } = x ∧
          (∀ a, r.pcs.find? (fun p => p.1 == h) = some (h, a) → y.pc = a) ∧
          (r.pcs.find? (fun p => p.1 == h) = none →
            y.pc = if slotOf c.pc = some 4 then lineBase c.pc + 68 else c.pc + 12) ∧
          (r.clear = true → y.latches = Latches.cleared) ∧
          (r.clear = false → c.sh.long = true → c.s.issue.second = false ∨ c.s.issue.pushed = false → y.latches = Latches.cleared) ∧
          (r.clear = false → c.sh.long = true → c.s.issue.second = true → c.s.issue.pushed = true →
            y.latches = ⟨x.latches.l0, none, none, none, x.latches.bad &&& 1⟩) ∧
          (r.clear = false → c.sh.long = false → c.sh.result = true →
            y.latches = x.latches.push ((r.vals.find? (fun p => p.1 == h)).map (·.2))) ∧
          (r.clear = false → c.sh.long = false → c.sh.result = false → y.latches = x.latches))

/-- R29, R33, R35, R127 and the frame of every lane computation: where landed results stand afterwards, and that nothing else
of the machine has changed, but that a register written has lost its parity error (R256). Every lane of a scalar instruction carries
the one result, of its first active lane; so do the latches of an instruction that executes once for its path (R33, R73).
Where the manual leaves a choice, the model's is that of log entry 15. -/
def Obligations.LaneResultsLand : Prop :=
  ∀ (s : State) (i : Instr) (c : Ctx) (f : Nat → LaneOut), s.issues i = some c →
    (c.dWide = true → c.fieldCode 0 ≠ 0xFF) →
    let t := c.lands f
    let d := c.fieldCode 0
    let r (h : Nat) : LaneOut := if i.scalar then f ((c.act.head?).getD 0) else f h
    let v (h : Nat) : W64 := if c.dWide then (r h).val else ((r h).val.setWidth 32).setWidth 64
    let wr (h : Nat) : Prop := h ∈ c.act ∧ c.noWrite = false
    s.onlyGroup t c.g.gid ∧
    ∃ g, t.group? c.g.gid = some g ∧
      { g with vregs := c.g.vregs, sregs := c.g.sregs, threads := c.g.threads, badV := c.g.badV, badS := c.g.badS } = c.g ∧
      (∀ m, m ∈ g.badV ↔ m ∈ c.g.badV ∧ ¬(wr (m / 256) ∧ (d = m % 256 ∨ c.dWide = true ∧ d + 1 = m % 256))) ∧
      (∀ m, m < 64 → (m ∈ g.badS ↔ m ∈ c.g.badS ∧ ¬(c.act ≠ [] ∧ c.noWrite = false ∧ d = 0x100 + m))) ∧
      (∀ h n, n < 256 →
        (wr h ∧ d = n → g.vreg h n = (v h).setWidth 32) ∧
        (wr h ∧ c.dWide = true ∧ d + 1 = n → g.vreg h n = (v h >>> 32).setWidth 32) ∧
        (¬(wr h ∧ (d = n ∨ c.dWide = true ∧ d + 1 = n)) → g.vreg h n = c.g.vreg h n)) ∧
      (∀ n, n < 64 → ∀ h, c.act.head? = some h →
        (c.noWrite = false ∧ d = 0x100 + n → g.sreg n = v h) ∧
        (¬(c.noWrite = false ∧ d = 0x100 + n) → g.sreg n = c.g.sreg n)) ∧
      (c.act = [] → g.vregs = c.g.vregs ∧ g.sregs = c.g.sregs) ∧
      (∀ h, laneIn c.part.mask h = false → g.threads[h]? = c.g.threads[h]?) ∧
      ∀ (h : Nat) (x y : Thread), h < c.g.width → laneIn c.part.mask h = true → c.g.threads[h]? = some x → g.threads[h]? = some y →
        (x.exited = true → y = x) ∧
        (x.exited = false → c.movesOn x y ∧
          y.fpstat = (if h ∈ c.act then x.fpstat ||| (r h).flags else x.fpstat) ∧
          (∀ q, q < 7 → (wr h ∧ d = 0x144 + q → y.pred q = (v h).getLsbD 0) ∧
            (¬(wr h ∧ d = 0x144 + q) → y.pred q = x.pred q)) ∧
          (c.sh.long = false → c.sh.result = true →
            (h ∈ c.act ∨ i.once = true ∧ c.act ≠ [] →
              y.latches = x.latches.push (some (c.fit (if i.once then f ((c.act.head?).getD 0) else f h).val))) ∧
            (h ∉ c.act → i.once = false ∨ c.act = [] → y.latches = x.latches.push none)))

/-- R74: IADD, ISUB, IMUL, IMAD, IMIN, IMAX and IABS complete with the exact integer result of each element, saturated under
SAT, modulo the element width. -/
def Obligations.IntegerElementArithmetic : Prop :=
  ∀ x : XForm,
    (Instr.iadd x).delivers (fun c f => elementsAre x.t x.sat f (fun h i => c.elem x.t 1 h i + c.elem x.t 2 h i)) ∧
    (Instr.isub x).delivers (fun c f => elementsAre x.t x.sat f (fun h i => c.elem x.t 1 h i - c.elem x.t 2 h i)) ∧
    (Instr.imul x).delivers (fun c f => elementsAre x.t x.sat f (fun h i => c.elem x.t 1 h i * c.elem x.t 2 h i)) ∧
    (Instr.imad x).delivers (fun c f =>
      elementsAre x.t x.sat f (fun h i => c.elem x.t 1 h i * c.elem x.t 2 h i + c.elem x.t 3 h i)) ∧
    (Instr.imin x).delivers (fun c f => elementsAre x.t x.sat f (fun h i => min (c.elem x.t 1 h i) (c.elem x.t 2 h i))) ∧
    (Instr.imax x).delivers (fun c f => elementsAre x.t x.sat f (fun h i => max (c.elem x.t 1 h i) (c.elem x.t 2 h i))) ∧
    (Instr.iabs x).delivers (fun c f => elementsAre x.t x.sat f (fun h i => max (c.elem x.t 1 h i) (-c.elem x.t 1 h i)))

/-- R75, R76, R77, R89, R90: IMULH gives the high half, rounded toward minus infinity; IMADW the 64-bit sum, C signed as T;
IADDC the sum with carry in and its carry out in predicate IMM[2:0]; LEA the scaled address; ICVT the converted integer. -/
def Statements.IntegerWideArithmetic : Prop :=
  ∀ x : XForm,
    (Instr.imulh x).delivers (fun c f => ∀ h, (f h).flags = 0 ∧
      ((f h).val.toNat : Int) = (c.elem x.t 1 h 0 * c.elem x.t 2 h 0).fdiv (2 ^ elemW x.t.toNat) % 2 ^ elemW x.t.toNat) ∧
    (Instr.imadw x).delivers (fun c f => ∀ h, (f h).flags = 0 ∧
      (f h).val = BitVec.ofInt 64 (c.elem x.t 1 h 0 * c.elem x.t 2 h 0
        + (if x.t = 1 then (c.val 3 h).toInt else ((c.val 3 h).toNat : Int)))) ∧
    (∀ (s : State) (c : Ctx), s.issues (.iaddc x) = some c → ∃ f : Nat → LaneOut,
      exec (.iaddc x) s = .next (c.landsPred (x.imm.toNat % 8) f) ∧ ∀ h,
        let sum := elemNat x.t.toNat 0 (c.val 1 h) + elemNat x.t.toNat 0 (c.val 2 h) + (c.val 3 h).toNat % 2
        (f h).flags = 0 ∧ (f h).val.toNat = sum % 2 ^ elemW x.t.toNat ∧
          ((f h).pq = true ↔ 2 ^ elemW x.t.toNat ≤ sum)) ∧
    (Instr.lea x).delivers (fun c f => ∀ h, (f h).flags = 0 ∧
      (f h).val = c.val 1 h
        + (if x.t = 2 then c.val 2 h
           else if x.t = 0 then ((c.val 2 h).setWidth 32).setWidth 64 else ((c.val 2 h).setWidth 32).signExtend 64)
          * 2#64 ^ x.c.toNat
        + x.imm.signExtend 64) ∧
    (Instr.icvt x).delivers (fun c f => ∀ h, (f h).flags = 0 ∧
      let v := elemInt x.c.toNat 0 (c.val 1 h)
      ((f h).val.toNat : Int) =
        (if x.sat = 1 then max (loT x.t.toNat) (min (hiT x.t.toNat) v) else v) % 2 ^ elemW x.t.toNat)

/-- R78: the shift and rotate instructions complete with the result of each element for the element's count. -/
def Statements.ShiftsAndRotates : Prop :=
  ∀ x : XForm,
    let w := elemW x.t.toNat
    let a (c : Ctx) (h i : Nat) : Nat := elemNat x.t.toNat i (c.val 1 h)
    let n (c : Ctx) (h i : Nat) : Nat :=
      if wideT x.t.toNat then (c.val 2 h).toNat % 2 ^ 32 else elemNat x.t.toNat i (c.val 2 h)
    (Instr.shl x).delivers (fun c f => ∀ h, (f h).flags = 0 ∧ ∀ i, i < elemN x.t.toNat →
      elemNat x.t.toNat i (f h).val = if w ≤ n c h i then 0 else a c h i * 2 ^ n c h i % 2 ^ w) ∧
    (Instr.shr x).delivers (fun c f => ∀ h, (f h).flags = 0 ∧ ∀ i, i < elemN x.t.toNat →
      elemNat x.t.toNat i (f h).val = if w ≤ n c h i then 0 else a c h i / 2 ^ n c h i) ∧
    (Instr.sar x).delivers (fun c f => ∀ h, (f h).flags = 0 ∧ ∀ i, i < elemN x.t.toNat →
      (elemNat x.t.toNat i (f h).val : Int) =
        (if w ≤ n c h i then (if sext w (a c h i) < 0 then -1 else 0) else (sext w (a c h i)).fdiv (2 ^ n c h i)) % 2 ^ w) ∧
    (Instr.rot x).delivers (fun c f => ∀ h, (f h).flags = 0 ∧ ∀ i, i < elemN x.t.toNat → ∀ k, k < w →
      (elemNat x.t.toNat i (f h).val).testBit k = (a c h i).testBit ((k + w - n c h i % w) % w))

/-- Wide and converting integer arithmetic, shifts and rotates complete with their results: the statements `Statements.IntegerWideArithmetic`, `Statements.ShiftsAndRotates` together. -/
def Obligations.WideIntegersAndShifts : Prop :=
  Statements.IntegerWideArithmetic ∧ Statements.ShiftsAndRotates

/-- R79, R80, R81, R82, R86: LOGIC and PLOG read their truth table bit by bit; BFE and BFI move a field of C or B; POPC, CLZ,
CTZ and BREV count and reverse the w bits of A. -/
def Statements.BitwiseInstructions : Prop :=
  ∀ x : XForm,
    let w := elemW x.t.toNat
    let table (a b c : Bool) : Bool := x.imm.getLsbD (4 * a.toNat + 2 * b.toNat + c.toNat)
    let src (c : Ctx) (h : Nat) : Nat := elemNat x.t.toNat 0 (c.val 1 h)
    (Instr.logic x).delivers (fun c f => ∀ h, (f h).flags = 0 ∧ ∀ k, k < w →
      (f h).val.getLsbD k = table ((c.val 1 h).getLsbD k) ((c.val 2 h).getLsbD k) ((c.val 3 h).getLsbD k)) ∧
    (Instr.plog x).delivers (fun c f => valuesAre f (fun h =>
      (table ((c.val 1 h).getLsbD 0) ((c.val 2 h).getLsbD 0) ((c.val 3 h).getLsbD 0)).toNat)) ∧
    (Instr.bfe x).delivers (fun c f => ∀ h, (f h).flags = 0 ∧
      let pos := (c.val 2 h).toNat % 256
      let len := (c.val 2 h).toNat / 256 % 256
      let v := (c.elem x.t 1 h 0).fdiv (2 ^ pos) % 2 ^ len
      ((f h).val.toNat : Int) = if len = 0 then 0
        else (if signedT x.t.toNat ∧ 2 ^ (len - 1) ≤ v then v - 2 ^ len else v) % 2 ^ w) ∧
    (Instr.bfi x).delivers (fun c f => ∀ h, (f h).flags = 0 ∧ ∀ k, k < w →
      let pos := (c.val 3 h).toNat % 256
      let len := (c.val 3 h).toNat / 256 % 256
      (f h).val.getLsbD k =
        if pos ≤ k ∧ k < pos + len then (c.val 2 h).getLsbD (k - pos) else (c.val 1 h).getLsbD k) ∧
    (Instr.popc x).delivers (fun c f => valuesAre f (fun h => ((List.range w).filter (src c h).testBit).length)) ∧
    (Instr.clz x).delivers (fun c f => ∀ h, (f h).flags = 0 ∧
      let n := (f h).val.toNat
      n ≤ w ∧ src c h < 2 ^ (w - n) ∧ (n < w → 2 ^ (w - n - 1) ≤ src c h)) ∧
    (Instr.ctz x).delivers (fun c f => ∀ h, (f h).flags = 0 ∧
      let n := (f h).val.toNat
      n ≤ w ∧ src c h % 2 ^ n = 0 ∧ (n < w → (src c h).testBit n = true)) ∧
    (Instr.brev x).delivers (fun c f => ∀ h, (f h).flags = 0 ∧ ∀ k, k < w →
      (f h).val.getLsbD k = (src c h).testBit (w - 1 - k))

/-- R84, R85, R87, R88: ICMP and ISET give the comparison, SEL the chosen source, MOV its source, MOVI its immediate. -/
def Statements.CompareSelectMove : Prop :=
  (∀ x : XForm,
    let cond (c : Ctx) (h : Nat) : Prop :=
      let a := c.elem x.t 1 h 0
      let b := c.elem x.t 2 h 0
      (x.c = 0 ∧ a = b) ∨ (x.c = 1 ∧ a ≠ b) ∨ (x.c = 2 ∧ a < b) ∨ (x.c = 3 ∧ a ≤ b) ∨ (x.c = 4 ∧ b < a) ∨ (x.c = 5 ∧ b ≤ a)
    (Instr.icmp x).delivers (fun c f => ∀ h, (f h).flags = 0 ∧
      (x.c.toNat ≤ 5 → ((f h).val = 1 ↔ cond c h) ∧ ((f h).val = 0 ↔ ¬cond c h))) ∧
    (Instr.iset x).delivers (fun c f => ∀ h, (f h).flags = 0 ∧
      (x.c.toNat ≤ 5 → ((f h).val = 1 ↔ cond c h) ∧ ((f h).val = 0 ↔ ¬cond c h))) ∧
    (Instr.sel x).delivers (fun c f => ∀ h, (f h).flags = 0 ∧
      (f h).val = if (c.val 3 h).toNat % 2 ^ 32 = 0 then c.val 2 h else c.val 1 h) ∧
    (Instr.mov x).delivers (fun c f => ∀ h, (f h).flags = 0 ∧ (f h).val = c.val 1 h)) ∧
  ∀ x : IForm, (Instr.movi x).delivers (fun _ f => valuesAre f (fun _ => x.imm.toNat))

/-- Bitwise, bit-field, comparing, selecting and moving instructions complete with their results: the statements `Statements.BitwiseInstructions`, `Statements.CompareSelectMove` together. -/
def Obligations.BitsComparisonsAndMoves : Prop :=
  Statements.BitwiseInstructions ∧ Statements.CompareSelectMove

/-- R83: each byte of PRMT's result is what its 6-bit field of C says of the byte of A and B that it names. -/
def Obligations.BytePermute : Prop :=
  ∀ x : XForm, (Instr.prmt x).delivers (fun c f => ∀ h, (f h).flags = 0 ∧ (f h).val.toNat < 2 ^ 32 ∧ ∀ k, k < 4 →
    let field := (c.val 3 h).toNat / 2 ^ (6 * k) % 64
    let s := field % 8
    let b := if s < 4 then (c.val 1 h).toNat / 256 ^ s % 256 else (c.val 2 h).toNat / 256 ^ (s - 4) % 256
    let r := (f h).val.toNat / 256 ^ k % 256
    (field / 8 = 0 → r = b) ∧
    (field / 8 = 1 → ∀ j, j < 8 → r.testBit j = b.testBit (7 - j)) ∧
    (field / 8 = 2 → r = b % 16 + 16 * (b % 16)) ∧
    (field / 8 = 3 → r = b / 16 + 16 * (b / 16)) ∧
    (field / 8 = 4 → r = if b.testBit 7 then 0xFF else 0) ∧
    (field / 8 = 5 → r = 0) ∧
    (field / 8 = 6 → r = 0xFF) ∧
    (field / 8 = 7 → r = b - b % 16))

/-- R92, R93, R94, R95, R114: SHFL gives A of the lane that its mode names, or zero outside the segment under .SHIFT; BALLOT the mask of
the active lanes whose A is nonzero; VOTE the summary of its mode; READLANE A of lane B mod width; CLOCK the counter of the
issuing core that C names. That VOTE accepts D = 0x1FF and then gives l0 the whole result is the model's choice (log entry 14). -/
def Obligations.LaneExchangeAndClock : Prop :=
  ∀ x : XForm,
    (Instr.shfl x).delivers (fun c f => ∀ h, (f h).flags = 0 ∧
      let n := (c.val 2 h).toNat % 2 ^ 32
      let sz := 2 ^ (x.c.toNat / 4 % 8 + 1)
      let b := h - h % sz
      let j : Int := (h : Int) + sext 32 n
      (x.c.toNat % 4 = 0 → (f h).val = c.val 1 (b + n % sz)) ∧
      (x.c.toNat % 4 = 1 → (f h).val = c.val 1 (b + (h - b + n) % sz)) ∧
      (x.c.toNat % 4 = 2 → (f h).val = c.val 1 (h ^^^ (n % sz))) ∧
      (x.c.toNat % 4 = 3 → (f h).val = if (b : Int) ≤ j ∧ j < b + sz then c.val 1 j.toNat else 0)) ∧
    (Instr.ballot x).delivers (fun c f => ∀ h, (f h).flags = 0 ∧ ∀ k, k < 64 →
      ((f h).val.getLsbD k = true ↔ k ∈ c.act ∧ (c.val 1 k).toNat % 2 ^ 32 ≠ 0)) ∧
    (Instr.vote x).delivers (fun c f => ∀ h, (f h).flags = 0 ∧
      let set := (c.act.filter (fun k => c.val 1 k ≠ 0)).length
      let r : Nat → Prop := fun v => (f h).val.toNat = if 0x144 ≤ x.d.toNat ∧ x.d.toNat < 0x14C then (if v = 0 then 0 else 1) else v
      (x.c = 0 → r (if ∀ k ∈ c.act, c.val 1 k ≠ 0 then 1 else 0)) ∧
      (x.c = 1 → r (if ∃ k ∈ c.act, c.val 1 k ≠ 0 then 1 else 0)) ∧
      (x.c = 2 → r (if ∀ k ∈ c.act, ∀ j ∈ c.act, c.val 1 k = c.val 1 j then 1 else 0)) ∧
      (x.c = 3 → r (set % 2 ^ 64)) ∧
      (x.c = 4 → r (if c.act.length - set < set then 1 else 0))) ∧
    (Instr.readlane x).delivers (fun c f => ∀ h, (f h).flags = 0 ∧
      (f h).val = c.val 1 ((c.uval 2).toNat % 2 ^ 32 % c.g.width)) ∧
    (Instr.clock x).delivers (fun c f => ∀ h, (f h).flags = 0 ∧
      let n := if x.c = 0 then c.s.cycle c.core else c.s.time (c.core / 64)
      (f h).val = if wideT x.t.toNat then n else (n.setWidth 32).setWidth 64)

/-- The sums and products of R124, R130, R144 and R145 on the elements of A, B and C: exact, rounded once in direction RM (as the
model's FVal and round compute them), NaN and infinite cases included, with the OR of the flags of the elements. -/
def Obligations.FloatSumsAndProducts : Prop :=
  ∀ x : XForm,
    let t := x.t.toNat
    let e (c : Ctx) (k h i : Nat) : FVal := (fmtT t).unpack (elemNat t i (c.val k h))
    let once (f : FFmt) (v : FVal × Flags) : Nat × Flags := ((f.round x.rm.toNat false v.1).1, v.2 ||| (f.round x.rm.toNat false v.1).2)
    let sum (ps : List (FVal × FVal)) (as : List FVal) : FVal × Flags := sumProducts x.rm.toNat ps as
    let h16 (c : Ctx) (k h i : Nat) : FVal := (fmtT t).unpack ((c.val k h).toNat / 2 ^ (16 * i) % 2 ^ 16)
    let w32 (c : Ctx) (h i : Nat) : FVal := fp32.unpack ((c.val 3 h).toNat / 2 ^ (32 * i) % 2 ^ 32)
    (Instr.fadd x).deliversFloat (fun c f => ∀ h, f h = eachElem t (fun i => once (fmtT t) (sum [] [e c 1 h i, e c 2 h i]))) ∧
    (Instr.fsub x).deliversFloat (fun c f => ∀ h, f h =
      eachElem t (fun i => once (fmtT t) (sum [] [e c 1 h i, (e c 2 h i).negate]))) ∧
    (Instr.fmul x).deliversFloat (fun c f => ∀ h, f h = eachElem t (fun i => once (fmtT t) (sum [(e c 1 h i, e c 2 h i)] []))) ∧
    (Instr.ffma x).deliversFloat (fun c f => ∀ h, f h =
      eachElem t (fun i => once (fmtT t) (sum [(e c 1 h i, e c 2 h i)] [e c 3 h i]))) ∧
    (Instr.dot2 x).deliversFloat (fun c f => ∀ h,
      let r := once fp32 (sum [(h16 c 1 h 0, h16 c 2 h 0), (h16 c 1 h 1, h16 c 2 h 1)] [w32 c h 0])
      f h = flagged (BitVec.ofNat 64 r.1) r.2) ∧
    (Instr.dot4 x).deliversFloat (fun c f => ∀ h,
      let r := once fp32 (sum [(h16 c 1 h 0, h16 c 2 h 0), (h16 c 1 h 1, h16 c 2 h 1), (h16 c 1 h 2, h16 c 2 h 2),
        (h16 c 1 h 3, h16 c 2 h 3)] [w32 c h 0])
      f h = flagged (BitVec.ofNat 64 r.1) r.2) ∧
    (Instr.hfma2 x).deliversFloat (fun c f => ∀ h,
      let r (i : Nat) := once fp32 (sum [(h16 c 1 h i, h16 c 2 h i)] [w32 c h i])
      f h = flagged (BitVec.ofNat 64 ((r 0).1 + (r 1).1 * 2 ^ 32)) ((r 0).2 ||| (r 1).2))

/-- R131, R132: FDIV and FSQRT round the exact quotient or root once, from a truncation with more bits than the format and a mark
of what it drops; FRCPE and FRSQE round theirs to 14 bits; and the special cases of both tables. -/
def Obligations.FloatQuotientsAndRoots : Prop :=
  ∀ x : XForm,
    let t := x.t.toNat
    let fm := fmtT t
    let rm := x.rm.toNat
    let e (c : Ctx) (k h i : Nat) : FVal := fm.unpack (elemNat t i (c.val k h))
    let nan (s : Bool) : Nat × Flags := (fm.nanBits, if s then fNV else 0)
    (Instr.fdiv x).deliversFloat (fun c f => ∀ h, ∃ q, f h = eachElem t q ∧ ∀ i, match e c 1 h i, e c 2 h i with
      | .nan s, b => q i = nan (s || b.isSig)
      | _, .nan s => q i = nan s
      | .inf _, .inf _ => q i = nan true
      | .inf n, .fin n' _ _ => q i = (fm.infBits (n != n'), 0)
      | .fin n _ _, .inf n' => q i = (fm.sign (n != n'), 0)
      | .fin n m k, .fin n' m' k' =>
        if m' = 0 then q i = if m = 0 then nan true else (fm.infBits (n != n'), fDZ)
        else ∃ j : Nat, q i = fm.roundFin rm false (n != n') (m * 2 ^ j / m') (k - k' - j) (decide (¬m' ∣ m * 2 ^ j)) ∧
          (m ≠ 0 → 2 ^ (fm.fb + 3) ≤ m * 2 ^ j / m')) ∧
    (Instr.fsqrt x).deliversFloat (fun c f => ∀ h, ∃ q, f h = eachElem t q ∧ ∀ i, match e c 1 h i with
      | .nan s => q i = nan s
      | .inf n => q i = if n then nan true else (fm.infBits false, 0)
      | .fin n m k =>
        if m = 0 then q i = (fm.sign n, 0)
        else if n then q i = nan true
        else ∃ (j r : Nat), 2 ∣ k - j ∧ r * r ≤ m * 2 ^ j ∧ m * 2 ^ j < (r + 1) * (r + 1) ∧ 2 ^ (fm.fb + 3) ≤ r ∧
          q i = fm.roundFin rm false false r ((k - j) / 2) (decide (r * r ≠ m * 2 ^ j))) ∧
    (Instr.frcpe x).deliversFloat (fun c f => ∀ h, ∃ q, f h = eachElem t q ∧ ∀ i, match e c 1 h i with
      | .nan s => q i = nan s
      | .inf n => q i = (fm.sign n, 0)
      | .fin n m k =>
        if m = 0 then q i = (fm.infBits n, fDZ)
        else ∃ j : Nat, 2 ^ 15 ≤ 2 ^ j / m ∧ q i = fm.round14 n (2 ^ j / m) (-k - j) (decide (¬m ∣ 2 ^ j))) ∧
    (Instr.frsqe x).deliversFloat (fun c f => ∀ h, ∃ q, f h = eachElem t q ∧ ∀ i, match e c 1 h i with
      | .nan s => q i = nan s
      | .inf n => q i = if n then nan true else (0, 0)
      | .fin n m k =>
        if m = 0 then q i = (fm.infBits n, fDZ)
        else if n then q i = nan true
        else ∃ (j r d : Nat), d < 2 ∧ 2 ∣ k - d ∧ r * r * (m * 2 ^ d) ≤ 2 ^ (2 * j) ∧ 2 ^ (2 * j) < (r + 1) * (r + 1) * (m * 2 ^ d) ∧
          2 ^ 15 ≤ r ∧ q i = fm.round14 false r (-((k - d) / 2) - j) (decide (r * r * (m * 2 ^ d) ≠ 2 ^ (2 * j))))

/-- R133 to R137: the minimum and maximum instructions give the smaller or larger operand as it is written, −0 before +0, with the
NaN table; FCMP and FSET the condition of C; FCLASS the one class bit; FSGN the magnitude of A with the sign of its mode; FSAT the
element clamped to [+0, 1]. -/
def Obligations.FloatSelectionAndComparison : Prop :=
  ∀ x : XForm,
    let t := x.t.toNat
    let fm := fmtT t
    let bits (c : Ctx) (k h i : Nat) : Nat := elemNat t i (c.val k h)
    let e (c : Ctx) (k h i : Nat) : FVal := fm.unpack (bits c k h i)
    let one : Nat := fm.const 0x161
    let nv (p : Bool) : Flags := if p then fNV else 0
    let pick (largest number : Bool) (c : Ctx) (f : Nat → LaneOut) : Prop := ∀ h, ∃ q, f h = eachElem t q ∧ ∀ i,
      let a := e c 1 h i
      let b := e c 2 h i
      let r := fm.unpack (q i).1
      (q i).2 = nv (a.isSig || b.isSig) ∧
      (a.isNan = true → b.isNan = true → (q i).1 = fm.nanBits) ∧
      (a.isNan = true → b.isNan = false → (q i).1 = if number then bits c 2 h i else fm.nanBits) ∧
      (a.isNan = false → b.isNan = true → (q i).1 = if number then bits c 1 h i else fm.nanBits) ∧
      (a.isNan = false → b.isNan = false → ((q i).1 = bits c 1 h i ∨ (q i).1 = bits c 2 h i) ∧
        if largest then a.notAbove r ∧ b.notAbove r else r.notAbove a ∧ r.notAbove b)
    let cond (a b : FVal) : Bool :=
      let un := a.isNan || b.isNan
      let o := a.cmp b
      (x.c == 0 && !un && o == 0) || (x.c == 1 && (un || o != 0)) || (x.c == 2 && !un && decide (o < 0))
        || (x.c == 3 && !un && decide (o ≤ 0)) || (x.c == 4 && !un && decide (0 < o)) || (x.c == 5 && !un && decide (0 ≤ o))
        || (x.c == 6 && !un) || (x.c == 7 && un) || (x.c == 8 && (un || decide (o < 0))) || (x.c == 9 && (un || decide (o ≤ 0)))
        || (x.c == 10 && (un || decide (0 < o))) || (x.c == 11 && (un || decide (0 ≤ o)))
    let cnv (a b : FVal) : Flags :=
      nv (a.isSig || b.isSig || (decide (2 ≤ x.c.toNat ∧ x.c.toNat ≤ 5) && (a.isNan || b.isNan)))
    (Instr.fmin x).deliversFloat (pick false false) ∧ (Instr.fmax x).deliversFloat (pick true false) ∧
    (Instr.fminnm x).deliversFloat (pick false true) ∧ (Instr.fmaxnm x).deliversFloat (pick true true) ∧
    (x.c.toNat < 12 → (Instr.fcmp x).deliversFloat (fun c f => ∀ h, f h =
      flagged (if cond (e c 1 h 0) (e c 2 h 0) then 1 else 0) (cnv (e c 1 h 0) (e c 2 h 0)))) ∧
    (x.c.toNat < 12 → (Instr.fset x).deliversFloat (fun c f => ∀ h, f h =
      eachElem t (fun i => (if cond (e c 1 h i) (e c 2 h i) then one else 0, cnv (e c 1 h i) (e c 2 h i))))) ∧
    (Instr.fclass x).deliversFloat (fun c f => ∀ h, (f h).flags = 0 ∧
      let sub := bits c 1 h 0 / 2 ^ fm.fb % 2 ^ fm.eb = 0
      (f h).val.toNat = match e c 1 h 0 with
        | .inf n => if n then 2 ^ 0 else 2 ^ 7
        | .nan s => if s then 2 ^ 8 else 2 ^ 9
        | .fin n m _ =>
          if m = 0 then (if n then 2 ^ 3 else 2 ^ 4)
          else if sub then (if n then 2 ^ 2 else 2 ^ 5)
          else (if n then 2 ^ 1 else 2 ^ 6)) ∧
    (Instr.fsgn x).deliversFloat (fun c f => ∀ h, f h = eachElem t (fun i =>
      let w := fm.width - 1
      let sa := (bits c 1 h i).testBit w
      let sb := (bits c 2 h i).testBit w
      let s := if x.c = 0 then sb else if x.c = 1 then !sb else if x.c = 2 then sa != sb else if x.c = 3 then false else !sa
      (bits c 1 h i % 2 ^ w + if s then 2 ^ w else 0, 0))) ∧
    (Instr.fsat x).deliversFloat (fun c f => ∀ h, f h = eachElem t (fun i => match e c 1 h i with
      | .nan s => (0, nv s)
      | v => if v.neg || v.isZero then (0, 0) else if 0 < v.cmp (.fin false 1 0) then (one, 0) else (bits c 1 h i, 0)))

/-- R138 to R143: FRND gives the integral value in direction RM; FLDEXP the value scaled by 2^n and rounded once; FGETEXP the
exponent; FCVT puts the value rounded to its destination format into element dk of B; F2I gives the integer in direction RM,
clamped with Invalid; I2F the integer rounded once. -/
def Obligations.FloatConversions : Prop :=
  ∀ x : XForm,
    let t := x.t.toNat
    let fm := fmtT t
    let rm := x.rm.toNat
    let e (c : Ctx) (k h i : Nat) : FVal := fm.unpack (elemNat t i (c.val k h))
    let nv (p : Bool) : Flags := if p then fNV else 0
    let ofInt (v : Int) : W64 := (BitVec.ofInt 32 v).setWidth 64
    (Instr.frnd x).deliversFloat (fun c f => ∀ h, ∃ q, f h = eachElem t q ∧ ∀ i, match e c 1 h i with
      | .nan s => q i = (fm.nanBits, nv s)
      | .inf n => q i = (fm.infBits n, 0)
      | .fin n m k => if 0 ≤ k then q i = (elemNat t i (c.val 1 h), 0)
        else ∃ r, roundsTo rm n m (2 ^ (-k).toNat) r ∧ q i = (fm.encodeExact n r 0, 0)) ∧
    (Instr.fldexp x).deliversFloat (fun c f => ∀ h,
      let n := sext 32 (c.val 2 h).toNat
      let r := match e c 1 h 0 with
        | .nan s => (fm.nanBits, nv s)
        | .inf s => (fm.infBits s, 0)
        | .fin s m k => fm.roundFin rm false s m (k + n) false
      f h = flagged (BitVec.ofNat 64 r.1) r.2) ∧
    (Instr.fgetexp x).deliversFloat (fun c f => ∀ h, match e c 1 h 0 with
      | .fin _ m k => if m = 0 then f h = flagged (ofInt (-0x80000000)) fNV
        else ∃ l : Nat, 2 ^ l ≤ m ∧ m < 2 ^ (l + 1) ∧ f h = flagged (ofInt (l + k)) 0
      | _ => f h = flagged (ofInt 0x7FFFFFFF) fNV) ∧
    (Instr.fcvt x).deliversFloat (fun c f => ∀ h,
      let dst := x.c.toNat % 16
      let src := x.c.toNat / 16 % 16
      let a := (c.val 1 h).toNat / 2 ^ (cvtWidth src * (x.imm.toNat / 8 % 8)) % 2 ^ cvtWidth src
      let v := if src = 9 then unpackE8m0 a else (fmtCode src).unpack a
      let r := (fmtCode dst).round rm (x.sat == 1) v
      let w := cvtWidth dst
      (f h).flags = r.2 ||| nv v.isSig ∧
      (dst ≤ 1 → (f h).val = BitVec.ofNat 64 r.1) ∧
      (2 ≤ dst → x.imm.toNat % 8 < 32 / w → (f h).val.toNat < 2 ^ 32 ∧ ∀ j, j < 32 / w →
        (f h).val.toNat / 2 ^ (w * j) % 2 ^ w =
          if j = x.imm.toNat % 8 then r.1 else (c.val 2 h).toNat / 2 ^ (w * j) % 2 ^ w)) ∧
    (Instr.f2i x).deliversFloat (fun c f => ∀ h,
      let lo := loT t
      let hi := hiT t
      let out (v : Int) (p : Bool) : LaneOut := flagged (BitVec.ofNat 64 (v % 2 ^ elemW t).toNat) (nv p)
      match (fmtT x.c.toNat).unpack (elemNat x.c.toNat 0 (c.val 1 h)) with
      | .nan _ => f h = out 0 true
      | .inf n => f h = out (if n then lo else hi) true
      | .fin n m k => ∃ r : Nat, roundsTo rm n (m * 2 ^ k.toNat) (2 ^ (-k).toNat) r ∧
          let v : Int := if n then -r else r
          f h = out (max lo (min hi v)) (decide (v < lo ∨ hi < v))) ∧
    (Instr.i2f x).deliversFloat (fun c f => ∀ h,
      let v := elemInt x.c.toNat 0 (c.val 1 h)
      let r := fm.roundFin rm false (decide (v < 0)) v.natAbs 0 false
      f h = flagged (BitVec.ofNat 64 r.1) r.2)

/-- R99, R100, R101: a control transfer whose targets are all legal takes each active lane to its target, a call with its link
written; one with an illegal target has no effect and traps with Illegal target, FADDR the target of the lowest such lane. -/
def Statements.BranchesAndCalls : Prop :=
  ∀ (b : BForm) (x : XForm),
    let label (c : Ctx) (_h : Nat) : W64 :=
      lineBase c.pc + b.loff.signExtend 64 * 64 + BitVec.ofNat 64 (4 + 12 * b.slot.toNat)
    let plain (c : Ctx) : Res := { s := c.s }
    let link (c : Ctx) : Res :=
      let outs := c.outs (fun _ => ⟨nextPc c.pc, 0, false⟩)
      { s := c.s.modGroup c.g.gid (c.write outs), vals := c.latchVals outs }
    let moves (i : Instr) (computed : Bool) (target : Ctx → Nat → W64) (e : Ctx → Res) : Prop :=
      ∀ (s : State) (c : Ctx), s.issues i = some c →
        let bad (h : Nat) : Prop := s.targetBad c.g.asid.toNat (target c h) computed = true
        ((∀ h ∈ c.act, ¬bad h) → exec i s = .next (c.completes { e c with pcs := c.act.map (fun h => (h, target c h)) })) ∧
        ∀ h ∈ c.act, bad h → (∀ k ∈ c.act, k < h → ¬bad k) →
          exec i s = .next ((c.traps (c.trap 0x05 0 (target c h))).fused s)
    moves (.bra b) false label plain ∧ moves (.call b) false label link ∧
    moves (.brx x) true (fun c h => c.val 1 h) plain ∧ moves (.ret x) true (fun c h => c.val 1 h) plain ∧
    moves (.callx x) true (fun c h => c.val 1 h) link

/-- R17, R18, R100: a target is illegal when it is no instruction address, when it was computed and lies at or above 2^57, or when
its line can be read, is sound, and has the TGT bit of the slot clear. -/
def Statements.IllegalTargets : Prop :=
  ∀ (s : State) (asid : Nat) (a : W64) (computed : Bool),
    s.targetBad asid a computed = true ↔
      slotOf a = none ∨ (computed = true ∧ 2 ^ 57 ≤ a.toNat) ∨
      ∃ l k, slotOf a = some k ∧ s.codeLine asid (lineBase a).toNat = .ok l ∧ s.parityBad asid (lineBase a).toNat l = false ∧
        lineReserved l = false ∧ lineTgt l k = false

/-- Transfers reach legal targets with links written; an illegal target traps without effect: the statements `Statements.BranchesAndCalls`, `Statements.IllegalTargets` together. -/
def Obligations.ControlTransfers : Prop :=
  Statements.BranchesAndCalls ∧ Statements.IllegalTargets

/-- R103, R106, R107, R108, R112: SETMEET, SETPRIO, YIELD, REGROUP and SLEEP complete with these effects on the threads of the active
lanes; YIELD's on the whole path.
Where the manual leaves a choice, the model's is that of log entries 13 and 46. -/
def Statements.ThreadStates : Prop :=
  ∀ (b : BForm) (x : XForm),
    let label (c : Ctx) : W64 := lineBase c.pc + b.loff.signExtend 64 * 64 + BitVec.ofNat 64 (4 + 12 * b.slot.toNat)
    let old (c : Ctx) : List (Nat × W64) := c.act.map (fun h => (h, ((c.g.threads[h]?).map (·.meet)).getD 0))
    (b.c = 0 → (Instr.setmeet b).completesAs (fun c => { s := c.withThreads (fun _ t => { t with meet := label c }) })) ∧
    (b.c = 1 → (Instr.setmeet b).completesAs (fun c => { s := c.s.modGroup c.g.gid (fun g =>
      (g.writeDest true b.a.toNat (old c)).modThreads c.act.contains (fun _ t => { t with meet := label c })) })) ∧
    (b.c = 2 → (Instr.setmeet b).completesAs (fun c => { s := c.withThreads (fun h t => { t with meet := c.val 1 h }) })) ∧
    (b.c = 3 → (Instr.setmeet b).completesAs (fun c => { s := c.withThreads (fun _ t => { t with meet := 0 }) })) ∧
    (Instr.setprio x).completesAs (fun c => { s := c.withThreads (fun h t => { t with prio := (c.val 1 h).setWidth 4 }) }) ∧
    (Instr.yield x).completesAs (fun c => { s := c.s.modGroup c.g.gid (fun g =>
      g.modThreads (laneIn c.part.mask) (fun _ t => { t with demoted := true })) }) ∧
    (Instr.regroup x).completesAs (fun c => { s := c.withThreads (fun _ t => { t with
      wait := .regroup (c.s.cycle c.core) (c.s.cycle c.core + (x.imm.setWidth 16).setWidth 64) (nextPc c.pc) }) }) ∧
    (Instr.sleep x).completesAs (fun c => { s := c.withThreads (fun h t =>
      let n := ((c.val 1 h).setWidth 32).setWidth 64
      if n = 0 then t else { t with wait := .sleep, blockedUntil := c.s.time (c.core / 64) + n }) })

/-- R111: BACKOFF blocks its active lanes in increasing order, the k-th for the number drawn after 16 × (k + 1) steps of the
core's LFSR, whose step is the Galois step with tap mask 0x80200003.
Where the manual leaves a choice, the model's is that of log entry 43. -/
def Statements.BackoffDraws : Prop :=
  (∀ (n : Nat) (v : W32),
    lfsrSteps (n + 1) v = lfsrSteps n (if v.getLsbD 0 then (v >>> 1) ^^^ 0x80200003#32 else v >>> 1) ∧ lfsrSteps 0 v = v) ∧
  ∀ (x : XForm) (s : State) (c : Ctx) (k0 : Core), s.issues (.backoff x) = some c → s.cores[c.core]? = some k0 →
    ∃ t g, exec (.backoff x) s = .next t ∧ t.group? c.g.gid = some g ∧
      { t with groups := s.groups, cores := s.cores } = s ∧
      t.cores[c.core]? = some { k0 with lfsr := lfsrSteps (16 * c.act.length) k0.lfsr } ∧
      (∀ j, j ≠ c.core → t.cores[j]? = s.cores[j]?) ∧
      { g with threads := c.g.threads } = c.g ∧
      ∀ n h (y z : Thread), c.act[n]? = some h → c.g.threads[h]? = some y → g.threads[h]? = some z →
        z.wait = .backoff ∧
        z.blockedUntil = k0.cycle + BitVec.ofNat 64 (64 + ((lfsrSteps (16 * (n + 1)) k0.lfsr).toNat % 2 ^ 16 &&&
          (64 * 2 ^ (min ((c.val 1 h).toNat % 16) 10) - 1)))

/-- SETMEET, SETPRIO, YIELD, REGROUP, SLEEP and BACKOFF complete with their effects on threads: the statements `Statements.ThreadStates`, `Statements.BackoffDraws` together. -/
def Obligations.ThreadControl : Prop :=
  Statements.ThreadStates ∧ Statements.BackoffDraws

/-- R102, R109: EXIT exits exactly the active threads; they leave every pending set of the convergence registers; registers stay, and the
other threads of the path go on. -/
def Obligations.ExitEndsThreads : Prop :=
  ∀ (x : XForm) (s : State) (c : Ctx), s.issues (.exit x) = some c →
    ∃ t g, exec (.exit x) s = .next t ∧ t.group? c.g.gid = some g ∧ g.vregs = c.g.vregs ∧ g.sregs = c.g.sregs ∧
      (∀ k, k < 8 → g.cvs.get k = c.g.cvs.get k &&& ~~~c.actMask) ∧
      ∀ (h : Nat) (y z : Thread), c.g.threads[h]? = some y → g.threads[h]? = some z →
        (h ∈ c.act → z.exited = true) ∧ (h ∉ c.act → z.exited = y.exited) ∧
        (laneIn c.part.mask h = true → h ∉ c.act → y.exited = false → z.pc = nextPc c.pc) ∧
        (laneIn c.part.mask h = false → z.pc = y.pc)

/-- R109: CVDECL writes the members that have not exited into a free convergence register, and waits while the register's
pending set is not empty.
Where the manual leaves a choice, the model's is that of log entry 32. -/
def Statements.ConvergenceDeclared : Prop :=
  ∀ x : XForm,
    let members (c : Ctx) : W64 := if x.a = 0x1FF then c.actMask else c.uval 1
    (Instr.cvdecl x).completesActive (fun c =>
      if c.g.cvs.get x.d.toNat = 0 then { s := c.s.modGroup c.g.gid (fun g => { g with
        cvs := g.cvs.set x.d.toNat (members c &&& maskOf g.live), mmas := g.mmas.filter (fun r => r.cv != x.d.toNat) }) }
      else { s := { c.s with tick := c.s.tick + 1 }.modGroup c.g.gid (fun g =>
        g.modThreads c.act.contains (fun _ t => { t with wait := .cvdecl c.s.tick x.d.toNat (members c) })) })

/-- R110, R301, R424: SWITCHPT clears the path's latches. Where it is not reached it does nothing else; reached without an order for the
workgroup, the group notes the point and the cycle, for an order of the same cycle; reached under an order, it withdraws the order and ends every wait where other groups wait at another point, it makes the group
wait where the switch map lists the point for both variants, and does nothing else otherwise.
Where the manual leaves a choice, the model's is that of log entry 37. -/
def Statements.SwitchPoints : Prop :=
  ∀ (x : XForm) (s : State) (c : Ctx), s.issues (.switchpt x) = some c →
    let n := x.imm.toNat % 256
    let reached : Prop := c.g.inh = false ∧ c.act ≠ [] ∧ ∀ h ∈ c.g.live, h ∈ c.act
    let waits (m : Nat) : Prop := ∃ g ∈ s.groups, g.wid = c.w.wid ∧ g.gid ≠ c.g.gid ∧ g.retired = false ∧ m ∈ g.switchWaits
    (¬reached → exec (.switchpt x) s = .next (c.completes { s := s, clear := true })) ∧
    (c.w.order = none → reached → exec (.switchpt x) s = .next (c.completes {
      s := s.modGroup c.g.gid (fun g => { g with atSwitch := some (n, s.cycle c.core) }), clear := true })) ∧
    ∀ o, c.w.order = some o → reached →
      ((∃ m, waits m ∧ m ≠ n) → exec (.switchpt x) s = .next (c.completes {
        s := (s.endSwitchWaits c.w.wid).modWg c.w.wid (fun w => { w with order := none }), clear := true })) ∧
      ((∀ m, waits m → m = n) →
        exec (.switchpt x) s = .next (c.completes {
          s := (if c.code.listed n c.w.variant = true ∧ c.code.listed n o.target = true
            then c.withThreads (fun _ t => { t with wait := .switchpt n }) else s), clear := true }))

/-- CVDECL and SWITCHPT: the statements `Statements.ConvergenceDeclared`, `Statements.SwitchPoints` together. -/
def Obligations.ConvergenceAndSwitchPoints : Prop :=
  Statements.ConvergenceDeclared ∧ Statements.SwitchPoints

/-- R37, R63, R113, R195: TRAP and SYSCALL trap with Software trap and return past themselves, BKPT with Breakpoint at itself,
FINFO[15:0] the immediate; SYSCALL, of the long class, clears the latches of its path. Without an active lane they only move on.
Where the manual leaves a choice, the model's is that of log entry 15. -/
def Obligations.SoftwareTraps : Prop :=
  ∀ x : XForm,
    let imm : Nat := x.imm.toNat % 2 ^ 16
    let takes (i : Instr) (t : Ctx → TrapInfo) : Prop := ∀ (s : State) (c : Ctx), s.issues i = some c →
      exec i s = .next (if c.act = [] then c.completes { s := s } else (c.traps (t c)).fused s)
    takes (.trap x) (fun c => { c.softly 0x11 (BitVec.ofNat 32 imm) (nextPc c.pc) with raiser := some c.pc }) ∧
    takes (.syscall x) (fun c =>
      { c.softly 0x11 (BitVec.ofNat 32 (2 ^ 16 + imm)) (nextPc c.pc) with raiser := some c.pc, clear := true }) ∧
    takes (.bkpt x) (fun c => c.softly 0x12 (BitVec.ofNat 32 imm) c.pc)

/-- R104, R109, R111, R112: MEET_RELEASE frees the threads held at X once no other thread of the meeting is to come, and nothing before;
BACKOFF_EXPIRY and SLEEP_EXPIRY end a wait at its deadline and not before; CVDECL_WRITE writes the waiting member set once the
pending set is empty, and its threads go on.
Where the manual leaves a choice, the model's is that of log entry 12. -/
def Statements.ThreadWaitsEnd : Prop :=
  (∀ (s : State) (gid : Nat) (a : W64) (g : Group), s.group? gid = some g → a ≠ 0 →
    ∃ (t : State) (g' : Group), exec (.meetRelease gid a) s = .next t ∧ s.onlyGroup t gid ∧ t.group? gid = some g' ∧
      { g' with threads := g.threads } = g ∧
      let ready : Prop := ∀ y ∈ g.threads, y.exited = false → y.meet = a → y.wait ≠ .backoff → y.wait ≠ .sleep → y.held = true
      ∀ (h : Nat) (y z : Thread), g.threads[h]? = some y → g'.threads[h]? = some z →
        (ready → y.held = true → y.meet = a → z = { y with meet := 0 }) ∧ (¬(ready ∧ y.held = true ∧ y.meet = a) → z = y)) ∧
  (∀ (s : State) (gid lane core : Nat) (g : Group), s.group? gid = some g → s.coreOf g = some core →
    exec (.backoffExpiry gid lane) s = .next (s.modGroup gid (fun g => g.modThreads (fun h => h = lane) (fun _ t =>
      if t.wait = .backoff ∧ t.blockedUntil ≤ s.cycle core then { t with wait := .none } else t)))) ∧
  (∀ (s : State) (gid lane : Nat) (g : Group), s.group? gid = some g →
    exec (.sleepExpiry gid lane) s = .next (s.modGroup gid (fun g' => g'.modThreads (fun h => h = lane) (fun _ t =>
      if t.wait = .sleep ∧ t.blockedUntil ≤ s.time (s.groupDie g) then { t with wait := .none } else t)))) ∧
  ∀ (s : State) (gid tok cv : Nat) (m : W64) (g : Group), s.group? gid = some g →
    (∃ t ∈ g.threads, t.wait = .cvdecl tok cv m) → (∀ t ∈ g.threads, ∀ k n, t.wait = .cvdecl tok k n → k = cv ∧ n = m) →
    ∃ (t : State) (g' : Group), exec (.cvdeclWrite gid tok) s = .next t ∧ t.group? gid = some g' ∧ s.onlyGroup t gid ∧
      (g.cvs.get cv ≠ 0 → t = s) ∧
      (g.cvs.get cv = 0 → g'.cvs.get cv = m &&& maskOf g.live ∧ (∀ k, k ≠ cv → g'.cvs.get k = g.cvs.get k) ∧
        ∀ (h : Nat) (y z : Thread), g.threads[h]? = some y → g'.threads[h]? = some z →
          z = if y.wait = .cvdecl tok cv m then { y with wait := .none } else y)

/-- R108, R210: FLOCK_BIN_RELEASE forms issue groups of threads that wait in REGROUP at one address of one workgroup: no two of a
formed group share a home lane, each group is full or holds a thread whose window has ended, its threads wait no longer, and it may
issue from the next cycle of its core. Where no group of the workgroup has landed elsewhere, the pool is all threads that wait there; it
is cut into bins first fit in the order of issue cycle, grp and home lane; and every bin that holds width threads, or a thread whose window
has ended, becomes a formed group of exactly its threads, numbered on from the core's formation count.
Where the manual leaves a choice, the model's is that of log entry 13. -/
def Statements.FlockBinsFormGroups : Prop :=
  ∀ (s : State) (wid : Nat) (addr : W64),
    (∀ (w : Workgroup) (core : Nat) (k : Core), s.wg? wid = some w → w.core = some core → s.cores[core]? = some k →
      (∀ g ∈ s.groups, g.wid = wid → g.landing = none) → ∃ (pool : List PoolThread) (bins : List (List PoolThread)) (t : State),
        (∀ q, q ∈ pool ↔ ∃ g ∈ s.groups, g.wid = wid ∧ g.retired = false ∧ g.stopped = false ∧ q.gid = g.gid ∧ q.grp = g.grp ∧
          q.width = g.width ∧ ∃ x, g.threads[q.lane]? = some x ∧ x.exited = false ∧ x.wait = .regroup q.issued q.stop addr) ∧
        bins.flatten.Perm pool ∧ (∀ b ∈ bins, b ≠ [] ∧ (b.map (·.lane)).Nodup) ∧
        (∀ (i j : Nat) (b d : List PoolThread), bins[i]? = some b → bins[j]? = some d → i < j → ∀ q ∈ d, ∃ r ∈ b, r.lane = q.lane ∧
          (r.issued < q.issued ∨ r.issued = q.issued ∧ r.grp ≤ q.grp)) ∧
        exec (.flockBinRelease wid addr) s = .next t ∧
        t.formed = s.formed ++ (bins.filter (fun b => b.any (fun q => q.width ≤ b.length || q.stop ≤ k.cycle))).mapIdx (fun i b =>
          ⟨BitVec.ofNat 32 (0x100 + (k.formed.toNat + i) % 0xFF00), k.cycle + 1, wid, b.map (fun q => (q.gid, q.lane))⟩)) ∧
    ∃ t new, exec (.flockBinRelease wid addr) s = .next t ∧ t.formed = s.formed ++ new ∧
      ∀ f ∈ new, f.wid = wid ∧ (f.members.map (·.2)).Nodup ∧ f.members ≠ [] ∧
        (∀ m ∈ f.members, (∃ g ∈ s.groups, ∃ x i e, g.gid = m.1 ∧ g.wid = wid ∧ g.threads[m.2]? = some x ∧ x.exited = false ∧
            x.wait = .regroup i e addr) ∧
          ∀ g ∈ t.groups, g.gid = m.1 → ∀ x, g.threads[m.2]? = some x → x.wait = .none) ∧
        ∃ m ∈ f.members, ∃ g ∈ s.groups, ∃ x i e core, g.gid = m.1 ∧ g.threads[m.2]? = some x ∧ x.wait = .regroup i e addr ∧
          (g.landing = none ∧ (s.wg? wid).bind (·.core) = some core ∨ ∃ l, g.landing = some l ∧ l.core = core) ∧
          (g.width ≤ f.members.length ∨ e ≤ s.cycle core) ∧ f.start = s.cycle core + 1

/-- R209, R321: PASSED_OVER_GUARD marks a group that has a path passed over in 64 counted issues; PARTITION_STARVATION marks the least
recently issued of the partition's groups passed over for 4,096 cycles.
Where the manual leaves a choice, the model's is that of log entry 46. -/
def Statements.IssueGuards : Prop :=
  (∀ (s : State) (gid : Nat) (g : Group), s.group? gid = some g → (∃ t ∈ g.threads, t.exited = false ∧ 64 ≤ t.passed) →
    ∃ t, exec (.passedOverGuard gid) s = .next t ∧ s.onlyGroup t gid ∧ t.group? gid = some { g with forced := true }) ∧
  ∀ (s : State) (core ipart : Nat) (g : Group), s.group? g.gid = some g →
    let starving (k : Group) : Prop := s.coreOf k = some core ∧ k.ipart = ipart ∧ k.retired = false ∧ 4096 ≤ k.passed
    starving g → (∀ k ∈ s.groups, starving k → k ≠ g → g.lastIssue < k.lastIssue) →
    ∃ t, exec (.partitionStarvation core ipart) s = .next t ∧ s.onlyGroup t g.gid ∧
      t.group? g.gid = some { g with starved := true }

/-- Waits end when their condition holds; Flock forms groups; the issue guards mark what is passed over: the statements `Statements.ThreadWaitsEnd`, `Statements.FlockBinsFormGroups`, `Statements.IssueGuards` together. -/
def Obligations.WaitsAndGuards : Prop :=
  Statements.ThreadWaitsEnd ∧ Statements.FlockBinsFormGroups ∧ Statements.IssueGuards

/-- R418, R421, R422, R423: taking a trap outside a handler with a trap vector. The trap registers and OPLOG take the trap's values, every thread
that has not exited stands at TVEC on one path with nothing to meet or wait for and its latches cleared, the level rises, the trap
frame keeps the threads as they were (without a REGROUP wait; with cleared latches where the trap kept the path's instruction
from completing), formed issue groups of the group dissolve, and nothing else changes; single steps that other threads owe stay owed (R427), and firmware
receives a record of a Machine check (R428).
Where the manual leaves a choice, the model's is that of log entry 16. -/
def Obligations.TrapEntry : Prop :=
  ∀ (s : State) (t : TrapInfo) (g : Group) (w : Workgroup) (la : Launch),
    s.group? g.gid = some g → s.wg? g.wid = some w → s.launch? w.lid = some la → g.inh = false → la.record.tvec ≠ 0 →
    let u := s.takeTrap g.gid t
    { u with groups := s.groups, formed := s.formed, tick := s.tick } = (if t.cause = 0x14 then s.machineRecord else s) ∧
    u.tick = s.tick + 1 ∧ (∀ f, f ∈ u.formed ↔ f ∈ s.formed ∧ ∀ m ∈ f.members, m.1 ≠ g.gid) ∧ (∀ k, k ≠ g.gid → u.group? k = s.group? k) ∧
    ∃ fr, u.group? g.gid = some { g with
        cause := BitVec.ofNat 8 t.cause, epc := t.epc, faddr := t.faddr, finfo := t.finfo, inh := true, deferred := t.deferred
        lvl := if g.blv = 0 then 1 else 2, oplogTv := t.entry.isSome
        oplogTent := (t.entry.map (fun e => BitVec.ofNat 5 e)).getD g.oplogTent, stepPath := 0, frame := some fr
        threads := g.threads.map (fun x => if x.exited then x else { x with
          pc := la.record.tvec, meet := 0, prio := 0, blockedUntil := 0, wait := .none, latches := Latches.cleared
          lastLine := none, arrival := .noCheck, passed := 0, demoted := false }) } ∧
      fr.path = (if t.deferred then 0 else t.path) ∧ fr.since = s.tick + 1 ∧ fr.step = g.stepPath &&& ~~~t.path ∧
      fr.threads.length = g.threads.length ∧
      ∀ (h : Nat) (x y : Thread), g.threads[h]? = some x → fr.threads[h]? = some y →
        { y with latches := x.latches, wait := x.wait } = x ∧
        ((∃ i e a, x.wait = .regroup i e a) → y.wait = .none) ∧ ((∀ i e a, x.wait ≠ .regroup i e a) → y.wait = x.wait) ∧
        y.latches = if t.clear = true ∧ t.deferred = false ∧ laneIn t.path h = true then Latches.cleared else x.latches

/-- R195, R426: a trap in a handler, or without a trap vector, ends the workgroup, with the address of the instruction that raised it;
so does HALT above group level, with its code;
at group level HALT raises Privilege fault.
Where the manual leaves a choice, the model's is that of log entry 16. -/
def Obligations.WorkgroupEndings : Prop :=
  (∀ (s : State) (t : TrapInfo) (g : Group) (w : Workgroup) (la : Launch),
    s.group? g.gid = some g → s.wg? g.wid = some w → s.launch? w.lid = some la → g.inh = true ∨ la.record.tvec = 0 →
    s.workgroupEnds (s.takeTrap g.gid t) w la t.cause (t.raiser.getD t.epc) 0) ∧
  ∀ (x : XForm) (s : State) (c : Ctx), s.issues (.halt x) = some c →
    (c.act = [] → exec (.halt x) s = .next (c.completes { s := s })) ∧
    (c.act ≠ [] → c.g.lvl = 0 → exec (.halt x) s = .next ((c.traps (c.trap 0x10 0x3000)).fused s)) ∧
    (c.act ≠ [] → c.g.lvl ≠ 0 → ∃ t, exec (.halt x) s = .next t ∧
      s.workgroupEnds t c.w c.la 0 c.pc (BitVec.ofNat 32 (x.imm.toNat % 2 ^ 16)))

/-- R191, R192, R193, R376, R402, R419: MFSR gives each active lane the value of the register that IMM names; at group level it raises
Privilege fault for the trap registers, TVEC and OPLOG. -/
def Statements.SystemRegisterReads : Prop :=
  ∀ (x : XForm) (s : State) (c : Ctx), s.issues (.mfsr x) = some c →
    let n := x.imm.toNat
    let hidden : Prop := c.g.lvl = 0 ∧ (n = 1 ∨ n = 2 ∨ n = 3 ∨ n = 4 ∨ n = 5 ∨ n = 6)
    (c.act = [] → exec (.mfsr x) s = .next (c.completes { s := s })) ∧
    (c.act ≠ [] → hidden → exec (.mfsr x) s = .next ((c.traps (c.trap 0x10 (BitVec.ofNat 32 n))).fused s)) ∧
    (c.act ≠ [] → ¬hidden → ∃ v : Nat → W64,
      exec (.mfsr x) s = .next (c.completes { s := s.modGroup c.g.gid (fun g =>
        g.writeDest c.dWide (c.fieldCode 0) (c.act.map (fun h => (h, v h)))) }) ∧ ∀ h,
      (n = 0x000 → v h = BitVec.ofNat 64 (c.g.lvl.toNat + 4 * c.g.blv.toNat + (if c.g.stepFlag then 64 else 0)
        + (if c.g.deferred then 128 else 0) + if c.g.inh then 256 else 0)) ∧
      (n = 0x001 → v h = c.g.cause.setWidth 64) ∧ (n = 0x002 → v h = c.g.epc) ∧ (n = 0x003 → v h = c.la.record.tvec) ∧
      (n = 0x004 → v h = c.g.faddr) ∧ (n = 0x005 → v h = c.g.finfo.setWidth 64) ∧
      (n = 0x006 → (∀ e, e < 32 → ((v h).getLsbD e = true ↔ ∃ o ∈ s.ops, o.gid = c.g.gid ∧ o.isLogged = true ∧ o.entry = e)) ∧
        (v h).toNat / 2 ^ 32 = c.g.oplogTent.toNat + if c.g.oplogTv then 128 else 0) ∧
      (n = 0x008 → v h = c.la.fpctl.setWidth 64) ∧
      (n = 0x009 → ∀ t, c.g.threads[h]? = some t → v h = t.fpstat.setWidth 64) ∧
      (n = 0x010 → v h = s.time (c.core / 64)) ∧ (n = 0x011 → v h = s.cycle c.core) ∧
      (n = 0x018 → c.core < 256 → (v h).toNat = c.core + 2 ^ 8 * (c.core / 64) + 2 ^ 10 * (c.core / 4) + 2 ^ 16 * (c.core % 4) + 2 ^ 32) ∧
      (n = 0x020 → v h = c.g.asid.setWidth 64) ∧
      (n = 0x021 → ∀ a p, s.asid? c.g.asid.toNat = some a → s.part? a.part = some p → a.part < 64 → p.parent < 64 →
        (v h).toNat = a.part + 2 ^ 8 * p.parent + if p.parent = a.part then 0 else 2 ^ 15) ∧
      (n = 0x030 → ∀ m64 m32 m16 m8 m4, s.fuses.mxcap[c.core / 4]? = some [m64, m32, m16, m8, m4] →
        m64 < 256 → m32 < 256 → m16 < 256 → m8 < 256 → m4 < 256 →
        (v h).toNat = m64 + 2 ^ 8 * m32 + 2 ^ 16 * m16 + 2 ^ 24 * m8 + 2 ^ 32 * m4) ∧
      (0x040 ≤ n → n ≤ 0x05F → v h = ((c.w.tiles[n - 0x040]?).getD Tile.fresh).tsh.setWidth 64) ∧
      (0x060 ≤ n → n ≤ 0x067 → v h = c.g.cvs.get (n - 0x060)) ∧
      (0x070 ≤ n → n ≤ 0x07F → ∀ k, s.cluster? c.w.cid = some k → v h = (k.qbs[n - 0x070]?).getD 0) ∧
      (n = 0x080 → ∀ a, s.asid? c.g.asid.toNat = some a → v h = a.len.setWidth 64) ∧
      (n = 0x090 → v h = c.g.viewcur))

/-- R191, R193: MTSR writes the register that IMM names, fields that are RO or reserved excepted, once per issue or for FPSTAT in
each active lane; where the level does not allow the write it raises Privilege fault.
Where the manual leaves a choice, the model's is that of log entries 14 and 26. -/
def Statements.SystemRegisterWrites : Prop :=
  ∀ (x : XForm) (s : State) (c : Ctx), s.issues (.mtsr x) = some c →
    let n := x.imm.toNat
    let v := c.uval 1
    let open0 : Prop := n = 0x009 ∨ n = 0x090 ∨ (0x040 ≤ n ∧ n ≤ 0x067)
    let open1 : Prop := open0 ∨ n = 0 ∨ n = 1 ∨ n = 2 ∨ n = 4 ∨ n = 5 ∨ n = 8 ∨ (0x070 ≤ n ∧ n ≤ 0x07F)
    let open2 : Prop := open1 ∨ n = 3 ∨ n = 0x020 ∨ n = 0x080
    let may : Prop := if c.g.lvl = 0 then open0 else if c.g.lvl = 1 then open1 else open2
    let is (r : State) : Prop := exec (.mtsr x) s = .next (c.completes { s := r })
    let grp (f : Group → Group) : State := s.modGroup c.g.gid f
    (c.act = [] → is s) ∧
    (c.act ≠ [] → ¬may → exec (.mtsr x) s = .next ((c.traps (c.trap 0x10 (BitVec.ofNat 32 n))).fused s)) ∧
    (c.act ≠ [] → may →
      (n = 0x000 → is (grp (fun g => { g with stepFlag := v.getLsbD 6 }))) ∧
      (n = 0x001 → is (grp (fun g => { g with cause := v.setWidth 8 }))) ∧
      (n = 0x002 → is (grp (fun g => { g with epc := v }))) ∧
      (n = 0x003 → is (s.modLaunch c.la.lid (fun l => { l with record := { l.record with tvec := v } }))) ∧
      (n = 0x004 → is (grp (fun g => { g with faddr := v }))) ∧
      (n = 0x005 → is (grp (fun g => { g with finfo := v.setWidth 32 }))) ∧
      (n = 0x008 → is (s.modLaunch c.la.lid (fun l => { l with fpctl := (v.setWidth 5).setWidth 32 }))) ∧
      (n = 0x009 → is (c.withThreads (fun h t => { t with fpstat := (c.val 1 h).setWidth 5 }))) ∧
      (n = 0x020 → is (grp (fun g => { g with asid := v.setWidth 16 }))) ∧
      (0x040 ≤ n → n ≤ 0x05F → is (s.modWg c.w.wid (fun w =>
        w.modTile (n - 0x040) (fun t => { t with tsh := (v.setWidth 18).setWidth 32 })))) ∧
      (0x060 ≤ n → n ≤ 0x067 → ∃ t g, exec (.mtsr x) s = .next t ∧ t.group? c.g.gid = some g ∧ g.cvs.get (n - 0x060) = v) ∧
      (0x070 ≤ n → n ≤ 0x07F → ∀ k, s.cluster? c.w.cid = some k → n - 0x070 < k.qbs.length →
        ∃ t k', exec (.mtsr x) s = .next t ∧ t.cluster? c.w.cid = some k' ∧
          k'.qbs[n - 0x070]? = some (v &&& 0x9FFF3F3F0F3FFFFF)) ∧
      (n = 0x080 → is (s.modAsid c.g.asid.toNat (fun a => { a with
        len := BitVec.ofNat 13 (max 8 (min 8000 (v.toNat % 2 ^ 13))) }))) ∧
      (n = 0x090 → is (grp (fun g => { g with viewcur := (v.setWidth 38).setWidth 64 }))))

/-- MFSR and MTSR on every system register, with the levels that they need: the statements `Statements.SystemRegisterReads`, `Statements.SystemRegisterWrites` together. -/
def Obligations.SystemRegisters : Prop :=
  Statements.SystemRegisterReads ∧ Statements.SystemRegisterWrites

/-- R194, R425: ERET outside a handler raises Privilege fault; with a thread not active, Partial issue; with an EPC that is no
instruction address below 2^57 after a precise trap, it ends the workgroup; otherwise the group resumes from its trap frame.
Where the manual leaves a choice, the model's is that of log entry 15. -/
def Obligations.ReturnFromHandler : Prop :=
  ∀ (x : XForm) (s : State) (c : Ctx), s.issues (.eret x) = some c →
    let idle (h : Nat) : Prop := h ∈ c.g.live ∧ h ∉ c.act
    let bad : Prop := c.g.deferred = false ∧ (slotOf c.g.epc = none ∨ 2 ^ 57 ≤ c.g.epc.toNat)
    (c.g.inh = false → exec (.eret x) s = .next ((c.traps (c.trap 0x10 0x3000)).fused s)) ∧
    ∀ fr, c.g.inh = true → c.g.frame = some fr →
      ((∃ h, idle h) → ∃ m, exec (.eret x) s = .next ((c.traps (c.trap 0x0C 0 m)).fused s) ∧
        ∀ h, h < 64 → (m.getLsbD h = true ↔ idle h)) ∧
      ((∀ h, ¬idle h) → bad → ∃ t, exec (.eret x) s = .next t ∧ s.workgroupEnds t c.w c.la 0x05 c.pc 0) ∧
      ((∀ h, ¬idle h) → ¬bad → ∃ t g, exec (.eret x) s = .next t ∧ t.group? c.g.gid = some g ∧
        g.inh = false ∧ g.deferred = false ∧ g.lvl = c.g.blv ∧ g.frame = none ∧ g.vregs = c.g.vregs ∧ g.sregs = c.g.sregs ∧
        g.stepPath = fr.step ||| (if c.g.stepFlag = true ∧ c.g.deferred = false then fr.path else 0) ∧ g.stepFlag = c.g.stepFlag ∧
        ∀ (h : Nat) (y f z : Thread), c.g.threads[h]? = some y → fr.threads[h]? = some f → g.threads[h]? = some z →
          (y.exited = true → z.exited = true ∧ z.pc = y.pc) ∧
          (y.exited = false →
            let moving : Prop := ∃ a b q, f.wait = .migrate a b (some q)
            let back : W64 := if c.g.deferred = false ∧ laneIn fr.path h = true then c.g.epc else f.pc
            z.exited = f.exited ∧ z.meet = f.meet ∧ z.prio = f.prio ∧ z.latches = f.latches ∧ z.blockedUntil = f.blockedUntil ∧
            z.trav = f.trav ∧ z.preds = y.preds ∧ z.fpstat = y.fpstat ∧ z.key0 = y.key0 ∧ z.key1 = y.key1 ∧
            (¬moving → z.pc = back ∧ z.wait = f.wait) ∧ (moving → z.pc = prevPc back ∧ z.wait = .none)))

/-- R194: OPREPLAY and OPDROP raise Privilege fault at group level and for an entry that the group does not hold, and without an active
lane only move on. OPDROP frees the entry unperformed: no memory, cache, scratchpad or other group changes, and registers stay; OPREPLAY closes its record, has its lanes performed again, and waits for them.
Where the manual leaves a choice, the model's is that of log entries 11 and 19. -/
def Statements.OperandLogInstructions : Prop :=
  ∀ (x : XForm) (s : State) (c : Ctx),
    let held (o : MemOp) : Prop := o ∈ s.ops ∧ o.gid = c.g.gid ∧ o.isLogged = true ∧ o.entry = (c.uval 1).toNat % 32
    let refused (i : Instr) : Prop := s.issues i = some c → c.act ≠ [] → c.g.lvl = 0 ∨ (∀ o, ¬held o) →
      exec i s = .next ((c.traps (c.trap 0x10 0x3000)).fused s)
    let idle (i : Instr) : Prop := s.issues i = some c → c.act = [] → exec i s = .next (c.completes { s := s })
    refused (.opreplay x) ∧ refused (.opdrop x) ∧ idle (.opreplay x) ∧ idle (.opdrop x) ∧
    ∀ o, held o → (∀ p, held p → p = o) → c.g.lvl ≠ 0 → c.act ≠ [] →
      (s.issues (.opdrop x) = some c → ∃ t g, exec (.opdrop x) s = .next t ∧ t.group? c.g.gid = some g ∧
        g.vregs = c.g.vregs ∧ g.sregs = c.g.sregs ∧
        { t with groups := s.groups, ops := s.ops, funcs := s.funcs } = s ∧ (∀ k, k ≠ c.g.gid → t.group? k = s.group? k) ∧
        (∀ p, p.id ≠ o.id → (p ∈ t.ops ↔ p ∈ s.ops)) ∧
        (∀ p ∈ t.ops, p.id = o.id → p.lanes = o.lanes.filter (fun l => !l.isLogged)) ∧
        (∀ p ∈ g.pend, p.op = o.id → ∀ l ∈ o.lanes, l.isLogged = true → laneIn p.lanes l.lane = false) ∧
        ∀ fid f, o.fid = some fid → t.func? c.la.vf = some f → ∀ e ∈ f.openFids, e.1 ≠ fid) ∧
      (s.issues (.opreplay x) = some c → ∃ t g, exec (.opreplay x) s = .next t ∧ t.group? c.g.gid = some g ∧
        (∀ p ∈ t.ops, p.id = o.id → p.isLogged = false ∧ p.log = .replay) ∧
        (∀ h ∈ c.act, ∀ y, g.threads[h]? = some y → y.wait = .opDone o.id) ∧
        ∀ fid f, o.fid = some fid → t.func? c.la.vf = some f → ∀ e ∈ f.openFids, e.1 ≠ fid)

/-- R422: DEFERRED_TRAP takes, at an instruction boundary outside a handler, the pending trap whose log entry was made first; its
operation is then the handler's.
Where the manual leaves a choice, the model's is that of log entry 16. -/
def Statements.DeferredTrapsInOrder : Prop :=
  ∀ (s : State) (gid : Nat) (g : Group) (d : DefTrap), s.group? gid = some g → g.frame = none → g.live ≠ [] →
    s.unstopped g = true → g.stopped = false → g.retired = false → d ∈ g.traps → (∀ e ∈ g.traps, e ≠ d → d.op < e.op) →
    exec (.deferredTrap gid) s = .next ((((s.modGroup gid (fun g => { g with traps := g.traps.filter (fun e => e != d) })).modOp d.op
      (fun o => { o with log := .handler })).takeTrap gid
        { cause := d.cause.toNat, epc := d.epc, faddr := d.faddr, finfo := d.finfo, deferred := d.path == 0, path := d.path,
          entry := d.entry }).fused s)

/-- OPREPLAY, OPDROP and the deferred traps of logged operations: the statements `Statements.OperandLogInstructions`, `Statements.DeferredTrapsInOrder` together. -/
def Obligations.OperandLogAndDeferredTraps : Prop :=
  Statements.OperandLogInstructions ∧ Statements.DeferredTrapsInOrder

/-- R195: IDLE blocks its active threads, with a limit of A[31:0] nanoseconds where that is not zero; IDLE_WAKE ends the wait after
an event for the group, a fault-queue service in a handler, or at the limit, and not before. -/
def Obligations.IdleWaits : Prop :=
  (∀ x : XForm, (Instr.idle x).completesActive (fun c => { s := { c.s with tick := c.s.tick + 1 }.modGroup c.g.gid (fun g =>
    g.modThreads c.act.contains (fun h t =>
      let n := ((c.val 1 h).setWidth 32).setWidth 64
      { t with wait := .idle c.s.tick (if n = 0 then none else some (c.s.time (c.core / 64) + n)) })) })) ∧
  ∀ (s : State) (gid lane tok : Nat) (limit : Option W64) (g : Group) (y : Thread), s.group? gid = some g →
    g.threads[lane]? = some y → y.wait = .idle tok limit →
    ∃ t g' z, exec (.idleWake gid lane) s = .next t ∧ s.onlyGroup t gid ∧ t.group? gid = some g' ∧ g'.threads[lane]? = some z ∧
      (∀ h, h ≠ lane → g'.threads[h]? = g.threads[h]?) ∧
      let past : Prop := tok < g.wakeTick ∨ (g.inh = true ∧ tok < g.serviceTick) ∨ ∃ e, limit = some e ∧ e ≤ s.time (s.groupDie g)
      (past → z = { y with wait := .none }) ∧ (¬past → z = y)

/-- R147 to R158, R33, R152: a load, store or atomic whose lanes meet no fault of Issue class leaves one outstanding operation with a
request per active lane (one for a scalar instruction) at the address of R150, its destinations pending; without an active lane it
leaves none. Nothing else of the machine changes.
Where the manual leaves a choice, the model's is that of log entries 11 and 19. -/
def Statements.AccessesIssue : Prop :=
  ∀ x : MForm, ∀ i ∈ [Instr.ld x, .st x, .lds x, .sts x, .ldq x, .stq x, .ldv x, .atom x, .cas x, .red x],
    ∀ (s : State) (c : Ctx), s.issues i = some c →
      let ea (h : Nat) : W64 :=
        c.val 1 h + (if x.ix = 0 then c.val 2 h else if x.ix = 1 then ((c.val 2 h).setWidth 32).setWidth 64
          else ((c.val 2 h).setWidth 32).signExtend 64) * BitVec.ofNat 64 (2 ^ x.sh) + x.imm.signExtend 64
      let keys : List (Nat × Nat) := if i.scalar then (c.act.take 1).map (fun h => (0, h)) else c.act.map (fun h => (h, h))
      (∀ p ∈ keys, c.addrFault (ea p.2) = none ∧ c.meetsPoison (ea p.2) = false) →
      (keys = [] → exec i s = .next (c.completes { s := s })) ∧
      (keys ≠ [] → ∃ (t : State) (r : Nat × List LaneReq), exec i s = .next t ∧
        t.ops = s.ops ++ [⟨s.tick, c.g.gid, c.core, c.g.ipart, r.1, c.pc, i, c.g.asid, i.isScratch, c.part.mask, false, r.2, none, .raised,
          s.cycle c.core, s.issue.id, s.issue.formed, []⟩] ∧
        r.2.map (fun l => (l.lane, l.addr, l.stage)) = keys.map (fun p => (p.1, ea p.2, LaneStage.todo)) ∧
        (∀ o ∈ s.ops, o.core = c.core → o.ipart = c.g.ipart → o.entry ≠ r.1) ∧
        (∀ l ∈ r.2, ∀ p ∈ keys, l.lane = p.1 → (i = .st x ∨ i = .sts x ∨ i = .stq x → l.data = c.wideVal 0 p.2) ∧
          (i = .cas x → l.data = c.wideVal 3 p.2 ∧ l.cmp = c.wideVal 0 p.2) ∧ (i = .atom x ∨ i = .red x → l.data = c.wideVal 3 p.2)) ∧
        { t with ops := s.ops, groups := s.groups, tick := s.tick } = s ∧ t.tick = s.tick + 1 ∧
        (∀ k, k ≠ c.g.gid → t.group? k = s.group? k) ∧
        ∃ g, t.group? c.g.gid = some g ∧ { g with threads := c.g.threads, pend := c.g.pend } = c.g ∧
          g.pend = c.g.pend ++ (c.destPend (keys.map (·.1))).map (fun d => ⟨s.tick, d.1, d.2⟩) ∧
          ∀ (h : Nat) (y z : Thread), c.g.threads[h]? = some y → g.threads[h]? = some z →
            if laneIn c.part.mask h = true ∧ y.exited = false then c.movesOn y z else z = y)

/-- R150, R151, R152: the first lane, in increasing home lane, whose address raises an Issue-class fault decides the trap: Privilege fault of a
scratchpad address outside its scratchpad, Page fault of reason RANGE at or above 2^57, Misaligned access. Nothing is issued.
Where the manual leaves a choice, the model's is that of log entry 22. -/
def Statements.MemoryIssueFaults : Prop :=
  (∀ (c : Ctx) (a : W64),
    let n := c.i.accessBytes
    c.addrFault a =
      if c.i.isScratch = true ∧ c.s.scratchTarget c.w a n = none then some (0x10, 0x1000)
      else if c.i.isScratch = false ∧ 2 ^ 57 ≤ a.toNat then some (0x08, if Instr.needOf c.i = .write then 32 else 0)
      else if n ∣ a.toNat then none else some (0x07, 0)) ∧
  ∀ x : MForm, ∀ i ∈ [Instr.ld x, .st x, .lds x, .sts x, .ldq x, .stq x, .ldv x, .atom x, .cas x, .red x],
    ∀ (s : State) (c : Ctx) (h : Nat) (f : Nat × W32), s.issues i = some c → h ∈ c.act → c.addrFault (c.ea h) = some f →
      (∀ k ∈ c.act, k < h → c.addrFault (c.ea k) = none) → (i.scalar = true → c.act.head? = some h) →
      exec i s = .next ((c.traps (c.trap f.1 f.2 (c.ea h))).fused s)

/-- Loads, stores and atomics leave one operation, or trap with the fault of the first lane: the statements `Statements.AccessesIssue`, `Statements.MemoryIssueFaults` together. -/
def Obligations.MemoryAccessesIssue : Prop :=
  Statements.AccessesIssue ∧ Statements.MemoryIssueFaults

/-- R102, R149, R154: what a load writes to its destination: KIND's bytes, zero- or sign-extended, to a register or a pair; LDQ four
registers; nothing to the v registers of the lane of a thread that has exited.
Where the manual leaves a choice, the model's is that of log entry 58. -/
def Statements.LoadedValues : Prop :=
  ∀ (x : MForm) (g : Group) (lane : Nat) (bs : List Byte),
    let k := x.kind
    let v : W64 := if k = 1 then BitVec.ofInt 64 (sext 8 (leNat bs)) else if k = 3 then BitVec.ofInt 64 (sext 16 (leNat bs))
      else BitVec.ofNat 64 (leNat bs)
    (g.gone lane = true → x.d.toNat < 256 → ∀ i ∈ [Instr.ld x, .lds x, .ldv x, .ldq x], g.deliverLoad i lane bs = g) ∧
    (g.gone lane = false ∨ 256 ≤ x.d.toNat →
      ∀ i ∈ [Instr.ld x, .lds x, .ldv x], g.deliverLoad i lane bs = g.writeDest (k == 5) x.d.toNat [(lane, v)]) ∧
    (g.gone lane = false → ∀ j, j < 4 → x.d.toNat + 3 < 256 →
      (g.deliverLoad (.ldq x) lane bs).vreg lane (x.d.toNat + j) = BitVec.ofNat 32 (leNat bs / 2 ^ (32 * j)))

/-- R152, R154, R244, R247, R256, R428: LOAD_RETURN completes a lane that may perform: from a scratchpad, from the core's leased L1 copy, each
byte that a store of its buffer overlaps from the youngest such store, or from whatever serves the read; the lane's destination holds
the extended bytes and is pending no longer. A read that meets bad data takes a Machine check and leaves the registers as they were
before the operation. A lane that may not perform yet stays as it is.
Where the manual leaves a choice, the model's is that of log entries 18, 23 and 67. -/
def Statements.LoadsReturn : Prop :=
  (∀ (s : State) (id lane : Nat) (o : MemOp) (l : LaneReq) (g : Group), s.op? id = some o → o.lane? lane = some l →
    s.group? o.gid = some g → o.instr.isPlainLoad = true →
    let n := o.instr.accessBytes
    let may : Prop := s.laneReady o l = true ∧ s.loadBehind o l = false ∧ s.inTurn o l.addr = true
    let v := s.serve o l.addr
    let is (u : State) : Prop := exec (.loadReturn id lane) s = .next (u.fused s)
    let returns (u : State) (bs : List Byte) : Prop := is (u.deliverLane o l bs)
    (¬may → exec (.loadReturn id lane) s = .next s) ∧
    (may →
      (∀ wid off, o.scratch = true → s.place o l = some (wid + 1, off) →
        (s.scratchBad wid off n = false → returns v (s.scratchBytes wid off n)) ∧
        (s.scratchBad wid off n = true → is (v.machineCheckOp o l.addr))) ∧
      (∀ x, o.scratch = false → (∀ f, o.instr ≠ .ldv f) → o.instr.order % 2 = 0 → o.instr.noL1 = false →
        s.l1Hit o.core o.asid.toNat (l.addr.toNat / 64) = some x → x.poison = 0 →
        let buf := s.buffered o.core o.asid.toNat o.gid o.id l.addr.toNat n
        (∀ p ∈ buf, ∃ r, s.resolve o.asid.toNat p.2.addr.toNat .write = .ok r) →
        ∃ bs, returns v bs ∧ bs.length = n ∧ ∀ j b, bs[j]? = some b →
          ((∀ p ∈ buf, ¬(p.2.addr.toNat ≤ l.addr.toNat + j ∧ l.addr.toNat + j < p.2.addr.toNat + p.1.instr.accessBytes)) →
            (lineBytes x.data (l.addr.toNat % 64) n)[j]? = some b) ∧
          ∀ older p younger, buf = older ++ p :: younger →
            (∀ q ∈ younger, ¬(q.2.addr.toNat ≤ l.addr.toNat + j ∧ l.addr.toNat + j < q.2.addr.toNat + q.1.instr.accessBytes)) →
            p.2.addr.toNat ≤ l.addr.toNat + j → l.addr.toNat + j < p.2.addr.toNat + p.1.instr.accessBytes →
            (p.2.bytes p.1.instr.accessBytes)[l.addr.toNat + j - p.2.addr.toNat]? = some b) ∧
      (∀ u bs bad r far, o.scratch = false →
        (match o.instr with
          | .ldv _ => v.viewRead o.core o.gid o.id o.asid.toNat l.addr.toNat n l.view o.instr.noL1 o.noAlloc
          | _ => v.lsuRead o.core o.gid o.id o.asid.toNat l.addr.toNat n o.instr.noL1 o.noAlloc) = .ok u bs bad r far →
        v.acquireFault o g l.addr.toNat r far = none →
        (bad = false → returns u bs) ∧ (bad = true → is (v.machineCheckOp o l.addr))))) ∧
  ∀ (s : State) (id : Nat) (o : MemOp) (l : LaneReq) (g : Group) (bs : List Byte), s.op? id = some o → l ∈ o.lanes →
    s.group? o.gid = some g →
    let t := s.deliverLane o l bs
    ((∀ k ∈ o.lanes, k.lane = l.lane) → ∃ g', t.group? o.gid = some g' ∧ (∀ p ∈ t.ops, p.id ≠ id) ∧ (∀ p ∈ g'.pend, p.op ≠ id) ∧
      g'.vregs = (g.deliverLoad o.instr l.lane bs).vregs ∧ g'.sregs = (g.deliverLoad o.instr l.lane bs).sregs) ∧
    ((∃ k ∈ o.lanes, k.lane ≠ l.lane ∧ k.isLogged = false) → ∃ g' o', t.group? o.gid = some g' ∧ t.op? id = some o' ∧
      o'.lanes = o.lanes.filter (fun k => k.lane != l.lane) ∧ o'.undo = o.undo ++ g.destNow o.instr l.lane ∧
      (∀ p ∈ g'.pend, p.op = id → laneIn p.lanes l.lane = false ∨ 64 ≤ l.lane) ∧
      g'.vregs = (g.deliverLoad o.instr l.lane bs).vregs ∧ g'.sregs = (g.deliverLoad o.instr l.lane bs).sregs)

/-- R155, R164, R236, R246, R247, R248: STORE_APPLY of a lane that may perform puts its bytes into the scratchpad, into host memory, into
a peer's window, or into the line at the home that nothing else holds, and into the core's own L1 copy; other bytes stay, and an
acknowledgement of a global store is on its way. STORE_ACK takes it to the group, whose completion horizon rises to its time; so does
what is known of the core's stores under that ASID.
Where the manual leaves a choice, the model's is that of log entries 21 and 25. -/
def Statements.StoresApply : Prop :=
  (∀ (s : State) (id lane : Nat) (o : MemOp) (l : LaneReq) (g : Group), s.op? id = some o → o.lane? lane = some l →
    s.group? o.gid = some g → o.instr.isLaneStore = true → s.laneReady o l = true → s.inTurn o l.addr = true →
    let n := o.instr.accessBytes
    let bs := natBytes n l.data.toNat
    let va := l.addr.toNat
    ∃ t, exec (.storeApply id lane) s = .next t ∧
      (∀ wid off w, o.scratch = true → s.place o l = some (wid + 1, off) → s.wg? wid = some w → ∃ w', t.wg? wid = some w' ∧
        w'.scratch.bytes off n = bs ∧ (∀ a, a < off ∨ off + n ≤ a → w'.scratch.get a = w.scratch.get a) ∧
        { t with groups := s.groups, wgs := s.wgs, ops := s.ops, funcs := s.funcs, hostMem := s.hostMem, vectors := s.vectors,
                 badScratch := s.badScratch, travRuns := s.travRuns } = s) ∧
      (∀ b, o.scratch = false → o.instr.order < 2 → s.resolve o.asid.toNat va .write = .ok (.host b) →
        o.lanes = [l] → t.hostMem = s.hostMem.setBytes b bs ∧ t.hbm = s.hbm ∧ t.home = s.home ∧
          t.acks = s.acks ++ [⟨s.tick, o.gid, id, o.core, o.asid.toNat, va / 64, 0, true⟩]) ∧
      (∀ p r b, o.scratch = false → o.instr.order < 2 → s.resolve o.asid.toNat va .write = .ok (.peer p r b) →
        o.lanes = [l] → t.peerMem = s.peerMem.setBytes (p * 2 ^ 49 + r * 2 ^ 39 + b) bs ∧ t.hostMem = s.hostMem ∧ t.hbm = s.hbm ∧
          t.home = s.home ∧ t.acks = s.acks ++ [⟨s.tick, o.gid, id, o.core, o.asid.toNat, va / 64, 0, true⟩]) ∧
      (∀ home a v hpa tr h, o.scratch = false → o.instr.order < 2 → s.resolve o.asid.toNat va .write = .ok (.line home a v hpa tr) →
        tr.trk = false → dieOf o.core = home → s.home? a (v / 64) = some h → h.taken = false → h.dir = .i → o.lanes = [l] →
        t.hbm = s.hbm ∧ t.hostMem = s.hostMem ∧ t.peerMem = s.peerMem ∧ t.rdc = s.rdc ∧
        t.l1 = (s.l1Update o.core o.asid.toNat va bs).l1 ∧ (∀ b k, ¬(b = a ∧ k = v / 64) → t.home? b k = s.home? b k) ∧
        ∃ h', t.home? a (v / 64) = some h' ∧ h'.data = lineSet h.data (v % 64) bs ∧
          (∀ k, k < 8 → (h'.dirty.getLsbD k = true ↔ h.dirty.getLsbD k = true ∨ (v % 64 < 8 * k + 8 ∧ 8 * k < v % 64 + n))) ∧
          t.acks = s.acks ++ [⟨s.tick, o.gid, id, o.core, o.asid.toNat, va / 64, maxT (s.time home) h.lr, false⟩])) ∧
  ∀ (s : State) (k : Ack) (g : Group), s.acks.find? (fun a => a.id == k.id) = some k → s.group? k.gid = some g →
    ∃ t, exec (.storeAck k.id) s = .next t ∧ (∀ a, a ∈ t.acks ↔ a ∈ s.acks ∧ a.id ≠ k.id) ∧ s.hbm = t.hbm ∧ s.home = t.home ∧
      t.coreWOf k.core k.asid = (if k.w < s.coreWOf k.core k.asid then s.coreWOf k.core k.asid else k.w) ∧
      t.group? k.gid = some { g with ch := if g.ch < k.w then k.w else g.ch }

/-- What a load returns and where a store puts its bytes, all other bytes unchanged: the statements `Statements.LoadedValues`, `Statements.LoadsReturn`, `Statements.StoresApply` together. -/
def Obligations.LoadsAndStoresPerform : Prop :=
  Statements.LoadedValues ∧ Statements.LoadsReturn ∧ Statements.StoresApply

/-- R157, R159, R161: PREF completes and changes no register, no operation and no memory outside HBM; where no cached copy is dirty and no
request is in progress it changes no byte of HBM either (a line that it replaces is written back otherwise). FENCE and FENCEX leave a
hold on the group's later work, with or without an active lane.
Where the manual leaves a choice, the model's is that of log entry 11. -/
def Statements.PrefetchAndFences : Prop :=
  ∀ x : MForm,
    (∀ (s : State) (c : Ctx), s.issues (.pref x) = some c → ∃ t, exec (.pref x) s = .next t ∧
      t.groups = (c.completes { s := s }).groups ∧ t.ops = s.ops ∧ t.acks = s.acks ∧
      t.hostMem = s.hostMem ∧ t.peerMem = s.peerMem ∧ t.pages = s.pages ∧ t.wgs = s.wgs ∧ t.tlb = s.tlb ∧
      ((∀ h ∈ s.home, h.dirty = 0 ∧ h.taken = false) → (∀ r ∈ s.rdc, r.st = .s ∨ r.st = .e) →
        (∀ n ∈ s.notices, n.st = .s ∨ n.st = .e) → t.hbm = s.hbm ∧ t.seals = s.seals)) ∧
    (Instr.fence x).completesAs (fun c => { s := { c.s with tick := c.s.tick + 1 }.modGroup c.g.gid (fun g => { g with
      holds := g.holds ++ [Hold.mk c.s.tick x.ord (BitVec.ofNat 3 x.scope.toNat) 0 0xFF] }) }) ∧
    (Instr.fencex x).completesAs (fun c => { s := { c.s with tick := c.s.tick + 1 }.modGroup c.g.gid (fun g => { g with
      holds := g.holds ++ [Hold.mk c.s.tick 0 (BitVec.ofNat 3 x.scope.toNat) (x.imm.extractLsb' 0 8) (x.imm.extractLsb' 8 8)] }) })

/-- R163: one attempt of a DROP over lines of an ASID at a core: it drains the stores to them that were issued before it. Once none of
those is left to perform it has dropped the core's L1 lines of the range, and loads in flight to them keep none; until then it has dropped
none. Lines of other cores, other ASIDs and other addresses stay. -/
def Statements.DropAttempts : Prop :=
  ∀ (s : State) (core : Nat) (asid : BitVec 16) (upto lo hi : Nat),
    let inR (a : Nat) : Prop := lo ≤ a ∧ a < hi
    let waits (t : State) : Prop := ∃ o ∈ t.ops, o.core = core ∧ o.asid = asid ∧ o.id < upto ∧ o.instr.isPlainStore = true ∧
      ∃ l ∈ o.lanes, l.stage = .todo ∧ inR l.addr.toNat
    let r := s.dropStep core asid upto lo hi
    (r.2 = true ↔ ¬waits r.1) ∧
    (r.2 = true → (∀ y ∈ r.1.l1, ¬(y.core = core ∧ y.asid = asid.toNat ∧ inR (y.line * 64))) ∧
      ∀ o ∈ r.1.ops, o.core = core → o.asid = asid → o.instr.isLoad = true → (∃ l ∈ o.lanes, inR l.addr.toNat) → o.noAlloc = true) ∧
    ((∀ o ∈ s.ops, o.core = core → o.asid = asid → o.id < upto → o.instr.isPlainStore = true → ∀ l ∈ o.lanes, ¬inR l.addr.toNat) →
      r.2 = true ∧ { r.1 with l1 := s.l1, ops := s.ops } = s ∧
      ∀ y, y ∈ r.1.l1 ↔ y ∈ s.l1 ∧ ¬(y.core = core ∧ y.asid = asid.toNat ∧ inR (y.line * 64)))

/-- R150, R162 to R166, R231, R254, R271: DROP, with its range below 2^57, drains the core's stores to the range and drops the core's L1 lines
of it, or leaves an operation that does so once those stores may perform; CCTL writes back, or evicts, the home lines of the range, after
which HBM holds what the line held, the copy of an owner that had it modified included; PROMOTE of a victim core of the same partition
leaves an operation that completes later, of another raises Privilege fault; an address or a range beyond 2^57 raises Page fault of reason
RANGE. Without an active lane they only move on.
Where the manual leaves a choice, the model's is that of log entries 21 and 59. -/
def Statements.CacheControl : Prop :=
  ∀ x : MForm,
    let range (c : Ctx) (line : Nat) : Prop :=
      let a := (c.ea ((c.act.head?).getD 0)).toNat
      let n := (c.uval 3).toNat
      n ≠ 0 ∧ a / 64 ≤ line ∧ line * 64 < a + n
    let low (c : Ctx) : Prop := (c.ea ((c.act.head?).getD 0)).toNat < 2 ^ 57 ∧
      (c.ea ((c.act.head?).getD 0)).toNat + (c.uval 3).toNat ≤ 2 ^ 57
    (∀ i ∈ [Instr.drop x, .cctl x], ∀ (s : State) (c : Ctx), s.issues i = some c → c.act ≠ [] → ¬low c →
      exec i s = .next ((c.traps (c.trap 0x08 0 (c.ea ((c.act.head?).getD 0)))).fused s)) ∧
    (∀ (s : State) (c : Ctx), s.issues (.drop x) = some c → c.act ≠ [] → low c →
      let a := (c.ea ((c.act.head?).getD 0)).toNat
      let lo := a / 64 * 64
      let hi := (a + (c.uval 3).toNat + 63) / 64 * 64
      let r := s.dropStep c.core c.g.asid s.tick lo hi
      (c.uval 3 = 0 → exec (.drop x) s = .next (c.completes { s := s })) ∧
      (c.uval 3 ≠ 0 → r.2 = true → exec (.drop x) s = .next ((c.completes { s := r.1 }).fused s)) ∧
      (c.uval 3 ≠ 0 → r.2 = false → ∃ t o, exec (.drop x) s = .next t ∧ t.ops = r.1.ops ++ [o] ∧ t.l1 = r.1.l1 ∧ t.home = r.1.home ∧
        t.hbm = r.1.hbm ∧ o.id = r.1.tick ∧ o.instr = .drop x ∧ o.gid = c.g.gid ∧ o.core = c.core ∧ o.asid = c.g.asid ∧
        ∃ l, o.lanes = [l] ∧ l.addr = BitVec.ofNat 64 lo ∧ l.data = BitVec.ofNat 128 hi ∧ l.stage = .todo)) ∧
    (∀ (s : State) (c : Ctx), s.issues (.cctl x) = some c → c.act ≠ [] → low c → ∃ t, exec (.cctl x) s = .next t ∧
      let asid := c.g.asid.toNat
      (x.kind = 0 → t.l1 = s.l1 ∧ ∀ n h, t.home? asid n = some h → range c n → h.dirty = 0) ∧
      (x.kind ≠ 0 → (∀ h ∈ t.home, ¬(h.asid = asid ∧ range c h.line)) ∧
        ∀ y ∈ t.l1, ¬(y.core = c.core ∧ y.asid = asid ∧ range c y.line)) ∧
      ∀ n h k, s.memWf = true → s.home? asid n = some h → range c n → h.taken = false →
        (h.dir = .i ∧ k = h ∨ h.dir = .m ∧ ∃ r, s.rdc? h.owner asid n = some r ∧ r.st = .m ∧ k = h.absorb .m r.data r.poison r.gr r.scope) →
        s.ownsFrame (((s.asid? asid).map (·.part)).getD 0) h.backing = true → s.mayWriteBack asid n = true →
        (∀ j ∈ s.home, j.asid = asid → range c j.line → j.line ≠ n → j.backing / 64 ≠ h.backing / 64) →
        t.hbmLine h.backing (s.genOf asid) = mergeGranules (s.hbmLine h.backing (s.genOf asid)) k.data k.dirty ∧
        (x.kind = 0 → ∃ h', t.home? asid n = some h' ∧ h'.data = k.data ∧ h'.dirty = 0 ∧ h'.backing = h.backing)) ∧
    (∀ (s : State) (c : Ctx), s.issues (.promote x) = some c → c.act ≠ [] →
      let victim := (c.uval 3).toNat % 256
      let ea := c.ea ((c.act.head?).getD 0)
      (s.coreInPart victim c.la.part = false → exec (.promote x) s = .next ((c.traps (c.trap 0x10 0x2000)).fused s)) ∧
      (s.coreInPart victim c.la.part = true → 2 ^ 57 ≤ ea.toNat → exec (.promote x) s = .next ((c.traps (c.trap 0x08 0 ea)).fused s)) ∧
      (s.coreInPart victim c.la.part = true → ea.toNat < 2 ^ 57 → ∃ t o, exec (.promote x) s = .next t ∧ o ∈ t.ops ∧
        o.id = s.tick ∧ o.instr = .promote x ∧ o.gid = c.g.gid ∧
        ∃ l, o.lanes = [l] ∧ l.addr = ea ∧ l.cmp = BitVec.ofNat 128 victim ∧ l.stage = .todo)) ∧
    ∀ i ∈ [Instr.drop x, .cctl x, .promote x], ∀ (s : State) (c : Ctx), s.issues i = some c → c.act = [] →
      exec i s = .next (c.completes { s := s })

/-- Prefetches, fences and cache control complete: the statements `Statements.PrefetchAndFences`, `Statements.DropAttempts`, `Statements.CacheControl` together. -/
def Obligations.PrefetchFencesAndCaches : Prop :=
  Statements.PrefetchAndFences ∧ Statements.DropAttempts ∧ Statements.CacheControl

/-- R158, R390: ATOMIC_UNIT_CHAIN performs, in one action, the lanes of one aggregation that name one address, in increasing home lane: each
receives the value that the lanes before it left, and memory the last; in a scratchpad, in host memory, in a peer's window and in a line at
its home that nothing else holds, of which the core then keeps no L1 copy. The aggregation is the operation, or those of every group of
its formed issue group. A scratchpad granule that holds an error raises Machine check. The steps of ATOM, RED and CAS.
Where the manual leaves a choice, the model's is that of log entry 50. -/
def Statements.AtomicChains : Prop :=
  (∀ (x : MForm) (l : LaneReq) (old : Nat),
    let t := x.t.toNat
    let w := elemW t
    let c := l.data.toNat
    let z (v : Nat) : Int := elemInt t 0 (BitVec.ofNat 64 v)
    let is (v : Int) : Prop := ∀ i ∈ [Instr.atom x, .red x], ((chainStep i l old).1 : Int) = v ∧ (chainStep i l old).2 = 0
    (floatT t = false → x.kind = 0 →
      is ((if x.sat = 1 then max (loT t) (min (hiT t) (z old + z c)) else z old + z c) % 2 ^ w)) ∧
    (floatT t = false → x.kind = 1 → is (min (z old) (z c) % 2 ^ w)) ∧
    (floatT t = false → x.kind = 2 → is (max (z old) (z c) % 2 ^ w)) ∧
    (x.kind = 3 → is (old &&& c : Nat)) ∧ (x.kind = 4 → is (old ||| c : Nat)) ∧ (x.kind = 5 → is (old ^^^ c : Nat)) ∧
    (5 < x.kind → is c) ∧
    (floatT t = true →
      let f := fmtT t
      let e (i v : Nat) : Nat := v / 2 ^ (w * i) % 2 ^ w
      let add (i : Nat) : Nat × Flags :=
        let p := sumProducts x.rm.toNat [] [f.unpack (e i old), f.unpack (e i c)]
        ((f.round x.rm.toNat false p.1).1, (f.round x.rm.toNat false p.1).2 ||| p.2)
      ∀ i ∈ [Instr.atom x, .red x],
        (x.kind = 0 → (∀ k, k < elemN t → e k (chainStep i l old).1 = (add k).1) ∧
          ∀ b, ((chainStep i l old).2.getLsbD b = true ↔ ∃ k, k < elemN t ∧ (add k).2.getLsbD b = true)) ∧
        (x.kind = 1 → chainStep i l old = f.minMax false true old c) ∧ (x.kind = 2 → chainStep i l old = f.minMax true true old c)) ∧
    chainStep (.cas x) l old = (if old = l.cmp.toNat then c else old, 0)) ∧
  (∀ (i : Instr) (l : LaneReq) (ls : List LaneReq) (old : Nat),
    (runChain i [] old = (old, [])) ∧
    runChain i (l :: ls) old =
      ((runChain i ls (chainStep i l old).1).1, (l, old, (chainStep i l old).2) :: (runChain i ls (chainStep i l old).1).2)) ∧
  ∀ (s : State) (id : Nat) (addr : W64) (o : MemOp) (p0 : MemOp × LaneReq) (g : Group), s.op? id = some o →
    o.instr.isAtomic = true → s.chainReady o addr = true → s.inTurn o addr = true →
    let n := o.instr.accessBytes
    let ps := s.chainLanes o addr
    let ls := ps.map (·.2)
    let os := (ps.map (·.1)).eraseDups
    let u := s.serve o addr
    (∀ p, p ∈ ps ↔ p.1 ∈ s.joinedOps o ∧ p.2 ∈ p.1.lanes ∧ p.2.stage = .todo ∧ p.2.addr = addr) ∧
    (o.joint = false → s.joinedOps o = [o]) ∧
    (ps.getLast? = some p0 → s.group? p0.1.gid = some g →
    (∀ wid off, o.scratch = true → s.place o p0.2 = some (wid + 1, off) →
      let r := runChain o.instr ls (leNat (s.scratchBytes wid off n))
      (s.scratchBad wid off n = false →
        exec (.atomicUnitChain id addr) s = .next (((u.scratchWrite wid off (natBytes n r.1)).chainDone ps r.2).fused s)) ∧
      (s.scratchBad wid off n = true →
        exec (.atomicUnitChain id addr) s = .next ((os.foldl (fun t q => t.machineCheckOp q addr) u).fused s))) ∧
    (o.scratch = false → (∀ q ∈ ps, u.scopeVerdict q.1 addr.toNat = none) →
      (∀ b, o.instr.scopeOf = 5 → s.resolve o.asid.toNat addr.toNat .write = .ok (.host b) →
        let r := runChain o.instr ls (leNat (s.hostMem.bytes b n))
        exec (.atomicUnitChain id addr) s = .next (((({ u with hostMem := s.hostMem.setBytes b (natBytes n r.1) }).sendAcks os
          (addr.toNat / 64) 0 true).chainDone ps r.2).fused s)) ∧
      (∀ k m b, o.instr.scopeOf = 5 → s.resolve o.asid.toNat addr.toNat .write = .ok (.peer k m b) →
        let a := k * 2 ^ 49 + m * 2 ^ 39 + b
        let r := runChain o.instr ls (leNat (s.peerMem.bytes a n))
        exec (.atomicUnitChain id addr) s = .next (((({ u with peerMem := s.peerMem.setBytes a (natBytes n r.1) }).sendAcks os
          (addr.toNat / 64) 0 true).chainDone ps r.2).fused s)) ∧
      ∀ home a v hpa tr h, s.resolve o.asid.toNat addr.toNat .write = .ok (.line home a v hpa tr) →
        tr.trk = false → tr.own = false → s.home? a (v / 64) = some h → h.taken = false → h.dir = .i → h.scope.passes s g = true →
        poisonedAt h.poison (v % 64) n = false →
        let r := runChain o.instr ls (leNat (lineBytes h.data (v % 64) n))
        ∃ (t : State) (h' : HomeLine), exec (.atomicUnitChain id addr) s = .next ((t.chainDone ps r.2).fused s) ∧ t.groups = s.groups ∧ t.ops = s.ops ∧
          t.home? a (v / 64) = some h' ∧ t.hbm = s.hbm ∧ t.hostMem = s.hostMem ∧ t.peerMem = s.peerMem ∧
          h'.data = lineSet h.data (v % 64) (natBytes n r.1) ∧ h'.scope = s.recordOf g o.instr.scopeOf ∧
          (∀ b k, ¬(b = a ∧ k = v / 64) → t.home? b k = s.home? b k) ∧
          (∀ y ∈ t.l1, ¬(y.core = o.core ∧ y.asid = o.asid.toNat ∧ y.line = addr.toNat / 64)) ∧
          t.acks = s.acks ++ os.zipIdx.map (fun q => ⟨s.tick + q.2, q.1.gid, q.1.id, q.1.core, q.1.asid.toNat, addr.toNat / 64,
            maxT (s.time home) h.lr, false⟩)))

/-- R178, R388: one lane's step of a deque chain. DQPUSH of a deque that is not full writes its entry at BOT, which advances; DQPOP of
one that is not empty takes the entry before BOT, which steps back; DQSTEAL takes the entry at TOP, which advances; each says so, and
one that finds the deque full or empty fails and changes nothing. DEQUE_CHAIN of an operation whose turn it is at the header takes
these steps for each lane of one header, in order, writes the header back, gives every lane its result, and leaves the core no L1 copy
of the lines it used. A header in a KIND 2 or 3 region faults every lane of the chain.
Where the manual leaves a choice, the model's is that of log entries 22, 50, 51 and 57. -/
def Statements.DequeChains : Prop :=
  (∀ (x : XForm) (asid buf cap : Nat) (hdr : W64) (r : DequeRun) (o : MemOp) (l : LaneReq),
    let size := (r.ends.bot + 2 ^ 64 - r.ends.top) % 2 ^ 64
    let fails (i : Instr) : Prop := DequeRun.step i asid hdr buf cap r (o, l) = { r with outs := r.outs ++ [(o, l, 0, false)] }
    let last := (r.ends.bot + 2 ^ 64 - 1) % 2 ^ 64
    (cap ≤ size → fails (.dqpush x)) ∧ (size = 0 → fails (.dqpop x)) ∧ (size = 0 → fails (.dqsteal x)) ∧
    (∀ u v b w, size < cap → r.s.dequeEntry asid hdr (buf + 8 * (r.ends.bot % cap)) (some (l.data.setWidth 64)) = .ok (u, v, b, w) →
      DequeRun.step (.dqpush x) asid hdr buf cap r (o, l) = { r with
        s := u, ends := ⟨r.ends.top, (r.ends.bot + 1) % 2 ^ 64⟩, entries := (buf + 8 * (r.ends.bot % cap)) :: r.entries
        outs := r.outs ++ [(o, l, 0, true)], w := maxT r.w w }) ∧
    (∀ u v b w, size ≠ 0 → r.s.dequeEntry asid hdr (buf + 8 * (last % cap)) none = .ok (u, v, b, w) →
      DequeRun.step (.dqpop x) asid hdr buf cap r (o, l) = { r with
        s := u, ends := ⟨r.ends.top, last⟩, entries := (buf + 8 * (last % cap)) :: r.entries, outs := r.outs ++ [(o, l, v, true)], bad := r.bad || b }) ∧
    (∀ u v b w, size ≠ 0 → r.s.dequeEntry asid hdr (buf + 8 * (r.ends.top % cap)) none = .ok (u, v, b, w) →
      DequeRun.step (.dqsteal x) asid hdr buf cap r (o, l) = { r with
        s := u, ends := ⟨(r.ends.top + 1) % 2 ^ 64, r.ends.bot⟩, entries := (buf + 8 * (r.ends.top % cap)) :: r.entries
        outs := r.outs ++ [(o, l, v, true)], bad := r.bad || b })) ∧
  (∀ (s : State) (id : Nat) (addr : W64) (o : MemOp), s.op? id = some o → o.instr.isDeque = true → s.chainReady o addr = true →
    s.inTurn o addr = true → s.farDeque o.asid.toNat addr.toNat = true →
    let u := s.serve o addr
    exec (.dequeChain id addr) s = .next ((u.chainFault (s.chainLanes o addr) (dequeFault addr)).fused s)) ∧
  ∀ (s : State) (id : Nat) (addr : W64) (o : MemOp) (p0 : MemOp × LaneReq) (g : Group) (home a v hpa : Nat) (tr : Trans) (h : HomeLine),
    s.op? id = some o → o.instr.isDeque = true → s.chainReady o addr = true → s.inTurn o addr = true →
    s.farDeque o.asid.toNat addr.toNat = false →
    let u := s.serve o addr
    let ps := s.chainLanes o addr
    ps.getLast? = some p0 → s.group? p0.1.gid = some g → (∀ q ∈ ps, u.scopeVerdict q.1 addr.toNat = none) →
    s.resolve o.asid.toNat addr.toNat .write = .ok (.line home a v hpa tr) → s.lineFree a (v / 64) = true →
    let s0 := (u.fillHome home a v hpa).dirRecall a (v / 64)
    s0.home? a (v / 64) = some h → h.scope.passes s g = true → poisonedAt h.poison 0 28 = false →
    let rd (k n : Nat) : Nat := leNat (lineBytes h.data k n)
    let r := ps.foldl (DequeRun.step o.instr o.asid.toNat addr (rd 16 8) (2 ^ (rd 24 4 % 64))) ⟨s0, ⟨rd 0 8, rd 8 8⟩, [], [], [], false, 0⟩
    1 ≤ rd 24 4 % 64 → rd 24 4 % 64 ≤ 20 → 8 ∣ rd 16 8 → r.bad = false → r.faults = [] → ∀ s1 lr,
    (if r.ends = ⟨rd 0 8, rd 8 8⟩ then .ok (r.s, h.lr)
      else r.s.homeApply home a v hpa (natBytes 8 r.ends.top ++ natBytes 8 r.ends.bot) tr.trk) = .ok (s1, lr) → ∀ h1,
    s1.home? a (v / 64) = some h1 →
    let s2 := (r.entries.foldl (fun s k => s.l1Replace o.core o.asid.toNat (k / 64)) s1).l1Replace o.core o.asid.toNat (addr.toNat / 64)
    exec (.dequeChain id addr) s = .next ((((s2.putHome { h1 with scope := s.recordOf g o.instr.scopeOf }).sendAcks
      (ps.map (·.1)).eraseDups (addr.toNat / 64) (maxT (s.time home) (maxT lr r.w)) false).dequeDone r.outs).fused s)

/-- Atomics and deque operations perform at their line as one chain: the statements `Statements.AtomicChains`, `Statements.DequeChains` together. -/
def Obligations.AtomicAndDequeChains : Prop :=
  Statements.AtomicChains ∧ Statements.DequeChains

/-- R160, R161, R164, R271, R272: FENCE_COMPLETE lifts a hold of the group once its conditions are met, and nothing before; the path caches
of a FENCEX's consumers then drop the address space's lines. For a PROMOTE whose victim's stores have performed, it drops the victim's
L1 lines of the address space and widens the scope record of a line whose record names the victim; another core's record raises Scope
fault of the lane. A replayed PROMOTE repeats only the check and the widening. For a DROP it makes one more attempt.
Where the manual leaves a choice, the model's is that of log entries 17 and 21. -/
def Statements.FencesComplete : Prop :=
  (∀ (s : State) (gid hold : Nat) (g : Group) (h : Hold), s.op? hold = none → s.group? gid = some g →
    g.holds.find? (fun x => x.id == hold) = some h →
    (s.holdDone g h = true → exec (.fenceComplete gid hold) s =
      .next ((s.dropPath (fun x => h.consumers != 0xFF && h.consumers.getLsbD x.path && x.asid == g.asid.toNat
          && s.coreOf g == some x.core)).modGroup gid (fun g => { g with holds := g.holds.filter (fun x => x.id != hold) }))) ∧
    (s.holdDone g h = false → exec (.fenceComplete gid hold) s = .next s)) ∧
  (∀ (s : State) (id : Nat) (o : MemOp) (x : MForm) (l : LaneReq), s.op? id = some o → o.instr = .drop x → o.lanes = [l] →
    let r := s.dropStep o.core o.asid o.id l.addr.toNat l.data.toNat
    (s.resident o.gid = false → exec (.fenceComplete o.gid id) s = .next s) ∧
    (s.resident o.gid = true → exec (.fenceComplete o.gid id) s =
      .next ((if r.2 = true then r.1.laneDone o.gid id l.lane else r.1).fused s))) ∧
  ∀ (s : State) (id : Nat) (o : MemOp) (x : MForm) (l : LaneReq) (g : Group) (home a v hpa : Nat) (tr : Trans) (h : HomeLine),
    s.op? id = some o → o.instr = .promote x → o.lanes = [l] → l.stage = .todo → s.group? o.gid = some g →
    s.resident o.gid = true → s.shutLane o l = false →
    let victim := l.cmp.toNat
    let w : W64 := l.data.setWidth 64
    (l.view = 0 → s.victimBusy o victim = false ∧ (w = 0 ∨ w + 4 ≤ s.time (s.groupDie g))) →
    let s0 : State := if l.view = 0 then
        { s with l1 := s.l1.filter (fun y => !(y.core == victim && y.asid == o.asid.toNat)),
                 ops := s.ops.map (fun o => if o.id = id then { o with lanes := o.lanes.map (fun l => { l with view := 1 }), id := id } else o) }
      else s
    s0.resolve o.asid.toNat l.addr.toNat .read = .ok (.line home a v hpa tr) → tr.own = false → s.lineFree a (v / 64) = true →
    let s1 := (s0.fillHome home a v hpa).dirRecall a (v / 64)
    s1.home? a (v / 64) = some h →
    (h.scope.valid = false ∨ h.scope.includes s1 g = true →
      exec (.fenceComplete o.gid id) s = .next ((s1.laneDone o.gid id l.lane).fused s)) ∧
    (h.scope.valid = true → h.scope.includes s1 g = false → h.scope.core = victim → exec (.fenceComplete o.gid id) s =
      .next (((s1.putHome { h with scope := { h.scope with sc := BitVec.ofNat 3 x.scope.toNat } }).laneDone o.gid id l.lane).fused s)) ∧
    (h.scope.valid = true → h.scope.includes s1 g = false → h.scope.core ≠ victim → exec (.fenceComplete o.gid id) s =
      .next ((s1.laneFault id l.lane (scopeFault h.scope true (v / 64))).fused s))

/-- R224, R370, R374, R375, R396: OPLOG_REPLAY performs, in lane order, the logged lanes of an entry that was serviced, once no
earlier entry of the group is logged, and closes its record; REPLAY_ENTRY does so with the lanes of a chain withdrawn at a slot edge.
An entry that may not replay stays as it is.
Where the manual leaves a choice, the model's is that of log entries 19 and 25. -/
def Statements.LogEntriesReplay : Prop :=
  (∀ (s : State) (id : Nat) (o : MemOp) (g : Group) (w : Workgroup) (la : Launch), s.op? id = some o → s.group? o.gid = some g →
    s.wg? g.wid = some w → s.launch? w.lid = some la →
    let ready : Prop := s.groupActive o.gid = true ∧ (∀ p ∈ s.ops, p.gid = o.gid → p.id < o.id → p.isLogged = false) ∧
      (∃ l ∈ o.lanes, l.isLogged = true ∧ l.withdrawn = false) ∧ (∀ l ∈ o.lanes, l.isTodo = false) ∧
      (o.log = .replay ∨ o.log = .reported ∧ s.depthCleared o = true)
    let u : State := match o.fid with
      | some fid => s.closeFid la.vf fid
      | none => s
    let again := u.reopenLogged id (fun l => !l.withdrawn)
    (¬ready → exec (.oplogReplay id) s = .next s) ∧
    (ready → o.instr.enginePath ≠ some 0 → exec (.oplogReplay id) s = .next again) ∧
    (ready → o.instr.enginePath = some 0 → exec (.oplogReplay id) s = .next (((o.lanes.filter (fun l => l.isLogged && !l.withdrawn)).foldl
      (fun s l => s.tryLane id l) again).fused s))) ∧
  ∀ (s : State) (id : Nat) (o : MemOp), s.op? id = some o →
    let ready : Prop := s.groupActive o.gid = true ∧ (∀ p ∈ s.ops, p.gid = o.gid → p.id < o.id → p.isLogged = false) ∧
      ∃ l ∈ o.lanes, l.withdrawn = true
    (¬ready → exec (.replayEntry id) s = .next s) ∧
    (ready → o.instr.enginePath ≠ some 0 → exec (.replayEntry id) s = .next (s.reopenLogged id LaneReq.withdrawn)) ∧
    (ready → o.instr.enginePath = some 0 → exec (.replayEntry id) s = .next (((o.lanes.filter (fun l => l.isLogged && l.withdrawn)).foldl
      (fun s l => s.tryLane id l) (s.reopenLogged id LaneReq.withdrawn)).fused s))

/-- Fences complete when their accesses have; logged lanes replay once serviced: the statements `Statements.FencesComplete`, `Statements.LogEntriesReplay` together. -/
def Obligations.FencesAndLogReplays : Prop :=
  Statements.FencesComplete ∧ Statements.LogEntriesReplay

/-- R361, R362, R368, R377: TRANSLATION_WALK of a lane that waits for one fills the TLB of the home die and the controller with the page it
finds, over the oldest of 2,048 entries where it is full, or logs the lane with the fault of the walk; it changes nothing else. FETCH_LINE_ARRIVAL lets the path that waits for a line go on.
Where the manual leaves a choice, the model's is that of log entry 23. -/
def Obligations.TranslationWalks : Prop :=
  (∀ (s : State) (id lane : Nat) (o : MemOp) (l : LaneReq) (c : AsidCtx), s.op? id = some o → o.lane? lane = some l →
    l.stage = .todo → o.instr.tiles = [] → o.instr.enginePath = some 0 → isCacheOp o.instr = false → s.resident o.gid = true →
    s.shutLane o l = false → s.walkFirst o l = true → s.asid? o.asid.toNat = some c →
    let va := l.addr.toNat
    let need := Instr.needOf o.instr
    (∀ f, s.resolve o.asid.toNat va need = .error f → exec (.translationWalk id lane) s = .next ((
      if o.instr.isAtomic = true ∨ o.instr.isDeque = true then s.chainFault (s.chainLanes o l.addr) f
      else if o.instr.isLaneStore = true then s.storeFault o l f
      else s.laneFault id l.lane f).fused s)) ∧
    ∀ tgt tr, s.resolve o.asid.toNat va need = .ok tgt → walk s c va need = .ok tr → ∃ e : TlbEnt,
      exec (.translationWalk id lane) s = .next (s.addTlb e) ∧ (∀ die, s.homeDie o.asid.toNat va = some die → e.die = die) ∧
      e.asid = o.asid.toNat ∧ e.ctl = va / 2 ^ 29 % 4 ∧ e.page = va / 2 ^ tr.shift ∧ e.size = tr.shift ∧ e.hpa = tr.hpa / 2 ^ tr.shift ∧ e.w = tr.w ∧
      e.x = tr.x ∧ e.trk = tr.trk ∧ { s.addTlb e with tlb := s.tlb } = s ∧
      let mine := s.tlb.filter (fun x => x.die == e.die && x.ctl == e.ctl)
      (mine.length < 2048 → (s.addTlb e).tlb = s.tlb ++ [e]) ∧
      (2048 ≤ mine.length → ∀ x, mine.head? = some x → (s.addTlb e).tlb = s.tlb.erase x ++ [e])) ∧
  ∀ (s : State) (gid : Nat) (line pc : W64) (g : Group) (l : LineData), s.group? gid = some g → g.threads.length ≤ 64 →
    g.nextTrap = none → g.stopped = false → g.retired = false →
    let waits (t : Thread) : Prop := t.exited = false ∧ t.wait = .fetch line none
    (∃ t ∈ g.threads, waits t) → (∀ t ∈ g.threads, waits t → t.pc = pc) → s.codeLine g.asid.toNat line.toNat = .ok l →
    (∀ mask, s.lineFault g mask pc l = none) → ∃ t g', exec (.fetchLineArrival gid line) s = .next t ∧ s.onlyGroup t gid ∧
      t.group? gid = some g' ∧ { g' with threads := g.threads } = g ∧
      ∀ (h : Nat) (y z : Thread), g.threads[h]? = some y → g'.threads[h]? = some z →
        (waits y → z = { y with wait := .none }) ∧ (¬waits y → z = y)

/-- R244, R249, R250, R252: a request that reaches a home joins the line's queue, behind earlier ones and behind those of the same cycle from
no higher a die; a line with a request in progress leaves its queue. At the end of the cycle a GetS finds I and takes E, finds S and
joins; with an owner the line becomes busy until RDC_FORWARD has reached it. A GetM finds no other copy and takes M. A read miss that
finds I or S changes nothing. A recall of I leaves I. A lease ends no earlier than its expiry. -/
def Statements.DirectoryRequests : Prop :=
  (∀ (s : State) (die asid line home a v hpa : Nat) (tr : Trans) (h : HomeLine),
    s.resolve asid (line * 64) .read = .ok (.line home a v hpa tr) → tr.own = false → die ≠ home → die < 4 →
    s.home? a (v / 64) = some h → s.rdc? die asid line = none → s.notice? die a (v / 64) = none → s.shut asid (line * 64) 64 = false →
    ∀ e ∈ [(Instr.gets die asid line, DirReq.getS die, die), (.getm die asid line, .getM die, die), (.homeReadMiss asid line, .readMiss, h.die),
      (.recallLine a (v / 64), .recall, h.die)],
    let now := s.cycle 0
    let after (q : W64 × DirReq) : Prop := q.1 = now ∧ e.2.2 < q.2.die h.die
    ∀ older younger, h.queue = older ++ younger → (∀ q ∈ older, ¬after q) → (∀ q, younger.head? = some q → after q) →
      exec e.1 s = .next (s.putHome { h with queue := older ++ (now, e.2.1) :: younger })) ∧
  (∀ (s : State) (die a n : Nat) (w : W64) (h : HomeLine), die < 4 → s.home? a n = some h → s.rdc? die a n = none → s.notice? die a n = none →
    let h0 := { h with queue := [] }
    let s0 := s.putHome h0
    let copy (st : DirState) (gr : W64) : RdcLine := ⟨die, h.asid, h.line, 0, st, h.data, h.poison, gr, h.scope⟩
    let begins (r : DirReq) (t : State) : Prop := h.queue = [(w, r)] → s.startLine a n = t
    let owned : Prop := h.dir = .e ∨ h.dir = .m ∨ h.dir = .o
    (h.busy.isSome = true → s.startLine a n = s) ∧
    (h.busy = none →
      (h.dir = .i → begins (.getS die) ((s0.fillRdc (copy .e h.lr)).putHome { h0 with dir := .e, owner := die, sv := 0 })) ∧
      (h.dir = .s → ∃ sv, (∀ k, k < 4 → (sv.getLsbD k = true ↔ k = die ∨ h.sv.getLsbD k = true)) ∧
        begins (.getS die) ((s0.fillRdc (copy .s 0)).putHome { h0 with sv := sv })) ∧
      (owned → h.owner ≠ die → begins (.getS die) (s0.putHome { h0 with busy := some ⟨.getS die, [h.owner], []⟩ })) ∧
      (h.dir = .i → begins (.getM die) ((s0.fillRdc (copy .m h.lr)).putHome { h0 with dir := .m, owner := die, sv := 0 })) ∧
      (h.dir = .e ∨ h.dir = .m → h.owner ≠ die →
        begins (.getM die) (s0.putHome { h0 with busy := some ⟨.getM die, [h.owner], []⟩ })) ∧
      (h.dir = .i ∨ h.dir = .s → begins .readMiss s0) ∧
      (owned → begins .readMiss (s0.putHome { h0 with busy := some ⟨.readMiss, [h.owner], []⟩ })) ∧
      (h.dir = .i → begins .recall (s0.putHome { h0 with dir := .i, sv := 0, owner := 0 })) ∧
      (h.dir = .e ∨ h.dir = .m → begins .recall (s0.putHome { h0 with busy := some ⟨.recall, [h.owner], []⟩ })))) ∧
  ∀ (s : State) (core asid line : Nat), exec (.leaseExpiry core asid line) s = .next { s with l1 := s.l1.filter (fun x =>
    !(x.core == core && x.asid == asid && x.line == line && x.expiry ≤ s.time (core / 64))) }

/-- R245, R250, R252: RDC_FORWARD reaches the one owner that a request waits for. A GetS or a read miss leaves the owner a sharer, a GetM or a recall leaves
it nothing; the home takes the data of an M or O copy and the larger lease record, and the requester gets the line.
Where the manual leaves a choice, the model's is that of log entries 23 and 24. -/
def Statements.DirectoryForwards : Prop :=
  ∀ (s : State) (own die a n : Nat) (h : HomeLine) (r : RdcLine) (req : DirReq),
    s.home? a n = some h → h.busy = some ⟨req, [own], []⟩ → h.queue = [] → h.dir = .e ∨ h.dir = .m → h.owner = own → own < 4 →
    s.rdc? own a n = some r → s.notice? own a n = none → s.notice? die a n = none → die < 4 → die ≠ own → s.rdc? die a n = none →
    req = .getS die ∨ req = .getM die ∨ req = .readMiss ∨ req = .recall →
    ∃ t h', exec (.rdcForward own a n) s = .next t ∧ t.home? a n = some h' ∧ h'.busy = none ∧ h'.queue = [] ∧
      h'.data = (if r.st = .m ∨ r.st = .o then r.data else h.data) ∧ h'.lr = (if h.lr < r.gr then r.gr else h.lr) ∧
      (∀ k m, k ≠ a ∨ m ≠ n → t.home? k m = s.home? k m) ∧ t.hbm = s.hbm ∧ t.l1 = s.l1 ∧
      let has (d : Nat) (st : DirState) : Prop := ∃ x, t.rdc? d a n = some x ∧ x.st = st ∧ x.data = (if d = own then r.data else h'.data)
      (req = .getS die → h'.dir = .s ∧ (∀ k, k < 4 → (h'.sv.getLsbD k = true ↔ k = own ∨ k = die)) ∧ has own .s ∧ has die .s) ∧
      (req = .getM die → h'.dir = .m ∧ h'.owner = die ∧ h'.sv = 0 ∧ t.rdc? own a n = none ∧ has die .m) ∧
      (req = .readMiss → h'.dir = .s ∧ (∀ k, k < 4 → h'.sv.getLsbD k = true → k = own ∨ h.sv.getLsbD k = true) ∧
        h'.sv.getLsbD own = true ∧ has own .s) ∧
      (req = .recall → h'.dir = .i ∧ h'.sv = 0 ∧ t.rdc? own a n = none)

/-- R251: a replacement notice that reaches a line not busy: PutS takes the die off the sharers, PutE and PutM leave I, PutO leaves the
sharers; PutM and PutO write their data back; the line's lease record takes the larger. A notice of another kind stays in flight. -/
def Statements.ReplacementNotices : Prop :=
  ∀ (s : State) (die a n : Nat) (x : Notice) (h : HomeLine), s.notice? die a n = some x → s.home? a n = some h → h.busy = none → die < 4 →
    ∀ e ∈ [(Instr.puts die a n, DirState.s), (.pute die a n, .e), (.putm die a n, .m), (.puto die a n, .o)],
    (x.st ≠ e.2 → exec e.1 s = .next s) ∧
    (x.st = e.2 → ∃ t h', exec e.1 s = .next t ∧ t.notice? die a n = none ∧ t.home? a n = some h' ∧ h'.busy = none ∧
      (∀ k m, k ≠ a ∨ m ≠ n → t.home? k m = s.home? k m) ∧ { t with home := s.home, notices := s.notices } = s ∧
      h'.lr = (if h.lr < x.gr then x.gr else h.lr) ∧
      h'.data = (if e.2 = .m ∨ e.2 = .o then x.data else h.data) ∧
      (e.2 = .m ∨ e.2 = .e → h'.dir = .i ∧ h'.sv = 0) ∧ (e.2 = .o → h'.sv = h.sv ∧ h'.dir = if h.sv = 0 then .i else .s) ∧
      (e.2 = .s → (∀ k, k < 4 → (h'.sv.getLsbD k = true ↔ k ≠ die ∧ h.sv.getLsbD k = true)) ∧
        h'.dir = if h.dir = .o then .o else if h'.sv = 0 then .i else .s))

/-- Requests, forwards and replacement notices at a home: the statements `Statements.DirectoryRequests`, `Statements.DirectoryForwards`, `Statements.ReplacementNotices` together. -/
def Obligations.DirectoryProtocol : Prop :=
  Statements.DirectoryRequests ∧ Statements.DirectoryForwards ∧ Statements.ReplacementNotices

/-- R350, R351: RNGKEY sets the key of each active lane; RNG writes the four words of Philox4x32-10 of its counter under that key. -/
def Obligations.RandomStreams : Prop :=
  (∀ (x0 x1 x2 x3 j0 j1 : W32) (n : Nat), philox 0 (x0, x1, x2, x3) (j0, j1) = (x0, x1, x2, x3) ∧
    philox (n + 1) (x0, x1, x2, x3) (j0, j1) =
      let p0 := 0xD2511F53 * x0.toNat
      let p1 := 0xCD9E8D57 * x2.toNat
      philox n (BitVec.ofNat 32 (p1 / 2 ^ 32) ^^^ x1 ^^^ j0, BitVec.ofNat 32 p1, BitVec.ofNat 32 (p0 / 2 ^ 32) ^^^ x3 ^^^ j1,
        BitVec.ofNat 32 p0) (j0 + 0x9E3779B9, j1 + 0xBB67AE85)) ∧
  ∀ x : XForm,
    (Instr.rngkey x).completesAs (fun c => { s := c.withThreads (fun h t => { t with
      key0 := (c.val 1 h).setWidth 32, key1 := (c.val 2 h).setWidth 32 }) }) ∧
    (x.d.toNat + 3 < 256 → ∀ (s : State) (c : Ctx), s.issues (.rng x) = some c → ∃ f : Group → Group,
      exec (.rng x) s = .next (c.completes { s := s.modGroup c.g.gid f }) ∧ ∀ g, { f g with vregs := g.vregs, badV := g.badV } = g ∧
      (∀ h y, h ∈ c.act → c.g.threads[h]? = some y →
        ((f g).vreg h x.d.toNat, (f g).vreg h (x.d.toNat + 1), (f g).vreg h (x.d.toNat + 2), (f g).vreg h (x.d.toNat + 3)) =
          philox 10 (c.g.vreg h x.a.toNat, c.g.vreg h (x.a.toNat + 1), c.g.vreg h (x.a.toNat + 2), c.g.vreg h (x.a.toNat + 3))
            (y.key0, y.key1)) ∧
      ∀ h n, n < 256 → h ∉ c.act ∨ n < x.d.toNat ∨ x.d.toNat + 3 < n → (f g).vreg h n = g.vreg h n)

/-- R352: RNGF writes A[31:8] × 2^-24 as FP32 and raises no flag; with key 0 and counter 0 the word of the example decodes to RNG v20, v12,
which writes the four words given, and the first of them gives 0x3ECC_4FD0. -/
def Obligations.RandomUnitFloat : Prop :=
  (∀ x : XForm,
    (Instr.rngf x).delivers (fun c f => valuesAre f (fun h =>
      let n := (c.val 1 h).toNat / 2 ^ 8 % 2 ^ 24
      if n = 0 then 0 else (Nat.log2 n + 102) * 2 ^ 23 + n * 2 ^ (23 - Nat.log2 n)))) ∧
  decode 0x925C28060000000000000000#96 = .ok (.rng ⟨0, 7, 0x14, 0, 0xC, 0, 0, 0, 0, 0, 0, 0⟩) ∧
  philox 10 (0, 0, 0, 0) (0, 0) = (0x6627E8D5, 0xE169C58D, 0xBC57AC4C, 0x9B00DBD8) ∧
  (Nat.log2 0x6627E8 + 102) * 2 ^ 23 + 0x6627E8 * 2 ^ (23 - Nat.log2 0x6627E8) = 0x3ECC4FD0

/-- R338, R346, R347, R348, R349: TRACE, TRESUME, HITGET and BVHCHK leave an operation with a lane per active lane (one where BVHCHK is
scalar) and its destinations pending. -/
def Statements.TraversalsIssue : Prop :=
  ∀ x : XForm,
    let req (c : Ctx) (h : Nat) (a : W64) (d : Nat) (srcs : List W32) : LaneReq :=
      ⟨h, a, BitVec.ofNat 128 d, 0, c.g.viewcur, srcs, .todo⟩
    let leaves (c : Ctx) (a : Nat → W64) (d : Nat) (srcs : Nat → List W32) : State :=
      c.issueOp (c.memLanes.map (fun p => req c p.1 (a p.2) d (srcs p.2))) (c.destPend (c.memLanes.map (·.1)))
    (∀ c : Ctx, c.memLanes = if c.i.scalar then (c.act.take 1).map (fun h => (0, h)) else c.act.map (fun h => (h, h))) ∧
    (Instr.trace x).completesAs (fun c =>
      { s := leaves c (c.val 2) (if x.imm.getLsbD 12 then 1 else 0) (fun h => c.vregsAt 1 h 8) }) ∧
    (Instr.tresume x).completesAs (fun c => { s := leaves c (fun _ => 0) 0 (fun h => [(c.val 1 h).setWidth 32]) }) ∧
    (Instr.hitget x).completesAs (fun c => { s := leaves c (fun _ => 0) 0 (fun _ => []) }) ∧
    (Instr.bvhchk x).completesAs (fun c => { s := leaves c (c.val 1) 0 (fun _ => []) })

/-- R339, R344, R345, R346, R347, R348, R354: TRAVERSAL_COMPLETE of a lane that may run begins it, or takes its traversal on for a bounded
number of steps of the engine; one that may not run yet stays as it is. The lane receives its words and its thread the traversal state, the fault met is logged, or the traversal goes on at the
next. A TRACE that begins discards the suspended traversal of its thread. A void ray misses; TRESUME without a suspended traversal
has status 5, and ends it under ACC with FIRST or under END; HITGET gives zeros without a record; BVHCHK's code of a misaligned or
high address needs no read.
Where the manual leaves a choice, the model's is that of log entries 20 and 31. -/
def Statements.TraversalsComplete : Prop :=
  (∀ (s : State) (id lane : Nat) (o : MemOp) (l : LaneReq) (g : Group), s.op? id = some o → o.lane? lane = some l → l.stage = .todo →
    s.group? o.gid = some g → (s.travReady o l = false → exec (.traversalComplete id lane) s = .next s) ∧ (s.travReady o l = true →
    let old : Trav := match o.instr with
      | .trace _ => { g.travOf id lane with susp := none }
      | _ => g.travOf id lane
    let u : State := if isTravState o.instr then s.modGroup o.gid (fun g => g.setTrav id lane old) else s
    let is (t : State) : Prop := exec (.traversalComplete id lane) s = .next (t.fused s)
    let done : State := { u with travRuns := u.travRuns.filter (fun r => !(r.op == id && r.lane == lane)) }
    let stops (e : TravStop) : Prop := match e with
      | .fault f => is (done.laneFault id lane f)
      | .poison a => is (done.machineCheckOp o (BitVec.ofNat 64 a))
    let delivers (ws : List W32) (tr : Trav) : Prop :=
      let d := travDest o.instr
      is ((done.modGroup o.gid (fun g =>
        let g := if isTravState o.instr then g.setTrav id lane tr else g
        if 0x100 ≤ d then g.deliver false d lane ((ws.getD 0 0).setWidth 64) else g.deliverWords d lane ws)).laneDone o.gid id lane)
    let runs (w : TravWalk) : Prop := match w.run (u.travRead o lane w.view) travSteps with
      | .go w' => is (u.setTravRun { u.travRun id lane with walk := some w' })
      | .stop st dt lv best => delivers (hitRecord best st dt lv) { susp := none, last := if st = 1 then best else old.last }
      | .cand w' h => delivers (hitRecord (some h) 2 0 0) { susp := some ⟨w', h⟩, last := some h }
      | .out e => stops e
    (∀ w, (u.travRun id lane).walk = some w → runs w) ∧
    ((u.travRun id lane).walk = none →
      (∀ e, u.travBegin o l old = .error e → stops e) ∧ (∀ ws tr, u.travBegin o l old = .ok (.done ws tr) → delivers ws tr) ∧
      (∀ w, u.travBegin o l old = .ok (.run w) → runs w)))) ∧
  ∀ (s : State) (o : MemOp) (l : LaneReq) (old : Trav) (x : XForm),
    let miss (st : Nat) : List W32 := [0x7F800000, 0, 0, 0, 0, BitVec.ofNat 32 st]
    let hit (h : Hit) (st : Nat) : List W32 := [h.t.toF32, h.iid, h.prim, h.u.toF32, h.v.toF32, BitVec.ofNat 32 st]
    let gives (ws : List W32) (tr : Trav) : Prop := s.travBegin o l old = .ok (.done ws tr)
    let acc : Bool := (l.srcs.getD 0 0).getLsbD 0
    let fin : Bool := (l.srcs.getD 0 0).getLsbD 1
    (o.instr = .trace x → rayOf l.srcs = none → gives (miss 0) { old with susp := none }) ∧
    (∀ r tmin tmax, o.instr = .trace x → rayOf l.srcs = some (r, tmin, tmax) → ∃ w, s.travBegin o l old = .ok (.run w) ∧
      w.org = r ∧ w.root = l.addr.toNat ∧ w.tmin = tmin ∧ w.tlim = tmax ∧ w.best = none ∧ w.stack = [] ∧ w.marks = [] ∧
      w.view = (if l.data = 0 then none else some l.view) ∧ w.todo = .node 0 l.addr.toNat r 0xFFFFFFFF 0) ∧
    (o.instr = .tresume x → old.susp = none → gives (miss 5) old) ∧
    (∀ p, o.instr = .tresume x → old.susp = some p →
      (acc = true → p.walk.flags.getLsbD 8 = true ∨ fin = true → gives (hit p.cand 1) ⟨none, some p.cand⟩) ∧
      (acc = false → fin = true → match p.walk.best with
        | some b => gives (hit b 1) ⟨none, some b⟩
        | none => gives (miss 0) ⟨none, old.last⟩) ∧
      (acc = true → p.walk.flags.getLsbD 8 = false → fin = false →
        s.travBegin o l old = .ok (.run { p.walk with best := some p.cand, tlim := some p.cand.t })) ∧
      (acc = false → fin = false → s.travBegin o l old = .ok (.run p.walk))) ∧
    (o.instr = .hitget x → old.last = none → gives [0, 0, 0] old) ∧
    (∀ h, o.instr = .hitget x → old.last = some h →
      gives (if x.c = 0 then [h.ray.ox, h.ray.oy, h.ray.oz] else if x.c = 1 then [h.ray.dx, h.ray.dy, h.ray.dz]
        else if x.c = 2 then [h.nx, h.ny, h.nz] else [h.user, h.tri.setWidth 32, (h.tri >>> 32).setWidth 32]) old) ∧
    (o.instr = .bvhchk x → ¬(if x.c = 2 then 16 else 64) ∣ l.addr.toNat → gives [2] old) ∧
    (o.instr = .bvhchk x → (if x.c = 2 then 16 else 64) ∣ l.addr.toNat → 2 ^ 57 ≤ l.addr.toNat → gives [3] old)

/-- R344, R345, R354: steps of the traversal engine. A deferred child is pushed on the short stack, which holds eight; where eight stand,
the oldest is discarded and its node marked. With an empty stack the traversal ends, status 1 with a hit, when no node is marked, and
restarts at the top-level root otherwise. A node at the 33rd level ends it with DEEP, a defective record with BADNODE; a triangle hit
closer than the limit suspends it at a candidate, ends it under FIRST, or becomes the nearest hit. -/
def Statements.TraversalSteps : Prop :=
  ∀ (rd : TravReader) (w : TravWalk),
    (∀ e : TravEntry,
      (w.stack.length < 8 → w.push1 e = { w with stack := e :: w.stack }) ∧
      (8 ≤ w.stack.length → ∀ old rest, w.stack = rest ++ [old] → (w.push1 e).stack = e :: rest ∧
        ∀ k, k ∈ (w.push1 e).marks ↔ k ∈ w.marks ∨ k = old.level)) ∧
    (w.todo = .pop → w.stack = [] →
      (w.marks = [] → w.step rd = .stop (if w.best.isSome then 1 else 0) 0 0 w.best) ∧
      (w.marks ≠ [] → w.step rd = .go { w with todo := .follow 0 w.root w.org 0xFFFFFFFF 0 })) ∧
    (∀ level a r iid user, w.todo = .node level a r iid user →
      (32 ≤ level → w.step rd = .stop 3 0 31 w.best) ∧
      (level < 32 → addrCode 0 a ≠ 0 → w.step rd = .stop 4 (addrCode 0 a) level w.best) ∧
      (level < 32 → addrCode 0 a = 0 → ∀ bs, rd a 64 = .ok bs →
        (recCode 0 bs ≠ 0 → w.step rd = .stop 4 (recCode 0 bs) level w.best) ∧
        (recCode 0 bs = 0 → w.step rd = .go { w with todo := .kids level r iid user (boxChildren bs r w.tmin) })) ∧
      (level < 32 → addrCode 0 a = 0 → ∀ e, rd a 64 = .error e → w.step rd = .out e)) ∧
    ∀ level a left r iid user rest tri t u v dn n, w.todo = .tris level r iid user a (left + 1) rest → a < 2 ^ 57 → rd a 48 = .ok tri →
      triHit tri r w.tmin w.tlim = some (t, u, v, dn, n) →
      let on := { w with todo := .tris level r iid user (a + 48) left rest }
      let culled : Prop := w.flags.getLsbD 9 = true ∧ 0 < dn ∨ w.flags.getLsbD 10 = true ∧ dn < 0
      let asks : Prop := w.flags.getLsbD 11 = true ∧ (recWord tri 0x28 4).testBit 0 = true
      (culled → w.step rd = .go on) ∧
      (¬culled → ∃ hit : Hit, hit.t = t ∧ hit.u = u ∧ hit.v = v ∧ hit.iid = iid ∧ hit.prim = recF tri 0x24 ∧ hit.ray = r ∧
        (asks → w.step rd = .cand on hit) ∧
        (¬asks → w.flags.getLsbD 8 = true → w.step rd = .stop 1 0 0 (some hit)) ∧
        (¬asks → w.flags.getLsbD 8 = false → w.step rd = .go { on with best := some hit, tlim := some t }))

/-- Traversal instructions leave their operation and deliver hits, misses, faults and codes: the statements `Statements.TraversalsIssue`, `Statements.TraversalsComplete`, `Statements.TraversalSteps` together. -/
def Obligations.TraversalInstructions : Prop :=
  Statements.TraversalsIssue ∧ Statements.TraversalsComplete ∧ Statements.TraversalSteps

/-- R169, R170, R171, R172: BAR, BARA, CBAR and SSTEP by every thread of a group that has not arrived in the open phase arrive for it: the
first arrival fixes the phase's count. BAR, CBAR and SSTEP make the active threads wait for the phase, and SSTEP its
destination pending; BARA makes nobody wait. BARW waits for the phase of the group's last arrival where that is open.
Where the manual leaves a choice, the model's is that of log entry 28. -/
def Statements.BarrierArrivals : Prop :=
  (∀ (x : XForm) (s : State) (c : Ctx) (b : Barrier) (e : Instr × Nat × Nat × Bool × BitVec 9),
    e ∈ [(Instr.bar x, x.imm.toNat % 16, x.imm.toNat / 16, true, 0x1FF), (.bara x, x.imm.toNat % 16, x.imm.toNat / 16, false, 0x1FF),
      (.cbar x, 16 + x.imm.toNat % 4, 0, true, 0x1FF), (.sstep x, 20, 0, true, x.d)] →
    s.issues e.1 = some c → c.act ≠ [] → (∀ h ∈ c.g.live, h ∈ c.act) →
    let k := e.2.1
    (k < 16 → c.w.bars[k]? = some b) → (16 ≤ k → k < 20 → ∃ cl, s.cluster? c.w.cid = some cl ∧ cl.cbars[k - 16]? = some b) →
    (k = 20 → c.la.sstep = b) →
    (∀ m ∈ b.marks, m.1 ≠ c.g.gid) → (∀ m ∈ b.firstN, m.1 ≠ c.g.gid) → (∀ m ∈ b.arrived, m.1 ≠ c.g.gid) →
    ∃ t w' g', exec e.1 s = .next t ∧ t.wg? c.w.wid = some w' ∧ t.group? c.g.gid = some g' ∧
      t.barrier w' k = { b with arrived := b.arrived ++ [(c.g.gid, s.tick + 1)], count := some (b.count.getD e.2.2.1) } ∧
      (e.2.2.2.2 ≠ 0x1FF → ⟨s.tick, e.2.2.2.2.toNat, 1⟩ ∈ g'.pend) ∧ g'.vregs = c.g.vregs ∧ g'.sregs = c.g.sregs ∧
      ∀ (h : Nat) (y z : Thread), h ∈ c.act → c.g.threads[h]? = some y → g'.threads[h]? = some z → y.wait = .none →
        z.wait = (if e.2.2.2.1 then .bar s.tick k (some b.phase) e.2.2.2.2 else .none) ∧ z.pc = nextPc c.pc) ∧
  (∀ x : XForm, ∀ i ∈ [Instr.bar x, .bara x, .cbar x, .sstep x], ∀ (s : State) (c : Ctx), s.issues i = some c → c.act = [] →
    exec i s = .next (c.completes { s := s })) ∧
  ∀ x : XForm, (Instr.barw x).completesAs (fun c =>
    let k := x.imm.toNat % 16
    let b := c.s.barrier c.w k
    let waits (p : Nat) : Res := { s := { c.s with tick := c.s.tick + 1 }.modGroup c.g.gid (fun g =>
      g.modThreads c.act.contains (fun _ t => { t with wait := .bar c.s.tick k (some p) 0x1FF })) }
    if b.next.any (fun e => e.1 == c.g.gid) then waits (b.phase + 1)
    else if b.arrived.any (fun a => a.1 == c.g.gid) then waits b.phase else { s := c.s })

/-- R170, R171, R172: a phase is complete once n groups have arrived, or for n = 0 every live group, and what each arrival waits for has
completed. BARRIER_PHASE_COMPLETE, CBAR_PHASE_COMPLETE and SSTEP_RELEASE then open the next phase with the arrivals already made
for it and release every thread that waits for the old one; SSTEP adds one to the superstep counter and writes it to D.
Where the manual leaves a choice, the model's is that of log entry 28. -/
def Statements.BarrierPhases : Prop :=
  (∀ (s : State) (w : Workgroup) (k : Nat),
    let b := s.barrier w k
    let here (g : Group) : Bool := b.arrived.any (fun a => a.1 == g.gid)
    let live := s.groups.filter (fun g => !g.retired && s.atBarrier w k g)
    s.barrierMet w k = true ↔ ∃ n, b.count = some n ∧ (n = 0 → ∀ g ∈ live, here g = true) ∧
      (n ≠ 0 → n ≤ (live.filter here).length) ∧
      ∀ g ∈ live, ∀ a, b.arrived.find? (fun a => a.1 == g.gid) = some a → s.arrivalDone g k a.2 = true) ∧
  ∀ (s : State) (w : Workgroup) (la : Launch) (cl : Cluster) (e : Instr × Nat), s.wg? w.wid = some w → s.launch? w.lid = some la →
    s.cluster? w.cid = some cl → w.bars.length = 16 → cl.cbars.length = 4 → e.2 < 21 →
    (e.2 < 16 → e.1 = .barrierPhaseComplete w.wid e.2) →
    (16 ≤ e.2 → e.2 < 20 → e.1 = .cbarPhaseComplete w.cid (e.2 - 16) ∧ s.wgs.find? (fun x => x.cid == w.cid) = some w) →
    (e.2 = 20 → e.1 = .sstepRelease w.lid ∧ s.wgs.find? (fun x => x.lid == w.lid) = some w) →
    let k := e.2
    let b := s.barrier w k
    ∃ t w', exec e.1 s = .next t ∧ t.wg? w.wid = some w' ∧
      (s.barrierMet w k = false → t.barrier w' k = b) ∧
      (s.barrierMet w k = true → t.barrier w' k = { b with phase := b.phase + 1, count := (b.next.head?).map (·.2.2)
                                                           arrived := b.next.map (fun e => (e.1, e.2.1)), next := [] } ∧
        (k = 20 → ∃ l, t.launch? w.lid = some l ∧ l.superstep = la.superstep + 1)) ∧
      ∀ (g : Group), s.group? g.gid = some g → s.atBarrier w k g = true → ∃ g', t.group? g.gid = some g' ∧
        { g' with threads := g.threads, frame := g.frame, sregs := g.sregs, badS := g.badS, pend := g.pend } = g ∧
        ∀ (h : Nat) (y z : Thread), g.threads[h]? = some y → g'.threads[h]? = some z →
          ((∀ tok p d, y.wait ≠ .bar tok k (some p) d) → z = y) ∧
          ∀ tok p d, y.wait = .bar tok k (some p) d →
            let late : Prop := p < b.phase ∨ p = b.phase ∧ s.barrierMet w k = true
            (¬late → z = y) ∧
            (late → z = { y with wait := .none } ∧ (d ≠ 0x1FF → ∀ l, t.launch? w.lid = some l →
              g'.sreg (d.toNat - 0x100) = l.superstep.setWidth 64))

/-- Barrier arrivals, waits and phase completion: the statements `Statements.BarrierArrivals`, `Statements.BarrierPhases` together. -/
def Obligations.Barriers : Prop :=
  Statements.BarrierArrivals ∧ Statements.BarrierPhases

/-- R174, R175, R176, R387: QDECL of a queue that holds no slot declares it, with every group's allowance at its limit; a declared queue that
is not empty raises Queue fault of reason 1, a descriptor that does not describe a queue in the scratchpad reason 2. QTRY reads CNT, the
group's allowance and the declared bit; of an undeclared queue it raises reason 0, as QPUSH and QPOP do; these raise reason 3 where
their registers do not exist, and otherwise make their active threads wait, QPUSH with its words read and QPOP with its registers pending.
Where the manual leaves a choice, the model's is that of log entries 28, 55, 56 and 57. -/
def Statements.QueueInstructions : Prop :=
  ∀ (x : XForm) (s : State) (c : Ctx) (cl : Cluster), s.cluster? c.w.cid = some cl → c.act ≠ [] → x.imm.toNat % 16 < cl.qbs.length →
    let q := x.imm.toNat % 16
    let v := cl.qb q
    let d := c.uval 1
    let place := c.s.scratchTarget c.w (qAddr d) ((qNs d + 1) * qBytes d)
    let bad : Prop := d &&& ~~~0x00003F3F0F3FFFFF ≠ 0 ∨ qNs d = 0 ∨ ¬16 ∣ (qAddr d).toNat ∨ place = none
    let fault (i : Instr) (n : Nat) : Prop := exec i s = .next ((c.traps (c.trap 0x0E (BitVec.ofNat 32 (q + 16 * n)))).fused s)
    let short (base : Nat) : Prop := c.vd.regs ≤ base + (qBytes v / 4 - 1) / c.g.width
    (s.issues (.qdecl x) = some c →
      (v.getLsbD 63 = true → qCnt v ≠ 0 → fault (.qdecl x) 1) ∧
      (v.getLsbD 63 = false ∨ qCnt v = 0 → bad → fault (.qdecl x) 2) ∧
      (v.getLsbD 63 = false ∨ qCnt v = 0 → ¬bad → ∃ t cl', exec (.qdecl x) s = .next t ∧ t.cluster? c.w.cid = some cl' ∧
        cl'.qb q = d ||| 2 ^ 63 ∧ (∀ g ∈ s.groups, s.atBarrier c.w 16 g = true → cl'.allowance q g.gid = qLimit d) ∧
        (cl'.qslots.find? (fun e => e.1 == q)).map (·.2) = place ∧ (∀ j, j ≠ q → cl'.qb j = cl.qb j) ∧
        t.groups = (c.completes { s := s }).groups)) ∧
    (s.issues (.qtry x) = some c →
      (v.getLsbD 63 = false → fault (.qtry x) 0) ∧
      (v.getLsbD 63 = true → exec (.qtry x) s = .next (c.completes { s := s.modGroup c.g.gid (fun g =>
        g.writeDest false x.d.toNat (c.act.map (fun h =>
          (h, BitVec.ofNat 64 (qCnt v + 2 ^ 8 * (cl.allowance q c.g.gid % 128) + 2 ^ 16))))) }))) ∧
    (s.issues (.qpush x) = some c →
      (v.getLsbD 63 = false → fault (.qpush x) 0) ∧
      (v.getLsbD 63 = true → short x.a.toNat → fault (.qpush x) 3) ∧
      let words := (List.range 64).map (fun j => c.g.vreg (j % c.g.width) (x.a.toNat + j / c.g.width))
      let u := { s with tick := s.tick + 1 }.modGroup c.g.gid (fun g =>
        g.modThreads c.act.contains (fun _ t => { t with wait := .qpush s.tick q x.a.toNat (s.cycle c.core) words }))
      (v.getLsbD 63 = true → ¬short x.a.toNat → exec (.qpush x) s = .next (c.completes { s := u }))) ∧
    (s.issues (.qpop x) = some c →
      (v.getLsbD 63 = false → fault (.qpop x) 0) ∧
      (v.getLsbD 63 = true → short x.d.toNat → fault (.qpop x) 3) ∧
      (v.getLsbD 63 = true → ¬short x.d.toNat → ∃ f : Group → Group,
        exec (.qpop x) s = .next (c.completes { s := { s with tick := s.tick + 1 }.modGroup c.g.gid f }) ∧
        ∀ g, { f g with threads := g.threads, pend := g.pend } = g ∧
          (∀ h y z, g.threads[h]? = some y → (f g).threads[h]? = some z →
            z = if h ∈ c.act then { y with wait := .qpop s.tick q (s.cycle c.core) x.d } else y) ∧
          ∀ p, p ∈ (f g).pend ↔ p ∈ g.pend ∨ ∃ j, j < qBytes v / 4 ∧ j % c.g.width ∈ c.act ∧
            p = ⟨s.tick, x.d.toNat + j / c.g.width, 1 <<< (j % c.g.width)⟩))

/-- R175, R196, R387: QPUSH_PROCEED puts the words of the earliest pusher that has an allowance into the next slot, once its earlier stores
have completed at cluster scope; QPOP_PROCEED gives the oldest slot to the earliest popper, lane by lane, and its pusher's allowance
returns; the threads that waited go on. Earlier is an earlier issue, then a lower core, then a lower group. A waiter that the queue no
longer suits (it is not declared, or its registers do not exist) traps at its instruction. In the cycle in which the queue's register was
written (R196) nobody proceeds.
Where the manual leaves a choice, the model's is that of log entries 28 and 57. -/
def Statements.QueuesProceed : Prop :=
  ∀ (s : State) (cid q wid off : Nat) (c : Cluster) (g : Group) (p : QueueWait), s.cluster? cid = some c → q < c.qbs.length →
    q < c.pushers.length → s.group? g.gid = some g → p.gid = g.gid →
    (s.justSet c q = true → exec (.qpushProceed cid q) s = .next s ∧ exec (.qpopProceed cid q) s = .next s) ∧ (s.justSet c q = false →
    let v := c.qb q
    let slots : Prop := c.qslots.find? (fun e => e.1 == q) = some (q, wid, off)
    let first (ws : List QueueWait) (ok : QueueWait → Prop) : Prop :=
      p ∈ ws ∧ ok p ∧ ∀ r ∈ ws, ok r → p.key ≤ r.key ∧ (r.key = p.key → r = p)
    let suits (r : QueueWait) : Prop := s.waitFault v r = none
    let waited (h : Nat) : Prop := ∃ y, g.threads[h]? = some y ∧ queueWait p.tok y.wait = true
    let goes (t : State) (written : Prop) : Prop := ∃ g', t.group? g.gid = some g' ∧ (∀ x, x ∈ g'.pend ↔ x ∈ g.pend ∧ x.op ≠ p.tok) ∧
      { g' with threads := g.threads, pend := g.pend, vregs := g.vregs, badV := g.badV } = g ∧ (¬written → g'.vregs = g.vregs) ∧
      ∀ (h : Nat) (y z : Thread), g.threads[h]? = some y → g'.threads[h]? = some z →
        z = if queueWait p.tok y.wait then { y with wait := .none } else y
    let push (t : State) : Prop := exec (.qpushProceed cid q) s = .next t
    let pop (t : State) : Prop := exec (.qpopProceed cid q) s = .next t
    (slots → (∀ r ∈ s.pushWaits cid q, suits r) → first (s.pushWaits cid q) (fun r => c.allowance q r.gid ≠ 0) →
      qCnt v ≠ qNs v + 1 → s.writesDone g p.tok 2 = true →
      ∃ t c', push t ∧ t.cluster? cid = some c' ∧ c'.qb q = qWith v (qCnt v + 1) (qHead v) ∧
        c'.allowance q g.gid = c.allowance q g.gid - 1 ∧ c'.pushers[q]? = (c.pushers[q]?).map (· ++ [g.gid]) ∧ goes t False ∧
        ∀ w, s.wg? wid = some w → ∃ w', t.wg? wid = some w' ∧ w'.scratch = w.scratch.setBytes
          (off + (qHead v + qCnt v) % (qNs v + 1) * qBytes v) ((p.words.take (qBytes v / 4)).flatMap (fun x => natBytes 4 x.toNat))) ∧
    (slots → (∀ r ∈ s.popWaits cid q, suits r) → first (s.popWaits cid q) (fun _ => True) → qCnt v ≠ 0 → s.oldestBad c q = false →
      ∃ t c', pop t ∧ t.cluster? cid = some c' ∧
        c'.qb q = qWith v (qCnt v - 1) ((qHead v + 1) % (qNs v + 1)) ∧ c'.pushers[q]? = (c.pushers[q]?).map (·.tail) ∧
        (∀ k, (c.pushers[q]?).bind (·.head?) = some k → c'.allowance q k = c.allowance q k + 1) ∧ t.wgs = s.wgs ∧ goes t True ∧
        ∀ g', t.group? g.gid = some g' → p.reg + (qBytes v / 4 - 1) / g.width < 256 → 0 < g.width → g.width ≤ 64 →
          (∀ j, j < qBytes v / 4 → waited (j % g.width) → g'.vreg (j % g.width) (p.reg + j / g.width) =
            BitVec.ofNat 32 (fieldAt (s.scratchBytes wid (off + qHead v * qBytes v) (qBytes v)) (4 * j) 4)) ∧
          ∀ h n, n < 256 → ¬waited h ∨ (∀ j, j < qBytes v / 4 → ¬(h = j % g.width ∧ n = p.reg + j / g.width)) →
            g'.vreg h n = g.vreg h n) ∧
    (slots → (∀ r ∈ s.popWaits cid q, suits r) → first (s.popWaits cid q) (fun _ => True) → qCnt v ≠ 0 → s.oldestBad c q = true →
      pop ((s.queueTrap g.gid p.tok 0x14 1).fused s)) ∧
    ((∀ r ∈ s.pushWaits cid q, suits r) → qCnt v = qNs v + 1 → push s) ∧
    ((∀ r ∈ s.popWaits cid q, suits r) → qCnt v = 0 → pop s) ∧
    ∀ e ∈ [(s.pushWaits cid q, Instr.qpushProceed cid q), (s.popWaits cid q, .qpopProceed cid q)],
      first e.1 (fun r => ¬suits r) → ∀ n, n = (if v.getLsbD 63 then 3 else 5) →
        exec e.2 s = .next ((s.queueTrap g.gid p.tok 0x0E (BitVec.ofNat 32 (q + 16 * n))).fused s))

/-- R178, R388: DQPUSH, DQPOP and DQSTEAL leave an operation with a request per active lane (one where scalar) at the deque's header, D and
the status predicate pending. -/
def Statements.DequesIssue : Prop :=
  ∀ x : XForm, ∀ i ∈ [Instr.dqpush x, .dqpop x, .dqsteal x], ∀ (s : State) (c : Ctx), s.issues i = some c → (∀ o ∈ s.ops, o.id ≠ s.tick) →
    (∀ p ∈ c.memLanes, c.addrFault (c.ea p.2) = none ∧ c.meetsPoison (c.ea p.2) = false) →
    (c.act = [] → exec i s = .next (c.completes { s := s })) ∧
    (c.act ≠ [] → ∃ t o, exec i s = .next t ∧ t.ops = s.ops ++ [o] ∧ o.id = s.tick ∧ o.gid = c.g.gid ∧ o.instr = i ∧ o.asid = c.g.asid ∧
      o.lanes.map (fun l => (l.lane, l.addr, l.stage)) = c.memLanes.map (fun p => (p.1, c.ea p.2, LaneStage.todo)) ∧
      (∀ l ∈ o.lanes, l.view = if i.scalar then c.actMask else 1 <<< l.lane) ∧ t.hbm = s.hbm ∧ t.home = s.home ∧
      ∃ g, t.group? c.g.gid = some g ∧ g.vregs = c.g.vregs ∧ g.sregs = c.g.sregs ∧
        (x.imm.toNat % 8 ≠ 7 → ⟨s.tick, 0x144 + x.imm.toNat % 8, c.actMask⟩ ∈ g.pend))

/-- Queue instructions proceed in order, with allowances; deque instructions issue: the statements `Statements.QueueInstructions`, `Statements.QueuesProceed`, `Statements.DequesIssue` together. -/
def Obligations.QueuesAndDeques : Prop :=
  Statements.QueueInstructions ∧ Statements.QueuesProceed ∧ Statements.DequesIssue

/-- R182, R183, R203, R320, R392, R409, R424: MIGRATE is refused in a handler (Privilege fault), with a thread not active (Partial issue), at or
above 2^57 or outside every region (Page fault), and where the partition has no core on the home die (No cores); otherwise the group waits.
MIGRATE_LAND, once earlier accesses have completed and no slot edge stops the group, brings it home, leaves it where it is, or has it wait
for a landing slot; from the next cycle on it lands on the lowest core of the die that has a free slot and is not being left, once no group
that comes before it waits for that die. On its new core it competes for the active set, and its operand log goes with it. PRIOWG sets the
workgroup's priority.
Where the manual leaves a choice, the model's is that of log entries 28 and 67. -/
def Obligations.Migration : Prop :=
  (∀ (x : MForm) (s : State) (c : Ctx), s.issues (.migrate x) = some c →
    let ea := c.ea ((c.act.head?).getD 0)
    let traps (t : TrapInfo) : Prop := exec (.migrate x) s = .next ((c.traps t).fused s)
    let all : Prop := ∀ h ∈ c.g.live, h ∈ c.act
    (c.g.inh = true → traps (c.trap 0x10 0x3000)) ∧
    (c.g.inh = false → ¬all → ∃ m, traps (c.trap 0x0C 0 m)) ∧
    (c.g.inh = false → all → 2 ^ 57 ≤ ea.toNat → traps (c.trap 0x08 0 ea)) ∧
    (c.g.inh = false → all → ea.toNat < 2 ^ 57 → s.homeDie c.g.asid.toNat ea.toNat = none → traps (c.trap 0x08 1 ea)) ∧
    ∀ die, c.g.inh = false → all → ea.toNat < 2 ^ 57 → s.homeDie c.g.asid.toNat ea.toNat = some die →
      ((∀ k, k < 64 → s.coreInPart (64 * die + k) c.la.part = false) → traps (c.trap 0x15)) ∧
      let u := { s with tick := s.tick + 1 }.modGroup c.g.gid (fun g =>
        g.modThreads c.act.contains (fun _ t => { t with wait := .migrate s.tick ea none }))
      ((∃ k, k < 64 ∧ s.coreInPart (64 * die + k) c.la.part = true) →
        exec (.migrate x) s = .next (c.completes { s := u.migrateStep c.g.gid }))) ∧
  (∀ (s : State) (g : Group) (w : Workgroup) (la : Launch) (tok home die : Nat) (ea : W64) (queued : Option W64),
    s.group? g.gid = some g → s.wg? g.wid = some w → s.launch? w.lid = some la → w.core = some home →
    g.migrateWait = some (tok, ea, queued) → s.homeDie g.asid.toNat ea.toNat = some die → die < 4 →
    let ready : Prop := (queued ≠ none ∨ s.readsDone g tok = true ∧ s.writesDone g tok 3 = true ∧
      ∀ o ∈ s.ops, o.gid = g.gid → o.isLogged = false) ∧ s.unstopped g = true
    let is (t : State) : Prop := exec (.migrateLand g.gid) s = .next t
    let goesOn := s.modGroup g.gid Group.migrateDone
    let now := s.cycle (s.waitCore g)
    let free (core k : Nat) : Prop := core / 64 = die ∧ s.coreInPart core la.part = true ∧ s.edgeOpen core = true ∧ k < 4 ∧
      ∀ x ∈ s.groups, x.retired = false → x.landing ≠ some ⟨core, k⟩
    (¬ready → is s) ∧
    (ready → die = home / 64 → g.landing = none → is goesOn) ∧
    (ready → die = home / 64 → g.landing ≠ none → is (goesOn.moveGroup g.gid home none)) ∧
    (ready → die ≠ home / 64 → die = s.groupDie g → is goesOn) ∧
    (ready → die ≠ home / 64 → die ≠ s.groupDie g → queued = none → ∃ t g', is t ∧ s.onlyGroup t g.gid ∧ t.group? g.gid = some g' ∧
      { g' with threads := g.threads } = g ∧ g'.migrateWait = some (tok, ea, some now)) ∧
    ∀ since, ready → die ≠ home / 64 → die ≠ s.groupDie g → queued = some since → g.retired = false → g.stopped = false →
      g.landDie = none →
      let first : Prop := ∀ x ∈ s.groups, x.gid ≠ g.gid → ∀ t, s.slotWait x = some (la.part, die, t) → s.waitsBefore x g t since = false
      (¬first ∨ now ≤ since ∨ (∀ core k, ¬free core k) → is s) ∧
      (first → since < now → ∀ core k, free core k → (∀ c j, free c j → core < c ∨ core = c ∧ k ≤ j) →
        is (goesOn.moveGroup g.gid core (some ⟨core, k⟩)))) ∧
  (∀ (s : State) (gid core : Nat) (l : Option Landing) (g : Group), s.group? gid = some g →
    let t := s.moveGroup gid core l
    { t with groups := s.groups, ops := s.ops } = s ∧ (∀ k, k ≠ gid → t.group? k = s.group? k) ∧
    t.group? gid = some { g with landing := l, landDie := none, tier := .pending, tierSince := s.cycle core, passed := 0 } ∧
    ∀ (n : Nat) (o p : MemOp), s.ops[n]? = some o → t.ops[n]? = some p → p = if o.gid = gid then { o with core := core, ipart := 4 } else o) ∧
  ∀ x : XForm, (Instr.priowg x).completesActive (fun c =>
    { s := c.s.modWg c.w.wid (fun w => { w with prio := (c.uval 1).setWidth 3 }) })

/-- R179, R180, R383, R385, R386: LAUNCH leaves an operation with a lane per active thread, its destination pending; a record that ends above 2^57
raises Page fault. LAUNCH_ENTRY_GRANT reads a lane's record in its turn: with the queue full, or a lower lane of the same LAUNCH still
waiting for an entry, the lane waits; otherwise the task takes the VF's next id, which the lane receives, ordered after every queued task
whose declared ranges meet its own; a malformed record completes at once with status 3. Out of its turn nothing happens.
Where the manual leaves a choice, the model's is that of log entry 27. -/
def Statements.TasksLaunch : Prop :=
  (∀ (x : EForm) (s : State) (c : Ctx), s.issues (.launch x) = some c →
    let high (h : Nat) : Prop := 2 ^ 57 < (c.val 1 h).toNat + 160
    (∀ h ∈ c.act, high h → (∀ k ∈ c.act, k < h → ¬high k) →
      exec (.launch x) s = .next ((c.traps (c.trap 0x08 0 (c.val 1 h))).fused s)) ∧
    let reqs := c.act.map (fun h => LaneReq.mk h (c.val 1 h) 0 0 c.g.viewcur [] .todo)
    let dests := if x.d = 0x1FF then [] else [(x.d.toNat, c.actMask)]
    ((∀ h ∈ c.act, ¬high h) → exec (.launch x) s = .next (c.completes { s := c.issueOp reqs dests }))) ∧
  (∀ (s s1 : State) (id lane : Nat) (o : MemOp) (x : EForm) (l : LaneReq) (g : Group) (w : Workgroup) (la : Launch) (bs : List Byte),
    s.op? id = some o → o.instr = .launch x → o.lane? lane = some l → s.group? o.gid = some g → s.wg? g.wid = some w →
    s.launch? w.lid = some la → l.isLogged = false → s.resident o.gid = true → s.shutLane o l = false →
    (s.launchBlocked o l = true → exec (.launchEntryGrant id lane) s = .next s) ∧ (s.launchBlocked o l = false → s.releaseOk o = true →
    s.needsWalk o.asid.toNat l.addr.toNat = false → s.engineReadAll o.asid.toNat l.addr.toNat 160 = .ok (s1, bs, false) →
    let full := s1.modOp id (fun o => { o with lanes := o.lanes.map (fun y => if y.lane = lane then { y with stage := .waiting } else y) })
    (s1.queueFree la.vf = false ∨ s.launchWaits o l = true → exec (.launchEntryGrant id lane) s = .next ((full.freeEntry id).fused s)) ∧
    (s1.queueFree la.vf = true → s.launchWaits o l = false →
      let a := s1.addTask la.vf (x.cmd.toNat % 8) (parseTask s1 bs la.record.asid la.fpctl l.view la.record.tvec) (some o.gid)
      exec (.launchEntryGrant id lane) s = .next (((if x.d = 0x1FF then a.1
        else a.1.modGroup o.gid (fun g => g.deliver false x.d.toNat lane (a.2.setWidth 64))).laneDone o.gid id lane).fused s)))) ∧
  ∀ (s : State) (vf level : Nat) (r : LaunchRec) (cr : Option Nat) (f : Func), s.func? vf = some f →
    let a := s.addTask vf level r cr
    a.2 = f.nextId ∧ (∃ f', a.1.func? vf = some f' ∧ f'.nextId = f.nextId + 1) ∧
    (r.malformed = false → a.1.queue = s.queue ++ [⟨vf, f.nextId, level, r,
      (s.queue.filter (fun e => e.vf == vf && r.orderedAfter e.record)).map (·.id), s.cycle 0, false, cr,
      if r.fromHost then maxT s.dmaW s.dmaLr else 0, false⟩]) ∧
    (r.malformed = true → a.1.taskStatus vf f.nextId = some 3)

/-- R181, R195: TWAIT makes its active threads wait, each for the task that its lane names, its destination pending, and goes on where every
one has completed. TWAIT_COMPLETE gives each lane its task's status, or an s register the largest, and lets the threads go on; while a
task is not complete nothing happens.
Where the manual leaves a choice, the model's is that of log entry 27. -/
def Statements.TasksAwaited : Prop :=
  (∀ x : XForm, (Instr.twait x).completesActive (fun c =>
    let d := x.d.toNat
    let marks : List Pend := if d < 0x100 then [⟨c.s.tick, d, c.actMask⟩] else if d < 0x140 then [⟨c.s.tick, d, 1⟩] else []
    let u : State := { c.s with tick := c.s.tick + 1 }.modGroup c.g.gid (fun g =>
      let g := g.modThreads c.act.contains (fun h t => { t with wait := .twait c.s.tick ((c.val 1 h).setWidth 32) x.d })
      { g with pend := g.pend ++ marks })
    { s := u.twaitDone c.g.gid c.s.tick })) ∧
  ∀ (s : State) (tok : Nat) (g : Group) (w : Workgroup) (la : Launch), s.group? g.gid = some g → s.wg? g.wid = some w →
    s.launch? w.lid = some la →
    let waits (y : Thread) (id : W32) (d : BitVec 9) : Prop := y.wait = .twait tok id d
    ((∃ y ∈ g.threads, ∃ id d, waits y id d ∧ s.taskStatus la.vf id = none) → exec (.twaitComplete g.gid tok) s = .next s) ∧
    ((∃ y ∈ g.threads, ∃ id d, waits y id d) → (∀ y ∈ g.threads, ∀ id d, waits y id d → s.taskStatus la.vf id ≠ none) →
      ∃ t g', exec (.twaitComplete g.gid tok) s = .next t ∧ s.onlyGroup t g.gid ∧ t.group? g.gid = some g' ∧
        (∀ p, p ∈ g'.pend ↔ p ∈ g.pend ∧ p.op ≠ tok) ∧
        ∀ (h : Nat) (y z : Thread), g.threads[h]? = some y → g'.threads[h]? = some z →
          ((∀ id d, ¬waits y id d) → z = y) ∧
          ∀ id d st, waits y id d → s.taskStatus la.vf id = some st → z = { y with wait := .none } ∧
            (d.toNat < 0x100 → g'.vreg h d.toNat = BitVec.ofNat 32 st) ∧
            (0x100 ≤ d.toNat → d.toNat < 0x140 → (∀ y' ∈ g.threads, ∀ id' d' st', waits y' id' d' →
                s.taskStatus la.vf id' = some st' → st' ≤ st) → g'.sreg (d.toNat - 0x100) = BitVec.ofNat 64 st))

/-- LAUNCH queues tasks in order; TWAIT waits for them: the statements `Statements.TasksLaunch`, `Statements.TasksAwaited` together. -/
def Obligations.TasksLaunchAndComplete : Prop :=
  Statements.TasksLaunch ∧ Statements.TasksAwaited

/-- R184, R187, R189, R212: an engine command needs every thread of the group (Partial issue), takes the slot never used or least recently
freed, and a tag of slot and sequence number, which D receives; its operands are read at issue, and it stands queued. The collective commands
start at once. CPYW and CWAIT make the path wait; ESTAT writes a tag's status word.
Where the manual leaves a choice, the model's is that of log entry 29. -/
def Statements.EngineCommandsIssue : Prop :=
  (∀ (s : State) (c : Ctx) (x : EForm) (wt : Bool), s.issues c.i = some c →
    let r := c.submit x wt
    let slot := r.2.1
    (c.g.cmds.length < 16 → slot = c.g.cmds.length) ∧
    (16 ≤ c.g.cmds.length → (∃ k ∈ c.g.cmds, k.st = 0 ∨ k.st = 3) → ∃ k, c.g.cmds[slot]? = some k ∧ (k.st = 0 ∨ k.st = 3) ∧
      ∀ j ∈ c.g.cmds, j.st = 0 ∨ j.st = 3 → k.freed ≤ j.freed) ∧
    r.2.2.1 = BitVec.ofNat 32 (slot + 16 * c.g.cmdSeq.toNat) ∧ s.onlyGroup { r.2.2.2 with tick := s.tick } c.g.gid ∧
    ∃ g, r.2.2.2.group? c.g.gid = some g ∧ g.cmdSeq = c.g.cmdSeq + 1 ∧ g.threads = c.g.threads ∧ g.vregs = c.g.vregs ∧
      (∀ j, j ≠ slot → g.cmds[j]? = c.g.cmds[j]?) ∧
      (g.sregs = if wt = true ∧ x.d ≠ 0x1FF then c.g.sregs.set (x.d.toNat - 0x100) (r.2.2.1.setWidth 64) else c.g.sregs) ∧
      ∃ k, g.cmds[slot]? = some k ∧ k.tag = r.2.2.1 ∧ k.st = 1 ∧ k.tick = s.tick ∧ k.instr = c.i ∧ k.a = c.uval 1 ∧ k.b = c.uval 2 ∧
        k.c = c.uval 3 ∧ k.performed = false ∧ k.row = 0 ∧ k.off = 0 ∧ k.fid = none ∧ k.round = none ∧ k.w = 0 ∧ k.pc = c.pc) ∧
  (∀ x : EForm,
    let whole (i : Instr) (e : Ctx → State) : Prop := ∀ (s : State) (c : Ctx), s.issues i = some c →
      ((∃ h ∈ c.g.live, h ∉ c.act) → ∃ m, exec i s = .next ((c.traps (c.trap 0x0C 0 m)).fused s) ∧
        ∀ h, h < 64 → (m.getLsbD h = true ↔ h ∈ c.g.live ∧ h ∉ c.act)) ∧
      ((∀ h ∈ c.g.live, h ∈ c.act) → exec i s = .next (c.completes { s := e c }))
    let waits (c : Ctx) (s : State) (tok : Nat) (tag : Option W32) : State := { s with tick := s.tick + 1 }.modGroup c.g.gid (fun g =>
      let g := g.modThreads c.act.contains (fun _ t => { t with wait := .cwait tok tag x.d tok })
      if x.d = 0x1FF then g else { g with pend := g.pend ++ [Pend.mk tok x.d.toNat 1] })
    (∀ i ∈ [Instr.cpy x, .gath x, .scat x, .vhold x, .vrel x], whole i (fun c => (c.submit x true).2.2.2)) ∧
    whole (.publish x) (fun c => (c.submit x true).2.2.2.modCmd c.g.gid (c.submit x true).2.1 (fun k => { k with w := c.s.written })) ∧
    (∀ i ∈ [Instr.coll x, .mldred x, .halo x], whole i (fun c =>
      (c.submit x true).2.2.2.collStart c.g.gid (c.submit x true).2.1)) ∧
    whole (.cpyw x) (fun c => let r := c.submit x false; waits c r.2.2.2 r.2.2.2.tick (some r.2.2.1)) ∧
    whole (.cwait x) (fun c => (waits c c.s c.s.tick (if x.a = 0x1FF then none else some ((c.uval 1).setWidth 32))).cwaitDone
      c.g.gid c.s.tick) ∧
    whole (.estat x) (fun c => if x.d = 0x1FF then c.s else c.s.modGroup c.g.gid (fun g =>
      g.setSreg (x.d.toNat - 0x100) ((c.g.cmdStatus ((c.uval 1).setWidth 32)).setWidth 64)))) ∧
  ∀ (g : Group) (tag : W32), let slot := g.cmds[tag.toNat % 16]?
    (∀ k, slot = some k → k.tag = tag → k.code.toNat < 256 → g.cmdStatus tag =
      BitVec.ofNat 32 (k.st + if k.st = 3 then 256 * k.code.toNat else 0)) ∧
    ((∀ k, slot = some k → k.tag ≠ tag) → g.cmdStatus tag = 0xFF00)

/-- R184, R186, R187, R189, R195, R267: a command whose effects are made reaches DONE once its writes have completed (and, for a HALO, the rows
that it sent before it failed are acknowledged), and not before;
DONE wakes an IDLE and keeps the code of the earliest command that failed. CPY of rows in scratchpads moves each row, and a length of zero
moves nothing. CWAIT_COMPLETE writes the status word and lets the path go on once every command that it names is DONE.
Where the manual leaves a choice, the model's is that of log entry 29. -/
def Statements.EngineCommandsEnd : Prop :=
  (∀ (s : State) (slot : Nat) (g : Group) (k : CmdSlot) (w : Workgroup) (la : Launch), s.group? g.gid = some g → g.cmds[slot]? = some k →
    s.wg? g.wid = some w → s.launch? w.lid = some la → k.st = 1 ∨ k.st = 2 →
    (k.performed = true → s.past g k.w = false ∨ s.sendsOpen g slot k = true → exec (.engineCommandDone g.gid slot) s = .next s) ∧
    (k.performed = true → s.past g k.w = true → s.sendsOpen g slot k = false → ∃ t g', exec (.engineCommandDone g.gid slot) s = .next t ∧ t.group? g.gid = some g' ∧
      s.onlyGroup { t with tick := s.tick } g.gid ∧ (∃ k', g'.cmds[slot]? = some k' ∧ k'.st = 3 ∧ k'.code = k.code ∧ k'.tag = k.tag) ∧
      (∀ j, j ≠ slot → g'.cmds[j]? = g.cmds[j]?) ∧ g'.wakeTick = s.tick + 1 ∧ g'.threads = g.threads ∧
      g'.keptCode = (if k.code = 0 ∨ (g.keptCode ≠ 0 ∧ g.keptTick < k.tick) then g.keptCode else k.code)) ∧
    ∀ x, k.instr = .cpy x ∨ k.instr = .cpyw x → k.performed = false → k.fid = none → s.resident g.gid = true → s.shutIn g.asid.toNat = false → g.pathBusy k = false →
      x.cmd.getLsbD 0 = true → x.cmd.getLsbD 1 = true → k.row = 0 → k.off = 0 →
      let n := k.c.toNat % 2 ^ 16
      let rows := k.c.toNat / 2 ^ 16 % 2 ^ 16
      let ends (t : State) : Prop := ∃ g' k', t.group? g.gid = some g' ∧ g'.cmds[slot]? = some k' ∧ k'.performed = true ∧ k'.code = 0 ∧
        k'.st = 2 ∧ g'.threads = g.threads
      (n = 0 ∨ rows = 0 → ∃ t, exec (.engineCommandDone g.gid slot) s = .next t ∧ ends t ∧ t.wgs = s.wgs) ∧
      ∀ wid v src dst, n ≠ 0 → rows = 1 → s.wg? wid = some v → k.a.toNat % 64 + n ≤ 64 →
        s.scratchTarget w k.b n = some (wid, src) → s.scratchTarget w k.a n = some (wid, dst) → s.scratchBad wid src n = false →
        k.a.toNat + n ≤ 2 ^ 22 → k.b.toNat + n ≤ 2 ^ 22 →
        ∃ t v', exec (.engineCommandDone g.gid slot) s = .next t ∧ ends t ∧ t.wg? wid = some v' ∧
          v'.scratch = v.scratch.setBytes dst (v.scratch.bytes src n)) ∧
  ∀ (s : State) (tok upto : Nat) (tag : Option W32) (d : BitVec 9) (g : Group), s.group? g.gid = some g →
    (∃ y ∈ g.threads, y.exited = false ∧ y.wait = .cwait tok tag d upto) →
    (∀ y ∈ g.threads, ∀ a b n, y.wait = .cwait tok a b n → a = tag ∧ b = d ∧ n = upto) →
    let busy (k : CmdSlot) : Prop := k.st ≠ 0 ∧ k.st ≠ 3
    let waits : Prop := match tag with
      | some t => ∃ k, g.cmds[t.toNat % 16]? = some k ∧ k.tag = t ∧ k.st ≠ 3
      | none => ∃ k ∈ g.cmds, busy k ∧ k.tick < upto
    let v : W32 := match tag with
      | some t => g.cmdStatus t
      | none => BitVec.ofNat 32 (3 + 256 * g.keptCode.toNat)
    (waits → exec (.cwaitComplete g.gid tok) s = .next s) ∧
    (¬waits → ∃ t g', exec (.cwaitComplete g.gid tok) s = .next t ∧ s.onlyGroup t g.gid ∧ t.group? g.gid = some g' ∧
      g'.sregs = (if d = 0x1FF then g.sregs else g.sregs.set (d.toNat - 0x100) (v.setWidth 64)) ∧ g'.vregs = g.vregs ∧
      g'.keptCode = (if tag = none then 0 else g.keptCode) ∧ g'.cmds = g.cmds ∧
      ∀ (h : Nat) (y z : Thread), g.threads[h]? = some y → g'.threads[h]? = some z →
        z = if y.wait = .cwait tok tag d upto then { y with wait := .none } else y)

/-- Engine commands are issued into slots and reach DONE once their writes have completed: the statements `Statements.EngineCommandsIssue`, `Statements.EngineCommandsEnd` together. -/
def Obligations.EngineCommands : Prop :=
  Statements.EngineCommandsIssue ∧ Statements.EngineCommandsEnd

/-- R226, R227, R228, R229: PUBLISH_CUT, once the group's earlier stores and those applied before the PUBLISH was issued have completed,
opens the next step where the view names the writers' step, and ends with STEP where it names another; VHOLD adds a hold of a step whose pages are all still there and VREL takes one
away, with their codes. FILL_FORWARD_COMPLETE gives the lines of the newest released frame to the next newer one and frees it.
Where the manual leaves a choice, the model's is that of log entries 25 and 60. -/
def Obligations.SnapshotCommands : Prop :=
  (∀ (s : State) (slot : Nat) (g : Group) (k : CmdSlot) (w : Workgroup) (la : Launch) (x : EForm) (i : Instr × Instr),
    s.group? g.gid = some g → g.cmds[slot]? = some k → s.wg? g.wid = some w → s.launch? w.lid = some la → k.instr = i.1 →
    i ∈ [(Instr.publish x, Instr.publishCut g.gid slot), (.vhold x, .engineCommandDone g.gid slot), (.vrel x, .engineCommandDone g.gid slot)] →
    k.st = 1 ∨ k.st = 2 → k.performed = false → k.fid = none → s.resident g.gid = true → s.shutIn g.asid.toNat = false → g.pathBusy k = false →
    let n : W32 := k.a.setWidth 32
    let num := k.a.toNat / 2 ^ 32 % 64
    let ends (u : State) (code : Byte) : Prop := exec i.2 s = .next (u.modCmd g.gid slot (fun k => { k with
      st := 2, code := code, performed := true, w := 0 }))
    (2 ^ 38 ≤ k.a.toNat → ends s 0x0A) ∧
    (k.a.toNat < 2 ^ 38 → s.fset? la.part num = none → ends s 0x04) ∧
    ∀ f, k.a.toNat < 2 ^ 38 → s.fset? la.part num = some f →
      let held := f.holds.find? (fun h => h.1 == n)
      let drained : Prop := s.writesDone g k.tick 4 = true ∧ s.past g k.w = true ∧ ∀ a ∈ s.acks, a.op < k.tick → a.system = true
      (i.1 = .publish x → ¬drained → exec i.2 s = .next s) ∧
      (i.1 = .publish x → drained → n ≠ f.wstep → ends s 0x05) ∧
      (i.1 = .publish x → drained → n = f.wstep →
        (∀ p ∈ s.pages, p.part = la.part → p.fset = f.num → ∀ fr ∈ p.frames, fr.state = .retained → (n + 1 - fr.base).toNat < 2 ^ 31) →
        ends (s.modFset la.part f.num (fun f => { f with wstep := n + 1 })) 0) ∧
      (i.1 = .vhold x → s.stepLost f n = true → ends s 0x05) ∧
      (i.1 = .vhold x → s.stepLost f n = false → held = none → 16 ≤ f.holds.length → ends s 0x06) ∧
      (i.1 = .vhold x → s.stepLost f n = false → held = none → f.holds.length < 16 →
        ends (s.modFset la.part f.num (fun f => { f with holds := f.holds ++ [(n, 1)] })) 0) ∧
      (∀ m, i.1 = .vhold x → s.stepLost f n = false → held = some (n, m) → if m = 65535 then ends s 0x06 else
        ends (s.modFset la.part f.num (fun f => { f with holds := f.holds.map (fun h => if h.1 = n then (n, h.2 + 1) else h) })) 0) ∧
      (i.1 = .vrel x → held = none → ends s 0x05) ∧
      (∀ m, i.1 = .vrel x → held = some (n, m) → ends ((s.modFset la.part f.num (fun f => { f with
        holds := (f.holds.map (fun h => if h.1 = n then (n, h.2 - 1) else h)).filter (fun h => h.2 != 0) })).releaseFrames la.part f.num) 0)) ∧
  ∀ (s : State) (p : TrackedPage) (newer older : List Frame) (n old : Frame),
    s.pages.find? (fun q => q.part == p.part && q.fset == p.fset && q.asid == p.asid && q.page == p.page) = some p →
    p.frames = newer ++ [n, old] ++ older → (∀ f ∈ newer ++ [n], f.state ≠ .released) → old.state = .released →
    (∀ q ∈ s.pages, q.asid = p.asid → q.page = p.page → q = p) →
    ∃ t, exec (.fillForwardComplete p.part p.fset p.asid p.page) s = .next t ∧
      (∀ q ∈ t.pages, q.asid = p.asid → q.page = p.page →
        q.frames = newer ++ [{ n with bitmap := n.bitmap ||| old.bitmap }] ++ older) ∧
      ((∀ i, i < 1024 → old.bitmap.getLsbD i = true → n.bitmap.getLsbD i = true) → t.hbm = s.hbm ∧ t.home = s.home ∧
        (s.isPinned old.hpa = false → ∀ f, s.fset? p.part p.fset = some f →
          t.fset? p.part p.fset = some { f with pool := f.pool ++ [old.hpa] }))

/-- R453: MLDRED of a group that the member has joined arrives in the next round of its offset, once, when it starts: its arrival is recorded,
and its timeout runs from then on; the other members are told once the stores that its group made before it have completed at system
scope. -/
def Statements.CollectiveArrivals : Prop :=
  ∀ (s : State) (slot : Nat) (g : Group) (k : CmdSlot) (w : Workgroup) (la : Launch) (c : CollGroup) (x : EForm),
    s.group? g.gid = some g → g.cmds[slot]? = some k → s.wg? g.wid = some w → s.launch? w.lid = some la → k.instr = .mldred x →
    k.st = 1 → k.performed = false → k.fid = none → k.round = none → k.num = none → k.told = false → s.coll? la.part (k.c.toNat % 65536) = some c →
    c.part = la.part → c.group = k.c.toNat % 65536 → c.conflicted = false → 64 ∣ k.a.toNat → 64 ∣ k.b.toNat →
    let n := c.count 0 k.b + 1
    s.round? c.part c.group 0 k.b n = none →
    let a : ArrivalMsg := ⟨c.part, c.group, 0, k.b, n, c.rank, x.cmd, 0, 0, [], false, false, [], []⟩
    let t := s.collStart g.gid slot
    t.rounds = s.rounds ++ [⟨c.part, c.group, 0, k.b, n, [a], false, false, false, false, false, false, [], []⟩] ∧
    (∃ c', t.coll? c.part c.group = some c' ∧ c'.count 0 k.b = n) ∧
    ∃ k', t.cmd? g.gid slot = some k' ∧ k'.round = some n ∧ k'.num = some n ∧ k'.performed = false ∧
      k'.deadline = s.time (s.groupDie g) + BitVec.ofNat 64 (c.timeoutMs * 1000000) ∧
      (k'.told = true ↔ s.writesDone g k.tick 5 = true) ∧
      (s.writesDone g k.tick 5 = false → t.mgmt = s.mgmt) ∧
      (s.writesDone g k.tick 5 = true → ∃ m, t.mgmt = s.mgmt ++ [m] ∧ m.kind = 0x200 ∧
        m.body.take 3 = natBytes 2 Config.stationId.toNat ++ natBytes 1 c.part)

/-- R453, R454, R462, R466, R467: what a collective group learns from outside, while some port is up. MEMBER_ARRIVAL records a member's first
arrival in a round; ROUND_CLOSURE and the end of a command's own timeout are noted in a round that has not ended here; HALO_SEND_ACK lands
the rows sent to a neighbour in its window, which is told so, or has them refused, and then they land nowhere; HALO_REPORT records a
neighbour's report; COLL_ANNOUNCE adds a member, or takes one away: a second announcement of a rank, or another member count, conflicts
the group until the member that made it leaves, and a member that leaves makes the rounds in progress end by timeout.
Where the manual leaves a choice, the model's is that of log entries 30 and 69. -/
def Statements.CollectiveEvents : Prop :=
  ∀ (s : State) (part group kind num : Nat) (off : W64), s.linked = true →
    (∀ (a : ArrivalMsg), a.part = part → a.group = group → a.kind = kind → a.off = off → a.round = num →
      (s.round? part group kind off num = none → exec (.memberArrival a) s =
        .next { s with rounds := s.rounds ++ [⟨part, group, kind, off, num, [a], false, false, false, false, false, false, [], []⟩] }) ∧
      ∀ r, s.round? part group kind off num = some r → ∃ t, exec (.memberArrival a) s = .next t ∧ { t with rounds := s.rounds } = s ∧
        t.round? part group kind off num = some (if ∃ b ∈ r.arrivals, b.rank = a.rank then r
          else { r with arrivals := r.arrivals ++ [a] })) ∧
    (∀ (r : Round), s.round? part group kind off num = some r →
      let ended : Prop := r.ok = true ∨ r.closed = true
      (∃ t, exec (.roundClosure part group kind num off) s = .next t ∧ { t with rounds := s.rounds } = s ∧
        (ended → t.round? part group kind off num = some r) ∧
        (¬ended → t.round? part group kind off num = some { r with closing := true })) ∧
      let late : Prop := ∃ g ∈ s.groups, ∃ k ∈ g.cmds, s.partOfGroup g = some part ∧ k.st ≠ 0 ∧ k.st ≠ 3 ∧ k.performed = false ∧
        k.round = some num ∧ k.deadline ≤ s.time (s.groupDie g) ∧ k.collGroup = some group ∧ k.collKey = (kind, off)
      (¬late → exec (.collectiveTimeout part group kind num off) s = .next s) ∧
      (late → ∃ t, exec (.collectiveTimeout part group kind num off) s = .next t ∧ { t with rounds := s.rounds } = s ∧
        (ended → t.round? part group kind off num = some r) ∧
        (¬ended → t.round? part group kind off num = some { r with expired := true }))) ∧
    (∀ (r : Round) (rank : Nat), s.round? part group 2 0 num = some r →
      let mine (e : PeerSend) : Bool := e.part == part && e.group == group && e.round == num && e.rank == rank
      let refused (b : Bool) : Prop := b = true ∨ (peerKey part group, rank) ∈ s.peerRefuse
      (∀ b, s.sends.any mine = false → exec (.haloSendAck part group num rank b) s = .next s) ∧
      (∀ b, s.sends.any mine = true → ∃ t, exec (.haloSendAck part group num rank b) s = .next t ∧
        t.sends = s.sends.filter (fun e => !mine e) ∧
        (refused b → { t with rounds := s.rounds, sends := s.sends } = s ∧
          ∃ q, t.round? part group 2 0 num = some q ∧ { q with refusedAcks := r.refusedAcks } = r ∧ rank ∈ q.refusedAcks) ∧
        (¬refused b → { t with sends := s.sends, peerMem := s.peerMem, mgmt := s.mgmt } = s ∧
          t.peerMem = (s.sends.filter mine).foldl (fun m e => m.setBytes e.addr e.data) s.peerMem ∧
          t.mgmt = s.mgmt ++ [⟨0x203, natBytes 2 Config.stationId.toNat ++ natBytes 1 part ++
            (natBytes 2 group ++ natBytes 4 num ++ natBytes 2 rank)⟩])) ∧
      ∃ t, exec (.haloReport part group num rank) s = .next t ∧ { t with rounds := s.rounds } = s ∧
        ∃ q, t.round? part group 2 0 num = some q ∧ { q with reported := r.reported } = r ∧ rank ∈ q.reported) ∧
    ∀ (m : MemberName) (members : Nat) (c : CollGroup), s.coll? part group = some c →
      let mine (e : Announced) : Bool := e.station == m.station && e.rank == m.rank && e.members == members
      (∃ t c', exec (.collAnnounce part group m members false) s = .next t ∧ t.coll? part group = some c' ∧
        { t with colls := s.colls, heard := s.heard } = s ∧ t.heard = s.heard ++ [(part, group, ⟨m.station, m.rank, members, false⟩)] ∧
        let bad : Prop := members ≠ c.members ∨ ∃ e ∈ c.announced, e.rank = m.rank
        ∃ e, c'.announced = c.announced ++ [e] ∧ mine e = true ∧ (e.conflicts = true ↔ bad) ∧
          { c' with announced := c.announced, conflicted := c.conflicted } = c ∧ (c'.conflicted = true ↔ c.conflicted = true ∨ bad)) ∧
      ∃ t c', exec (.collAnnounce part group m members true) s = .next t ∧ t.coll? part group = some c' ∧
        { t with colls := s.colls, heard := s.heard, rounds := s.rounds } = s ∧
        c'.announced = c.announced.eraseP mine ∧ { c' with announced := c.announced, conflicted := c.conflicted } = c ∧
        (c'.conflicted = true ↔ ∃ e ∈ c'.announced, e.conflicts = true) ∧
        ∀ (n : Nat) (r q : Round), s.rounds[n]? = some r → t.rounds[n]? = some q →
          q = if r.part = part ∧ r.group = group ∧ r.ok = false ∧ r.closed = false then { r with dead := true } else r

/-- R453, R454, R458, R466: how a round stands at the end of a cycle: one that has ended stays; a closure that came in the cycle closes it; otherwise
it completes where every member has arrived, or for a HALO where every own row is acknowledged and every listed neighbour has arrived and
has reported what it sends here; otherwise the own timeout closes it, and the members are told. A round that lost a member does not
complete. -/
def Statements.RoundsSettle : Prop :=
  ∀ (s : State), ∃ ms, s.settleRounds.mgmt = s.mgmt ++ ms ∧ (∀ m ∈ ms, m.kind = 0x201) ∧
    { s.settleRounds with rounds := s.rounds, mgmt := s.mgmt } = s ∧ s.settleRounds.rounds.length = s.rounds.length ∧
    ∀ (n : Nat) (r q : Round), s.rounds[n]? = some r → s.settleRounds.rounds[n]? = some q →
      let ended : Prop := r.ok = true ∨ r.closed = true
      let done (c : CollGroup) (a : ArrivalMsg) : Prop := r.dead = false ∧ r.from? c.rank = some a ∧
        (r.kind ≠ 2 → ∀ k, k < c.members → ∃ b ∈ r.arrivals, b.rank = k) ∧
        (r.kind = 2 → r.sent = true ∧ r.refusedAcks = [] ∧ (∀ e ∈ s.sends, ¬(e.part = r.part ∧ e.group = r.group ∧ e.round = r.num)) ∧
          ∀ k ∈ a.lists, ∃ b, r.from? k = some b ∧ (c.rank ∈ b.sends → k ∈ r.reported))
      let complete : Prop := ∃ c a, s.coll? r.part r.group = some c ∧ done c a
      (ended → q = r) ∧
      (¬ended → r.closing = true → q = { r with closed := true }) ∧
      (¬ended → r.closing = false → complete → q = { r with ok := true }) ∧
      (¬ended → r.closing = false → ¬complete → r.expired = true → q = { r with closed := true } ∧ ∃ m ∈ ms,
        m.body = natBytes 2 Config.stationId.toNat ++ natBytes 1 r.part ++
          (natBytes 2 r.group ++ natBytes 1 r.kind ++ natBytes 8 r.off.toNat ++ natBytes 4 r.num)) ∧
      (¬ended → r.closing = false → ¬complete → r.expired = false → q = r)

/-- R459, R461, R467: what UALink does not carry (nothing, or more than 64 bytes), or while no port is up, does nothing; a request from a peer
for a group that the partition has not joined, or not formed, or of another rank, or beyond the window, is refused and changes nothing; a
read is answered with the bytes at window base plus offset, a write is made there. A link that cannot replay goes down with an interrupt of
the PF, ends the rows on it as refused ones and logs the lanes whose requests it carried; one that comes up is up again.
Where the manual leaves a choice, the model's is that of log entries 30 and 69. -/
def Statements.PeerTraffic : Prop :=
  (∀ (s : State) (r : PeerRequest),
    let answer (kind : Nat) (bs : List Byte) : MgmtMsg :=
      ⟨kind, natBytes 2 Config.stationId.toNat ++ natBytes 1 r.part ++ (natBytes 2 r.station.toNat ++ bs)⟩
    let carried : Prop := s.linked = true ∧ peerCarried r.op = true
    let refused : Prop := exec (.peerRequest r) s = .next { s with mgmt := s.mgmt ++ [answer 0x205 []] }
    (¬carried → exec (.peerRequest r) s = .next s) ∧
    (carried → s.coll? r.part r.group = none → refused) ∧
    ∀ c, carried → s.coll? r.part r.group = some c → s.shutIn c.wasid = false →
      (s.part? r.part = none ∨ c.formed = false ∨ r.rank ≠ c.rank ∨ c.wlen < r.offset + peerBytes r.op → refused) ∧
      ∀ p u, s.part? r.part = some p → c.formed = true → r.rank = c.rank → r.offset + peerBytes r.op ≤ c.wlen →
        let answered (bs : List Byte) : Prop :=
          exec (.peerRequest r) s = .next ({ u with mgmt := u.mgmt ++ [answer 0x204 bs] }.fused s)
        (∀ n bs, r.op = .read n → s.engineReadAll c.wasid (c.wbase + r.offset) n = .ok (u, bs, false) → answered bs) ∧
        ∀ bs, r.op = .write bs → s.peerStore c.wasid (c.wbase + r.offset) bs = .ok u → answered []) ∧
  (∀ (s : State) (port : Nat), ∃ t, exec (.linkReplayFailure port) s = .next t ∧ t.vectors.getLast? = some (0, 5) ∧
    t.sends = s.sends.filter (fun e => e.port != port) ∧ t.peerMem = s.peerMem ∧
    (∀ k, k < 16 → (t.portUp.getLsbD k = true ↔ k ≠ port ∧ s.portUp.getLsbD k = true)) ∧
    (∀ e ∈ s.sends, e.port = port → ∃ q, t.round? e.part e.group 2 0 e.round = some q ∧ e.rank ∈ q.refusedAcks) ∧
    ((∀ o ∈ s.ops, o.scratch = false → ∀ l ∈ o.lanes, l.stage = .todo → s.peerPort o.asid.toNat l.addr.toNat ≠ some port) →
      { t with portUp := s.portUp, vectors := s.vectors, sends := s.sends, rounds := s.rounds } = s ∧ t.vectors = s.vectors ++ [(0, 5)])) ∧
  ∀ (s : State) (port : Nat), port < 16 → ∃ t, exec (.ualinkLinkUp port) s = .next t ∧
    { t with portUp := s.portUp, vectors := s.vectors } = s ∧ t.vectors = s.vectors ++ [(0, 5)] ∧
    ∀ k, k < 16 → (t.portUp.getLsbD k = true ↔ k = port ∨ s.portUp.getLsbD k = true)

/-- Arrivals, closures, announcements, peer requests and links of collective groups: the statements `Statements.CollectiveArrivals`, `Statements.CollectiveEvents`, `Statements.RoundsSettle`, `Statements.PeerTraffic` together. -/
def Obligations.CollectiveTraffic : Prop :=
  Statements.CollectiveArrivals ∧ Statements.CollectiveEvents ∧ Statements.RoundsSettle ∧ Statements.PeerTraffic

/-- R188: MLDRED and COLL fold one element of each member, in the order given: the first converted, each next one added, or the
lesser or greater kept; integer sums wrap at 32 bits. -/
def Obligations.CollectiveFolds : Prop :=
  (∀ (e acc red i : Nat) (l : List Byte) (ls : List (List Byte)),
    let x (l : List Byte) : Nat := fieldAt l (collElemBytes e * i) (collElemBytes e)
    foldElem e acc red (l :: ls) i = (ls.map x).foldl (collFold e acc red) (collConv e acc (x l))) ∧
  (∀ acc r x : Nat, r < 2 ^ 32 → x < 2 ^ 32 →
    (∀ e, e = 4 ∨ e = 5 → collFold e acc 0 r x = (r + x) % 2 ^ 32) ∧
    collFold 5 acc 1 r x = min r x ∧ collFold 5 acc 2 r x = max r x ∧
    (collFold 4 acc 1 r x : Int) = min (BitVec.ofNat 32 r).toInt (BitVec.ofNat 32 x).toInt % 2 ^ 32 ∧
    (collFold 4 acc 2 r x : Int) = max (BitVec.ofNat 32 r).toInt (BitVec.ofNat 32 x).toInt % 2 ^ 32) ∧
  ∀ acc n ls, (foldBytes 5 acc 0 n ls).length = 4 * n

/-- R213, R283, R285, R287 to R299, R323: a matrix instruction of a migrated group raises Migration fault, one that not every thread issues
Partial issue, one whose shapes break R283 Tile shape fault with the first tile that breaks a condition and the first it breaks; otherwise
the request enters the table of the quad with age 0 and the shapes as they stand, and no tile has changed but that TSHAPE writes its shape.
Where the manual leaves a choice, the model's is that of log entries 16, 32 and 65. -/
def Obligations.MatrixInstructionsIssue : Prop :=
  ∀ (x : XForm) (s : State) (c : Ctx),
    let sh (k : BitVec 9) : TShape := c.shapeOf k.toNat
    let at' (k : BitVec 9) : Nat × TShape := (k.toNat, sh k)
    let cap (k : BitVec 9) : Bool × TileErr := (!(sh k).capOk, (k.toNat, 0))
    let mul (l : Option (Nat × List (Nat × Nat) × Bool)) : Option TileErr :=
      MulReq.err ⟨x.d.toNat, x.a.toNat, x.b.toNat, x.rm.toNat, x.sat.toNat, l⟩ (sh x.d) (sh x.a) (sh x.b) (s.mxcapOf c.core)
    let row : Nat := (if x.c = 0x1FF then x.imm.setWidth 64 else c.uval 3).toNat % 2 ^ 32
    let words (k : BitVec 9) : Nat := ((sh k).lineBits false + 31) / 32
    let move (k r : BitVec 9) : Option TileErr := firstErr [k.toNat] [cap k, ((sh k).lineBits false % 8 != 0, (k.toNat, 4)),
      ((sh k).rows ≤ row || c.vd.regs ≤ r.toNat + (words k - 1) / c.g.width, (k.toNat, 5))]
    let list := c.gmmaList x
    let es := gmmaEntries (x.imm.getLsbD 7) list.1
    let forms : List (Instr × Option TileErr) := [(.tshape x, none), (.tzero x, firstErr [x.d.toNat] [cap x.d]),
      (.mxsclFill x, firstErr [x.d.toNat] [cap x.d]), (.mxscl x, firstErr [x.d.toNat, x.a.toNat]
        [cap x.d, cap x.a, ((sh x.a).fmt != 9, (x.a.toNat, 1)), (512 < (sh x.a).count, (x.a.toNat, 5))]),
      (.tmovv x, move x.d x.a), (.tmovt x, move x.a x.d), (.mma x, mul none),
      (.tcvt x, tcvtErr x.d.toNat x.a.toNat (sh x.d) (sh x.a) (x.imm.getLsbD 0)),
      (.tadd x, taddErr [at' x.d, at' x.a, at' x.b] true x.rm.toNat x.sat.toNat),
      (.tscale x, taddErr [at' x.d, at' x.a] false x.rm.toNat 0),
      (.tred x, tredErr x.d.toNat x.a.toNat (sh x.d) (sh x.a) (x.imm.toNat % 4) x.rm.toNat x.sat.toNat),
      (.gmma x, mul (some (x.imm.toNat % 64 + 1, es.1, es.2 || list.2.1)))]
    ∀ e ∈ forms, s.issues e.1 = some c →
      let whole : Prop := ∀ h ∈ c.g.live, h ∈ c.act
      let traps (t : TrapInfo) : Prop := exec e.1 s = .next ((c.traps t).fused s)
      (c.g.landing ≠ none → traps (c.trap 0x15 1)) ∧
      (c.g.landing = none → ¬whole → ∃ m, traps (c.trap 0x0C 0 m)) ∧
      (∀ k r, c.g.landing = none → whole → e.2 = some (k, r) → traps (c.trap 0x0D (BitVec.ofNat 32 (k + 256 * r)))) ∧
      (∀ t, c.g.landing = none → whole → e.2 = none → e.1 = .gmma x → list.2.2 = some t → traps t) ∧
      (c.g.landing = none → whole → e.2 = none → (e.1 = .gmma x → list.2.2 = none) → ∃ t q g, exec e.1 s = .next t ∧
        t.mx = s.mx ++ [q] ∧ q.id = s.tick ∧ q.quad = c.core / 4 ∧ q.core = c.core ∧ q.gid = c.g.gid ∧ q.gslot = c.g.gslot ∧ q.age = 0 ∧
        q.entered = s.cycle c.core ∧ q.granted = false ∧ q.instr = e.1 ∧ t.hbm = s.hbm ∧ t.ops = s.ops ∧ (e.1 ≠ .tshape x → t.wgs = s.wgs) ∧
        (e.1 = .tmovv x → q.words = (List.range (words x.d)).map (fun j => c.g.vreg (j % c.g.width) (x.a.toNat + j / c.g.width)) ∧
          q.vals = [BitVec.ofNat 64 row]) ∧
        (e.1 = .tshape x → t.wgs = (s.modWg c.w.wid (fun w => w.modTile x.d.toNat (fun y => { y with
          tsh := (if x.a = 0x1FF then x.imm.setWidth 64 else c.uval 1).setWidth 32 &&& 0x3FFFF }))).wgs) ∧
        (e.1 = .mma x ∨ e.1 = .tadd x → q.shapeA = (c.w.tile x.a.toNat).tsh ∧ q.shapeB = (c.w.tile x.b.toNat).tsh) ∧
        t.group? c.g.gid = some g ∧ g.vregs = c.g.vregs ∧ g.sregs = c.g.sregs ∧
        (∀ p ∈ g.pend, p ∈ c.g.pend ∨ p.op = s.tick))

/-- R213, R295: MMAS by threads that are members and have not signed, with the recorded fields, takes their signatures; they wait until the last,
whose issue checks the shapes and enters the recorded MMA once, and are issuable again from the next cycle. A thread that is no member, or
other fields, raise Partial issue.
Where the manual leaves a choice, the model's is that of log entry 32. -/
def Obligations.SignedMultiplies : Prop :=
  ∀ (x : XForm) (s : State) (c : Ctx), s.issues (.mmas x) = some c →
    let cv := x.c.toNat
    let pend := c.g.cvs.get cv
    let r : MmasRound := (c.g.mmas.find? (fun r => r.cv == cv)).getD ⟨cv, x, 0, c.pc⟩
    let same : Prop := (r.x.d, r.x.a, r.x.b, r.x.rm, r.x.sat) = (x.d, x.a, x.b, x.rm, x.sat)
    let left := pend &&& ~~~c.actMask
    let err := s.roundErr c.core c.w r
    let traps (t : TrapInfo) : Prop := exec (.mmas x) s = .next ((c.traps t).fused s)
    (c.g.landing ≠ none → traps (c.trap 0x15 1)) ∧
    (c.g.landing = none → c.act = [] → exec (.mmas x) s = .next (c.completes { s := s })) ∧
    (c.g.landing = none → c.act ≠ [] → (∃ h ∈ c.act, pend.getLsbD h = false) ∨ ¬same → ∃ m, traps (c.trap 0x0C 0 m)) ∧
    (c.g.landing = none → c.act ≠ [] → (∀ h ∈ c.act, pend.getLsbD h = true) → same →
      (left ≠ 0 → ∃ t g, exec (.mmas x) s = .next t ∧ t.group? c.g.gid = some g ∧ t.mx = s.mx ∧ g.cvs.get cv = left ∧
        ∀ h y z, c.g.threads[h]? = some y → g.threads[h]? = some z → z.wait = if h ∈ c.act then .mmas cv else y.wait) ∧
      (∀ k n, left = 0 → err = some (k, n) → traps (c.trap 0x0D (BitVec.ofNat 32 (k + 256 * n)))) ∧
      (left = 0 → err = none → ∃ t g q, exec (.mmas x) s = .next t ∧ t.group? c.g.gid = some g ∧ t.mx = s.mx ++ [q] ∧
        q.instr = .mmas r.x ∧ q.gid = c.g.gid ∧ q.age = 0 ∧ q.granted = false ∧ (∀ y ∈ g.mmas, y.cv ≠ cv) ∧
        ∀ h y z, c.g.threads[h]? = some y → g.threads[h]? = some z →
          z.wait = if h ∈ c.act ∨ y.wait = .mmas cv then .signed else y.wait)) ∧
    ∀ y : Thread, y.wait = .signed → y.issuable = false ∧ y.afterCycle = { y with wait := .none }

/-- What the checks of a TLD or TST find under a shape of its tile, as (cause, FINFO, FADDR): the first condition of R283 that the shape
breaks, then an address at or above 2^57, then an address or stride that is not aligned to the element, then nothing (R283, R285, R289). -/
def Statements.TileChecks (x : MForm) (wr : Bool) (sh : TShape) (ea : W64) (stride : Nat) (f : Option (Nat × W32 × W64)) : Prop :=
  let k := x.d.toNat
  let al := (sh.w + 7) / 8
  let err := firstErr [k] [(!sh.capOk, (k, 0)), (x.tr && sh.w < 8, (k, 1)), (sh.lineBits x.tr % 8 != 0, (k, 4))]
  let high : Prop := ∃ m, m < sh.lines x.tr ∧ 2 ^ 57 < ea.toNat + m * stride + sh.lineBits x.tr / 8
  (∀ j r, err = some (j, r) → f = some (0x0D, BitVec.ofNat 32 (j + 256 * r), 0)) ∧
  (err = none → high → f = some (0x08, if wr then 32 else 0, ea)) ∧
  (err = none → ¬high → ¬(al ∣ ea.toNat ∧ al ∣ stride) → f = some (0x07, 0, ea)) ∧
  (err = none → ¬high → al ∣ ea.toNat → al ∣ stride → f = none)

/-- R283, R285, R287, R289, R323: a TLD or TST issued by every live thread, whose tile's shape passes the checks, leaves an operation at ea
with its stride; one that fails them traps. Its pages are walked at once by TRANSLATION_WALK, while nothing holds it back: after the group's
earlier tile accesses to its bytes, and while the table has room, else the group is stalled. The request reads the shape as it enters; a
shape that then fails the checks is a deferred trap, and a fault of the walk logs the operation.
Where the manual leaves a choice, the model's is that of log entries 22, 32 and 53. -/
def Statements.TileAccessesIssue : Prop :=
  (∀ (x : MForm) (i : Instr), i ∈ [Instr.tld x, .tst x] → ∀ (s : State) (c : Ctx), s.issues i = some c →
    c.g.landing = none → (∀ h ∈ c.g.live, h ∈ c.act) →
    let sh := c.shapeOf x.d.toNat
    let ea := c.ea ((c.act.head?).getD 0)
    let own : Bool := x.c = 0x1FF
    let stride := if own then sh.lineBits x.tr / 8 else (c.uval 3).toNat
    let kept := if own then 0 else (c.uval 3).toNat + 2 ^ 64
    (∀ k n a, Statements.TileChecks x (i = .tst x) sh ea stride (some (k, n, a)) → exec i s = .next ((c.traps (c.trap k n a)).fused s)) ∧
    (Statements.TileChecks x (i = .tst x) sh ea stride none →
      exec i s = .next (c.completes { s := c.issueOp [LaneReq.mk 0 ea (BitVec.ofNat 128 kept) 0 0 [] .todo] [] }))) ∧
  ∀ (s : State) (id : Nat) (o : MemOp) (g : Group) (w : Workgroup) (l : LaneReq) (x : MForm), s.op? id = some o →
    o.instr = .tld x ∨ o.instr = .tst x → s.group? o.gid = some g → s.wg? g.wid = some w → o.lanes = [l] → l.lane = 0 → l.stage = .todo →
    x.d.toNat ∈ o.instr.tiles → (∀ e ∈ s.mx, e.id ≠ id) →
    let cur : W32 := (w.tile x.d.toNat).tsh
    let sh := tshape cur
    let stride := if l.data.toNat < 2 ^ 64 then sh.lineBits x.tr / 8 else l.data.toNat % 2 ^ 64
    let lines := (List.range (sh.lines x.tr)).map (fun m => (l.addr.toNat + m * stride, sh.lineBits x.tr / 8))
    let wr : Bool := o.instr = .tst x
    let held : Prop := s.resident o.gid = false ∨ s.tileBefore o = true ∨ ∃ k ∈ lines, s.shut o.asid.toNat k.1 k.2 = true
    let room : Prop := s.mxRoom g o.core = true
    let checks := Statements.TileChecks x wr sh l.addr stride
    (held → exec (.translationWalk id 0) s = .next s) ∧
    (¬held → ¬room → exec (.translationWalk id 0) s = .next ((s.stallMx g o.core).fused s)) ∧
    (¬held → room → (∀ k n a, checks (some (k, n, a)) → ∃ t h, exec (.translationWalk id 0) s = .next t ∧ t.op? id = none ∧ t.mx = s.mx ∧
        t.wgs = s.wgs ∧ t.group? o.gid = some h ∧ h.traps = g.traps ++ [⟨id, byteOf k, o.pc, a, n, none, 0⟩] ∧ ∀ p ∈ h.pend, p.op ≠ id) ∧
      (checks none → (∀ f, s.tilePages o.asid.toNat wr lines = .error f →
          exec (.translationWalk id 0) s = .next ((s.laneFault id 0 f).fused s)) ∧
        ∀ s1, s.tilePages o.asid.toNat wr lines = .ok s1 → ∃ t q o', exec (.translationWalk id 0) s = .next t ∧ t.mx = s1.mx ++ [q] ∧
          q.id = id ∧ q.quad = o.core / 4 ∧ q.gid = g.gid ∧ q.instr = o.instr ∧ q.granted = false ∧ q.age = 0 ∧
          q.shapeD = cur ∧ t.wgs = s1.wgs ∧ t.op? id = some o' ∧ ∀ y ∈ o'.lanes, y.stage = .waiting))

/-- R323, R326, R327: MATRIX_GRANT grants, where no pass of the engine runs, an entry that is the oldest of its group and behind which every
competing entry stands: overdue entries first by age, then by score, then by core and group slot; each other entry of the table ages by one.
An entry of this cycle neither competes nor ages. -/
def Statements.MatrixGrants : Prop :=
  (∀ (s : State) (a b : MxEntry),
    let score (e : MxEntry) : Nat := 16 * s.prioOf e.gid + e.age
    let place : Prop := a.core < b.core ∨ a.core = b.core ∧ a.gslot < b.gslot
    (224 ≤ a.age → b.age < 224 → s.mxBefore a b = true) ∧ (a.age < 224 → 224 ≤ b.age → s.mxBefore a b = false) ∧
    (224 ≤ a.age → 224 ≤ b.age → (s.mxBefore a b = true ↔ b.age < a.age ∨ a.age = b.age ∧ place)) ∧
    (a.age < 224 → b.age < 224 → (s.mxBefore a b = true ↔ score b < score a ∨ score a = score b ∧ place))) ∧
  ∀ (s : State) (quad : Nat),
    let mine (e : MxEntry) : Prop := e ∈ s.mx ∧ e.quad = quad
    let waited (e : MxEntry) : Prop := e.entered < s.cycle e.core
    let competes (e : MxEntry) : Prop := mine e ∧ waited e ∧ ∃ x, s.mx.find? (fun x => x.gid == e.gid) = some x ∧ x.id = e.id
    ((∃ e, mine e ∧ e.granted = true) ∨ (∀ e, ¬competes e) → exec (.matrixGrant quad) s = .next s) ∧
    ((∀ e, mine e → e.granted = false) → (∃ e, competes e) → ∃ p t, competes p ∧ (∀ e, competes e → s.mxBefore e p = false) ∧
      exec (.matrixGrant quad) s = .next t ∧ { t with mx := s.mx } = s ∧
      t.mx = s.mx.map (fun e => if e.quad ≠ quad ∨ s.cycle e.core ≤ e.entered then e else if e.id = p.id then { e with granted := true } else { e with age := e.age + 1 }))

/-- R280, R288 to R294, R297, R298, R323: what the granted pass does when MATRIX_PASS_COMPLETE ends it. The entry leaves the table. TSHAPE's shape
stands already; TZERO zeroes bits and scales; MXSCL.FILL sets every scale; TMOVV writes one line and leaves the rest; TADD and MMA write each element of
D, rounded as their class says; TMOVT writes its registers. Other tiles stay. -/
def Statements.MatrixPasses : Prop :=
  (∀ (t : Tile) (w i : Nat) (es : List Nat), i < es.length → (t.setElems w es).elem w i = (es[i]?).getD 0 % 2 ^ w ∧
    ∀ j, (t.setElems w es).bits / 2 ^ (w * es.length + j) = t.bits / 2 ^ (w * es.length + j)) ∧
  (∀ (s : State) (quad : Nat) (e : MxEntry) (g : Group) (w : Workgroup) (x : XForm) (t0 : Tile),
    s.mx.find? (fun e => e.quad == quad && e.granted) = some e → s.group? e.gid = some g → s.wg? g.wid = some w →
    w.tiles[x.d.toNat]? = some t0 →
    let passes (f : Tile → Prop) : Prop := ∃ t w' t1, exec (.matrixPassComplete quad) s = .next t ∧ t.mx = s.mx.filter (fun y => y.id != e.id) ∧
      t.wg? g.wid = some w' ∧ w'.tiles[x.d.toNat]? = some t1 ∧ (∀ k, k ≠ x.d.toNat → w'.tiles[k]? = w.tiles[k]?) ∧
      { t with mx := s.mx, wgs := s.wgs } = s ∧ { w' with tiles := w.tiles } = w ∧ f t1
    let sd := tshape e.shapeD
    let view (k : Nat) (sh : W32) : TileView := ⟨w.tile k, tshape sh⟩
    (e.instr = .tshape x → passes (fun t => t = t0)) ∧
    (e.instr = .tzero x → passes (fun t => t = { t0 with bits := 0, scales := [] })) ∧
    (e.instr = .mxsclFill x → passes (fun t => t.bits = t0.bits ∧ t.tsh = t0.tsh ∧ ∀ i, i < 512 → t.scale i = x.imm.setWidth 8)) ∧
    (e.instr = .tadd x → passes (fun t => t.tsh = t0.tsh ∧ t.scales = t0.scales ∧ ∀ i, i < sd.count →
      let a := (w.tile x.a.toNat).elem sd.w i
      let b := (w.tile x.b.toNat).elem sd.w i
      let f := fmtCode sd.fmt
      t.elem sd.w i = (if sd.fmt = 13 then intMod 32 (if x.sat = 1 then
          max (-2 ^ 31) (min (2 ^ 31 - 1) (sext 32 a + sext 32 b)) else sext 32 a + sext 32 b)
        else (f.round x.rm.toNat false (sumProducts x.rm.toNat [] [f.unpack a, f.unpack b]).1).1) % 2 ^ sd.w)) ∧
    (∀ k, e.instr = .mma x → mulClass (tshape e.shapeA).fmt (tshape e.shapeB).fmt = some k → sd.rows = (tshape e.shapeA).rows →
      sd.cols = (tshape e.shapeB).cols → passes (fun t => t.tsh = t0.tsh ∧ t.scales = t0.scales ∧ ∀ r c, r < sd.rows → c < sd.cols →
        t.elem sd.w (r * sd.cols + c) = mulChain k x.rm.toNat x.sat.toNat (view x.a.toNat e.shapeA) (view x.b.toNat e.shapeB) r c
          (t0.elem sd.w (r * sd.cols + c)) % 2 ^ sd.w))) ∧
  ∀ (k : MulClass) (rm : Nat) (a b : TileView) (g j c : Nat), k.kind = 4 →
    (mulChain k rm 0 a b g j c : Int) = (sext 32 c + ((List.range a.shape.cols).map (fun i =>
      fmtInteger a.shape.fmt (a.at g i) * fmtInteger b.shape.fmt (b.at i j))).sum) % 2 ^ 32

/-- Tile accesses, grants and passes of the matrix engine: the statements `Statements.TileAccessesIssue`, `Statements.MatrixGrants`, `Statements.MatrixPasses` together. -/
def Obligations.MatrixEngine : Prop :=
  Statements.TileAccessesIssue ∧ Statements.MatrixGrants ∧ Statements.MatrixPasses

/-- R102, R110, R310, R311, R313, R315, R316, R384: GROUP_RETIRE of a group whose threads have exited, with nothing outstanding, frees its
registers; the last group of a workgroup frees core, scratchpad and tiles, and the last workgroup ends the launch. LAUNCH_ADMIT starts a
launch's workgroups in linear order on the cores given, refuses one of its level's heads that no row could hold with code 4, and leaves a
launch that is not next. SWITCH_RENDEZVOUS moves the workgroup's groups to the ordered variant once all stand at one point with nothing
outstanding. After each, groups beyond a register file's room leave it. Where the manual leaves a choice, the model's is that of log
entries 37, 49, 67 and 68. -/
def Statements.LaunchesPlaced : Prop :=
  (∀ (s : State) (g : Group) (w : Workgroup), s.group? g.gid = some g → s.wg? g.wid = some w → w.retired = false →
    (g.retired = true ∨ (g.live ≠ [] ∧ g.stopped = false) ∨ s.groupIdle g = false ∨ s.mayRetire g = false →
      exec (.groupRetire g.gid) s = .next s) ∧
    (g.retired = false → g.live = [] ∨ g.stopped = true → s.groupIdle g = true → s.mayRetire g = true →
      ∃ t, exec (.groupRetire g.gid) s = .next t ∧
        (∀ x ∈ t.groups, x.gid = g.gid → x.retired = true ∧ x.landing = none) ∧
        ((∃ x ∈ s.groups, x.wid = g.wid ∧ x.gid ≠ g.gid ∧ x.retired = false) → t.wgs = s.wgs ∧ t.launches = s.launches ∧
          ∃ x, t.group? g.gid = some x ∧ x.vregs = g.vregs ∧ x.sregs = g.sregs) ∧
        ((∀ x ∈ s.groups, x.wid = g.wid → x.gid = g.gid ∨ x.retired = true) →
          (∀ x ∈ t.groups, x.wid = g.wid → x.vregs = [] ∧ x.sregs = []) ∧
          (∀ x ∈ t.wgs, x.wid = w.wid → x.retired = true ∧ x.core = none ∧ x.scratch = [] ∧ x.tiles = []) ∧
          ((∀ x ∈ s.wgs, x.lid = w.lid → x.wid = w.wid ∨ x.retired = true) →
            t.launch? w.lid = none ∧ ∀ x ∈ t.wgs, x.lid = w.lid → s.launch? w.lid = none)))) ∧
  (∀ (s : State) (e : QEntry) (part : Nat) (cores : List Nat), s.partOf e.vf = some part →
    let is (u : State) : Prop := exec (.launchAdmit e.vf e.id.toNat cores) s = .next (u.fitTiers.fused s)
    ((∀ x ∈ s.levelHeads part, x.vf = e.vf → x.id ≠ e.id) → is s) ∧
    ((s.levelHeads part).find? (fun x => x.vf == e.vf && x.id.toNat == e.id.toNat) = some e →
      (s.code? e.record.asid e.record.kobj = none ∨ (∃ c, s.code? e.record.asid e.record.kobj = some c ∧
          s.possible part c e.record = false) → is (s.finishTask e.vf e.id 1 4 false)) ∧
      ∀ (c : CodeObj) (pl : Placing), s.code? e.record.asid e.record.kobj = some c → s.possible part c e.record = true →
        (s.headLaunch part ≠ some e ∨ s.savedOf part ≠ [] ∨
          s.areaBytes part < s.imagesOf part + imageBytes c e.record * e.record.count → is s) ∧
        (s.headLaunch part = some e → s.savedOf part = [] → s.imagesOf part + imageBytes c e.record * e.record.count ≤ s.areaBytes part →
          s.placeGiven c e.record (s.usages []) (s.openQuads part) cores = some pl →
          ∃ t new, exec (.launchAdmit e.vf e.id.toNat cores) s = .next t ∧ t.wgs = s.wgs ++ new ∧
            new.map (fun w => (w.lid, w.index, w.core, w.variant, w.ngrp)) =
              pl.zipIdx.map (fun p => (s.tick, p.2, some p.1.1, p.1.2, (e.record.ngrp[p.1.2]?).getD 0)) ∧
            t.queue = s.queue.map (fun x => if x.vf = e.vf ∧ x.id = e.id then { x with admitted := true } else x) ∧
            t.launches.map (fun l => (l.lid, l.vf, l.id, l.part, l.level, l.baseLevel)) =
              s.launches.map (fun l => (l.lid, l.vf, l.id, l.part, l.level, l.baseLevel)) ++
                [(s.tick, e.vf, e.id, part, e.level, if e.firmware then 2 else 0)]))) ∧
  (∀ (s : State) (w : Workgroup) (o : SwitchOrder) (core : Nat) (la : Launch) (c : CodeObj) (n : Nat), s.wg? w.wid = some w →
    w.order = some o → w.core = some core → s.launch? w.lid = some la → s.codeOf la = some c → s.meetingPoint w.wid = some n →
    (s.rendezvousClear w.wid = false ∨ s.edgeOpen core = false → exec (.switchRendezvous w.wid) s = .next (s.fitTiers.fused s)) ∧
    ∀ vv vu off, s.rendezvousClear w.wid = true → s.edgeOpen core = true → c.variant? w.variant = some vv → c.variant? o.target = some vu →
      c.points.find? (fun p => p.1 == o.target && p.2.1 == n) = some (o.target, n, off) →
      let es := c.switches.filter (fun e => e.point == n)
      ∃ t : State, exec (.switchRendezvous w.wid) s = .next (t.fitTiers.fused s) ∧ t.groups = s.groups.map (fun g => if g.wid = w.wid ∧ g.retired = false then
          g.moveTo es w.variant o.target (nextPc (c.kobj + BitVec.ofNat 64 off)) else g) ∧
        { t with groups := s.groups, wgs := s.wgs, badScratch := s.badScratch } = s ∧
        (∀ b, b ∈ t.badScratch ↔ b ∈ s.badScratch ∧ (b.1 = w.wid → 8 * b.2 < min vv.scratch vu.scratch)) ∧
        ∃ w', t.wg? w.wid = some w' ∧ w'.variant = o.target ∧ w'.order = none ∧ w'.scratchSize = vu.scratch ∧
          (∀ x ∈ s.wgs, x.wid ≠ w.wid → x ∈ t.wgs)) ∧
  ∀ (g : Group) (es : List SwitchEnt) (v u : Nat) (pc : W64) (h k : Nat), h < g.width → k < 256 →
    let m := moves es 0 v u
    (m.map Prod.snd).Nodup → (∀ p ∈ m, p.2 < 256) →
    (∀ j, (j, k) ∈ m → (g.moveTo es v u pc).vreg h k = g.vreg h j) ∧
    ((∀ j, (j, k) ∉ m) → (g.moveTo es v u pc).vreg h k = 0)

/-- R203, R320: CONTEXT_PROMOTE brings the issuable group of highest priority, longest outside and lowest slot, into the active set where
its context fits beside those there, none of which leaves; with no issuable group outside nothing happens. CONTEXT_AGEING does so for the
groups that have waited 65,536 cycles, and goes first: CONTEXT_PROMOTE leaves the state as it is while one of them would enter.
Where the manual leaves a choice, the model's is that of log entry 37. -/
def Statements.ContextsMove : Prop :=
  ∀ (s : State) (core : Nat), (s.groups.map (·.gid)).Nodup →
    let active := s.groups.filter (fun x => !x.retired && s.coreOf x == some core && x.tier == .active)
    let fits (g : Group) : Prop := sumOf (active.map s.unitsOf) + s.unitsOf g ≤ 1024
    let enters (i : Instr) (g : Group) : Prop := ∃ t, exec i s = .next t ∧
      (∃ x, t.group? g.gid = some x ∧ x.tier = .active ∧ x.tierSince = s.cycle core) ∧
      ∀ x ∈ s.groups, x.gid ≠ g.gid → x.tier = .active → ∃ y ∈ t.groups, y.gid = x.gid ∧ y.tier = .active
    let old := (s.waitingGroups core).filter (fun g => 65536 ≤ (s.cycle core - g.tierSince).toNat)
    (s.waitingGroups core = [] → exec (.contextPromote core) s = .next s) ∧
    (∀ g rest, old = [] → (s.waitingGroups core).sortBy s.promoteBefore = g :: rest → fits g → enters (.contextPromote core) g) ∧
    (∀ g rest, old.sortBy s.promoteBefore = g :: rest → fits g → exec (.contextPromote core) s = .next s) ∧
    (old = [] → exec (.contextAgeing core) s = .next s) ∧
    ∀ g rest, old.sortBy s.promoteBefore = g :: rest → fits g → enters (.contextAgeing core) g

/-- Retirement, admission, variant switches and register tiers: the statements `Statements.LaunchesPlaced`, `Statements.ContextsMove` together. -/
def Obligations.LaunchesAndContexts : Prop :=
  Statements.LaunchesPlaced ∧ Statements.ContextsMove

/-- R396, R403, R408 to R415, R433, R445: ISSUE_STOP stops a quad that its owner leaves within 20 µs, ends REGROUP waits there, and turns
chains not yet accepted into entries to replay;
QUIESCENCE_COMPLETE follows when its groups are quiet; CONTEXT_SAVE_COMPLETE takes every context off the quad and, past the boundary,
sets it running again; SLOT_BOUNDARY, at the row's end, puts the next row in force and gives each quad to the partition it names.
Where the manual leaves a choice, the model's is that of log entry 35. -/
def Obligations.SlotEdges : Prop :=
  (∀ (s : State) (q : Nat) (k : QuadState), s.quads[q]? = some k →
    ((∀ b, s.leavesAt q = some b → k.edge ≠ .running ∨ (s.time 0).toNat + 20000 < b) → exec (.issueStop q) s = .next s) ∧
    (∀ b, s.leavesAt q = some b → k.edge = .running → b ≤ (s.time 0).toNat + 20000 → ∃ t, exec (.issueStop q) s = .next t ∧
      t.quads[q]? = some { k with edge := .stopped, leaver := k.owner, bound := BitVec.ofNat 64 b, overran := false } ∧
      (∀ j, j ≠ q → t.quads[j]? = s.quads[j]?) ∧
      ∀ g ∈ s.stopGroups q, (∀ x ∈ t.groups, x.gid = g.gid → ∀ y ∈ x.threads, ∀ a b c, y.wait ≠ .regroup a b c) ∧
        ∀ o ∈ t.ops, o.gid = g.gid → o.instr.isAtomic = true ∨ o.instr.isDeque = true → ∀ l ∈ o.lanes, l.isTodo = false) ∧
    (k.edge ≠ .stopped ∨ s.quiet q = false → exec (.quiescenceComplete q) s = .next s) ∧
    (k.edge = .stopped → s.quiet q = true → ∃ t, exec (.quiescenceComplete q) s = .next t ∧ { t with quads := s.quads } = s ∧
      t.quads[q]? = some { k with edge := .quiesced } ∧ ∀ j, j ≠ q → t.quads[j]? = s.quads[j]?) ∧
    (k.edge ≠ .quiesced → exec (.contextSaveComplete q) s = .next s) ∧
    (k.edge = .quiesced → ∃ t k', exec (.contextSaveComplete q) s = .next t ∧ t.quads[q]? = some k' ∧
      k'.edge = (if k.bound ≤ s.rowStart then .running else .saved) ∧
      (∀ w ∈ t.wgs, w.retired = false → ∀ c, w.core = some c → quadOf c ≠ q) ∧
      (∀ g ∈ t.groups, g.retired = false → ∀ l, g.landing = some l → quadOf l.core ≠ q) ∧
      ∀ x ∈ t.l1, quadOf x.core ≠ q)) ∧
  (∀ s : State, ((s.time 0).toNat < s.rowEnd → exec .slotBoundary s = .next s) ∧
    (s.rowEnd ≤ (s.time 0).toNat → s.deferredCmds = [] → ∃ t, exec .slotBoundary s = .next t ∧ t.rowStart = BitVec.ofNat 64 s.rowEnd ∧
      (∀ p, s.pendingTable = some p → dueBy p.accepted s.rowEnd = true → t.rows = p.rows ∧ t.curRow = 0 ∧ t.pendingTable = none) ∧
      (s.pendingTable = none → t.rows = s.rows ∧ t.curRow = (s.curRow + 1) % s.rows.length) ∧
      ∀ q k, q < 64 → t.quads[q]? = some k → k.donor = none ∧ k.owner = t.entitled s.rowEnd t.row q)) ∧
  ∀ (s : State) (q p : Nat) (k : QuadState) (x : Partition), s.quads[q]? = some k → s.part? p = some x →
    ((k.edge = .running ∨ k.edge = .saved) ∨ (s.time 0).toNat ≤ k.bound.toNat + 10000 ∨ s.rowStart < k.bound ∨ k.overran = true →
      exec (.overrun q) s = .next s) ∧
    (k.edge = .stopped ∨ k.edge = .quiesced → k.bound.toNat + 10000 < (s.time 0).toNat → k.bound ≤ s.rowStart → k.overran = false →
      k.leaver = some p → x.rotating = false → (∀ j z, s.quads[j]? = some z → j ≠ q → z.leaver = some p → z.bound = k.bound →
        z.overran = false) →
      ∃ t, exec (.overrun q) s = .next t ∧ t.part? p = some { x with overruns := addSat x.overruns 1 } ∧
        t.vectors = s.vectors ++ [(0, 3)] ∧ t.quads[q]? = some { k with overran := true }) ∧
    (k.idleUntil ≠ 0 → k.idleUntil ≤ s.time 0 → ∃ t, exec (.overrunDelayEnd q) s = .next t ∧ { t with quads := s.quads } = s ∧
      t.quads[q]? = some { k with idleUntil := 0 }) ∧
    (k.idleUntil = 0 ∨ s.time 0 < k.idleUntil → exec (.overrunDelayEnd q) s = .next s) ∧
    (∀ e d, k.owner = some p → s.row.ents.find? (fun e => e.part == p) = some e → e.donTo = some d → k.edge = .running → k.donor = none →
      s.mayHold (s.time 0).toNat d = true → s.hasWork q = false →
      if k.idleSince.toNat + 10000 ≤ (s.time 0).toNat ∧ (s.time 0).toNat + 40000 ≤ s.rowEnd then
        ∃ t, exec (.slackDonation q) s = .next t ∧ { t with quads := s.quads } = s ∧
          t.quads[q]? = some { k with owner := some d, donor := some e.part, idleSince := s.time 0 }
      else exec (.slackDonation q) s = .next s) ∧
    (s.hasWork q = true → exec (.slackDonation q) s = .next s) ∧
    (∀ w la c u core, s.wg? w.wid = some w → s.launch? w.lid = some la → s.codeOf la = some c → (s.savedOf la.part).head? = some w →
      s.resumeVariant w (s.usages []) core = some u → s.resumeFits w la.part core = true →
      ∃ t w', exec (.workgroupResume w.wid core) s = .next t ∧ t.wg? w.wid = some w' ∧ w'.core = some core) ∧
    (∀ w la core, s.wg? w.wid = some w → s.launch? w.lid = some la → (∀ v, (s.savedOf la.part).head? = some v → v.wid ≠ w.wid) ∨
      s.resumeFits w la.part core = false → exec (.workgroupResume w.wid core) s = .next (s.fitTiers.fused s)) ∧
    (x.rotating = false → exec (.keyRotateComplete p) s = .next s) ∧
    (x.rotating = true → (∀ z ∈ s.quads, z.owner ≠ some p ∧ (z.leaver = some p → z.edge ≠ .running → s.rowStart < z.bound)) →
      ∃ t y, exec (.keyRotateComplete p) s = .next t ∧ t.keyGen = s.keyGen + 1 ∧ t.part? p = some y ∧ y.keyGen = s.keyGen + 1 ∧
        y.rotating = false)

/-- The command i, taken by firmware from the head of its ring, completes with the state u, a status and a result (R437, R438). -/
def Statements.Completes (s : State) (h : CmdHead) (i : Instr) (u : State) (status : Nat) (result : W64) : Prop :=
  exec i s = .next ((u.complete h status result).fused s)

/-- The command i, taken by firmware from the head of its ring, evicts the lines of some ranges (ASID, first address, end), waits until TIME
has passed the largest lease record of those lines, then makes its change and completes with status 0; accesses to the ranges wait with it.
`good` says of a state that the command would not be refused in it (R241, R367, R437, R438). -/
def Statements.CompletesOver (s : State) (h : CmdHead) (i : Instr) (rs : List (Nat × Nat × Nat)) (good : State → Prop)
    (changed : State → State → Prop) : Prop :=
  let u := s.takeCommand h.fn
  let lease := u.leaseOver rs
  let e := u.evictOver rs
  (∀ r ∈ rs, ∀ x ∈ e.home, x.asid = r.1 → ¬(r.2.1 ≤ x.line * 64 ∧ x.line * 64 < r.2.2)) ∧
  (lease = 0 ∨ lease < s.time 0 → ∃ v, Statements.Completes s h i v 0 0 ∧ changed e v) ∧
  (lease ≠ 0 → s.time 0 ≤ lease → exec i s = .next (({ e with fwWait := some ⟨h, i, rs, lease⟩ } : State).fused s)) ∧
  ∀ w : State, w.fwWait = some ⟨h, i, rs, lease⟩ → good w → (lease ≠ 0 → w.time 0 ≤ lease → w.endWait = w) ∧
    (lease = 0 ∨ lease < w.time 0 → ∃ v, w.endWait = v.complete h 0 0 ∧ changed w v)

/-- R402, R415, R438, R439, R445, R451: the commands on partitions and tables: PART_CREATE adds a partition with a new key and takes the frames
of its context area and of the root of its stage-2 tables; the deferred PART_DELETE, PART_MODE, SLOT_WRITE and KEY_ROTATE are accepted with the time, a table change replacing
the one that waits; each is refused with the status that its object calls for, without effect. A command that does not head its ring, or
has no completion entry free, does nothing.
Where the manual leaves a choice, the model's is that of log entries 33, 34 and 52. -/
def Obligations.PartitionCommands : Prop :=
  ∀ (s : State) (h : CmdHead) (part parent : BitVec 8) (area : W64) (frames : W32) (table : W64) (n : BitVec 16)
      (kids : List (BitVec 8 × BitVec 8)),
    let u := s.takeCommand h.fn
    let doomed (p : Nat) : Prop := ∃ g q t, Deferred.partDelete g q t ∈ s.deferredCmds ∧ q = p
    (∀ i ∈ [Instr.partCreate h part parent area frames, .partDelete h part, .partMode h table n kids, .slotWrite h table n, .keyRotate h part],
      s.mayTake h i = false → exec i s = .next s) ∧
    (s.mayTake h (.partCreate h part parent area frames) = true →
      let ends := Statements.Completes s h (.partCreate h part parent area frames)
      let good : Prop := part.toNat < 64 ∧ parent.toNat < 64 ∧ area.toNat % 65536 = 0 ∧ area.toNat + frames.toNat * 65536 ≤ 2 ^ 40
      (¬good → ends u 2 0) ∧
      (good → s.hbmFrames area.toNat frames.toNat = true → ¬doomed part.toNat → ¬doomed parent.toNat →
        (∀ p, s.part? part.toNat = some p → ends u 5 0) ∧
        (s.part? part.toNat = none → parent ≠ part → ∀ p, s.part? parent.toNat = some p → p.parent ≠ parent.toNat → ends u 2 0) ∧
        (s.part? part.toNat = none → (parent = part ∨ ∃ p, s.part? parent.toNat = some p ∧ p.parent = parent.toNat) →
          (∀ k, k < frames.toNat → s.frameOwners.get (area.toNat / 65536 + k) = 0) →
          let w := u.setOwners area.toNat frames.toNat (byteOf (0xC0 + part.toNat))
          (w.spareFrames (tableFrames 0) = none → ends u 7 0) ∧
          ∀ root, w.spareFrames (tableFrames 0) = some root →
            ∃ v, ends v 0 0 ∧ { v with parts := u.parts, frameOwners := u.frameOwners, keyGen := u.keyGen } = u ∧ v.keyGen = s.keyGen + 1 ∧
              v.parts = s.parts ++ [⟨part.toNat, parent.toNat, s.keyGen + 1, area.toNat, frames.toNat, root, [], 0, 0, 0, false⟩] ∧
              (∀ k, k < frames.toNat → v.frameOwners.get (area.toNat / 65536 + k) = BitVec.ofNat 8 (0xC0 + part.toNat)) ∧
              ∀ k, k < tableFrames 0 → v.frameOwners.get (root / 65536 + k) = BitVec.ofNat 8 (0xC0 + part.toNat)))) ∧
    (s.mayTake h (.partDelete h part) = true → part.toNat < 64 →
      let ends := Statements.Completes s h (.partDelete h part)
      (s.part? part.toNat = none → ends u 4 0) ∧
      ∀ p, s.part? part.toNat = some p →
        let busy : Prop := doomed part.toNat ∨ (∃ x ∈ s.parts, x.parent = part.toNat ∧ x.num ≠ part.toNat) ∨
          (∃ f ∈ s.funcs, f.bound = some part.toNat) ∨ ∃ c ∈ s.asids, c.part = part.toNat
        (busy → ends u 6 0) ∧
        (¬busy → (∀ g q t, Deferred.keyRotate g q t ∈ s.deferredCmds → q ≠ part.toNat) → exec (.partDelete h part) s =
          .next { u with deferredCmds := s.deferredCmds ++ [.partDelete h part.toNat (s.time 0)] })) ∧
    (s.mayTake h (.slotWrite h table n) = true →
      let ends := Statements.Completes s h (.slotWrite h table n)
      (n = 0 ∨ 256 < n.toNat → ends u 2 0) ∧
      (0 < n.toNat → n.toNat ≤ 256 → u.readTable table.toNat n.toNat (u.parentIn []) = none → ends u 8 0) ∧
      ∀ rows, 0 < n.toNat → n.toNat ≤ 256 → u.readTable table.toNat n.toNat (u.parentIn []) = some rows →
        ((∃ r ∈ rows, ∃ e ∈ r.ents, doomed e.part) → ends u 6 0) ∧
        ((∀ r ∈ rows, ∀ e ∈ r.ents, ¬doomed e.part) →
          let v : State := { u with pendingTable := some ⟨h, rows, [], s.time 0⟩ }
          (s.pendingTable = none → exec (.slotWrite h table n) s = .next v) ∧
          ∀ t, s.pendingTable = some t → exec (.slotWrite h table n) s = .next ((v.complete t.head 11 0).fused s))) ∧
    (s.mayTake h (.partMode h table n kids) = true → 8 < kids.length → Statements.Completes s h (.partMode h table n kids) u 2 0) ∧
    (s.mayTake h (.partMode h table n kids) = true → 0 < n.toNat → n.toNat ≤ 256 → kids.length ≤ 8 → (kids.map (·.1)).Nodup →
      let ends := Statements.Completes s h (.partMode h table n kids)
      let ks := kids.map (fun c => (c.1.toNat, c.2.toNat))
      (∀ c ∈ kids, c.1.toNat < 64 ∧ c.2.toNat < 64) →
      ((∃ c ∈ kids, s.part? c.1.toNat = none ∨ s.part? c.2.toNat = none) → ends u 4 0) ∧
      ((∀ c ∈ kids, s.part? c.1.toNat ≠ none ∧ s.part? c.2.toNat ≠ none ∧ ¬doomed c.1.toNat ∧ ¬doomed c.2.toNat) →
        (∀ p ∈ s.parts, u.parentIn ks p.num ≠ p.num → u.parentIn ks (u.parentIn ks p.num) = u.parentIn ks p.num) →
        (u.readTable table.toNat n.toNat (u.parentIn ks) = none → ends u 8 0) ∧
        ∀ rows, u.readTable table.toNat n.toNat (u.parentIn ks) = some rows → (∀ r ∈ rows, ∀ e ∈ r.ents, ¬doomed e.part) →
          s.pendingTable = none → exec (.partMode h table n kids) s = .next { u with pendingTable := some ⟨h, rows, ks, s.time 0⟩ })) ∧
    (s.mayTake h (.keyRotate h part) = true → part.toNat < 64 →
      let ends := Statements.Completes s h (.keyRotate h part)
      (s.part? part.toNat = none → ends u 4 0) ∧
      ∀ p, s.part? part.toNat = some p →
        let busy : Prop := doomed part.toNat ∨ ∃ g q t, Deferred.keyRotate g q t ∈ s.deferredCmds
        (busy → ends u 6 0) ∧
        (¬busy → exec (.keyRotate h part) s = .next { u with deferredCmds := s.deferredCmds ++ [.keyRotate h part.toNat (s.time 0)] }))

/-- R238, R241, R243, R359, R364, R367, R439: the commands on functions, address spaces, mappings and frames, each with what it leaves and
the statuses that refuse it. ASID_DELETE, REGION_SET and UNMAP evict lines, make their change and complete once TIME has passed the leases
of those lines. MAP and a shared root make tracked pages.
Where the manual leaves a choice, the model's is that of log entries 33, 34 and 52. -/
def Obligations.AddressCommands : Prop :=
  ∀ (s : State) (h : CmdHead) (vf asid len : BitVec 16) (part log region size attrs : BitVec 8) (ring root va gpa hpa : W64) (entry count : W32),
    let u := s.takeCommand h.fn
    (∀ i ∈ [Instr.vfBind h vf part ring log, .vfUnbind h vf, .asidCreate h asid vf root len, .asidDelete h asid, .regionSet h asid region entry,
        .leaseSet h asid len, .map h asid size attrs count va gpa, .unmap h asid size count va, .frameRevoke h part count hpa],
      s.mayTake h i = false → exec i s = .next s) ∧
    (s.mayTake h (.vfBind h vf part ring log) = true → 0 < vf.toNat → vf.toNat ≤ 256 → ring.toNat % 64 = 0 → 4 ≤ log.toNat →
      log.toNat ≤ 16 → part.toNat < 64 →
      let ends := Statements.Completes s h (.vfBind h vf part ring log)
      (s.part? part.toNat = none → ends u 4 0) ∧
      ∀ p, s.part? part.toNat = some p → (∀ q, u.partOf vf.toNat = some q → ends u 5 0) ∧
        (u.partOf vf.toNat = none → s.doomed part.toNat = false → ∃ v f, ends v 0 0 ∧ { v with funcs := u.funcs } = u ∧
          v.func? vf.toNat = some f ∧ f.bound = some part.toNat ∧ f.fqRing = ring ∧ f.fqLog = log.toNat ∧ f.fqPi = 0 ∧ f.fqCi = 0)) ∧
    (s.mayTake h (.vfUnbind h vf) = true → 0 < vf.toNat → vf.toNat ≤ 256 →
      let ends := Statements.Completes s h (.vfUnbind h vf)
      (u.partOf vf.toNat = none → ends u 4 0) ∧
      ∀ q, u.partOf vf.toNat = some q → ((∃ c ∈ s.asids, c.vf = vf.toNat) → ends u 6 0) ∧
        ((∀ c ∈ s.asids, c.vf ≠ vf.toNat) → ∃ v, ends v 0 0 ∧ { v with funcs := u.funcs } = u ∧ v.partOf vf.toNat = none)) ∧
    (s.mayTake h (.asidCreate h asid vf root len) = true → 0 < vf.toNat → vf.toNat ≤ 256 →
      let ends := Statements.Completes s h (.asidCreate h asid vf root len)
      let r := root.toNat
      let good : Prop := r % 131072 = 0 ∧ r + 131072 ≤ 2 ^ 52
      (¬good → ends u 2 0) ∧ (good → u.partOf vf.toNat = none → ends u 4 0) ∧
      ∀ p, good → u.partOf vf.toNat = some p → (∀ c, s.asid? asid.toNat = some c → ends u 5 0) ∧
        (s.asid? asid.toNat = none →
          let made := if (u.part? p).any (fun q => leafMeets q.table r (r + 131072)) then some u
            else (u.takeTable p 0).bind (fun t => t.2.mapTable p r t.1 (tableFrames 0))
          let table := ((s.asids.find? (fun c => c.part == p && c.root == root)).map (·.table)).getD []
          (made = none → ends u 7 0) ∧ ∀ v, made = some v → ∃ x new, ends x 0 0 ∧ { x with asids := v.asids, pages := v.pages } = v ∧
            x.asids = v.asids ++ [⟨asid.toNat, p, vf.toNat, root, leaseLen (len.setWidth 64), [], table⟩] ∧ x.pages = v.pages ++ new ∧
            (∀ g ∈ new, g.asid = asid.toNat) ∧
            ∀ e ∈ table, pteV e.word = true → pteLeaf e.word = true → pteTrk e.word = true →
              ∀ f, v.fsetAt p (e.index * 65536) = some f → ∃ g ∈ new, g.page = e.index ∧ g.part = p ∧ g.fset = f.num ∧ g.gpa = pteAddr e.word)) ∧
    (s.mayTake h (.asidDelete h asid) = true →
      let ends := Statements.Completes s h (.asidDelete h asid)
      (s.asid? asid.toNat = none → ends u 4 0) ∧
      ∀ c, s.asid? asid.toNat = some c → (u.asidBusy asid.toNat = true → ends u 6 0) ∧
        (u.asidBusy asid.toNat = false →
          Statements.CompletesOver s h (.asidDelete h asid) (u.rangesOf [asid.toNat] 0 (2 ^ 57))
            (fun w => w.asid? asid.toNat ≠ none ∧ w.asidBusy asid.toNat = false)
            (fun _ v => v.asid? asid.toNat = none ∧ (∀ x ∈ v.codes, x.asid ≠ asid) ∧ ∀ x ∈ v.tlb, x.asid ≠ asid.toNat))) ∧
    (∀ i u', i = Instr.leaseSet h asid len ∧ u' = u.modAsid asid.toNat (fun c => { c with len := leaseLen (len.setWidth 64) }) → s.mayTake h i = true →
      (s.asid? asid.toNat = none → Statements.Completes s h i u 4 0) ∧
      ∀ c, s.asid? asid.toNat = some c → Statements.Completes s h i u' 0 0) ∧
    (s.mayTake h (.regionSet h asid region entry) = true →
      let ends := Statements.Completes s h (.regionSet h asid region entry)
      (s.asid? asid.toNat = none → ends u 4 0) ∧
      ∀ c, s.asid? asid.toNat = some c → Statements.CompletesOver s h (.regionSet h asid region entry)
        (if (c.regions.get region.toNat).getLsbD 31 then [(asid.toNat, region.toNat * 2 ^ 49, (region.toNat + 1) * 2 ^ 49)] else [])
        (fun w => w.asid? asid.toNat ≠ none)
        (fun _ v => ∃ c', v.asid? asid.toNat = some c' ∧ c'.regions.get region.toNat = entry &&& 0x8C0F0300)) ∧
    (s.mayTake h (.map h asid size attrs count va gpa) = true →
      let ends := Statements.Completes s h (.map h asid size attrs count va gpa)
      let unit := 2 ^ levelShift (3 - size.toNat)
      let trk := attrs.getLsbD 2
      let good : Prop := size.toNat ≤ 2 ∧ attrs.toNat < 8 ∧ (trk = true → size = 0) ∧ 0 < count.toNat ∧ va.toNat % unit = 0 ∧
        gpa.toNat % unit = 0 ∧ va.toNat + count.toNat * unit ≤ 2 ^ 57 ∧ gpa.toNat + count.toNat * unit ≤ 2 ^ 52
      (¬good → ends u 2 0) ∧
      (good → s.asid? asid.toNat = none → ends u 4 0) ∧
      ∀ c, good → s.asid? asid.toNat = some c →
        let unset : Prop := trk = true ∧ ∃ k, k < count.toNat ∧ ∀ f ∈ s.fsets, f.part = c.part → ∀ r ∈ f.ranges,
          ¬(r.1 ≤ va.toNat + k * unit ∧ va.toNat + k * unit < r.1 + r.2)
        (unset → ends u 4 0) ∧
        (¬unset → leafMeets c.table va.toNat (va.toNat + count.toNat * unit) = true → ends u 5 0) ∧
        (¬unset → leafMeets c.table va.toNat (va.toNat + count.toNat * unit) = false →
          let pte (k : Nat) : W64 := mkPte (gpa.toNat + k * unit) (attrs.getLsbD 0) (attrs.getLsbD 1) trk
          let made := (List.range count.toNat).foldl (fun (r : Option State) k => r.bind (fun w =>
            w.map1 asid.toNat (3 - size.toNat) (va.toNat + k * unit) (pte k))) (some u)
          (made = none → ends u 7 0) ∧ ∀ v, made = some v → ∃ x new, ends x 0 0 ∧
            { x with asids := u.asids, parts := u.parts, frameOwners := u.frameOwners, pages := u.pages } = u ∧
            (∃ c', x.asid? asid.toNat = some c' ∧ ∀ k, k < count.toNat → entryOf c'.table (3 - size.toNat) (va.toNat + k * unit) = pte k) ∧
            x.pages = u.pages ++ new ∧ (trk = false → new = []) ∧
            (trk = true → ∀ a ∈ u.sharers asid.toNat, ∀ k, k < count.toNat → ∃ g ∈ new, g.asid = a ∧ g.part = c.part ∧
              g.page = (va.toNat + k * unit) / 65536 ∧ g.gpa = gpa.toNat + k * unit))) ∧
    (s.mayTake h (.unmap h asid size count va) = true →
      let ends := Statements.Completes s h (.unmap h asid size count va)
      let unit := 2 ^ levelShift (3 - size.toNat)
      let good : Prop := size.toNat ≤ 2 ∧ 0 < count.toNat ∧ va.toNat % unit = 0 ∧ va.toNat + count.toNat * unit ≤ 2 ^ 57
      (¬good → ends u 2 0) ∧
      ∀ c, good → s.asid? asid.toNat = some c →
        let here (e : Pte) (k : Nat) : Prop := pteLeaf e.word = true ∧ e.level = 3 - size.toNat ∧ e.index = va.toNat / unit + k
        ((∃ k, k < count.toNat ∧ ∀ e ∈ c.table, ¬here e k) → ends u 4 0) ∧
        ((∀ k, k < count.toNat → ∃ e ∈ c.table, here e k) → Statements.CompletesOver s h (.unmap h asid size count va)
          (u.rangesOf (u.sharers asid.toNat) va.toNat (va.toNat + count.toNat * unit))
          (fun w => ∃ d, w.asid? asid.toNat = some d ∧ ∀ k, k < count.toNat → ∃ e ∈ d.table, here e k)
          (fun w v => ∀ d, w.asid? asid.toNat = some d → ∃ c', v.asid? asid.toNat = some c' ∧
            ∀ e, e ∈ c'.table ↔ e ∈ d.table ∧ ∀ k, k < count.toNat → ¬here e k))) ∧
    (∀ dest fset : BitVec 8, s.mayTake h (.frameGrant h part dest fset attrs count hpa gpa) = true → dest = 0 → attrs.toNat < 4 → 0 < count.toNat →
      hpa.toNat % 65536 = 0 → gpa.toNat % 65536 = 0 → gpa.toNat + count.toNat * 65536 ≤ 2 ^ 52 → part.toNat < 64 → fset.toNat < 64 →
      hpa.toNat + count.toNat * 65536 ≤ 2 ^ 40 →
      let ends := Statements.Completes s h (.frameGrant h part dest fset attrs count hpa gpa)
      (s.part? part.toNat = none → ends u 4 0) ∧
      ∀ p, s.part? part.toNat = some p → s.hbmFrames hpa.toNat count.toNat = true →
        leafMeets p.table gpa.toNat (gpa.toNat + count.toNat * 65536) = false →
        ((∃ k, k < count.toNat ∧ s.frameOwners.get (hpa.toNat / 65536 + k) ≠ 0) → ends u 6 0) ∧
        (s.doomed part.toNat = false → (∀ k, k < count.toNat → s.frameOwners.get (hpa.toNat / 65536 + k) = 0) →
          let pte (k : Nat) : W64 := mkPte (hpa.toNat + k * 65536) (attrs.getLsbD 0) (attrs.getLsbD 1) false
          let made := (List.range count.toNat).foldl (fun (r : Option State) k => r.bind (fun w =>
              w.map2 part.toNat 3 (gpa.toNat + k * 65536) (pte k)))
            (some ((u.setOwners hpa.toNat count.toNat (byteOf (0x80 + part.toNat))).forgetRecords hpa.toNat count.toNat))
          (made = none → ends u 7 0) ∧ ∀ w, made = some w → ∃ v p', ends v 0 0 ∧ v.part? part.toNat = some p' ∧
            { v with parts := u.parts, frameOwners := u.frameOwners, hbmScope := u.hbmScope, pages := u.pages } = u ∧
            (∀ e ∈ v.hbmScope, e.1 * 64 < hpa.toNat ∨ hpa.toNat + count.toNat * 65536 ≤ e.1 * 64) ∧
            ∀ k, k < count.toNat → entryOf p'.table 3 (gpa.toNat + k * 65536) = pte k ∧
              v.frameOwners.get (hpa.toNat / 65536 + k) = BitVec.ofNat 8 (0x80 + part.toNat))) ∧
    (∀ dest fset : BitVec 8, s.mayTake h (.frameGrant h part dest fset attrs count hpa gpa) = true → dest = 1 → attrs.toNat < 4 → 0 < count.toNat →
      hpa.toNat % 65536 = 0 → part.toNat < 64 → fset.toNat < 64 → hpa.toNat + count.toNat * 65536 ≤ 2 ^ 40 →
      let ends := Statements.Completes s h (.frameGrant h part dest fset attrs count hpa gpa)
      ∀ p, s.part? part.toNat = some p → s.hbmFrames hpa.toNat count.toNat = true →
        (s.fset? part.toNat fset.toNat = none → ends u 4 0) ∧
        ∀ f, s.fset? part.toNat fset.toNat = some f → (2 ^ 20 < f.pool.length + count.toNat → ends u 2 0) ∧
          (f.pool.length + count.toNat ≤ 2 ^ 20 → s.doomed part.toNat = false →
            (∀ k, k < count.toNat → s.frameOwners.get (hpa.toNat / 65536 + k) = 0) → ∃ v f', ends v 0 0 ∧
              { v with fsets := u.fsets, frameOwners := u.frameOwners, hbmScope := u.hbmScope } = u ∧
              v.fset? part.toNat fset.toNat = some f' ∧
              f' = { f with pool := f.pool ++ (List.range count.toNat).map (fun k => hpa.toNat + k * 65536) } ∧
              ∀ k, k < count.toNat → v.frameOwners.get (hpa.toNat / 65536 + k) = BitVec.ofNat 8 (0x80 + part.toNat))) ∧
    (s.mayTake h (.frameRevoke h part count hpa) = true → 0 < count.toNat → hpa.toNat % 65536 = 0 → part.toNat < 64 →
      hpa.toNat + count.toNat * 65536 ≤ 2 ^ 40 →
      let ends := Statements.Completes s h (.frameRevoke h part count hpa)
      let mine (f : Nat → Prop) : Prop := ∀ k, k < count.toNat → f (hpa.toNat + k * 65536)
      (s.part? part.toNat = none → ends u 4 0) ∧ (s.part? part.toNat ≠ none → s.doomed part.toNat = true → ends u 6 0) ∧
      ∀ p, s.part? part.toNat = some p → s.doomed part.toNat = false → mine (fun f => u.ownsFrame part.toNat f = true) →
        let held (f : Nat) : Prop := u.frameMapped p f = true ∨ u.isPinned f = true ∨ ∃ g ∈ s.pages, ∃ x ∈ g.frames, x.hpa = f
        (¬mine (fun f => ¬held f) → ends u 6 0) ∧
        (mine (fun f => ¬held f) → ∃ v p', ends v 0 0 ∧ v.part? part.toNat = some p' ∧
          (∀ k, k < count.toNat → v.frameOwners.get (hpa.toNat / 65536 + k) = 0) ∧
          ∀ e, e ∈ p'.table ↔ e ∈ p.table ∧ (pteLeaf e.word = true → ∀ k, k < count.toNat → pteAddr e.word ≠ hpa.toNat + k * 65536)))

/-- R217 to R219, R233, R306, R374, R375, R377, R383, R439, R448, R450, R462, R467: the commands on code objects, launch queues, field sets,
fault records, collective membership and reports, each with what it leaves and the statuses that refuse it.
Where the manual leaves a choice, the model's is that of log entries 33 and 34. -/
def Obligations.WorkCommands : Prop :=
  ∀ (s : State) (h : CmdHead) (asid group rank members : BitVec 16) (part fset nr log clog : BitVec 8) (src kobj base cring addr wlen : W64)
      (n wstep fid timeout : W32) (nonce : List Byte),
    let u := s.takeCommand h.fn
    (∀ i ∈ [Instr.codeLoad h asid src n kobj, .codeUnload h asid kobj, .lqCreate h base log cring clog, .lqDelete h,
        .fsetCreate h part fset nr wstep addr, .fsetDelete h part fset, .fqServiceReplay h fid, .fqServiceDrop h fid, .fqServiceTrap h fid,
        .collJoin h part group rank members timeout asid base wlen, .collLeave h part group, .attest h nonce addr, .health h addr],
      s.mayTake h i = false → exec i s = .next s) ∧
    (s.mayTake h (.codeLoad h asid src n kobj) = true → kobj.toNat % 64 = 0 → 0 < n.toNat → kobj.toNat + n.toNat ≤ 2 ^ 57 →
      let ends := Statements.Completes s h (.codeLoad h asid src n kobj)
      let d := s.hostMem.bytes src.toNat n.toNat
      (s.asid? asid.toNat = none → ends u 4 0) ∧
      ∀ c, s.asid? asid.toNat = some c → (h.fn ≠ 0 → u.partOf h.fn ≠ some c.part → ends u 3 0) ∧
        (h.fn = 0 ∨ u.partOf h.fn = some c.part →
          (parseObject d asid (BitVec.ofNat 64 kobj.toNat) = none → ends u 9 0) ∧
          ∀ o, parseObject d asid (BitVec.ofNat 64 kobj.toNat) = some o →
            (u.codeMapped asid.toNat kobj.toNat n.toNat = false → ends u 4 0) ∧
            (u.codeMapped asid.toNat kobj.toNat n.toNat = true → s.code? asid (BitVec.ofNat 64 kobj.toNat) = none →
              ∃ v, ends v 0 (BitVec.ofNat 64 kobj.toNat) ∧ v.codes = s.codes ++ [o]))) ∧
    (s.mayTake h (.codeUnload h asid kobj) = true → h.fn = 0 ∨ (∀ c, s.asid? asid.toNat = some c → u.partOf h.fn = some c.part) →
      let ends := Statements.Completes s h (.codeUnload h asid kobj)
      (s.code? asid kobj = none → ends u 4 0) ∧
      ∀ o, s.code? asid kobj = some o → ((∃ e ∈ s.queue, e.record.asid = asid ∧ e.record.kobj = kobj) → ends u 6 0) ∧
        ((∀ e ∈ s.queue, e.record.asid = asid → e.record.kobj ≠ kobj) →
          ends { u with codes := s.codes.filter (fun c => !(c.asid == asid && c.kobj == kobj)) } 0 0)) ∧
    (∀ f, u.func? h.fn = some f →
      (s.mayTake h (.lqCreate h base log cring clog) = true →
        let ends := Statements.Completes s h (.lqCreate h base log cring clog)
        let good : Prop := 2 ≤ log.toNat ∧ log.toNat ≤ 12 ∧ 4 ≤ clog.toNat ∧ clog.toNat ≤ 12
        (¬good → ends u 2 0) ∧ (good → f.lqMade = true → ends u 5 0) ∧
        (good → f.lqMade = false → ∃ v f', ends v 0 0 ∧ v.func? h.fn = some f' ∧ f'.lqMade = true ∧ f'.lqBase.toNat = base.toNat ∧
          f'.lqLog = log.toNat ∧ f'.lcLog = clog.toNat ∧ f'.nextId = 0)) ∧
      (s.mayTake h (.lqDelete h) = true →
        let ends := Statements.Completes s h (.lqDelete h)
        (f.lqMade = false → ends u 4 0) ∧ (f.lqMade = true → u.queued h.fn ≠ 0 ∨ f.lqSubmitted ≠ [] → ends u 6 0) ∧
        (f.lqMade = true → u.queued h.fn = 0 → f.lqSubmitted = [] → ∃ v f', ends v 0 0 ∧ { v with funcs := u.funcs } = u ∧
          v.func? h.fn = some f' ∧ f' = { f with lqMade := false }))) ∧
    (s.mayTake h (.fsetCreate h part fset nr wstep addr) = true → part.toNat < 64 → fset.toNat < 64 → 0 < nr.toNat → nr.toNat ≤ 16 →
      let ends := Statements.Completes s h (.fsetCreate h part fset nr wstep addr)
      let rs := (List.range nr.toNat).map (fun k => (s.hostMem.le (addr.toNat + 16 * k) 8, s.hostMem.le (addr.toNat + 16 * k + 8) 8))
      (∀ r ∈ rs, r.1 % 65536 = 0 ∧ r.2 % 65536 = 0 ∧ 0 < r.2 ∧ r.1 + r.2 ≤ 2 ^ 57) →
      (∀ f ∈ s.fsets, f.part = part.toNat → ∀ x ∈ f.ranges, ∀ r ∈ rs, rangesCross x r = false) →
      (s.part? part.toNat = none → ends u 4 0) ∧
      ∀ p, s.part? part.toNat = some p → (∀ f, s.fset? part.toNat fset.toNat = some f → ends u 5 0) ∧
        (s.fset? part.toNat fset.toNat = none → s.doomed part.toNat = false →
          ends { u with fsets := s.fsets ++ [⟨part.toNat, fset.toNat, rs, wstep, [], []⟩] } 0 0)) ∧
    (s.mayTake h (.fsetDelete h part fset) = true →
      let ends := Statements.Completes s h (.fsetDelete h part fset)
      let good : Prop := part.toNat < 64 ∧ fset.toNat < 64
      (¬good → ends u 2 0) ∧ (good → s.fset? part.toNat fset.toNat = none → ends u 4 0) ∧
      ∀ f, good → s.fset? part.toNat fset.toNat = some f →
        (s.doomed part.toNat = true ∨ (∃ g ∈ s.pages, g.part = part.toNat ∧ g.fset = fset.toNat) → ends u 6 0) ∧
        (s.doomed part.toNat = false → (∀ g ∈ s.pages, g.part = part.toNat → g.fset ≠ fset.toNat) → ∃ v, ends v 0 0 ∧ v.fset? part.toNat fset.toNat = none)) ∧
    (∀ i ∈ [Instr.fqServiceReplay h fid, .fqServiceDrop h fid, .fqServiceTrap h fid], s.mayTake h i = true →
      (u.fidRef h.fn fid = none → Statements.Completes s h i u 10 0) ∧
      ∀ id o, u.fidRef h.fn fid = some (.op id) → s.op? id = some o →
        (o.log = .handler → Statements.Completes s h i u 3 0) ∧
        (o.log ≠ .handler →
          (i = .fqServiceReplay h fid → ∃ v o', Statements.Completes s h i v 0 0 ∧ v.op? id = some o' ∧ o' = { o with log := .replay }) ∧
          (i = .fqServiceDrop h fid → ∃ v, Statements.Completes s h i v 0 0 ∧
            ∀ o' ∈ v.ops, o'.id = o.id → ∀ l ∈ o'.lanes, l.isLogged = false) ∧
          (i = .fqServiceTrap h fid → ∀ t g, o.trapOf = some t → s.group? o.gid = some g → ∃ v o' g', Statements.Completes s h i v 0 0 ∧
            v.op? id = some o' ∧ o'.log = .handler ∧ v.group? o.gid = some g' ∧ g'.traps = g.traps ++ [t]))) ∧
    (s.mayTake h (.collJoin h part group rank members timeout asid base wlen) = true →
      let ends := Statements.Completes s h (.collJoin h part group rank members timeout asid base wlen)
      let good : Prop := part.toNat < 64 ∧ 0 < members.toNat ∧ members.toNat ≤ 1024 ∧ rank.toNat < members.toNat ∧ timeout.toNat ≤ 60000 ∧
        base.toNat % 65536 = 0 ∧ wlen.toNat % 65536 = 0 ∧ 0 < wlen.toNat ∧ wlen.toNat ≤ 2 ^ 39
      (¬good → ends u 2 0) ∧ (good → s.part? part.toNat = none → ends u 4 0) ∧
      ∀ p, good → s.part? part.toNat = some p → (∀ c, s.coll? part.toNat group.toNat = some c → ends u 5 0) ∧
        (s.coll? part.toNat group.toNat = none →
          ((∀ c ∈ s.asids, c.asid = asid.toNat → c.part ≠ part.toNat) → ends u 4 0) ∧
          ((∃ c ∈ s.asids, c.asid = asid.toNat ∧ c.part = part.toNat) → s.doomed part.toNat = false →
            ∃ v c m, ends v 0 0 ∧ v.coll? part.toNat group.toNat = some c ∧ c.rank = rank.toNat ∧ c.members = members.toNat ∧
              c.timeoutMs = (if timeout = 0 then 100 else timeout.toNat) ∧ c.wasid = asid.toNat ∧ c.wbase = base.toNat ∧ c.wlen = wlen.toNat ∧
              (s.collLeft.contains (part.toNat, group.toNat) = false → c.issued = []) ∧ v.mgmt = s.mgmt ++ [m] ∧
              m = ⟨0x202, natBytes 2 Config.stationId.toNat ++ natBytes 1 part.toNat ++
                (natBytes 2 group.toNat ++ natBytes 2 rank.toNat ++ natBytes 2 members.toNat ++ [0])⟩))) ∧
    (s.mayTake h (.collLeave h part group) = true →
      let ends := Statements.Completes s h (.collLeave h part group)
      (64 ≤ part.toNat → ends u 2 0) ∧ (part.toNat < 64 → s.coll? part.toNat group.toNat = none → ends u 4 0) ∧
      ∀ c, part.toNat < 64 → s.coll? part.toNat group.toNat = some c →
        (s.doomed part.toNat = true ∨ u.collBusy part.toNat group.toNat = true → ends u 6 0) ∧
        (s.doomed part.toNat = false → u.collBusy part.toNat group.toNat = false → ∃ v, ends v 0 0 ∧ v.coll? part.toNat group.toNat = none ∧
          (part.toNat, group.toNat) ∈ v.collLeft ∧
          v.mgmt = s.mgmt ++ [⟨0x202, natBytes 2 Config.stationId.toNat ++ natBytes 1 part.toNat ++
            (natBytes 2 group.toNat ++ natBytes 2 c.rank ++ natBytes 2 c.members ++ [1])⟩])) ∧
    (s.mayTake h (.attest h nonce addr) = true → ∃ v bs, Statements.Completes s h (.attest h nonce addr) v 0 (BitVec.ofNat 64 bs.length) ∧
      v.hostMem = s.hostMem.setBytes addr.toNat bs ∧ { v with hostMem := u.hostMem, freeCtr := u.freeCtr } = u) ∧
    (s.mayTake h (.health h addr) = true → ∃ v bs, Statements.Completes s h (.health h addr) v 0 1024 ∧ bs.take 4 = natBytes 4 s.hstatNow.toNat ∧
      v.hostMem = s.hostMem.setBytes addr.toNat bs ∧ { v with hostMem := u.hostMem, freeCtr := u.freeCtr } = u)

/-- R256, R428: single errors change only the counts of their die, and a double error in a structure that holds a copy loses the copy; a
double error in a scratchpad word, a register or HBM marks it; a scrub pass changes nothing. R242, R474, R475: losing TIME ends the die's
grants and asks for replacement; throttling takes one more sixteenth, down to half, at 105 °C and none below 100; at 120 °C on a die main power goes.
Where the manual leaves a choice, the model's is that of log entries 24 and 41. -/
def Statements.ErrorsAndHeat : Prop :=
  (∀ (s : State) (hbm : Bool) (unit : Nat), exec (.scrubPass hbm unit) s = .next s) ∧
  (∀ (s : State) (e : SoftError), (∃ d k, e = .tags d k false) ∨ (∃ c a l, e = .l1 c a l false) ∨ (∃ a, e = .hbm a false) ∨
      (∃ c k, e = .l1Tags c k false) ∨ (∃ d k, e = .rdcTags d k false) ∨ (∃ w o, e = .scratchpad w o false) ∨ (∃ o l, e = .storeBuffer o l false) ∨ (∃ a l g, e = .homeData a l g false) ∨
      (∃ d a l g, e = .rdcData d a l g false) →
    ∃ t : State, exec (.softError e) s = .next t ∧ { t with dies := s.dies } = s ∧
      ∀ (d : Nat) (x y : Die), s.dies[d]? = some x → t.dies[d]? = some y → { y with corrected := x.corrected } = x) ∧
  (∀ (s : State) (core asid line : Nat), ∃ t, exec (.softError (.l1 core asid line true)) s = .next t ∧
    { t with dies := s.dies, l1 := s.l1 } = s ∧ ∀ x, x ∈ t.l1 ↔ x ∈ s.l1 ∧ ¬(x.core = core ∧ x.asid = asid ∧ x.line = line)) ∧
  (∀ (s : State) (core set : Nat), ∃ t, exec (.softError (.l1Tags core set true)) s = .next t ∧ t.replReq = true ∧ t.mchk = satInc s.mchk 1 ∧
    t.groups = s.groups ∧ t.home = s.home ∧ ∀ x, x ∈ t.l1 ↔ x ∈ s.l1 ∧ ¬(x.core = core ∧ l1Set x.line = l1Set set)) ∧
  (∀ (s : State) (wid off gid lane reg addr asid line : Nat),
    (∃ t, exec (.softError (.scratchpad wid off true)) s = .next t ∧ (wid, off / 8) ∈ t.badScratch ∧
      { t with dies := s.dies, badScratch := s.badScratch } = s) ∧
    (∃ t, exec (.softError (.hbm addr true)) s = .next t ∧ addr / 8 * 8 ∈ t.poison ∧ t.replReq = true ∧ t.hbm = s.hbm ∧ t.groups = s.groups) ∧
    exec (.softError (.vreg gid lane reg)) s = .next (s.modGroup gid (fun g => { g with badV := g.badV ++ [lane * 256 + reg % 256] })) ∧
    exec (.softError (.sreg gid reg)) s = .next (s.modGroup gid (fun g => { g with badS := g.badS ++ [reg % 64] })) ∧
    exec (.softError (.latch gid lane reg)) s = .next (s.modGroup gid (fun g => g.modThreads (fun h => h == lane) (fun _ t =>
      { t with latches := { t.latches with bad := t.latches.bad ||| 1 <<< (reg % 4) } }))) ∧
    exec (.softError (.fetch asid line false)) s = .next s ∧
    exec (.softError (.fetch asid line true)) s = .next { s with badFetch := s.badFetch ++ [(asid, line)] }) ∧
  ∀ (s : State) (die : Nat) (temp : BitVec 16) (x : Die), s.dies[die]? = some x →
    (∃ t y, exec (.timeSyncLoss die) s = .next t ∧ t.dies[die]? = some y ∧ y.synced = false ∧ y.lostAt = s.time 0 ∧ t.replReq = true ∧
      t.mchk = satInc s.mchk 1 ∧ t.groups = s.groups ∧ ∀ d, d ≠ die → t.dies[d]? = s.dies[d]?) ∧
    (∃ t, exec (.thermalThrottle die temp) s = .next t ∧ t.powered = (s.powered && temp.toNat < 120) ∧ t.dies[die]? = some { x with tempC := temp, clockSteps := if 105 ≤ temp.toNat then min 8 (x.clockSteps + 1) else x.clockSteps } ∧
      ∀ d, d ≠ die → t.dies[d]? = s.dies[d]?) ∧
    (∃ t, exec (.throttlingEnd die temp) s = .next t ∧ t.powered = (s.powered && temp.toNat < 120) ∧
      (temp.toNat < 100 → x.clockSteps ≠ 0 → t.throtEnd = some (s.time 0)) ∧ t.dies[die]? = some { x with tempC := temp, clockSteps := if temp.toNat < 100 then 0 else x.clockSteps } ∧
      ∀ d, d ≠ die → t.dies[d]? = s.dies[d]?) ∧
    ((∃ d ∈ s.dies, 120 ≤ d.tempC.toNat) → exec .thermalShutdown s = .next { s with powered := false }) ∧
    ((∀ d ∈ s.dies, d.tempC.toNat < 120) → exec .thermalShutdown s = .next s)

/-- R433, R440, R444, R467, R468: a function-level reset disables the VF's rings, deletes its launch queue and code and ends its work without
records, and is done when its last launch is gone; a PF reset ends every partition and aborts accepted commands, and the reset of every VF is
done and signalled; a warm reset ends every partition and begins the late boot steps, keeping TIME and HBM's contents, but none while a boot
runs; a cold reset starts TIME, caches and tables anew, makes HBM's old contents unreadable and begins every boot step. Each boot counts.
Where the manual leaves a choice, the model's is that of log entries 7 and 39. -/
def Statements.ResetsEnd : Prop :=
  (∀ (s : State) (vf : Nat) (f : Func), 0 < vf → vf ≤ 256 → s.func? vf = some f → ∃ t g, exec (.functionLevelReset vf) s = .next t ∧
    t.func? vf = some g ∧ g.resetting = true ∧ g.lqMade = false ∧ g.cqCfg = 0 ∧ g.cpCfg = 0 ∧ g.cmds = [] ∧ g.heldRecs = [] ∧ g.lcHeld = [] ∧
    g.bound = f.bound ∧ g.fqRing = f.fqRing ∧
    (∀ l ∈ t.launches, l.vf = vf → l.status = 1) ∧ (∀ e ∈ t.queue, e.vf = vf → e.admitted = true ∧ e.record.fromHost = false) ∧
    ∀ c ∈ t.codes, ∀ a ∈ s.asids, a.vf = vf → c.asid.toNat ≠ a.asid) ∧
  (∀ (s : State) (vf : Nat), vf = 0 ∨ 256 < vf → exec (.functionLevelReset vf) s = .next s) ∧
  (∀ (s : State) (vf : Nat) (f : Func), s.func? vf = some f →
    (f.resetting = false ∨ (∃ l ∈ s.launches, l.vf = vf) → exec (.functionLevelResetDone vf) s = .next s) ∧
    (f.resetting = true → (∀ l ∈ s.launches, l.vf ≠ vf) → ∃ t g, exec (.functionLevelResetDone vf) s = .next t ∧ t.func? vf = some g ∧
      g = { f with resetting := false, fstat := f.fstat ||| 2 } ∧ t.vectors = s.vectors ++ [(0, 4)] ∧
      { t with funcs := s.funcs, vectors := s.vectors } = s)) ∧
  (∀ s : State, ∃ t, exec .pfReset s = .next t ∧ t.groups = [] ∧ t.wgs = [] ∧ t.launches = [] ∧ t.parts = [] ∧ t.asids = [] ∧ t.frameOwners = [] ∧
    t.keyGen = s.keyGen + 1 ∧ t.dies = s.dies ∧ t.hbm = s.hbm ∧ t.funcs.map (·.fn) = List.range 257 ∧
    (∀ f ∈ t.funcs, f.fn ≠ 0 → f.bound = none ∧ f.fstat.getLsbD 1 = true) ∧
    let told := s.accepted.foldl (fun u h => u.complete h 12 0) s
    t.hostMem = told.hostMem ∧ t.vectors = told.vectors ++ List.replicate 256 (0, 4)) ∧
  (∀ (s : State) (b : BootResults) (i : Instr), i = .warmReset b ∨ i = .vendorResetMessage b →
    (s.boot ≠ none → exec i s = .next s) ∧
    (s.boot = none → ∃ t, exec i s = .next t ∧ t.bootCount = s.bootCount + 1 ∧
      t.boot = some ⟨b, false, bootSteps false s.fuses, none, false, false⟩ ∧ t.recovery = false ∧ t.groups = [] ∧ t.wgs = [] ∧ t.parts = [] ∧
      t.asids = [] ∧ t.l1 = [] ∧ t.home = [] ∧ t.rdc = [] ∧ t.hbm = s.hbm ∧ t.dies = s.dies ∧ t.hbmRate = s.hbmRate ∧ t.mchk = s.mchk)) ∧
  ∀ (s : State) (b : BootResults), ∃ t, exec (.coldReset b) s = .next t ∧ t.bootCount = s.bootCount + 1 ∧ t.powered = State.reset.powered ∧
    t.boot = some ⟨b, true, bootSteps true s.fuses, none, false, false⟩ ∧ t.dies = State.reset.dies ∧ t.groups = [] ∧ t.parts = [] ∧
    t.asids = [] ∧ t.funcs = State.reset.funcs ∧
    (∀ e ∈ s.hbm, t.seals.get (e.1 / 64) = BitVec.ofNat 32 (s.keyGen + 2)) ∧
    ∀ core, core < 256 → (t.coreMap.getLsbD core = true ↔ s.fuses.fusedOff.getLsbD core = false)

/-- R447, R470 to R474: a boot takes its steps one by one. The self-test of a core or an engine and the training of a port are skipped where
the previous boot recorded a failure; a failed or skipped one leaves its unit out. A stack starts from what the previous boot's entry
calls for, is tried once more at the next rate, and is left out at the last; the table image is copy B where copy A fails, and no image
passes whose signatures or version do not. Each step ends with one entry of the ring of 256. -/
def Statements.BootsRun : Prop :=
  (∀ s : State, s.boot = none → s.bootNext = s) ∧
  (∀ (s : State) (b : BootRun) (step unit : Nat) (rest : List (Nat × Nat)), s.boot = some b → b.todo = (step, unit) :: rest →
    let t := s.bootNext
    let prev := s.prevEntry step unit
    let failed : Prop := ∃ e, prev = some e ∧ e.out = 1
    let clean : Prop := prev = none ∨ ∃ e, prev = some e ∧ e.out = 0
    let entry (out : Nat) (set : W32) : Prop := ∃ e, t.bootRecord = (s.bootRecord ++ [e]).drop (s.bootRecord.length - 255) ∧
      e.boot = s.bootCount ∧ e.step.toNat = step % 256 ∧ e.unit.toNat = unit % 65536 ∧ e.out.toNat = out ∧ e.set = set ∧
      e.time.toNat = min ((t.time 0).toNat / 1000) (2 ^ 32 - 1)
    let again (k : Nat) : Prop := t.bootRecord = s.bootRecord ∧ t.boot = some { b with retry := some k }
    (∀ (fails : List Nat) (set : W32), b.retry = none → (step, fails, set) ∈ [(5, b.results.coreFail, 0), (6, b.results.engineFail, 0), (7, b.results.portFail, 200)] →
      (failed → entry 2 0) ∧ (¬failed → unit ∉ fails → entry 0 set) ∧ (¬failed → unit ∈ fails → entry 1 set) ∧
      let out : Prop := failed ∨ unit ∈ fails
      (step = 5 → ∀ c, c < 256 → (t.coreMap.getLsbD c = true ↔ s.coreMap.getLsbD c = true ∧ ¬(out ∧ c = unit))) ∧
      (step = 6 → ∀ c, c < 256 → (t.coreMap.getLsbD c = true ↔ s.coreMap.getLsbD c = true ∧ ¬(out ∧ c / 4 = unit))) ∧
      (step = 7 → ∀ p, p < 16 → (t.portUp.getLsbD p = true ↔ (p = unit ∧ ¬out) ∨ p ≠ unit ∧ s.portUp.getLsbD p = true))) ∧
    (step = 4 → unit < 15 → s.hbmRate.length = 16 → clean → b.retry = none →
      ((unit, 11000) ∉ b.results.hbmFail → entry 0 11000 ∧ t.hbmRate[unit]? = some 11000) ∧
      ((unit, 11000) ∈ b.results.hbmFail → again 1)) ∧
    (step = 4 → unit < 15 → s.hbmRate.length = 16 → b.retry = some 1 →
      ((unit, 9600) ∉ b.results.hbmFail → entry 3 9600 ∧ t.hbmRate[unit]? = some 9600) ∧
      ((unit, 9600) ∈ b.results.hbmFail → entry 1 9600 ∧ t.hbmRate[unit]? = some 0)) ∧
    (step = 4 → unit < 15 → s.hbmRate.length = 16 → b.retry = some 2 → (unit, 8000) ∈ b.results.hbmFail →
      entry 3 0 ∧ t.hbmRate[unit]? = some 0) ∧
    (step = 1 → clean → b.retry = none → (imageOk s.fuses b.results.imageA = true → entry 0 0) ∧
      (imageOk s.fuses b.results.imageA = false → again 1)) ∧
    (step = 1 → b.retry = some 1 → (imageOk s.fuses b.results.imageB = true → entry 3 1) ∧
      (imageOk s.fuses b.results.imageB = false → entry 1 1 ∧ t.boot = none ∧ t.recovery = true))) ∧
  ∀ (f : Fuses) (i : ImageCheck), imageOk f i = true ↔ i.rsaOk = true ∧ f.secVersion ≤ i.version ∧ i.mldsa ≠ some false ∧
    (f.pqReq = true → i.mldsa = some true)

/-- Soft errors, resets, boots, loss of TIME, throttling and shutdown: the statements `Statements.ErrorsAndHeat`, `Statements.ResetsEnd`, `Statements.BootsRun` together. -/
def Obligations.ErrorsResetsAndHeat : Prop :=
  Statements.ErrorsAndHeat ∧ Statements.ResetsEnd ∧ Statements.BootsRun

/-- R434 to R436, R441, R443, R469, R472: CQDB and LQDBn submit the ring entries up to the producer index written, or are ignored and set
RINGERR where the ring is off or holds fewer; CPCI and FQCI move a consumer index; FSTAT clears the bits written; APSYNC reads 0; other
writes keep the defined fields of their register; the aperture reaches the mapped address under APASID, and reads ones where it would fault.
A configuration read returns the register, a write completes and sets the base addresses above their size, and either is retried while the
device boots. A function that is not there takes no access. Where the manual leaves a choice, the model's is that of log entries 38 and 70. -/
def Obligations.HostRegisters : Prop :=
  (∀ (s : State) (fn level : Nat) (v : W32) (off w : W64) (write : Bool) (data : List Byte), s.answers fn = false →
    ∀ i ∈ [Instr.cqdb fn v, .lqdb fn level v, .cpci fn v, .fqci fn v, .fstat fn v, .apsync fn, .registerWrite fn off.toNat w,
      .apertureAccess fn off write data], exec i s = .next s) ∧
  (∀ (s : State) (fn : Nat) (v : W32) (f : Func), s.func? fn = some f → s.answers fn = true →
    let pidx : BitVec 16 := v.setWidth 16
    let n := (pidx - f.cqPi).toNat
    let size := 2 ^ (f.cqCfg.toNat % 16)
    let bad : Prop := f.cqCfg.getLsbD 31 = false ∨ size < (f.cqPi - f.cqCi).toNat + n
    ∃ t g, exec (.cqdb fn v) s = .next t ∧ { t with funcs := s.funcs } = s ∧ t.func? fn = some g ∧
      (bad → g = { f with fstat := f.fstat ||| 1 }) ∧
      (¬bad → g = { f with cqPi := pidx, cmds := f.cmds ++ (List.range n).map (fun k =>
        s.hostMem.bytes (f.cqBase.toNat + 64 * ((f.cqPi.toNat + k) % size)) 64) })) ∧
  (∀ (s : State) (fn : Nat) (v : W32) (f : Func), s.func? fn = some f → s.answers fn = true →
    (∃ t, exec (.cpci fn v) s = .next t ∧ { t with funcs := s.funcs } = s ∧ t.func? fn = some { f with cpCi := v.setWidth 16 }) ∧
    (∃ t, exec (.fstat fn v) s = .next t ∧ { t with funcs := s.funcs } = s ∧
      t.func? fn = some { f with fstat := f.fstat &&& ~~~(v.setWidth 2) }) ∧
    (f.heldRecs = [] → ∃ t, exec (.fqci fn v) s = .next t ∧ { t with funcs := s.funcs } = s ∧ t.func? fn = some { f with fqCi := v }) ∧
    ∀ off w, ∃ t, exec (.registerWrite fn off w) s = .next t ∧ { t with funcs := s.funcs } = s ∧ t.func? fn = some (f.writeReg off w)) ∧
  (∀ (f : Func) (w : W64), (f.writeReg 0x008 w).cqBase = w &&& ~~~63#64 ∧ (f.writeReg 0x010 w).cqCfg = w.setWidth 32 &&& 0x8000000F ∧
    (f.writeReg 0x020 w).cpBase = w &&& ~~~63#64 ∧ (f.writeReg 0x028 w).cpCfg = w.setWidth 32 &&& 0x8000000F ∧
    (f.writeReg 0x090 w).apAsid = w.setWidth 16 ∧ (f.writeReg 0x098 w).apBase = w &&& ~~~0xFFFF#64 ∧
    ∀ off, off ∉ [0x008, 0x010, 0x020, 0x028, 0x090, 0x098] → f.writeReg off w = f) ∧
  (∀ (s : State) (vf level : Nat) (v : W32) (f : Func), s.func? vf = some f → s.answers vf = true →
    let pi := (f.lqPi[level]?).getD 0
    let n := ((v.setWidth 16 : BitVec 16) - pi).toNat
    (f.lqMade = false ∨ 8 ≤ level ∨ 2 ^ f.lqLog < (pi - (f.lqCi[level]?).getD 0).toNat + n → ∃ t, exec (.lqdb vf level v) s = .next t ∧
      { t with funcs := s.funcs } = s ∧ t.func? vf = some { f with fstat := f.fstat ||| 1 }) ∧
    (f.lqMade = true → level < 8 → (pi - (f.lqCi[level]?).getD 0).toNat + n ≤ 2 ^ f.lqLog → s.queueFree vf = false → n ≠ 0 →
      f.lqSubmitted = [] → ∃ t, exec (.lqdb vf level v) s = .next t ∧ { t with funcs := s.funcs } = s ∧
        t.func? vf = some { f with lqPi := modNth f.lqPi level (fun _ => v.setWidth 16), lqSubmitted := [(level, n)] }) ∧
    (f.lqMade = true → level < 8 → f.lqPi.length = 8 → f.lqCi.length = 8 → s.queueFree vf = true → n = 1 → f.lqSubmitted = [] →
      let ci := (f.lqCi[level]?).getD 0
      ci = pi →
      let r := s.parseLaunch vf (s.hostMem.bytes (f.lqBase.toNat + level * 256 * 2 ^ f.lqLog + 256 * (ci.toNat % 2 ^ f.lqLog)) 256)
      r.malformed = false → ∃ t q g, exec (.lqdb vf level v) s = .next t ∧ t.queue = s.queue ++ [q] ∧ q.vf = vf ∧ q.id = f.nextId ∧
        q.level = level ∧ q.record = r ∧ q.admitted = false ∧ q.firmware = false ∧ t.func? vf = some g ∧ g.nextId = f.nextId + 1 ∧
        g.lqSubmitted = [] ∧ g.lqPi[level]? = some (v.setWidth 16) ∧ g.lqCi[level]? = some (ci + 1))) ∧
  (∀ (s : State) (fn reg : Nat) (v : W32),
    let sent (kind : Nat) (bs : List Byte) : State := { s with mgmt := s.mgmt ++ [MgmtMsg.mk kind (natBytes 2 fn ++ natBytes 8 reg ++ bs)] }
    (s.answers fn = true → ∃ t, exec (.apsync fn) s = .next t ∧ { t with mgmt := s.mgmt, funcs := s.funcs } = s ∧
      t.mgmt = s.mgmt ++ [MgmtMsg.mk 0x300 (natBytes 2 fn ++ natBytes 8 0xA0 ++ natBytes 8 0)]) ∧
    (s.boot ≠ none → ∀ w, exec (.configRequest fn ⟨reg, w⟩) s = .next (sent 0x302 [])) ∧
    (s.boot = none → s.answers fn = false → ∀ w, exec (.configRequest fn ⟨reg, w⟩) s = .next s) ∧
    (s.answers fn = true → exec (.configRequest fn ⟨reg, none⟩) s = .next (sent 0x301 (natBytes 4 (s.configRead fn reg).toNat))) ∧
    (∀ f, s.func? fn = some f → s.answers fn = true → ∃ t, exec (.configRequest fn ⟨reg, some v⟩) s = .next t ∧
      { t with funcs := s.funcs } = sent 0x303 [] ∧ t.func? fn = some (f.configWrite reg v)) ∧
    s.configRead fn 0 = BitVec.ofNat 32 (Config.vendorId.toNat + 65536 * (if s.recovery then 0xC4AF else if fn = 0 then 0xC4A0 else 0xC4A1)) ∧
    (s.configRead fn 8) >>> 8 = 0x120000#32) ∧
  (∀ (f : Func) (s : State), s.func? f.fn = some f →
    let ones := BitVec.allOnes 32
    ((f.configWrite 0x10 ones).configWrite 0x14 ones).bar0.toNat = 2 ^ 64 - (if f.fn = 0 then 2 ^ 20 else 2 ^ 16) ∧
    ((f.configWrite 0x18 ones).configWrite 0x1C ones).bar2.toNat = 2 ^ 64 - 2 ^ 34 ∧
    (2 ^ 16 ∣ f.bar0.toNat → (s.configRead f.fn 0x10).toNat + 2 ^ 32 * (s.configRead f.fn 0x14).toNat = f.bar0.toNat + 4) ∧
    (s.recovery = false → 2 ^ 34 ∣ f.bar2.toNat →
      (s.configRead f.fn 0x18).toNat + 2 ^ 32 * (s.configRead f.fn 0x1C).toNat = f.bar2.toNat + 12) ∧
    (s.recovery = true → s.configRead f.fn 0x18 = 0 ∧ s.configRead f.fn 0x1C = 0)) ∧
  ∀ (s : State) (fn : Nat) (off : W64) (data : List Byte) (f : Func), s.func? fn = some f → s.answers fn = true → s.recovery = false →
    off.toNat + data.length ≤ 2 ^ 34 →
    let waits : Prop := f.resetting = true ∨ (∃ p x, f.bound = some p ∧ s.part? p = some x ∧ x.rotating = true) ∨
      s.shut f.apAsid.toNat (f.apBase.toNat + off.toNat) data.length = true
    (waits → ∀ w, exec (.apertureAccess fn off w data) s = .next s) ∧ (¬waits →
    let own : Prop := ∃ c, s.asid? f.apAsid.toNat = some c ∧ f.bound = some c.part
    let va := f.apBase.toNat + off.toNat
    (¬own ∨ 2 ^ 57 < va + data.length →
      (∃ t, exec (.apertureAccess fn off true data) s = .next t ∧ { t with funcs := s.funcs } = s ∧
        t.func? fn = some { f with fstat := f.fstat ||| 1 }) ∧
      ∃ t, exec (.apertureAccess fn off false data) s = .next t ∧ t.func? fn = some { f with fstat := f.fstat ||| 1 } ∧
        t.mgmt = s.mgmt ++ [MgmtMsg.mk 0x300 (natBytes 2 fn ++ natBytes 8 off.toNat ++ List.replicate data.length 0xFF)]) ∧
    (own → va + data.length ≤ 2 ^ 57 →
      (∀ u w, s.engineWriteLr f.apAsid.toNat va data = .ok (u, w) →
        exec (.apertureAccess fn off true data) s = .next ({ u with dmaW := maxT u.dmaW u.latest, dmaLr := maxT u.dmaLr w }.fused s)) ∧
      ∀ u bs, s.engineReadAll f.apAsid.toNat va data.length = .ok (u, bs, false) →
        exec (.apertureAccess fn off false data) s = .next ({ u with
          mgmt := u.mgmt ++ [MgmtMsg.mk 0x300 (natBytes 2 fn ++ natBytes 8 off.toNat ++ bs)] }.fused s)))

/-- R448, R449, R468, R472, R473: a message that reaches a device that has booted is answered on its binding with one message that begins as its
rule says, and changes nothing else: an MCTP control message by its own response, a type that is none of the supported ones by
ERROR_UNSUPPORTED_CMD, the vendor message by the health report; GET_VERSION by 1.2; the algorithms by RSA-4096 and SHA-512 of those offered; a
certificate request by the part asked for and what is left; measurements by block. While the device boots, an SMBus request is NAKed.
Where the manual leaves a choice, the model's is that of log entries 36 and 40. -/
def Obligations.MessagesAnswered : Prop :=
  let onBus (i : Instr) (bus : State → MctpBus) (served : State → Prop) (P : State → Nat → List Byte → Prop) : Prop := ∀ s : State,
    let b := bus s
    let here : Prop := b = .pcieVdm ∨ b = .smbus Config.smbusAddress
    let sends (kind : Nat) (body : List Byte) : Prop := ∃ t, exec i s = .next t ∧
      { t with mgmt := s.mgmt, freeCtr := s.freeCtr } = s ∧ t.mgmt = s.mgmt ++ [MgmtMsg.mk kind body]
    (¬here ∨ (s.boot = none ∧ ¬served s) ∨ (s.boot ≠ none ∧ b = .pcieVdm) → exec i s = .next s) ∧
    (here → s.boot ≠ none → b ≠ .pcieVdm → sends 12 []) ∧
    (here → s.boot = none → served s → ∃ kind r, sends kind ((if b = .pcieVdm then 0 else 1) :: r) ∧ P s kind r)
  let answers (i : Instr) (P : State → Nat → List Byte → Prop) : Prop := onBus i (·.binding) (fun _ => True) P
  (∀ b body, onBus (.mctpControl b body) (fun _ => b) (·.recovery = false) (fun _ k _ => k = 8)) ∧
  (∀ b y, onBus (.mctpUnsupported b y) (fun _ => b) (fun s => s.recovery = false ∧ y ∉ [0x00#8, 0x05#8, 0x7E#8]) (fun _ k r => k = 9 ∧ r = [y])) ∧
  (∀ b, onBus (.healthVdm b) (fun _ => b) (fun _ => True) (fun s k r => k = 10 ∧ r.take 4 = natBytes 4 s.hstatNow.toNat)) ∧
  answers .getVersion (fun _ k r => k = 1 ∧ r = [0x12]) ∧
  answers .getCapabilities (fun _ k r => k = 2 ∧ r.length = 4) ∧
  (∀ a h, answers (.negotiateAlgorithms a h) (fun _ k r => k = 3 ∧ r = natBytes 4 (a &&& 0x20).toNat ++ natBytes 4 (h &&& 4).toNat)) ∧
  answers .getDigests (fun _ k r => k = 4 ∧ r.length = 64) ∧
  (∀ o l : BitVec 16, answers (.getCertificate o l) (fun _ k r =>
    let n := min l.toNat (Config.certLength - o.toNat)
    k = 5 ∧ r.length = n + 4 ∧ r.take 4 = natBytes 2 n ++ natBytes 2 (Config.certLength - o.toNat - n))) ∧
  (∀ nonce, answers (.challenge nonce) (fun _ k r => k = 6 ∧ r.length = 576 + nonce.length ∧ (r.drop 64).take nonce.length = nonce)) ∧
  ∀ (b : Byte) nonce, answers (.getMeasurements b nonce) (fun s k r =>
    (b = 0 → k = 7 ∧ r = [6]) ∧ (6 < b.toNat → b ≠ 255 → k = 11 ∧ r = [b]) ∧
    (b ≠ 0 → b.toNat ≤ 6 → k = 7 ∧ r.head? = some b ∧ (b = 3 → s.patched = false → (r.drop 5).take 64 = List.replicate 64 0) ∧ (b = 5 → (r.drop 5).take (s.rows.flatMap Row.bytes).length = s.rows.flatMap Row.bytes)))
end

