-- ==== Sys2Proof/Laws/Cells.lean ====
section
/-! SUPPORT. Reading after writing a sparse array, and the canonical form that every write keeps. -/

namespace Sys2Proof

/-- The canonical form of a nonempty array. -/
theorem Cells.wf_cons {w : Nat} (j : Nat) (v : BitVec w) (t : Cells w) :
    Cells.wf ((j, v) :: t) = true ↔ v ≠ 0#w ∧ Cells.above j t = true ∧ Cells.wf t = true := by
  simp only [Cells.wf, Bool.and_eq_true, bne_iff_ne, and_assoc]; rfl

/-- Every index of a nonempty array lies above a bound when its first does. -/
theorem Cells.above_cons {w : Nat} (k j : Nat) (v : BitVec w) (t : Cells w) :
    Cells.above k ((j, v) :: t) = true ↔ k < j := by simp [Cells.above]

/-- Nothing is listed at or below k where every listed index lies above it. -/
theorem Cells.get_of_above {w : Nat} {k : Nat} : {c : Cells w} → Cells.above k c = true → ∀ j, j ≤ k → Cells.get c j = 0
  | [], _, _, _ => rfl
  | (i, v) :: t, h, j, hj => by
    have : k < i := by simpa [Cells.above] using h
    simp [Cells.get, show j < i by omega]

/-- Reading after a write: the written value at its index, the old value elsewhere. -/
theorem Cells.get_set {w : Nat} : (c : Cells w) → (k : Nat) → (v : BitVec w) → (j : Nat) →
    Cells.get (Cells.set c k v) j = if j = k then v else Cells.get c j
  | [], k, v, j => by
    by_cases hv : v = 0#w
    · simp [Cells.set, Cells.get, hv]
    · by_cases hj : j = k <;> simp [Cells.set, if_neg hv, Cells.get, hj]
  | (i, u) :: t, k, v, j => by
    have ih := Cells.get_set t k v j
    unfold Cells.set
    split
    · rename_i hk
      split
      · rename_i hv
        by_cases hj : j = k
        · subst hj; simp [Cells.get, hk, hv]
        · simp [hj]
      · by_cases hj : j = k
        · subst hj; simp [Cells.get]
        · rw [if_neg hj]
          by_cases hl : j < k
          · simp [Cells.get, hl, show j < i by omega]
          · simp [Cells.get, hl, hj]
    · split
      · rename_i hk hki
        split
        · rename_i hz
          obtain ⟨hv, ha⟩ : v = 0 ∧ Cells.above k t = true := by simpa using hz
          by_cases hj : j = k
          · subst hj
            simpa [hv] using Cells.get_of_above ha j (Nat.le_refl j)
          · rw [if_neg hj]
            by_cases hl : j < i
            · have hjk : j ≤ k := by omega
              rw [Cells.get_of_above ha j hjk]
              simp [Cells.get, hl]
            · simp [Cells.get, hl, show ¬ j = i by omega]
        · by_cases hj : j = k
          · subst hj; simp [Cells.get]
          · rw [if_neg hj]
            by_cases hl : j < i
            · simp [Cells.get, hl, show j < k by omega]
            · simp [Cells.get, hl, hj, show ¬ j = i by omega, show ¬ j < k by omega]
      · rename_i hk hki
        by_cases hl : j < i
        · simp [Cells.get, hl, show ¬ j = k by omega]
        · by_cases hji : j = i
          · subst hji
            simp [Cells.get, show ¬ j = k by omega]
          · simp [Cells.get, hl, hji, ih]

/-- The entry written is read back. -/
@[simp] theorem Cells.get_set_self {w : Nat} (c : Cells w) (k : Nat) (v : BitVec w) : Cells.get (Cells.set c k v) k = v := by
  simp [Cells.get_set]

/-- A write leaves every other entry alone. -/
theorem Cells.get_set_ne {w : Nat} (c : Cells w) {k j : Nat} (v : BitVec w) (h : j ≠ k) :
    Cells.get (Cells.set c k v) j = Cells.get c j := by simp [Cells.get_set, h]

/-- A write above a bound keeps every index above it. -/
theorem Cells.above_set {w : Nat} {b : Nat} : (c : Cells w) → (k : Nat) → (v : BitVec w) → Cells.above b c = true →
    Cells.wf c = true → b < k → Cells.above b (Cells.set c k v) = true
  | [], k, v, _, _, h => by by_cases hv : v = 0#w <;> simp [Cells.set, hv, Cells.above, h]
  | (i, u) :: t, k, v, ha, hw, h => by
    unfold Cells.set
    split
    · split
      · exact ha
      · simpa [Cells.above] using h
    · split
      · split
        · have hi : b < i := by simpa [Cells.above] using ha
          cases t with
          | nil => rfl
          | cons e t =>
            have := (Cells.above_cons i e.1 e.2 t).1 ((Cells.wf_cons i u (e :: t)).1 hw).2.1
            exact (Cells.above_cons b e.1 e.2 t).2 (by omega)
        · simpa [Cells.above] using h
      · simpa [Cells.above] using ha

/-- A write keeps the canonical form. -/
theorem Cells.wf_set {w : Nat} : (c : Cells w) → (k : Nat) → (v : BitVec w) → Cells.wf c = true → Cells.wf (Cells.set c k v) = true
  | [], k, v, _ => by by_cases hv : v = 0#w <;> simp [Cells.set, Cells.wf_cons, hv, Cells.above, Cells.wf]
  | (i, u) :: t, k, v, hw => by
    have h' := (Cells.wf_cons i u t).1 hw
    unfold Cells.set
    split
    · rename_i hk
      split
      · exact hw
      · rename_i hv
        exact (Cells.wf_cons k v _).2 ⟨hv, (Cells.above_cons k i u t).2 hk, hw⟩
    · split
      · rename_i hk hki
        split
        · exact h'.2.2
        · rename_i hz
          subst hki
          have hv : v ≠ 0#w := by
            intro h0
            exact hz (by simp [h0, h'.2.1])
          exact (Cells.wf_cons _ v _).2 ⟨hv, h'.2.1, h'.2.2⟩
      · rename_i hk hki
        have hb : i < k := by omega
        exact (Cells.wf_cons i u _).2 ⟨h'.1, Cells.above_set t k v h'.2.1 h'.2.2 hb, Cells.wf_set t k v h'.2.2⟩

/-- Writes in sequence keep the canonical form. -/
theorem Cells.wf_setAll {w : Nat} (l : List (Nat × BitVec w)) : (c : Cells w) → Cells.wf c = true → Cells.wf (Cells.setAll c l) = true := by
  induction l with
  | nil => intro c h; exact h
  | cons p t ih => intro c h; exact ih _ (Cells.wf_set c p.1 p.2 h)

/-- Storing bytes keeps the canonical form. -/
theorem Cells.wf_setBytes (bs : List Byte) : (c : Cells 8) → (a : Nat) → Cells.wf c = true → Cells.wf (Cells.setBytes c a bs) = true := by
  induction bs with
  | nil => intro c a h; exact h
  | cons b t ih => intro c a h; exact ih _ _ (Cells.wf_set c a b h)

/-- Dropping entries keeps every index above a bound. -/
theorem Cells.above_clear {w : Nat} (p : Nat → Bool) {b : Nat} : (c : Cells w) → Cells.above b c = true → Cells.wf c = true →
    Cells.above b (Cells.clear c p) = true
  | [], _, _ => rfl
  | (i, u) :: t, ha, hw => by
    have h' := (Cells.wf_cons i u t).1 hw
    have hi : b < i := by simpa [Cells.above] using ha
    by_cases hp : p i = true
    · have : Cells.above b t = true := by
        cases t with
        | nil => rfl
        | cons e t =>
          have : i < e.1 := by simpa [Cells.above] using h'.2.1
          simp [Cells.above]; omega
      simpa [Cells.clear, List.filter, hp] using Cells.above_clear p t this h'.2.2
    · simp [Cells.clear, List.filter, hp, Cells.above, hi]

/-- Dropping entries keeps the canonical form. -/
theorem Cells.wf_clear {w : Nat} (p : Nat → Bool) : (c : Cells w) → Cells.wf c = true → Cells.wf (Cells.clear c p) = true
  | [], _ => rfl
  | (i, u) :: t, hw => by
    have h' := (Cells.wf_cons i u t).1 hw
    have ih := Cells.wf_clear p t h'.2.2
    have ha := Cells.above_clear p t h'.2.1 h'.2.2
    by_cases hp : p i = true
    · simpa [Cells.clear, List.filter, hp] using ih
    · have : Cells.clear ((i, u) :: t) p = (i, u) :: Cells.clear t p := by simp [Cells.clear, List.filter, hp]
      rw [this]
      exact (Cells.wf_cons i u _).2 ⟨h'.1, ha, ih⟩

/-- Reading outside the bytes stored gives what was there before. -/
theorem Cells.get_setBytes_outside (bs : List Byte) : (c : Cells 8) → (a j : Nat) → (j < a ∨ a + bs.length ≤ j) →
    Cells.get (Cells.setBytes c a bs) j = Cells.get c j := by
  induction bs with
  | nil => intro c a j _; rfl
  | cons b t ih =>
    intro c a j h
    have hl : (b :: t).length = t.length + 1 := rfl
    have : j < a + 1 ∨ a + 1 + t.length ≤ j := by omega
    have ne : j ≠ a := by omega
    rw [Cells.setBytes, ih (Cells.set c a b) (a + 1) j this, Cells.get_set_ne c b ne]

/-- Reading a stored byte gives it. -/
theorem Cells.get_setBytes_inside (bs : List Byte) : (c : Cells 8) → (a i : Nat) → (h : i < bs.length) →
    Cells.get (Cells.setBytes c a bs) (a + i) = bs[i] := by
  induction bs with
  | nil => intro c a i h; simp at h
  | cons b t ih =>
    intro c a i h
    cases i with
    | zero =>
      rw [Cells.setBytes, Cells.get_setBytes_outside t _ _ _ (by omega)]
      simp
    | succ i =>
      have := ih (Cells.set c a b) (a + 1) i (by simpa using h)
      rw [Cells.setBytes, show a + (i + 1) = a + 1 + i by omega, this]
      rfl

/-- The bytes stored are the bytes read back. -/
theorem Cells.bytes_setBytes (c : Cells 8) (a : Nat) (bs : List Byte) : Cells.bytes (Cells.setBytes c a bs) a bs.length = bs := by
  apply List.ext_getElem
  · simp [Cells.bytes]
  · intro i h1 h2
    simp [Cells.bytes, Cells.get_setBytes_inside bs c a i h2]

/-- Equal reads of canonical arrays are equal arrays: the form is canonical. -/
theorem Cells.wf_ext {w : Nat} : {c d : Cells w} → Cells.wf c = true → Cells.wf d = true →
    (∀ k, Cells.get c k = Cells.get d k) → c = d
  | [], [], _, _, _ => rfl
  | [], (j, v) :: t, _, hd, h => by
    have hv : 0#w = v := by simpa [Cells.get] using h j
    exact absurd hv.symm ((Cells.wf_cons j v t).1 hd).1
  | (i, u) :: t, [], hc, _, h => by
    have hv : u = 0#w := by simpa [Cells.get] using h i
    exact absurd hv ((Cells.wf_cons i u t).1 hc).1
  | (i, u) :: s, (j, v) :: t, hc, hd, h => by
    have hc' := (Cells.wf_cons i u s).1 hc
    have hd' := (Cells.wf_cons j v t).1 hd
    have hij : i = j := by
      have hi := h i
      have hj := h j
      by_cases h1 : i < j
      · simp [Cells.get, h1] at hi; exact absurd hi hc'.1
      · by_cases h2 : j < i
        · simp [Cells.get, h2] at hj; exact absurd hj.symm hd'.1
        · omega
    subst hij
    have huv : u = v := by simpa [Cells.get] using h i
    subst huv
    have : s = t := Cells.wf_ext hc'.2.2 hd'.2.2 (by
      intro k
      by_cases hk : k ≤ i
      · rw [Cells.get_of_above hc'.2.1 k hk, Cells.get_of_above hd'.2.1 k hk]
      · have := h k
        simpa [Cells.get, show ¬ k < i by omega, show ¬ k = i by omega] using this)
    rw [this]

end Sys2Proof
end

