-- ==== Sys2Proof/Laws/Elements.lean ====
section
/-! SUPPORT. Elements of a value under a T code, integers modulo 2^w, and numbers given bit by bit. -/

namespace Sys2Proof.Machine

/-- The elements of a T code fill at most 64 bits (R43). -/
theorem elemW_mul_elemN (t : Nat) : elemW t * elemN t ≤ 64 := by
  unfold elemW elemN wideT
  split_ifs <;> simp_all <;> omega

/-- Every element has a width. -/
theorem elemW_pos (t : Nat) : 0 < elemW t := by unfold elemW; split_ifs <;> omega

/-- A T code has an element. -/
theorem elemN_pos (t : Nat) : 0 < elemN t := by unfold elemN; split_ifs <;> omega

/-- An element is at most 64 bits wide. -/
theorem elemW_le (t : Nat) : elemW t ≤ 64 := by unfold elemW; split_ifs <;> omega

/-- Digits of a sum of shifted digits, and its size. -/
theorem digits_sum (w n : Nat) (f : Nat → Nat) (hf : ∀ i, f i < 2 ^ w) :
    (List.range n).foldl (fun r i => r + f i * 2 ^ (w * i)) 0 < 2 ^ (w * n) ∧
      ∀ i, i < n → (List.range n).foldl (fun r i => r + f i * 2 ^ (w * i)) 0 / 2 ^ (w * i) % 2 ^ w = f i := by
  induction n with
  | zero => simp
  | succ n ih =>
    obtain ⟨h1, h2⟩ := ih
    rw [List.range_succ, List.foldl_append]
    simp only [List.foldl_cons, List.foldl_nil]
    generalize hS : (List.range n).foldl (fun r i => r + f i * 2 ^ (w * i)) 0 = S at h1 h2
    have hp : 2 ^ (w * (n + 1)) = 2 ^ w * 2 ^ (w * n) := by rw [← Nat.pow_add]; congr 1; ring
    constructor
    · rw [hp]
      have := hf n
      nlinarith [Nat.mul_le_mul_right (2 ^ (w * n)) (show f n + 1 ≤ 2 ^ w by omega)]
    · intro i hi
      rcases Nat.lt_or_eq_of_le (Nat.lt_succ_iff.1 hi) with hlt | rfl
      · have hd : 2 ^ (w * n) = 2 ^ (w * i) * (2 ^ w * 2 ^ (w * (n - i - 1))) := by
          rw [← Nat.pow_add, ← Nat.pow_add]; congr 1
          have : n = i + (1 + (n - i - 1)) := by omega
          calc w * n = w * (i + (1 + (n - i - 1))) := by rw [← this]
            _ = _ := by ring
        rw [hd, show S + f n * (2 ^ (w * i) * (2 ^ w * 2 ^ (w * (n - i - 1))))
            = S + 2 ^ (w * i) * (2 ^ w * (f n * 2 ^ (w * (n - i - 1)))) by ring,
          Nat.add_mul_div_left _ _ (by positivity), Nat.add_mul_mod_self_left]
        exact h2 i hlt
      · rw [Nat.add_mul_div_right _ _ (by positivity), Nat.div_eq_of_lt h1, Nat.zero_add, Nat.mod_eq_of_lt (hf _)]

/-- An element of a value built from elements. -/
theorem elemNat_ofElems (t : Nat) (f : Nat → Nat) (i : Nat) (h : i < elemN t) :
    elemNat t i (ofElems t f) = f i % 2 ^ elemW t := by
  obtain ⟨h1, h2⟩ := digits_sum (elemW t) (elemN t) (fun i => f i % 2 ^ elemW t)
    (fun i => Nat.mod_lt _ (by positivity))
  have hle : 2 ^ (elemW t * elemN t) ≤ 2 ^ 64 := Nat.pow_le_pow_right (by norm_num) (elemW_mul_elemN t)
  unfold elemNat ofElems
  rw [BitVec.toNat_ofNat, Nat.mod_eq_of_lt (lt_of_lt_of_le h1 hle)]
  exact h2 i h

/-- An integer modulo 2^w. -/
theorem intMod_cast (w : Nat) (x : Int) : ((intMod w x : Nat) : Int) = x % 2 ^ w := by
  unfold intMod
  rw [BitVec.toNat_ofInt]
  have : (0 : Int) ≤ x % ((2 ^ w : Nat) : Int) := Int.emod_nonneg _ (by positivity)
  rw [Int.toNat_of_nonneg this]
  norm_cast

/-- An integer modulo 2^w is below 2^w. -/
theorem intMod_lt (w : Nat) (x : Int) : intMod w x < 2 ^ w := (BitVec.ofInt w x).isLt

/-- A number below 2^w, for w up to 64, as a value and back. -/
theorem toNat_ofNat_of_lt {w n : Nat} (hw : w ≤ 64) (h : n < 2 ^ w) : (BitVec.ofNat 64 n).toNat = n := by
  rw [BitVec.toNat_ofNat]
  exact Nat.mod_eq_of_lt (lt_of_lt_of_le h (Nat.pow_le_pow_right (by norm_num) hw))

/-- Saturation is the clamp to a range (R74). -/
theorem satInt_eq {lo hi : Int} (h : lo ≤ hi) (x : Int) : satInt x lo hi = max lo (min hi x) := by
  unfold satInt
  split_ifs <;> omega

/-- The range of a type is not empty. -/
theorem loT_le_hiT (t : Nat) : loT t ≤ hiT t := by
  unfold loT hiT
  have h : (1 : Int) ≤ (2 ^ (elemW t - 1) : Nat) := by exact_mod_cast Nat.one_le_two_pow
  have h' : (1 : Int) ≤ (2 ^ elemW t : Nat) := by exact_mod_cast Nat.one_le_two_pow
  split_ifs <;> omega

/-- A number given bit by bit, and its size. -/
theorem bitsOf_spec (w : Nat) (f : Nat → Bool) :
    bitsOf w f < 2 ^ w ∧ ∀ k, (bitsOf w f).testBit k = (decide (k < w) && f k) := by
  have hb : ∀ i, boolNat (f i) < 2 ^ 1 := by intro i; unfold boolNat; split <;> norm_num
  obtain ⟨h1, h2⟩ := digits_sum 1 w (fun i => boolNat (f i)) hb
  simp only [one_mul] at h1 h2
  refine ⟨h1, fun k => ?_⟩
  by_cases hk : k < w
  · have := h2 k hk
    unfold bitsOf
    rw [Nat.testBit_eq_decide_div_mod_eq, show (2 : Nat) = 2 ^ 1 by rfl] at *
    simp only [pow_one] at *
    rw [this]
    cases f k <;> simp [boolNat, hk]
  · simp only [hk, decide_false, Bool.false_and]
    exact Nat.testBit_lt_two_pow (lt_of_lt_of_le h1 (Nat.pow_le_pow_right (by norm_num) (by omega)))

end Sys2Proof.Machine
end

