-- ==== Sys2Proof/Laws/Issue.lean ====
section
/-! SUPPORT. What executing a word can do, said once: the outcome of a word that issues, the group lookup after an update,
and the state in which lane results have landed. -/

namespace Sys2Proof.Machine

/-! ### Groups -/

/-- A found group bears the identifier it was looked up by. -/
theorem State.gid_of_group {s : State} {k : Nat} {g : Group} (h : s.group? k = some g) : g.gid = k := by
  have := List.find?_some h
  simpa using this

/-- Looking a group up in a list in which the groups of one identifier were replaced. -/
theorem find_mod (l : List Group) (k : Nat) (f : Group → Group) (j : Nat) :
    (l.map (fun g => if g.gid = k then { f g with gid := k } else g)).find? (fun g => g.gid == j) =
      if j = k then (l.find? (fun g => g.gid == k)).map (fun g => { f g with gid := k })
      else l.find? (fun g => g.gid == j) := by
  induction l with
  | nil => simp
  | cons a t ih =>
    by_cases ha : a.gid = k
    · by_cases hj : j = k
      · subst hj; simp [ha]
      · have : ¬ k = j := fun h => hj h.symm
        simp [ha, hj, this, ih]
    · by_cases hj : j = k
      · subst hj; simp [ha, ih]
      · simp only [List.map_cons, ha, if_false, hj, List.find?_cons]
        rw [ih]; simp [hj]

/-- The group of an identifier after the groups of one identifier were replaced. -/
theorem State.group_mod (s : State) (k : Nat) (f : Group → Group) (j : Nat) :
    (s.modGroup k f).group? j = if j = k then (s.group? k).map (fun g => { f g with gid := k }) else s.group? j :=
  find_mod s.groups k f j

/-- Only the list of groups changes when a group is replaced. -/
theorem State.mod_only (s : State) (k : Nat) (f : Group → Group) : { s.modGroup k f with groups := s.groups } = s := rfl

/-! ### Words -/

/-- What it takes for a word to issue. -/
theorem State.issues_iff {s : State} {i : Instr} {c : Ctx} (h : s.issues i = some c) :
    s.issue.parts = [c.part] ∧ mkCtx s i c.part = some c ∧ c.decodeFault = none ∧ c.ready = true ∧ c.parityTrap = none
      ∧ c.g.stepPath = 0 := by
  unfold State.issues at h
  split at h
  · rename_i p hp
    split at h
    · rename_i c' hc
      split at h
      · rename_i hb
        cases h
        have hpart : c.part = p := by
          simp only [mkCtx, Option.bind_eq_bind, Option.bind_eq_some_iff] at hc
          obtain ⟨_, _, _, _, _, _, _, _, _, _, _, _, ⟨_, _⟩, _, hc⟩ := hc
          cases hc; rfl
        simp only [Bool.and_eq_true, Option.isNone_iff_eq_none, beq_iff_eq] at hb
        exact ⟨by rw [hp, hpart], by rw [hpart]; exact hc, hb.1.1.1, hb.1.1.2, hb.1.2, hb.2⟩
      · cases h
    · cases h
  · cases h

/-- The context's state, instruction and group are those of the issue. -/
theorem State.issues_ctx {s : State} {i : Instr} {c : Ctx} (h : s.issues i = some c) :
    c.s = s ∧ c.i = i ∧ s.group? c.part.gid = some c.g ∧ c.g.gid = c.part.gid ∧ i.shape = some c.sh
      ∧ (∃ op, i.form = some (op, c.f)) := by
  obtain ⟨-, hc, -⟩ := State.issues_iff h
  generalize hp : c.part = p at hc
  simp only [mkCtx, Option.bind_eq_bind, Option.bind_eq_some_iff] at hc
  obtain ⟨g, hg, w, hw, la, hl, co, hco, vd, hvd, sh, hsh, ⟨op, f⟩, hf, hc⟩ := hc
  cases hc
  exact ⟨rfl, rfl, hg, State.gid_of_group hg, hsh, op, hf⟩

/-- A word that issues has its effect, or traps. -/
theorem issueWord_of {s : State} {i : Instr} {c : Ctx} (sem : Ctx → Except TrapInfo Res) (h : s.issues i = some c) :
    issueWord i sem s = match sem c with
      | .error t => c.traps t
      | .ok r => c.finish r := by
  obtain ⟨hp, hc, hd, hr, hpar, -⟩ := State.issues_iff h
  have hs := (State.issues_ctx h).1
  simp only [issueWord, hp, List.foldl_cons, List.foldl_nil, issuePart, hc, hd, hr, hpar]
  cases sem c with
  | error t => simp [Ctx.traps, hs]
  | ok r => simp

/-- An effect that sets no counters itself and steps no path moves the path on. -/
theorem Ctx.finish_of {c : Ctx} {r : Res} (hk : r.keep = false)
    (hs : ∀ g, (c.completes r).group? c.g.gid = some g → g.stepPath = 0) : c.finish r = c.completes r := by
  simp only [Ctx.finish, hk, Bool.false_eq_true, if_false]
  change (c.completes r).stepTrap _ _ = _
  unfold State.stepTrap
  split
  · rfl
  · rename_i g hg
    simp [hs g hg]

/-- Writing a destination keeps the single step. -/
@[simp] theorem Group.writeDest_stepPath (g : Group) (w : Bool) (k : Nat) (l : List (Nat × W64)) :
    (g.writeDest w k l).stepPath = g.stepPath := by
  unfold Group.writeDest
  split
  · rfl
  · split
    · cases l <;> rfl
    · split <;> rfl

/-- Writing the outcomes keeps the single step. -/
@[simp] theorem Ctx.write_stepPath (c : Ctx) (l : List (Nat × LaneOut)) (g : Group) : (c.write l g).stepPath = g.stepPath := by
  simp only [Ctx.write, Group.orFpstat, Group.modThreads]
  split <;> simp

/-- A word whose lanes raise no enabled flag lands its results; one whose lanes do traps (R127). -/
theorem laneOp_of {s : State} {i : Instr} {c : Ctx} (f : Ctx → Nat → LaneOut) (h : s.issues i = some c) :
    issueWord i (laneOp f) s =
      if orFlags (c.outs (f c)) &&& c.enables = 0 then c.lands (f c) else c.traps (c.arith (c.outs (f c))) := by
  obtain ⟨hs, -, hg, hgid, -⟩ := State.issues_ctx h
  obtain ⟨-, -, -, -, -, hstep⟩ := State.issues_iff h
  rw [issueWord_of _ h]
  unfold laneOp
  by_cases hf : orFlags (c.outs (f c)) &&& c.enables = 0
  · simp only [hf, bne_self_eq_false, Bool.false_eq_true, if_false, if_true]
    refine Ctx.finish_of rfl ?_
    intro g hg'
    simp only [Ctx.completes, State.group_mod, if_true, hs, hgid, hg, Option.map_some, Option.some.injEq] at hg'
    subst hg'
    simp [Group.modThreads, hstep]
  · rw [if_neg hf, if_pos (by simpa using hf)]

/-- A word of integer lanes, which raise no flag, lands its results. -/
theorem laneOp_pure {s : State} {i : Instr} {c : Ctx} (f : Ctx → Nat → LaneOut) (h : s.issues i = some c)
    (hf : ∀ k, (f c k).flags = 0) : issueWord i (laneOp f) s = c.lands (f c) := by
  rw [laneOp_of f h, if_pos]
  have : ∀ l : List (Nat × LaneOut), (∀ p ∈ l, p.2.flags = 0) → orFlags l = 0 := by
    intro l hl
    unfold orFlags
    have : ∀ (a : Flags), a = 0 → l.foldl (fun f p => f ||| p.2.flags) a = 0 := by
      induction l with
      | nil => intro a ha; simpa using ha
      | cons p t ih =>
        intro a ha
        rw [List.foldl_cons]
        exact ih (fun q hq => hl q (by simp [hq])) _ (by rw [ha, hl p (by simp)]; rfl)
    exact this 0 rfl
  rw [this]
  · simp
  · intro p hp
    unfold Ctx.outs at hp
    split at hp
    · split at hp
      · simp at hp
      · simp only [List.mem_map] at hp
        obtain ⟨k, -, rfl⟩ := hp
        exact hf _
    · simp only [List.mem_map] at hp
      obtain ⟨k, -, rfl⟩ := hp
      exact hf _

/-- Landed results keep the fuses. -/
theorem done_lands {s : State} {i : Instr} {c : Ctx} (h : s.issues i = some c) (f : Nat → LaneOut) :
    done s (c.lands f) = .next (c.lands f) := by
  obtain ⟨rfl, -⟩ := State.issues_ctx h
  rfl

/-- An instruction whose meaning is an integer lane computation delivers it. -/
theorem delivers_of {i : Instr} {P : Ctx → (Nat → LaneOut) → Prop} (f : Ctx → Nat → LaneOut)
    (he : ∀ s : State, exec i s = done s (issueWord i (laneOp f) s)) (hf : ∀ c k, (f c k).flags = 0)
    (hP : ∀ (s : State) (c : Ctx), s.issues i = some c → P c (f c)) : i.delivers P := by
  intro s c h
  exact ⟨f c, by rw [he, laneOp_pure f h (hf c), done_lands h], hP s c h⟩

/-- An instruction whose meaning is a floating lane computation delivers it, or traps. -/
theorem deliversFloat_of {i : Instr} {P : Ctx → (Nat → LaneOut) → Prop} (f : Ctx → Nat → LaneOut)
    (he : ∀ s : State, exec i s = done s (issueWord i (laneOp f) s)) (hP : ∀ (s : State) (c : Ctx), s.issues i = some c → P c (f c)) :
    i.deliversFloat P := by
  intro s c h
  refine ⟨f c, hP s c h, ?_⟩
  rw [he, laneOp_of f h]
  split
  · rw [done_lands h]
  · rfl

end Sys2Proof.Machine
end

