-- ==== Sys2Proof/Laws/Lanes.lean ====
section
/-! SUPPORT. What writing lane results to a destination does to registers, threads and the rest of a group. -/

namespace Sys2Proof.Machine

/-! ### Registers -/

/-- A list of writes gives an entry the last value listed for it; an entry not listed stays. -/
theorem get_setAll_not {w : Nat} (l : List (Nat × BitVec w)) (c : Cells w) (k : Nat) (h : ∀ p ∈ l, p.1 ≠ k) :
    Cells.get (Cells.setAll c l) k = Cells.get c k := by
  induction l generalizing c with
  | nil => rfl
  | cons p t ih =>
    change Cells.get (Cells.setAll (Cells.set c p.1 p.2) t) k = _
    rw [ih _ (fun q hq => h q (by simp [hq])), Cells.get_set_ne]
    exact fun e => h p (by simp) e.symm

/-- A list of writes that gives an entry one value only leaves that value. -/
theorem get_setAll_mem {w : Nat} (l : List (Nat × BitVec w)) (c : Cells w) (k : Nat) (v : BitVec w)
    (h : ∀ p ∈ l, p.1 = k → p.2 = v) (hm : ∃ p ∈ l, p.1 = k) : Cells.get (Cells.setAll c l) k = v := by
  induction l generalizing c with
  | nil => simp at hm
  | cons p t ih =>
    change Cells.get (Cells.setAll (Cells.set c p.1 p.2) t) k = v
    by_cases ht : ∃ q ∈ t, q.1 = k
    · exact ih _ (fun q hq => h q (by simp [hq])) ht
    · rw [get_setAll_not t _ k (fun q hq e => ht ⟨q, hq, e⟩)]
      obtain ⟨q, hq, hk⟩ := hm
      simp only [List.mem_cons] at hq
      rcases hq with rfl | hq
      · subst hk; simp [h q (by simp) rfl]
      · exact absurd ⟨q, hq, hk⟩ ht

/-- The first entry found for a lane in a list of per-lane results. -/
theorem find_lane {α : Type} (l : List Nat) (f : Nat → α) (h : Nat) :
    (l.map (fun k => (k, f k))).find? (fun p => p.1 == h) = if h ∈ l then some (h, f h) else none := by
  induction l with
  | nil => simp
  | cons a t ih =>
    rw [List.map_cons, List.find?_cons, ih]
    by_cases ha : a = h
    · subst ha; simp
    · have : ¬ h = a := fun e => ha e.symm
      have hb : (a == h) = false := by simpa using ha
      simp [hb, this]

/-- Whether a list of per-lane results has an entry for a lane. -/
theorem any_lane {α : Type} (l : List Nat) (f : Nat → α) (h : Nat) :
    (l.map (fun k => (k, f k))).any (fun p => p.1 == h) = decide (h ∈ l) := by
  induction l with
  | nil => simp
  | cons a t ih =>
    rw [List.map_cons, List.any_cons, ih, Bool.eq_iff_iff]
    simp only [Bool.or_eq_true, beq_iff_eq, decide_eq_true_eq, List.mem_cons]
    exact or_congr_left eq_comm

/-- The outcomes of the active lanes. -/
theorem Ctx.outs_eq (c : Ctx) (f : Nat → LaneOut) :
    c.outs f = c.act.map (fun h => (h, if c.i.scalar then f ((c.act.head?).getD 0) else f h)) := by
  unfold Ctx.outs
  cases hs : c.i.scalar <;> simp
  cases c.act <;> simp

/-- Register vn of a lane after per-lane values were written to a v destination. -/
theorem writeDest_vreg (g : Group) (wide : Bool) (d : Nat) (l : List Nat) (v : Nat → W64) (h n : Nat) (hn : n < 256)
    (hw : wide = true → d ≠ 0xFF) :
    (g.writeDest wide d (l.map (fun k => (k, v k)))).vreg h n =
      if h ∈ l ∧ d = n then (v h).setWidth 32
      else if h ∈ l ∧ wide = true ∧ d + 1 = n ∧ d < 256 then (v h >>> 32).setWidth 32
      else g.vreg h n := by
  unfold Group.writeDest
  split
  · rename_i hd
    simp only [Group.vreg]
    have key : ∀ p, p ∈ (l.map (fun k => (k, v k))).flatMap (fun p => vWrites wide p.1 d p.2) ↔
        ∃ k ∈ l, p = (k * 256 + d, (v k).setWidth 32) ∨ wide = true ∧ p = (k * 256 + d + 1, (v k >>> 32).setWidth 32) := by
      intro p
      simp only [List.mem_flatMap, List.mem_map]
      constructor
      · rintro ⟨q, ⟨k, hk, rfl⟩, hp⟩
        refine ⟨k, hk, ?_⟩
        unfold vWrites at hp
        cases wide <;> simp at hp ⊢ <;> exact hp
      · rintro ⟨k, hk, hp⟩
        refine ⟨(k, v k), ⟨k, hk, rfl⟩, ?_⟩
        unfold vWrites
        cases wide <;> simp at hp ⊢ <;> exact hp
    have hd' : wide = true → d + 1 < 256 := fun e => by have := hw e; omega
    by_cases h1 : h ∈ l ∧ d = n
    · rw [if_pos h1]
      obtain ⟨hl, rfl⟩ := h1
      apply get_setAll_mem
      · intro p hp hk
        obtain ⟨k, hkl, rfl | ⟨hwd, rfl⟩⟩ := (key p).1 hp
        · have : k = h := by simp only at hk; omega
          subst this; rfl
        · have := hd' hwd; simp only at hk; omega
      · exact ⟨_, (key _).2 ⟨h, hl, .inl rfl⟩, rfl⟩
    · rw [if_neg h1]
      by_cases h2 : h ∈ l ∧ wide = true ∧ d + 1 = n ∧ d < 256
      · rw [if_pos h2]
        obtain ⟨hl, hwd, rfl, -⟩ := h2
        apply get_setAll_mem
        · intro p hp hk
          obtain ⟨k, hkl, rfl | ⟨-, rfl⟩⟩ := (key p).1 hp
          · simp only at hk; omega
          · have : k = h := by simp only at hk; omega
            subst this; rfl
        · exact ⟨_, (key _).2 ⟨h, hl, .inr ⟨hwd, rfl⟩⟩, by simp only; omega⟩
      · rw [if_neg h2]
        apply get_setAll_not
        intro p hp hk
        obtain ⟨k, hkl, rfl | ⟨hwd, rfl⟩⟩ := (key p).1 hp
        · simp only at hk
          have : k = h := by omega
          subst this; exact h1 ⟨hkl, by omega⟩
        · have := hd' hwd
          simp only at hk
          have : k = h := by omega
          subst this; exact h2 ⟨hkl, hwd, by omega, hd⟩
  · rename_i hd
    have e1 : ¬ (h ∈ l ∧ d = n) := fun e => by omega
    have e2 : ¬ (h ∈ l ∧ wide = true ∧ d + 1 = n ∧ d < 256) := fun e => hd e.2.2.2
    rw [if_neg e1, if_neg e2]
    split
    · cases l <;> rfl
    · split <;> rfl

/-- Register sn after per-lane values were written to a destination. -/
theorem writeDest_sreg (g : Group) (wide : Bool) (d : Nat) (l : List Nat) (v : Nat → W64) (h n : Nat) (hn : n < 64)
    (hl : l.head? = some h) :
    (g.writeDest wide d (l.map (fun k => (k, v k)))).sreg n = if d = 0x100 + n then v h else g.sreg n := by
  cases l with
  | nil => simp at hl
  | cons a t =>
    obtain rfl : a = h := by simpa using hl
    unfold Group.writeDest
    split
    · rw [if_neg (by omega)]; rfl
    · split
      · rename_i h1 h2
        simp only [List.map_cons, Group.setSreg, Group.sreg, Cells.get_set]
        by_cases e : d = 0x100 + n
        · simp [e]
        · rw [if_neg (by omega), if_neg e]
      · split <;> rw [if_neg (by omega)] <;> rfl

/-- A thread after per-lane values were written to a destination: only a predicate destination changes it. -/
theorem writeDest_thread (g : Group) (wide : Bool) (d : Nat) (l : List Nat) (v : Nat → W64) (h : Nat) :
    (g.writeDest wide d (l.map (fun k => (k, v k)))).threads[h]? =
      if h ∈ l ∧ 0x144 ≤ d ∧ d < 0x14C then (g.threads[h]?).map (fun t => t.setPred (d - 0x144) ((v h).getLsbD 0))
      else g.threads[h]? := by
  unfold Group.writeDest
  split
  · rw [if_neg (by omega)]; rfl
  · split
    · rw [if_neg (by omega)]; cases l <;> rfl
    · split
      · rename_i hp
        simp only [Group.modThreads, List.getElem?_mapIdx, any_lane, find_lane]
        by_cases e : h ∈ l
        · simp [e, hp]
        · simp [e]
      · rename_i hp
        rw [if_neg (fun e => hp e.2)]

/-- Writing a destination touches registers with their parity marks, and threads, only. -/
theorem writeDest_frame (g : Group) (wide : Bool) (d : Nat) (l : List (Nat × W64)) :
    { g.writeDest wide d l with
      vregs := g.vregs, sregs := g.sregs, threads := g.threads, badV := g.badV, badS := g.badS } = g := by
  unfold Group.writeDest
  split
  · rfl
  · split
    · cases l <;> rfl
    · split <;> rfl

/-- Threads after flags were recorded. -/
theorem orFpstat_thread (g : Group) (l : List Nat) (f : Nat → LaneOut) (h : Nat) :
    (g.orFpstat (l.map (fun k => (k, f k)))).threads[h]? =
      if h ∈ l then (g.threads[h]?).map (fun t => { t with fpstat := t.fpstat ||| (f h).flags }) else g.threads[h]? := by
  simp only [Group.orFpstat, Group.modThreads, List.getElem?_mapIdx, any_lane, find_lane]
  by_cases e : h ∈ l <;> simp [e]

/-- A thread's other state stays when a predicate is written. -/
theorem setPred_frame (t : Thread) (n : Nat) (b : Bool) : { t.setPred n b with preds := t.preds } = t := by
  unfold Thread.setPred; split <;> rfl

/-- A predicate after a predicate was written. -/
theorem setPred_pred (t : Thread) (n : Nat) (b : Bool) (q : Nat) (hq : q < 7) (hn : n < 8) :
    (t.setPred n b).pred q = if q = n then b else t.pred q := by
  unfold Thread.setPred Thread.pred
  by_cases h7 : n = 7
  · subst h7
    have : ¬ q = 7 := by omega
    simp [this]
  · have hq7 : (q == 7) = false := by simp; omega
    rw [if_neg h7]
    simp only [hq7, Bool.false_or]
    by_cases e : q = n
    · subst e
      cases b <;> simp [show q < 8 by omega]
    · rw [if_neg e]
      have : ¬ n = q := fun h => e h.symm
      have h1 : ((1 : BitVec 8) <<< n).getLsbD q = false := by
        change ((1#8) <<< n).getLsbD q = false
        simp only [BitVec.getLsbD_shiftLeft, BitVec.getLsbD_one]
        by_cases hl : q < n <;> simp [hl]; omega
      cases b
      · rw [if_neg Bool.false_ne_true, BitVec.getLsbD_and, BitVec.getLsbD_not, h1]
        simp [show q < 8 by omega]
      · rw [if_pos rfl, BitVec.getLsbD_or, h1, Bool.or_false]

end Sys2Proof.Machine
end

