-- ==== Sys2Proof/Laws/State.lean ====
section
/-! SUPPORT. What each update of the state changes and what it leaves: every other field, by rfl; the unit looked up after an
update; and the outcome of an arm. -/

namespace Sys2Proof.Machine

/-! ### Outcomes -/

/-- An arm answers the state that it computes, with the fuses kept. -/
@[simp] theorem done_eq (s t : State) : done s t = .next (t.fused s) := rfl

/-- A state that keeps the fuses is its own. -/
@[simp] theorem State.fused_self (s : State) : s.fused s = s := rfl

/-- The fuses after keeping them. -/
@[simp] theorem State.fused_fuses (t s : State) : (t.fused s).fuses = s.fuses := rfl

/-- The memories at reset are in their canonical form. -/
theorem State.reset_wf : State.reset.memWf = true := by decide

/-- The memories are in their canonical form when each of them is. -/
theorem State.memWf_iff (s : State) : s.memWf = true ↔ Cells.wf s.hbm = true ∧ Cells.wf s.seals = true ∧ Cells.wf s.hostMem = true ∧
    Cells.wf s.peerMem = true ∧ Cells.wf s.frameOwners = true := by
  simp [State.memWf, and_assoc]

/-! ### Lookups -/

/-- A unit found by wg? bears its identifier. -/
theorem State.wg_key {s : State} {k : Nat} {x : Workgroup} (h : s.wg? k = some x) : x.wid = k := by
  simpa using List.find?_some h

/-- wg? after modWg. -/
theorem State.wg_modWg (s : State) (k : Nat) (f : Workgroup → Workgroup) (j : Nat) :
    (s.modWg k f).wg? j = if j = k then (s.wg? k).map (fun x => { f x with wid := k }) else s.wg? j := by
  simp only [State.modWg, State.wg?]
  induction s.wgs with
  | nil => simp
  | cons a t ih =>
    by_cases ha : a.wid = k
    · by_cases hj : j = k
      · subst hj; simp [ha]
      · have : ¬ k = j := fun h => hj h.symm
        simp [ha, hj, this, ih]
    · by_cases hj : j = k
      · subst hj; simp [ha, ih]
      · simp only [List.map_cons, ha, if_false, hj, List.find?_cons]
        rw [ih]; simp [hj]

/-- A unit found by launch? bears its identifier. -/
theorem State.launch_key {s : State} {k : Nat} {x : Launch} (h : s.launch? k = some x) : x.lid = k := by
  simpa using List.find?_some h

/-- launch? after modLaunch. -/
theorem State.launch_modLaunch (s : State) (k : Nat) (f : Launch → Launch) (j : Nat) :
    (s.modLaunch k f).launch? j = if j = k then (s.launch? k).map (fun x => { f x with lid := k }) else s.launch? j := by
  simp only [State.modLaunch, State.launch?]
  induction s.launches with
  | nil => simp
  | cons a t ih =>
    by_cases ha : a.lid = k
    · by_cases hj : j = k
      · subst hj; simp [ha]
      · have : ¬ k = j := fun h => hj h.symm
        simp [ha, hj, this, ih]
    · by_cases hj : j = k
      · subst hj; simp [ha, ih]
      · simp only [List.map_cons, ha, if_false, hj, List.find?_cons]
        rw [ih]; simp [hj]

/-- A unit found by cluster? bears its identifier. -/
theorem State.cluster_key {s : State} {k : Nat} {x : Cluster} (h : s.cluster? k = some x) : x.cid = k := by
  simpa using List.find?_some h

/-- cluster? after modCluster. -/
theorem State.cluster_modCluster (s : State) (k : Nat) (f : Cluster → Cluster) (j : Nat) :
    (s.modCluster k f).cluster? j = if j = k then (s.cluster? k).map (fun x => { f x with cid := k }) else s.cluster? j := by
  simp only [State.modCluster, State.cluster?]
  induction s.clusters with
  | nil => simp
  | cons a t ih =>
    by_cases ha : a.cid = k
    · by_cases hj : j = k
      · subst hj; simp [ha]
      · have : ¬ k = j := fun h => hj h.symm
        simp [ha, hj, this, ih]
    · by_cases hj : j = k
      · subst hj; simp [ha, ih]
      · simp only [List.map_cons, ha, if_false, hj, List.find?_cons]
        rw [ih]; simp [hj]

/-- A unit found by op? bears its identifier. -/
theorem State.op_key {s : State} {k : Nat} {x : MemOp} (h : s.op? k = some x) : x.id = k := by
  simpa using List.find?_some h

/-- op? after modOp. -/
theorem State.op_modOp (s : State) (k : Nat) (f : MemOp → MemOp) (j : Nat) :
    (s.modOp k f).op? j = if j = k then (s.op? k).map (fun x => { f x with id := k }) else s.op? j := by
  simp only [State.modOp, State.op?]
  induction s.ops with
  | nil => simp
  | cons a t ih =>
    by_cases ha : a.id = k
    · by_cases hj : j = k
      · subst hj; simp [ha]
      · have : ¬ k = j := fun h => hj h.symm
        simp [ha, hj, this, ih]
    · by_cases hj : j = k
      · subst hj; simp [ha, ih]
      · simp only [List.map_cons, ha, if_false, hj, List.find?_cons]
        rw [ih]; simp [hj]

/-- A unit found by asid? bears its identifier. -/
theorem State.asid_key {s : State} {k : Nat} {x : AsidCtx} (h : s.asid? k = some x) : x.asid = k := by
  simpa using List.find?_some h

/-- asid? after modAsid. -/
theorem State.asid_modAsid (s : State) (k : Nat) (f : AsidCtx → AsidCtx) (j : Nat) :
    (s.modAsid k f).asid? j = if j = k then (s.asid? k).map (fun x => { f x with asid := k }) else s.asid? j := by
  simp only [State.modAsid, State.asid?]
  induction s.asids with
  | nil => simp
  | cons a t ih =>
    by_cases ha : a.asid = k
    · by_cases hj : j = k
      · subst hj; simp [ha]
      · have : ¬ k = j := fun h => hj h.symm
        simp [ha, hj, this, ih]
    · by_cases hj : j = k
      · subst hj; simp [ha, ih]
      · simp only [List.map_cons, ha, if_false, hj, List.find?_cons]
        rw [ih]; simp [hj]

/-- A unit found by part? bears its identifier. -/
theorem State.part_key {s : State} {k : Nat} {x : Partition} (h : s.part? k = some x) : x.num = k := by
  simpa using List.find?_some h

/-- part? after modPart. -/
theorem State.part_modPart (s : State) (k : Nat) (f : Partition → Partition) (j : Nat) :
    (s.modPart k f).part? j = if j = k then (s.part? k).map (fun x => { f x with num := k }) else s.part? j := by
  simp only [State.modPart, State.part?]
  induction s.parts with
  | nil => simp
  | cons a t ih =>
    by_cases ha : a.num = k
    · by_cases hj : j = k
      · subst hj; simp [ha]
      · have : ¬ k = j := fun h => hj h.symm
        simp [ha, hj, this, ih]
    · by_cases hj : j = k
      · subst hj; simp [ha, ih]
      · simp only [List.map_cons, ha, if_false, hj, List.find?_cons]
        rw [ih]; simp [hj]

/-- A unit found by func? bears its identifier. -/
theorem State.func_key {s : State} {k : Nat} {x : Func} (h : s.func? k = some x) : x.fn = k := by
  simpa using List.find?_some h

/-- func? after modFunc. -/
theorem State.func_modFunc (s : State) (k : Nat) (f : Func → Func) (j : Nat) :
    (s.modFunc k f).func? j = if j = k then (s.func? k).map (fun x => { f x with fn := k }) else s.func? j := by
  simp only [State.modFunc, State.func?]
  induction s.funcs with
  | nil => simp
  | cons a t ih =>
    by_cases ha : a.fn = k
    · by_cases hj : j = k
      · subst hj; simp [ha]
      · have : ¬ k = j := fun h => hj h.symm
        simp [ha, hj, this, ih]
    · by_cases hj : j = k
      · subst hj; simp [ha, ih]
      · simp only [List.map_cons, ha, if_false, hj, List.find?_cons]
        rw [ih]; simp [hj]

/-! ### modGroup -/

@[simp] theorem State.modGroup_powered (s : State) (k : Nat) (f : Group → Group) : (s.modGroup k f).powered = s.powered := rfl
@[simp] theorem State.modGroup_fuses (s : State) (k : Nat) (f : Group → Group) : (s.modGroup k f).fuses = s.fuses := rfl
@[simp] theorem State.modGroup_coreMap (s : State) (k : Nat) (f : Group → Group) : (s.modGroup k f).coreMap = s.coreMap := rfl
@[simp] theorem State.modGroup_dies (s : State) (k : Nat) (f : Group → Group) : (s.modGroup k f).dies = s.dies := rfl
@[simp] theorem State.modGroup_cores (s : State) (k : Nat) (f : Group → Group) : (s.modGroup k f).cores = s.cores := rfl
@[simp] theorem State.modGroup_launches (s : State) (k : Nat) (f : Group → Group) : (s.modGroup k f).launches = s.launches := rfl
@[simp] theorem State.modGroup_clusters (s : State) (k : Nat) (f : Group → Group) : (s.modGroup k f).clusters = s.clusters := rfl
@[simp] theorem State.modGroup_wgs (s : State) (k : Nat) (f : Group → Group) : (s.modGroup k f).wgs = s.wgs := rfl
@[simp] theorem State.modGroup_formed (s : State) (k : Nat) (f : Group → Group) : (s.modGroup k f).formed = s.formed := rfl
@[simp] theorem State.modGroup_ops (s : State) (k : Nat) (f : Group → Group) : (s.modGroup k f).ops = s.ops := rfl
@[simp] theorem State.modGroup_acks (s : State) (k : Nat) (f : Group → Group) : (s.modGroup k f).acks = s.acks := rfl
@[simp] theorem State.modGroup_mx (s : State) (k : Nat) (f : Group → Group) : (s.modGroup k f).mx = s.mx := rfl
@[simp] theorem State.modGroup_l1 (s : State) (k : Nat) (f : Group → Group) : (s.modGroup k f).l1 = s.l1 := rfl
@[simp] theorem State.modGroup_pathLines (s : State) (k : Nat) (f : Group → Group) : (s.modGroup k f).pathLines = s.pathLines := rfl
@[simp] theorem State.modGroup_travRuns (s : State) (k : Nat) (f : Group → Group) : (s.modGroup k f).travRuns = s.travRuns := rfl
@[simp] theorem State.modGroup_home (s : State) (k : Nat) (f : Group → Group) : (s.modGroup k f).home = s.home := rfl
@[simp] theorem State.modGroup_rdc (s : State) (k : Nat) (f : Group → Group) : (s.modGroup k f).rdc = s.rdc := rfl
@[simp] theorem State.modGroup_notices (s : State) (k : Nat) (f : Group → Group) : (s.modGroup k f).notices = s.notices := rfl
@[simp] theorem State.modGroup_evictBound (s : State) (k : Nat) (f : Group → Group) : (s.modGroup k f).evictBound = s.evictBound := rfl
@[simp] theorem State.modGroup_tlb (s : State) (k : Nat) (f : Group → Group) : (s.modGroup k f).tlb = s.tlb := rfl
@[simp] theorem State.modGroup_hbm (s : State) (k : Nat) (f : Group → Group) : (s.modGroup k f).hbm = s.hbm := rfl
@[simp] theorem State.modGroup_seals (s : State) (k : Nat) (f : Group → Group) : (s.modGroup k f).seals = s.seals := rfl
@[simp] theorem State.modGroup_poison (s : State) (k : Nat) (f : Group → Group) : (s.modGroup k f).poison = s.poison := rfl
@[simp] theorem State.modGroup_hbmScope (s : State) (k : Nat) (f : Group → Group) : (s.modGroup k f).hbmScope = s.hbmScope := rfl
@[simp] theorem State.modGroup_hostMem (s : State) (k : Nat) (f : Group → Group) : (s.modGroup k f).hostMem = s.hostMem := rfl
@[simp] theorem State.modGroup_peerMem (s : State) (k : Nat) (f : Group → Group) : (s.modGroup k f).peerMem = s.peerMem := rfl
@[simp] theorem State.modGroup_peerRefuse (s : State) (k : Nat) (f : Group → Group) : (s.modGroup k f).peerRefuse = s.peerRefuse := rfl
@[simp] theorem State.modGroup_peerLen (s : State) (k : Nat) (f : Group → Group) : (s.modGroup k f).peerLen = s.peerLen := rfl
@[simp] theorem State.modGroup_frameOwners (s : State) (k : Nat) (f : Group → Group) : (s.modGroup k f).frameOwners = s.frameOwners := rfl
@[simp] theorem State.modGroup_asids (s : State) (k : Nat) (f : Group → Group) : (s.modGroup k f).asids = s.asids := rfl
@[simp] theorem State.modGroup_parts (s : State) (k : Nat) (f : Group → Group) : (s.modGroup k f).parts = s.parts := rfl
@[simp] theorem State.modGroup_fsets (s : State) (k : Nat) (f : Group → Group) : (s.modGroup k f).fsets = s.fsets := rfl
@[simp] theorem State.modGroup_pages (s : State) (k : Nat) (f : Group → Group) : (s.modGroup k f).pages = s.pages := rfl
@[simp] theorem State.modGroup_codes (s : State) (k : Nat) (f : Group → Group) : (s.modGroup k f).codes = s.codes := rfl
@[simp] theorem State.modGroup_pinnedFree (s : State) (k : Nat) (f : Group → Group) : (s.modGroup k f).pinnedFree = s.pinnedFree := rfl
@[simp] theorem State.modGroup_rows (s : State) (k : Nat) (f : Group → Group) : (s.modGroup k f).rows = s.rows := rfl
@[simp] theorem State.modGroup_curRow (s : State) (k : Nat) (f : Group → Group) : (s.modGroup k f).curRow = s.curRow := rfl
@[simp] theorem State.modGroup_rowStart (s : State) (k : Nat) (f : Group → Group) : (s.modGroup k f).rowStart = s.rowStart := rfl
@[simp] theorem State.modGroup_quads (s : State) (k : Nat) (f : Group → Group) : (s.modGroup k f).quads = s.quads := rfl
@[simp] theorem State.modGroup_pendingTable (s : State) (k : Nat) (f : Group → Group) : (s.modGroup k f).pendingTable = s.pendingTable := rfl
@[simp] theorem State.modGroup_tableWait (s : State) (k : Nat) (f : Group → Group) : (s.modGroup k f).tableWait = s.tableWait := rfl
@[simp] theorem State.modGroup_deferredCmds (s : State) (k : Nat) (f : Group → Group) : (s.modGroup k f).deferredCmds = s.deferredCmds := rfl
@[simp] theorem State.modGroup_fwWait (s : State) (k : Nat) (f : Group → Group) : (s.modGroup k f).fwWait = s.fwWait := rfl
@[simp] theorem State.modGroup_funcs (s : State) (k : Nat) (f : Group → Group) : (s.modGroup k f).funcs = s.funcs := rfl
@[simp] theorem State.modGroup_queue (s : State) (k : Nat) (f : Group → Group) : (s.modGroup k f).queue = s.queue := rfl
@[simp] theorem State.modGroup_done (s : State) (k : Nat) (f : Group → Group) : (s.modGroup k f).done = s.done := rfl
@[simp] theorem State.modGroup_nextCmdFn (s : State) (k : Nat) (f : Group → Group) : (s.modGroup k f).nextCmdFn = s.nextCmdFn := rfl
@[simp] theorem State.modGroup_vectors (s : State) (k : Nat) (f : Group → Group) : (s.modGroup k f).vectors = s.vectors := rfl
@[simp] theorem State.modGroup_mgmt (s : State) (k : Nat) (f : Group → Group) : (s.modGroup k f).mgmt = s.mgmt := rfl
@[simp] theorem State.modGroup_colls (s : State) (k : Nat) (f : Group → Group) : (s.modGroup k f).colls = s.colls := rfl
@[simp] theorem State.modGroup_heard (s : State) (k : Nat) (f : Group → Group) : (s.modGroup k f).heard = s.heard := rfl
@[simp] theorem State.modGroup_rounds (s : State) (k : Nat) (f : Group → Group) : (s.modGroup k f).rounds = s.rounds := rfl
@[simp] theorem State.modGroup_portUp (s : State) (k : Nat) (f : Group → Group) : (s.modGroup k f).portUp = s.portUp := rfl
@[simp] theorem State.modGroup_bootCount (s : State) (k : Nat) (f : Group → Group) : (s.modGroup k f).bootCount = s.bootCount := rfl
@[simp] theorem State.modGroup_bootRecord (s : State) (k : Nat) (f : Group → Group) : (s.modGroup k f).bootRecord = s.bootRecord := rfl
@[simp] theorem State.modGroup_recovery (s : State) (k : Nat) (f : Group → Group) : (s.modGroup k f).recovery = s.recovery := rfl
@[simp] theorem State.modGroup_replReq (s : State) (k : Nat) (f : Group → Group) : (s.modGroup k f).replReq = s.replReq := rfl
@[simp] theorem State.modGroup_degraded (s : State) (k : Nat) (f : Group → Group) : (s.modGroup k f).degraded = s.degraded := rfl
@[simp] theorem State.modGroup_throtEnd (s : State) (k : Nat) (f : Group → Group) : (s.modGroup k f).throtEnd = s.throtEnd := rfl
@[simp] theorem State.modGroup_hstat (s : State) (k : Nat) (f : Group → Group) : (s.modGroup k f).hstat = s.hstat := rfl
@[simp] theorem State.modGroup_hbmRate (s : State) (k : Nat) (f : Group → Group) : (s.modGroup k f).hbmRate = s.hbmRate := rfl
@[simp] theorem State.modGroup_pcie (s : State) (k : Nat) (f : Group → Group) : (s.modGroup k f).pcie = s.pcie := rfl
@[simp] theorem State.modGroup_mchk (s : State) (k : Nat) (f : Group → Group) : (s.modGroup k f).mchk = s.mchk := rfl
@[simp] theorem State.modGroup_keyGen (s : State) (k : Nat) (f : Group → Group) : (s.modGroup k f).keyGen = s.keyGen := rfl
@[simp] theorem State.modGroup_badScratch (s : State) (k : Nat) (f : Group → Group) : (s.modGroup k f).badScratch = s.badScratch := rfl
@[simp] theorem State.modGroup_badFetch (s : State) (k : Nat) (f : Group → Group) : (s.modGroup k f).badFetch = s.badFetch := rfl
@[simp] theorem State.modGroup_dmaW (s : State) (k : Nat) (f : Group → Group) : (s.modGroup k f).dmaW = s.dmaW := rfl
@[simp] theorem State.modGroup_dmaLr (s : State) (k : Nat) (f : Group → Group) : (s.modGroup k f).dmaLr = s.dmaLr := rfl
@[simp] theorem State.modGroup_coreW (s : State) (k : Nat) (f : Group → Group) : (s.modGroup k f).coreW = s.coreW := rfl
@[simp] theorem State.modGroup_issue (s : State) (k : Nat) (f : Group → Group) : (s.modGroup k f).issue = s.issue := rfl
@[simp] theorem State.modGroup_turns (s : State) (k : Nat) (f : Group → Group) : (s.modGroup k f).turns = s.turns := rfl
@[simp] theorem State.modGroup_tick (s : State) (k : Nat) (f : Group → Group) : (s.modGroup k f).tick = s.tick := rfl
@[simp] theorem State.modGroup_freeCtr (s : State) (k : Nat) (f : Group → Group) : (s.modGroup k f).freeCtr = s.freeCtr := rfl

/-! ### modWg -/

@[simp] theorem State.modWg_powered (s : State) (k : Nat) (f : Workgroup → Workgroup) : (s.modWg k f).powered = s.powered := rfl
@[simp] theorem State.modWg_fuses (s : State) (k : Nat) (f : Workgroup → Workgroup) : (s.modWg k f).fuses = s.fuses := rfl
@[simp] theorem State.modWg_coreMap (s : State) (k : Nat) (f : Workgroup → Workgroup) : (s.modWg k f).coreMap = s.coreMap := rfl
@[simp] theorem State.modWg_dies (s : State) (k : Nat) (f : Workgroup → Workgroup) : (s.modWg k f).dies = s.dies := rfl
@[simp] theorem State.modWg_cores (s : State) (k : Nat) (f : Workgroup → Workgroup) : (s.modWg k f).cores = s.cores := rfl
@[simp] theorem State.modWg_launches (s : State) (k : Nat) (f : Workgroup → Workgroup) : (s.modWg k f).launches = s.launches := rfl
@[simp] theorem State.modWg_clusters (s : State) (k : Nat) (f : Workgroup → Workgroup) : (s.modWg k f).clusters = s.clusters := rfl
@[simp] theorem State.modWg_groups (s : State) (k : Nat) (f : Workgroup → Workgroup) : (s.modWg k f).groups = s.groups := rfl
@[simp] theorem State.modWg_formed (s : State) (k : Nat) (f : Workgroup → Workgroup) : (s.modWg k f).formed = s.formed := rfl
@[simp] theorem State.modWg_ops (s : State) (k : Nat) (f : Workgroup → Workgroup) : (s.modWg k f).ops = s.ops := rfl
@[simp] theorem State.modWg_acks (s : State) (k : Nat) (f : Workgroup → Workgroup) : (s.modWg k f).acks = s.acks := rfl
@[simp] theorem State.modWg_mx (s : State) (k : Nat) (f : Workgroup → Workgroup) : (s.modWg k f).mx = s.mx := rfl
@[simp] theorem State.modWg_l1 (s : State) (k : Nat) (f : Workgroup → Workgroup) : (s.modWg k f).l1 = s.l1 := rfl
@[simp] theorem State.modWg_pathLines (s : State) (k : Nat) (f : Workgroup → Workgroup) : (s.modWg k f).pathLines = s.pathLines := rfl
@[simp] theorem State.modWg_travRuns (s : State) (k : Nat) (f : Workgroup → Workgroup) : (s.modWg k f).travRuns = s.travRuns := rfl
@[simp] theorem State.modWg_home (s : State) (k : Nat) (f : Workgroup → Workgroup) : (s.modWg k f).home = s.home := rfl
@[simp] theorem State.modWg_rdc (s : State) (k : Nat) (f : Workgroup → Workgroup) : (s.modWg k f).rdc = s.rdc := rfl
@[simp] theorem State.modWg_notices (s : State) (k : Nat) (f : Workgroup → Workgroup) : (s.modWg k f).notices = s.notices := rfl
@[simp] theorem State.modWg_evictBound (s : State) (k : Nat) (f : Workgroup → Workgroup) : (s.modWg k f).evictBound = s.evictBound := rfl
@[simp] theorem State.modWg_tlb (s : State) (k : Nat) (f : Workgroup → Workgroup) : (s.modWg k f).tlb = s.tlb := rfl
@[simp] theorem State.modWg_hbm (s : State) (k : Nat) (f : Workgroup → Workgroup) : (s.modWg k f).hbm = s.hbm := rfl
@[simp] theorem State.modWg_seals (s : State) (k : Nat) (f : Workgroup → Workgroup) : (s.modWg k f).seals = s.seals := rfl
@[simp] theorem State.modWg_poison (s : State) (k : Nat) (f : Workgroup → Workgroup) : (s.modWg k f).poison = s.poison := rfl
@[simp] theorem State.modWg_hbmScope (s : State) (k : Nat) (f : Workgroup → Workgroup) : (s.modWg k f).hbmScope = s.hbmScope := rfl
@[simp] theorem State.modWg_hostMem (s : State) (k : Nat) (f : Workgroup → Workgroup) : (s.modWg k f).hostMem = s.hostMem := rfl
@[simp] theorem State.modWg_peerMem (s : State) (k : Nat) (f : Workgroup → Workgroup) : (s.modWg k f).peerMem = s.peerMem := rfl
@[simp] theorem State.modWg_peerRefuse (s : State) (k : Nat) (f : Workgroup → Workgroup) : (s.modWg k f).peerRefuse = s.peerRefuse := rfl
@[simp] theorem State.modWg_peerLen (s : State) (k : Nat) (f : Workgroup → Workgroup) : (s.modWg k f).peerLen = s.peerLen := rfl
@[simp] theorem State.modWg_frameOwners (s : State) (k : Nat) (f : Workgroup → Workgroup) : (s.modWg k f).frameOwners = s.frameOwners := rfl
@[simp] theorem State.modWg_asids (s : State) (k : Nat) (f : Workgroup → Workgroup) : (s.modWg k f).asids = s.asids := rfl
@[simp] theorem State.modWg_parts (s : State) (k : Nat) (f : Workgroup → Workgroup) : (s.modWg k f).parts = s.parts := rfl
@[simp] theorem State.modWg_fsets (s : State) (k : Nat) (f : Workgroup → Workgroup) : (s.modWg k f).fsets = s.fsets := rfl
@[simp] theorem State.modWg_pages (s : State) (k : Nat) (f : Workgroup → Workgroup) : (s.modWg k f).pages = s.pages := rfl
@[simp] theorem State.modWg_codes (s : State) (k : Nat) (f : Workgroup → Workgroup) : (s.modWg k f).codes = s.codes := rfl
@[simp] theorem State.modWg_pinnedFree (s : State) (k : Nat) (f : Workgroup → Workgroup) : (s.modWg k f).pinnedFree = s.pinnedFree := rfl
@[simp] theorem State.modWg_rows (s : State) (k : Nat) (f : Workgroup → Workgroup) : (s.modWg k f).rows = s.rows := rfl
@[simp] theorem State.modWg_curRow (s : State) (k : Nat) (f : Workgroup → Workgroup) : (s.modWg k f).curRow = s.curRow := rfl
@[simp] theorem State.modWg_rowStart (s : State) (k : Nat) (f : Workgroup → Workgroup) : (s.modWg k f).rowStart = s.rowStart := rfl
@[simp] theorem State.modWg_quads (s : State) (k : Nat) (f : Workgroup → Workgroup) : (s.modWg k f).quads = s.quads := rfl
@[simp] theorem State.modWg_pendingTable (s : State) (k : Nat) (f : Workgroup → Workgroup) : (s.modWg k f).pendingTable = s.pendingTable := rfl
@[simp] theorem State.modWg_tableWait (s : State) (k : Nat) (f : Workgroup → Workgroup) : (s.modWg k f).tableWait = s.tableWait := rfl
@[simp] theorem State.modWg_deferredCmds (s : State) (k : Nat) (f : Workgroup → Workgroup) : (s.modWg k f).deferredCmds = s.deferredCmds := rfl
@[simp] theorem State.modWg_fwWait (s : State) (k : Nat) (f : Workgroup → Workgroup) : (s.modWg k f).fwWait = s.fwWait := rfl
@[simp] theorem State.modWg_funcs (s : State) (k : Nat) (f : Workgroup → Workgroup) : (s.modWg k f).funcs = s.funcs := rfl
@[simp] theorem State.modWg_queue (s : State) (k : Nat) (f : Workgroup → Workgroup) : (s.modWg k f).queue = s.queue := rfl
@[simp] theorem State.modWg_done (s : State) (k : Nat) (f : Workgroup → Workgroup) : (s.modWg k f).done = s.done := rfl
@[simp] theorem State.modWg_nextCmdFn (s : State) (k : Nat) (f : Workgroup → Workgroup) : (s.modWg k f).nextCmdFn = s.nextCmdFn := rfl
@[simp] theorem State.modWg_vectors (s : State) (k : Nat) (f : Workgroup → Workgroup) : (s.modWg k f).vectors = s.vectors := rfl
@[simp] theorem State.modWg_mgmt (s : State) (k : Nat) (f : Workgroup → Workgroup) : (s.modWg k f).mgmt = s.mgmt := rfl
@[simp] theorem State.modWg_colls (s : State) (k : Nat) (f : Workgroup → Workgroup) : (s.modWg k f).colls = s.colls := rfl
@[simp] theorem State.modWg_heard (s : State) (k : Nat) (f : Workgroup → Workgroup) : (s.modWg k f).heard = s.heard := rfl
@[simp] theorem State.modWg_rounds (s : State) (k : Nat) (f : Workgroup → Workgroup) : (s.modWg k f).rounds = s.rounds := rfl
@[simp] theorem State.modWg_portUp (s : State) (k : Nat) (f : Workgroup → Workgroup) : (s.modWg k f).portUp = s.portUp := rfl
@[simp] theorem State.modWg_bootCount (s : State) (k : Nat) (f : Workgroup → Workgroup) : (s.modWg k f).bootCount = s.bootCount := rfl
@[simp] theorem State.modWg_bootRecord (s : State) (k : Nat) (f : Workgroup → Workgroup) : (s.modWg k f).bootRecord = s.bootRecord := rfl
@[simp] theorem State.modWg_recovery (s : State) (k : Nat) (f : Workgroup → Workgroup) : (s.modWg k f).recovery = s.recovery := rfl
@[simp] theorem State.modWg_replReq (s : State) (k : Nat) (f : Workgroup → Workgroup) : (s.modWg k f).replReq = s.replReq := rfl
@[simp] theorem State.modWg_degraded (s : State) (k : Nat) (f : Workgroup → Workgroup) : (s.modWg k f).degraded = s.degraded := rfl
@[simp] theorem State.modWg_throtEnd (s : State) (k : Nat) (f : Workgroup → Workgroup) : (s.modWg k f).throtEnd = s.throtEnd := rfl
@[simp] theorem State.modWg_hstat (s : State) (k : Nat) (f : Workgroup → Workgroup) : (s.modWg k f).hstat = s.hstat := rfl
@[simp] theorem State.modWg_hbmRate (s : State) (k : Nat) (f : Workgroup → Workgroup) : (s.modWg k f).hbmRate = s.hbmRate := rfl
@[simp] theorem State.modWg_pcie (s : State) (k : Nat) (f : Workgroup → Workgroup) : (s.modWg k f).pcie = s.pcie := rfl
@[simp] theorem State.modWg_mchk (s : State) (k : Nat) (f : Workgroup → Workgroup) : (s.modWg k f).mchk = s.mchk := rfl
@[simp] theorem State.modWg_keyGen (s : State) (k : Nat) (f : Workgroup → Workgroup) : (s.modWg k f).keyGen = s.keyGen := rfl
@[simp] theorem State.modWg_badScratch (s : State) (k : Nat) (f : Workgroup → Workgroup) : (s.modWg k f).badScratch = s.badScratch := rfl
@[simp] theorem State.modWg_badFetch (s : State) (k : Nat) (f : Workgroup → Workgroup) : (s.modWg k f).badFetch = s.badFetch := rfl
@[simp] theorem State.modWg_dmaW (s : State) (k : Nat) (f : Workgroup → Workgroup) : (s.modWg k f).dmaW = s.dmaW := rfl
@[simp] theorem State.modWg_dmaLr (s : State) (k : Nat) (f : Workgroup → Workgroup) : (s.modWg k f).dmaLr = s.dmaLr := rfl
@[simp] theorem State.modWg_coreW (s : State) (k : Nat) (f : Workgroup → Workgroup) : (s.modWg k f).coreW = s.coreW := rfl
@[simp] theorem State.modWg_issue (s : State) (k : Nat) (f : Workgroup → Workgroup) : (s.modWg k f).issue = s.issue := rfl
@[simp] theorem State.modWg_turns (s : State) (k : Nat) (f : Workgroup → Workgroup) : (s.modWg k f).turns = s.turns := rfl
@[simp] theorem State.modWg_tick (s : State) (k : Nat) (f : Workgroup → Workgroup) : (s.modWg k f).tick = s.tick := rfl
@[simp] theorem State.modWg_freeCtr (s : State) (k : Nat) (f : Workgroup → Workgroup) : (s.modWg k f).freeCtr = s.freeCtr := rfl

/-! ### modCluster -/

@[simp] theorem State.modCluster_powered (s : State) (k : Nat) (f : Cluster → Cluster) : (s.modCluster k f).powered = s.powered := rfl
@[simp] theorem State.modCluster_fuses (s : State) (k : Nat) (f : Cluster → Cluster) : (s.modCluster k f).fuses = s.fuses := rfl
@[simp] theorem State.modCluster_coreMap (s : State) (k : Nat) (f : Cluster → Cluster) : (s.modCluster k f).coreMap = s.coreMap := rfl
@[simp] theorem State.modCluster_dies (s : State) (k : Nat) (f : Cluster → Cluster) : (s.modCluster k f).dies = s.dies := rfl
@[simp] theorem State.modCluster_cores (s : State) (k : Nat) (f : Cluster → Cluster) : (s.modCluster k f).cores = s.cores := rfl
@[simp] theorem State.modCluster_launches (s : State) (k : Nat) (f : Cluster → Cluster) : (s.modCluster k f).launches = s.launches := rfl
@[simp] theorem State.modCluster_wgs (s : State) (k : Nat) (f : Cluster → Cluster) : (s.modCluster k f).wgs = s.wgs := rfl
@[simp] theorem State.modCluster_groups (s : State) (k : Nat) (f : Cluster → Cluster) : (s.modCluster k f).groups = s.groups := rfl
@[simp] theorem State.modCluster_formed (s : State) (k : Nat) (f : Cluster → Cluster) : (s.modCluster k f).formed = s.formed := rfl
@[simp] theorem State.modCluster_ops (s : State) (k : Nat) (f : Cluster → Cluster) : (s.modCluster k f).ops = s.ops := rfl
@[simp] theorem State.modCluster_acks (s : State) (k : Nat) (f : Cluster → Cluster) : (s.modCluster k f).acks = s.acks := rfl
@[simp] theorem State.modCluster_mx (s : State) (k : Nat) (f : Cluster → Cluster) : (s.modCluster k f).mx = s.mx := rfl
@[simp] theorem State.modCluster_l1 (s : State) (k : Nat) (f : Cluster → Cluster) : (s.modCluster k f).l1 = s.l1 := rfl
@[simp] theorem State.modCluster_pathLines (s : State) (k : Nat) (f : Cluster → Cluster) : (s.modCluster k f).pathLines = s.pathLines := rfl
@[simp] theorem State.modCluster_travRuns (s : State) (k : Nat) (f : Cluster → Cluster) : (s.modCluster k f).travRuns = s.travRuns := rfl
@[simp] theorem State.modCluster_home (s : State) (k : Nat) (f : Cluster → Cluster) : (s.modCluster k f).home = s.home := rfl
@[simp] theorem State.modCluster_rdc (s : State) (k : Nat) (f : Cluster → Cluster) : (s.modCluster k f).rdc = s.rdc := rfl
@[simp] theorem State.modCluster_notices (s : State) (k : Nat) (f : Cluster → Cluster) : (s.modCluster k f).notices = s.notices := rfl
@[simp] theorem State.modCluster_evictBound (s : State) (k : Nat) (f : Cluster → Cluster) : (s.modCluster k f).evictBound = s.evictBound := rfl
@[simp] theorem State.modCluster_tlb (s : State) (k : Nat) (f : Cluster → Cluster) : (s.modCluster k f).tlb = s.tlb := rfl
@[simp] theorem State.modCluster_hbm (s : State) (k : Nat) (f : Cluster → Cluster) : (s.modCluster k f).hbm = s.hbm := rfl
@[simp] theorem State.modCluster_seals (s : State) (k : Nat) (f : Cluster → Cluster) : (s.modCluster k f).seals = s.seals := rfl
@[simp] theorem State.modCluster_poison (s : State) (k : Nat) (f : Cluster → Cluster) : (s.modCluster k f).poison = s.poison := rfl
@[simp] theorem State.modCluster_hbmScope (s : State) (k : Nat) (f : Cluster → Cluster) : (s.modCluster k f).hbmScope = s.hbmScope := rfl
@[simp] theorem State.modCluster_hostMem (s : State) (k : Nat) (f : Cluster → Cluster) : (s.modCluster k f).hostMem = s.hostMem := rfl
@[simp] theorem State.modCluster_peerMem (s : State) (k : Nat) (f : Cluster → Cluster) : (s.modCluster k f).peerMem = s.peerMem := rfl
@[simp] theorem State.modCluster_peerRefuse (s : State) (k : Nat) (f : Cluster → Cluster) : (s.modCluster k f).peerRefuse = s.peerRefuse := rfl
@[simp] theorem State.modCluster_peerLen (s : State) (k : Nat) (f : Cluster → Cluster) : (s.modCluster k f).peerLen = s.peerLen := rfl
@[simp] theorem State.modCluster_frameOwners (s : State) (k : Nat) (f : Cluster → Cluster) : (s.modCluster k f).frameOwners = s.frameOwners := rfl
@[simp] theorem State.modCluster_asids (s : State) (k : Nat) (f : Cluster → Cluster) : (s.modCluster k f).asids = s.asids := rfl
@[simp] theorem State.modCluster_parts (s : State) (k : Nat) (f : Cluster → Cluster) : (s.modCluster k f).parts = s.parts := rfl
@[simp] theorem State.modCluster_fsets (s : State) (k : Nat) (f : Cluster → Cluster) : (s.modCluster k f).fsets = s.fsets := rfl
@[simp] theorem State.modCluster_pages (s : State) (k : Nat) (f : Cluster → Cluster) : (s.modCluster k f).pages = s.pages := rfl
@[simp] theorem State.modCluster_codes (s : State) (k : Nat) (f : Cluster → Cluster) : (s.modCluster k f).codes = s.codes := rfl
@[simp] theorem State.modCluster_pinnedFree (s : State) (k : Nat) (f : Cluster → Cluster) : (s.modCluster k f).pinnedFree = s.pinnedFree := rfl
@[simp] theorem State.modCluster_rows (s : State) (k : Nat) (f : Cluster → Cluster) : (s.modCluster k f).rows = s.rows := rfl
@[simp] theorem State.modCluster_curRow (s : State) (k : Nat) (f : Cluster → Cluster) : (s.modCluster k f).curRow = s.curRow := rfl
@[simp] theorem State.modCluster_rowStart (s : State) (k : Nat) (f : Cluster → Cluster) : (s.modCluster k f).rowStart = s.rowStart := rfl
@[simp] theorem State.modCluster_quads (s : State) (k : Nat) (f : Cluster → Cluster) : (s.modCluster k f).quads = s.quads := rfl
@[simp] theorem State.modCluster_pendingTable (s : State) (k : Nat) (f : Cluster → Cluster) : (s.modCluster k f).pendingTable = s.pendingTable := rfl
@[simp] theorem State.modCluster_tableWait (s : State) (k : Nat) (f : Cluster → Cluster) : (s.modCluster k f).tableWait = s.tableWait := rfl
@[simp] theorem State.modCluster_deferredCmds (s : State) (k : Nat) (f : Cluster → Cluster) : (s.modCluster k f).deferredCmds = s.deferredCmds := rfl
@[simp] theorem State.modCluster_fwWait (s : State) (k : Nat) (f : Cluster → Cluster) : (s.modCluster k f).fwWait = s.fwWait := rfl
@[simp] theorem State.modCluster_funcs (s : State) (k : Nat) (f : Cluster → Cluster) : (s.modCluster k f).funcs = s.funcs := rfl
@[simp] theorem State.modCluster_queue (s : State) (k : Nat) (f : Cluster → Cluster) : (s.modCluster k f).queue = s.queue := rfl
@[simp] theorem State.modCluster_done (s : State) (k : Nat) (f : Cluster → Cluster) : (s.modCluster k f).done = s.done := rfl
@[simp] theorem State.modCluster_nextCmdFn (s : State) (k : Nat) (f : Cluster → Cluster) : (s.modCluster k f).nextCmdFn = s.nextCmdFn := rfl
@[simp] theorem State.modCluster_vectors (s : State) (k : Nat) (f : Cluster → Cluster) : (s.modCluster k f).vectors = s.vectors := rfl
@[simp] theorem State.modCluster_mgmt (s : State) (k : Nat) (f : Cluster → Cluster) : (s.modCluster k f).mgmt = s.mgmt := rfl
@[simp] theorem State.modCluster_colls (s : State) (k : Nat) (f : Cluster → Cluster) : (s.modCluster k f).colls = s.colls := rfl
@[simp] theorem State.modCluster_heard (s : State) (k : Nat) (f : Cluster → Cluster) : (s.modCluster k f).heard = s.heard := rfl
@[simp] theorem State.modCluster_rounds (s : State) (k : Nat) (f : Cluster → Cluster) : (s.modCluster k f).rounds = s.rounds := rfl
@[simp] theorem State.modCluster_portUp (s : State) (k : Nat) (f : Cluster → Cluster) : (s.modCluster k f).portUp = s.portUp := rfl
@[simp] theorem State.modCluster_bootCount (s : State) (k : Nat) (f : Cluster → Cluster) : (s.modCluster k f).bootCount = s.bootCount := rfl
@[simp] theorem State.modCluster_bootRecord (s : State) (k : Nat) (f : Cluster → Cluster) : (s.modCluster k f).bootRecord = s.bootRecord := rfl
@[simp] theorem State.modCluster_recovery (s : State) (k : Nat) (f : Cluster → Cluster) : (s.modCluster k f).recovery = s.recovery := rfl
@[simp] theorem State.modCluster_replReq (s : State) (k : Nat) (f : Cluster → Cluster) : (s.modCluster k f).replReq = s.replReq := rfl
@[simp] theorem State.modCluster_degraded (s : State) (k : Nat) (f : Cluster → Cluster) : (s.modCluster k f).degraded = s.degraded := rfl
@[simp] theorem State.modCluster_throtEnd (s : State) (k : Nat) (f : Cluster → Cluster) : (s.modCluster k f).throtEnd = s.throtEnd := rfl
@[simp] theorem State.modCluster_hstat (s : State) (k : Nat) (f : Cluster → Cluster) : (s.modCluster k f).hstat = s.hstat := rfl
@[simp] theorem State.modCluster_hbmRate (s : State) (k : Nat) (f : Cluster → Cluster) : (s.modCluster k f).hbmRate = s.hbmRate := rfl
@[simp] theorem State.modCluster_pcie (s : State) (k : Nat) (f : Cluster → Cluster) : (s.modCluster k f).pcie = s.pcie := rfl
@[simp] theorem State.modCluster_mchk (s : State) (k : Nat) (f : Cluster → Cluster) : (s.modCluster k f).mchk = s.mchk := rfl
@[simp] theorem State.modCluster_keyGen (s : State) (k : Nat) (f : Cluster → Cluster) : (s.modCluster k f).keyGen = s.keyGen := rfl
@[simp] theorem State.modCluster_badScratch (s : State) (k : Nat) (f : Cluster → Cluster) : (s.modCluster k f).badScratch = s.badScratch := rfl
@[simp] theorem State.modCluster_badFetch (s : State) (k : Nat) (f : Cluster → Cluster) : (s.modCluster k f).badFetch = s.badFetch := rfl
@[simp] theorem State.modCluster_dmaW (s : State) (k : Nat) (f : Cluster → Cluster) : (s.modCluster k f).dmaW = s.dmaW := rfl
@[simp] theorem State.modCluster_dmaLr (s : State) (k : Nat) (f : Cluster → Cluster) : (s.modCluster k f).dmaLr = s.dmaLr := rfl
@[simp] theorem State.modCluster_coreW (s : State) (k : Nat) (f : Cluster → Cluster) : (s.modCluster k f).coreW = s.coreW := rfl
@[simp] theorem State.modCluster_issue (s : State) (k : Nat) (f : Cluster → Cluster) : (s.modCluster k f).issue = s.issue := rfl
@[simp] theorem State.modCluster_turns (s : State) (k : Nat) (f : Cluster → Cluster) : (s.modCluster k f).turns = s.turns := rfl
@[simp] theorem State.modCluster_tick (s : State) (k : Nat) (f : Cluster → Cluster) : (s.modCluster k f).tick = s.tick := rfl
@[simp] theorem State.modCluster_freeCtr (s : State) (k : Nat) (f : Cluster → Cluster) : (s.modCluster k f).freeCtr = s.freeCtr := rfl

/-! ### modLaunch -/

@[simp] theorem State.modLaunch_powered (s : State) (k : Nat) (f : Launch → Launch) : (s.modLaunch k f).powered = s.powered := rfl
@[simp] theorem State.modLaunch_fuses (s : State) (k : Nat) (f : Launch → Launch) : (s.modLaunch k f).fuses = s.fuses := rfl
@[simp] theorem State.modLaunch_coreMap (s : State) (k : Nat) (f : Launch → Launch) : (s.modLaunch k f).coreMap = s.coreMap := rfl
@[simp] theorem State.modLaunch_dies (s : State) (k : Nat) (f : Launch → Launch) : (s.modLaunch k f).dies = s.dies := rfl
@[simp] theorem State.modLaunch_cores (s : State) (k : Nat) (f : Launch → Launch) : (s.modLaunch k f).cores = s.cores := rfl
@[simp] theorem State.modLaunch_clusters (s : State) (k : Nat) (f : Launch → Launch) : (s.modLaunch k f).clusters = s.clusters := rfl
@[simp] theorem State.modLaunch_wgs (s : State) (k : Nat) (f : Launch → Launch) : (s.modLaunch k f).wgs = s.wgs := rfl
@[simp] theorem State.modLaunch_groups (s : State) (k : Nat) (f : Launch → Launch) : (s.modLaunch k f).groups = s.groups := rfl
@[simp] theorem State.modLaunch_formed (s : State) (k : Nat) (f : Launch → Launch) : (s.modLaunch k f).formed = s.formed := rfl
@[simp] theorem State.modLaunch_ops (s : State) (k : Nat) (f : Launch → Launch) : (s.modLaunch k f).ops = s.ops := rfl
@[simp] theorem State.modLaunch_acks (s : State) (k : Nat) (f : Launch → Launch) : (s.modLaunch k f).acks = s.acks := rfl
@[simp] theorem State.modLaunch_mx (s : State) (k : Nat) (f : Launch → Launch) : (s.modLaunch k f).mx = s.mx := rfl
@[simp] theorem State.modLaunch_l1 (s : State) (k : Nat) (f : Launch → Launch) : (s.modLaunch k f).l1 = s.l1 := rfl
@[simp] theorem State.modLaunch_pathLines (s : State) (k : Nat) (f : Launch → Launch) : (s.modLaunch k f).pathLines = s.pathLines := rfl
@[simp] theorem State.modLaunch_travRuns (s : State) (k : Nat) (f : Launch → Launch) : (s.modLaunch k f).travRuns = s.travRuns := rfl
@[simp] theorem State.modLaunch_home (s : State) (k : Nat) (f : Launch → Launch) : (s.modLaunch k f).home = s.home := rfl
@[simp] theorem State.modLaunch_rdc (s : State) (k : Nat) (f : Launch → Launch) : (s.modLaunch k f).rdc = s.rdc := rfl
@[simp] theorem State.modLaunch_notices (s : State) (k : Nat) (f : Launch → Launch) : (s.modLaunch k f).notices = s.notices := rfl
@[simp] theorem State.modLaunch_evictBound (s : State) (k : Nat) (f : Launch → Launch) : (s.modLaunch k f).evictBound = s.evictBound := rfl
@[simp] theorem State.modLaunch_tlb (s : State) (k : Nat) (f : Launch → Launch) : (s.modLaunch k f).tlb = s.tlb := rfl
@[simp] theorem State.modLaunch_hbm (s : State) (k : Nat) (f : Launch → Launch) : (s.modLaunch k f).hbm = s.hbm := rfl
@[simp] theorem State.modLaunch_seals (s : State) (k : Nat) (f : Launch → Launch) : (s.modLaunch k f).seals = s.seals := rfl
@[simp] theorem State.modLaunch_poison (s : State) (k : Nat) (f : Launch → Launch) : (s.modLaunch k f).poison = s.poison := rfl
@[simp] theorem State.modLaunch_hbmScope (s : State) (k : Nat) (f : Launch → Launch) : (s.modLaunch k f).hbmScope = s.hbmScope := rfl
@[simp] theorem State.modLaunch_hostMem (s : State) (k : Nat) (f : Launch → Launch) : (s.modLaunch k f).hostMem = s.hostMem := rfl
@[simp] theorem State.modLaunch_peerMem (s : State) (k : Nat) (f : Launch → Launch) : (s.modLaunch k f).peerMem = s.peerMem := rfl
@[simp] theorem State.modLaunch_peerRefuse (s : State) (k : Nat) (f : Launch → Launch) : (s.modLaunch k f).peerRefuse = s.peerRefuse := rfl
@[simp] theorem State.modLaunch_peerLen (s : State) (k : Nat) (f : Launch → Launch) : (s.modLaunch k f).peerLen = s.peerLen := rfl
@[simp] theorem State.modLaunch_frameOwners (s : State) (k : Nat) (f : Launch → Launch) : (s.modLaunch k f).frameOwners = s.frameOwners := rfl
@[simp] theorem State.modLaunch_asids (s : State) (k : Nat) (f : Launch → Launch) : (s.modLaunch k f).asids = s.asids := rfl
@[simp] theorem State.modLaunch_parts (s : State) (k : Nat) (f : Launch → Launch) : (s.modLaunch k f).parts = s.parts := rfl
@[simp] theorem State.modLaunch_fsets (s : State) (k : Nat) (f : Launch → Launch) : (s.modLaunch k f).fsets = s.fsets := rfl
@[simp] theorem State.modLaunch_pages (s : State) (k : Nat) (f : Launch → Launch) : (s.modLaunch k f).pages = s.pages := rfl
@[simp] theorem State.modLaunch_codes (s : State) (k : Nat) (f : Launch → Launch) : (s.modLaunch k f).codes = s.codes := rfl
@[simp] theorem State.modLaunch_pinnedFree (s : State) (k : Nat) (f : Launch → Launch) : (s.modLaunch k f).pinnedFree = s.pinnedFree := rfl
@[simp] theorem State.modLaunch_rows (s : State) (k : Nat) (f : Launch → Launch) : (s.modLaunch k f).rows = s.rows := rfl
@[simp] theorem State.modLaunch_curRow (s : State) (k : Nat) (f : Launch → Launch) : (s.modLaunch k f).curRow = s.curRow := rfl
@[simp] theorem State.modLaunch_rowStart (s : State) (k : Nat) (f : Launch → Launch) : (s.modLaunch k f).rowStart = s.rowStart := rfl
@[simp] theorem State.modLaunch_quads (s : State) (k : Nat) (f : Launch → Launch) : (s.modLaunch k f).quads = s.quads := rfl
@[simp] theorem State.modLaunch_pendingTable (s : State) (k : Nat) (f : Launch → Launch) : (s.modLaunch k f).pendingTable = s.pendingTable := rfl
@[simp] theorem State.modLaunch_tableWait (s : State) (k : Nat) (f : Launch → Launch) : (s.modLaunch k f).tableWait = s.tableWait := rfl
@[simp] theorem State.modLaunch_deferredCmds (s : State) (k : Nat) (f : Launch → Launch) : (s.modLaunch k f).deferredCmds = s.deferredCmds := rfl
@[simp] theorem State.modLaunch_fwWait (s : State) (k : Nat) (f : Launch → Launch) : (s.modLaunch k f).fwWait = s.fwWait := rfl
@[simp] theorem State.modLaunch_funcs (s : State) (k : Nat) (f : Launch → Launch) : (s.modLaunch k f).funcs = s.funcs := rfl
@[simp] theorem State.modLaunch_queue (s : State) (k : Nat) (f : Launch → Launch) : (s.modLaunch k f).queue = s.queue := rfl
@[simp] theorem State.modLaunch_done (s : State) (k : Nat) (f : Launch → Launch) : (s.modLaunch k f).done = s.done := rfl
@[simp] theorem State.modLaunch_nextCmdFn (s : State) (k : Nat) (f : Launch → Launch) : (s.modLaunch k f).nextCmdFn = s.nextCmdFn := rfl
@[simp] theorem State.modLaunch_vectors (s : State) (k : Nat) (f : Launch → Launch) : (s.modLaunch k f).vectors = s.vectors := rfl
@[simp] theorem State.modLaunch_mgmt (s : State) (k : Nat) (f : Launch → Launch) : (s.modLaunch k f).mgmt = s.mgmt := rfl
@[simp] theorem State.modLaunch_colls (s : State) (k : Nat) (f : Launch → Launch) : (s.modLaunch k f).colls = s.colls := rfl
@[simp] theorem State.modLaunch_heard (s : State) (k : Nat) (f : Launch → Launch) : (s.modLaunch k f).heard = s.heard := rfl
@[simp] theorem State.modLaunch_rounds (s : State) (k : Nat) (f : Launch → Launch) : (s.modLaunch k f).rounds = s.rounds := rfl
@[simp] theorem State.modLaunch_portUp (s : State) (k : Nat) (f : Launch → Launch) : (s.modLaunch k f).portUp = s.portUp := rfl
@[simp] theorem State.modLaunch_bootCount (s : State) (k : Nat) (f : Launch → Launch) : (s.modLaunch k f).bootCount = s.bootCount := rfl
@[simp] theorem State.modLaunch_bootRecord (s : State) (k : Nat) (f : Launch → Launch) : (s.modLaunch k f).bootRecord = s.bootRecord := rfl
@[simp] theorem State.modLaunch_recovery (s : State) (k : Nat) (f : Launch → Launch) : (s.modLaunch k f).recovery = s.recovery := rfl
@[simp] theorem State.modLaunch_replReq (s : State) (k : Nat) (f : Launch → Launch) : (s.modLaunch k f).replReq = s.replReq := rfl
@[simp] theorem State.modLaunch_degraded (s : State) (k : Nat) (f : Launch → Launch) : (s.modLaunch k f).degraded = s.degraded := rfl
@[simp] theorem State.modLaunch_throtEnd (s : State) (k : Nat) (f : Launch → Launch) : (s.modLaunch k f).throtEnd = s.throtEnd := rfl
@[simp] theorem State.modLaunch_hstat (s : State) (k : Nat) (f : Launch → Launch) : (s.modLaunch k f).hstat = s.hstat := rfl
@[simp] theorem State.modLaunch_hbmRate (s : State) (k : Nat) (f : Launch → Launch) : (s.modLaunch k f).hbmRate = s.hbmRate := rfl
@[simp] theorem State.modLaunch_pcie (s : State) (k : Nat) (f : Launch → Launch) : (s.modLaunch k f).pcie = s.pcie := rfl
@[simp] theorem State.modLaunch_mchk (s : State) (k : Nat) (f : Launch → Launch) : (s.modLaunch k f).mchk = s.mchk := rfl
@[simp] theorem State.modLaunch_keyGen (s : State) (k : Nat) (f : Launch → Launch) : (s.modLaunch k f).keyGen = s.keyGen := rfl
@[simp] theorem State.modLaunch_badScratch (s : State) (k : Nat) (f : Launch → Launch) : (s.modLaunch k f).badScratch = s.badScratch := rfl
@[simp] theorem State.modLaunch_badFetch (s : State) (k : Nat) (f : Launch → Launch) : (s.modLaunch k f).badFetch = s.badFetch := rfl
@[simp] theorem State.modLaunch_dmaW (s : State) (k : Nat) (f : Launch → Launch) : (s.modLaunch k f).dmaW = s.dmaW := rfl
@[simp] theorem State.modLaunch_dmaLr (s : State) (k : Nat) (f : Launch → Launch) : (s.modLaunch k f).dmaLr = s.dmaLr := rfl
@[simp] theorem State.modLaunch_coreW (s : State) (k : Nat) (f : Launch → Launch) : (s.modLaunch k f).coreW = s.coreW := rfl
@[simp] theorem State.modLaunch_issue (s : State) (k : Nat) (f : Launch → Launch) : (s.modLaunch k f).issue = s.issue := rfl
@[simp] theorem State.modLaunch_turns (s : State) (k : Nat) (f : Launch → Launch) : (s.modLaunch k f).turns = s.turns := rfl
@[simp] theorem State.modLaunch_tick (s : State) (k : Nat) (f : Launch → Launch) : (s.modLaunch k f).tick = s.tick := rfl
@[simp] theorem State.modLaunch_freeCtr (s : State) (k : Nat) (f : Launch → Launch) : (s.modLaunch k f).freeCtr = s.freeCtr := rfl

/-! ### modOp -/

@[simp] theorem State.modOp_powered (s : State) (k : Nat) (f : MemOp → MemOp) : (s.modOp k f).powered = s.powered := rfl
@[simp] theorem State.modOp_fuses (s : State) (k : Nat) (f : MemOp → MemOp) : (s.modOp k f).fuses = s.fuses := rfl
@[simp] theorem State.modOp_coreMap (s : State) (k : Nat) (f : MemOp → MemOp) : (s.modOp k f).coreMap = s.coreMap := rfl
@[simp] theorem State.modOp_dies (s : State) (k : Nat) (f : MemOp → MemOp) : (s.modOp k f).dies = s.dies := rfl
@[simp] theorem State.modOp_cores (s : State) (k : Nat) (f : MemOp → MemOp) : (s.modOp k f).cores = s.cores := rfl
@[simp] theorem State.modOp_launches (s : State) (k : Nat) (f : MemOp → MemOp) : (s.modOp k f).launches = s.launches := rfl
@[simp] theorem State.modOp_clusters (s : State) (k : Nat) (f : MemOp → MemOp) : (s.modOp k f).clusters = s.clusters := rfl
@[simp] theorem State.modOp_wgs (s : State) (k : Nat) (f : MemOp → MemOp) : (s.modOp k f).wgs = s.wgs := rfl
@[simp] theorem State.modOp_groups (s : State) (k : Nat) (f : MemOp → MemOp) : (s.modOp k f).groups = s.groups := rfl
@[simp] theorem State.modOp_formed (s : State) (k : Nat) (f : MemOp → MemOp) : (s.modOp k f).formed = s.formed := rfl
@[simp] theorem State.modOp_acks (s : State) (k : Nat) (f : MemOp → MemOp) : (s.modOp k f).acks = s.acks := rfl
@[simp] theorem State.modOp_mx (s : State) (k : Nat) (f : MemOp → MemOp) : (s.modOp k f).mx = s.mx := rfl
@[simp] theorem State.modOp_l1 (s : State) (k : Nat) (f : MemOp → MemOp) : (s.modOp k f).l1 = s.l1 := rfl
@[simp] theorem State.modOp_pathLines (s : State) (k : Nat) (f : MemOp → MemOp) : (s.modOp k f).pathLines = s.pathLines := rfl
@[simp] theorem State.modOp_travRuns (s : State) (k : Nat) (f : MemOp → MemOp) : (s.modOp k f).travRuns = s.travRuns := rfl
@[simp] theorem State.modOp_home (s : State) (k : Nat) (f : MemOp → MemOp) : (s.modOp k f).home = s.home := rfl
@[simp] theorem State.modOp_rdc (s : State) (k : Nat) (f : MemOp → MemOp) : (s.modOp k f).rdc = s.rdc := rfl
@[simp] theorem State.modOp_notices (s : State) (k : Nat) (f : MemOp → MemOp) : (s.modOp k f).notices = s.notices := rfl
@[simp] theorem State.modOp_evictBound (s : State) (k : Nat) (f : MemOp → MemOp) : (s.modOp k f).evictBound = s.evictBound := rfl
@[simp] theorem State.modOp_tlb (s : State) (k : Nat) (f : MemOp → MemOp) : (s.modOp k f).tlb = s.tlb := rfl
@[simp] theorem State.modOp_hbm (s : State) (k : Nat) (f : MemOp → MemOp) : (s.modOp k f).hbm = s.hbm := rfl
@[simp] theorem State.modOp_seals (s : State) (k : Nat) (f : MemOp → MemOp) : (s.modOp k f).seals = s.seals := rfl
@[simp] theorem State.modOp_poison (s : State) (k : Nat) (f : MemOp → MemOp) : (s.modOp k f).poison = s.poison := rfl
@[simp] theorem State.modOp_hbmScope (s : State) (k : Nat) (f : MemOp → MemOp) : (s.modOp k f).hbmScope = s.hbmScope := rfl
@[simp] theorem State.modOp_hostMem (s : State) (k : Nat) (f : MemOp → MemOp) : (s.modOp k f).hostMem = s.hostMem := rfl
@[simp] theorem State.modOp_peerMem (s : State) (k : Nat) (f : MemOp → MemOp) : (s.modOp k f).peerMem = s.peerMem := rfl
@[simp] theorem State.modOp_peerRefuse (s : State) (k : Nat) (f : MemOp → MemOp) : (s.modOp k f).peerRefuse = s.peerRefuse := rfl
@[simp] theorem State.modOp_peerLen (s : State) (k : Nat) (f : MemOp → MemOp) : (s.modOp k f).peerLen = s.peerLen := rfl
@[simp] theorem State.modOp_frameOwners (s : State) (k : Nat) (f : MemOp → MemOp) : (s.modOp k f).frameOwners = s.frameOwners := rfl
@[simp] theorem State.modOp_asids (s : State) (k : Nat) (f : MemOp → MemOp) : (s.modOp k f).asids = s.asids := rfl
@[simp] theorem State.modOp_parts (s : State) (k : Nat) (f : MemOp → MemOp) : (s.modOp k f).parts = s.parts := rfl
@[simp] theorem State.modOp_fsets (s : State) (k : Nat) (f : MemOp → MemOp) : (s.modOp k f).fsets = s.fsets := rfl
@[simp] theorem State.modOp_pages (s : State) (k : Nat) (f : MemOp → MemOp) : (s.modOp k f).pages = s.pages := rfl
@[simp] theorem State.modOp_codes (s : State) (k : Nat) (f : MemOp → MemOp) : (s.modOp k f).codes = s.codes := rfl
@[simp] theorem State.modOp_pinnedFree (s : State) (k : Nat) (f : MemOp → MemOp) : (s.modOp k f).pinnedFree = s.pinnedFree := rfl
@[simp] theorem State.modOp_rows (s : State) (k : Nat) (f : MemOp → MemOp) : (s.modOp k f).rows = s.rows := rfl
@[simp] theorem State.modOp_curRow (s : State) (k : Nat) (f : MemOp → MemOp) : (s.modOp k f).curRow = s.curRow := rfl
@[simp] theorem State.modOp_rowStart (s : State) (k : Nat) (f : MemOp → MemOp) : (s.modOp k f).rowStart = s.rowStart := rfl
@[simp] theorem State.modOp_quads (s : State) (k : Nat) (f : MemOp → MemOp) : (s.modOp k f).quads = s.quads := rfl
@[simp] theorem State.modOp_pendingTable (s : State) (k : Nat) (f : MemOp → MemOp) : (s.modOp k f).pendingTable = s.pendingTable := rfl
@[simp] theorem State.modOp_tableWait (s : State) (k : Nat) (f : MemOp → MemOp) : (s.modOp k f).tableWait = s.tableWait := rfl
@[simp] theorem State.modOp_deferredCmds (s : State) (k : Nat) (f : MemOp → MemOp) : (s.modOp k f).deferredCmds = s.deferredCmds := rfl
@[simp] theorem State.modOp_fwWait (s : State) (k : Nat) (f : MemOp → MemOp) : (s.modOp k f).fwWait = s.fwWait := rfl
@[simp] theorem State.modOp_funcs (s : State) (k : Nat) (f : MemOp → MemOp) : (s.modOp k f).funcs = s.funcs := rfl
@[simp] theorem State.modOp_queue (s : State) (k : Nat) (f : MemOp → MemOp) : (s.modOp k f).queue = s.queue := rfl
@[simp] theorem State.modOp_done (s : State) (k : Nat) (f : MemOp → MemOp) : (s.modOp k f).done = s.done := rfl
@[simp] theorem State.modOp_nextCmdFn (s : State) (k : Nat) (f : MemOp → MemOp) : (s.modOp k f).nextCmdFn = s.nextCmdFn := rfl
@[simp] theorem State.modOp_vectors (s : State) (k : Nat) (f : MemOp → MemOp) : (s.modOp k f).vectors = s.vectors := rfl
@[simp] theorem State.modOp_mgmt (s : State) (k : Nat) (f : MemOp → MemOp) : (s.modOp k f).mgmt = s.mgmt := rfl
@[simp] theorem State.modOp_colls (s : State) (k : Nat) (f : MemOp → MemOp) : (s.modOp k f).colls = s.colls := rfl
@[simp] theorem State.modOp_heard (s : State) (k : Nat) (f : MemOp → MemOp) : (s.modOp k f).heard = s.heard := rfl
@[simp] theorem State.modOp_rounds (s : State) (k : Nat) (f : MemOp → MemOp) : (s.modOp k f).rounds = s.rounds := rfl
@[simp] theorem State.modOp_portUp (s : State) (k : Nat) (f : MemOp → MemOp) : (s.modOp k f).portUp = s.portUp := rfl
@[simp] theorem State.modOp_bootCount (s : State) (k : Nat) (f : MemOp → MemOp) : (s.modOp k f).bootCount = s.bootCount := rfl
@[simp] theorem State.modOp_bootRecord (s : State) (k : Nat) (f : MemOp → MemOp) : (s.modOp k f).bootRecord = s.bootRecord := rfl
@[simp] theorem State.modOp_recovery (s : State) (k : Nat) (f : MemOp → MemOp) : (s.modOp k f).recovery = s.recovery := rfl
@[simp] theorem State.modOp_replReq (s : State) (k : Nat) (f : MemOp → MemOp) : (s.modOp k f).replReq = s.replReq := rfl
@[simp] theorem State.modOp_degraded (s : State) (k : Nat) (f : MemOp → MemOp) : (s.modOp k f).degraded = s.degraded := rfl
@[simp] theorem State.modOp_throtEnd (s : State) (k : Nat) (f : MemOp → MemOp) : (s.modOp k f).throtEnd = s.throtEnd := rfl
@[simp] theorem State.modOp_hstat (s : State) (k : Nat) (f : MemOp → MemOp) : (s.modOp k f).hstat = s.hstat := rfl
@[simp] theorem State.modOp_hbmRate (s : State) (k : Nat) (f : MemOp → MemOp) : (s.modOp k f).hbmRate = s.hbmRate := rfl
@[simp] theorem State.modOp_pcie (s : State) (k : Nat) (f : MemOp → MemOp) : (s.modOp k f).pcie = s.pcie := rfl
@[simp] theorem State.modOp_mchk (s : State) (k : Nat) (f : MemOp → MemOp) : (s.modOp k f).mchk = s.mchk := rfl
@[simp] theorem State.modOp_keyGen (s : State) (k : Nat) (f : MemOp → MemOp) : (s.modOp k f).keyGen = s.keyGen := rfl
@[simp] theorem State.modOp_badScratch (s : State) (k : Nat) (f : MemOp → MemOp) : (s.modOp k f).badScratch = s.badScratch := rfl
@[simp] theorem State.modOp_badFetch (s : State) (k : Nat) (f : MemOp → MemOp) : (s.modOp k f).badFetch = s.badFetch := rfl
@[simp] theorem State.modOp_dmaW (s : State) (k : Nat) (f : MemOp → MemOp) : (s.modOp k f).dmaW = s.dmaW := rfl
@[simp] theorem State.modOp_dmaLr (s : State) (k : Nat) (f : MemOp → MemOp) : (s.modOp k f).dmaLr = s.dmaLr := rfl
@[simp] theorem State.modOp_coreW (s : State) (k : Nat) (f : MemOp → MemOp) : (s.modOp k f).coreW = s.coreW := rfl
@[simp] theorem State.modOp_issue (s : State) (k : Nat) (f : MemOp → MemOp) : (s.modOp k f).issue = s.issue := rfl
@[simp] theorem State.modOp_turns (s : State) (k : Nat) (f : MemOp → MemOp) : (s.modOp k f).turns = s.turns := rfl
@[simp] theorem State.modOp_tick (s : State) (k : Nat) (f : MemOp → MemOp) : (s.modOp k f).tick = s.tick := rfl
@[simp] theorem State.modOp_freeCtr (s : State) (k : Nat) (f : MemOp → MemOp) : (s.modOp k f).freeCtr = s.freeCtr := rfl

/-! ### modAsid -/

@[simp] theorem State.modAsid_powered (s : State) (k : Nat) (f : AsidCtx → AsidCtx) : (s.modAsid k f).powered = s.powered := rfl
@[simp] theorem State.modAsid_fuses (s : State) (k : Nat) (f : AsidCtx → AsidCtx) : (s.modAsid k f).fuses = s.fuses := rfl
@[simp] theorem State.modAsid_coreMap (s : State) (k : Nat) (f : AsidCtx → AsidCtx) : (s.modAsid k f).coreMap = s.coreMap := rfl
@[simp] theorem State.modAsid_dies (s : State) (k : Nat) (f : AsidCtx → AsidCtx) : (s.modAsid k f).dies = s.dies := rfl
@[simp] theorem State.modAsid_cores (s : State) (k : Nat) (f : AsidCtx → AsidCtx) : (s.modAsid k f).cores = s.cores := rfl
@[simp] theorem State.modAsid_launches (s : State) (k : Nat) (f : AsidCtx → AsidCtx) : (s.modAsid k f).launches = s.launches := rfl
@[simp] theorem State.modAsid_clusters (s : State) (k : Nat) (f : AsidCtx → AsidCtx) : (s.modAsid k f).clusters = s.clusters := rfl
@[simp] theorem State.modAsid_wgs (s : State) (k : Nat) (f : AsidCtx → AsidCtx) : (s.modAsid k f).wgs = s.wgs := rfl
@[simp] theorem State.modAsid_groups (s : State) (k : Nat) (f : AsidCtx → AsidCtx) : (s.modAsid k f).groups = s.groups := rfl
@[simp] theorem State.modAsid_formed (s : State) (k : Nat) (f : AsidCtx → AsidCtx) : (s.modAsid k f).formed = s.formed := rfl
@[simp] theorem State.modAsid_ops (s : State) (k : Nat) (f : AsidCtx → AsidCtx) : (s.modAsid k f).ops = s.ops := rfl
@[simp] theorem State.modAsid_acks (s : State) (k : Nat) (f : AsidCtx → AsidCtx) : (s.modAsid k f).acks = s.acks := rfl
@[simp] theorem State.modAsid_mx (s : State) (k : Nat) (f : AsidCtx → AsidCtx) : (s.modAsid k f).mx = s.mx := rfl
@[simp] theorem State.modAsid_l1 (s : State) (k : Nat) (f : AsidCtx → AsidCtx) : (s.modAsid k f).l1 = s.l1 := rfl
@[simp] theorem State.modAsid_pathLines (s : State) (k : Nat) (f : AsidCtx → AsidCtx) : (s.modAsid k f).pathLines = s.pathLines := rfl
@[simp] theorem State.modAsid_travRuns (s : State) (k : Nat) (f : AsidCtx → AsidCtx) : (s.modAsid k f).travRuns = s.travRuns := rfl
@[simp] theorem State.modAsid_home (s : State) (k : Nat) (f : AsidCtx → AsidCtx) : (s.modAsid k f).home = s.home := rfl
@[simp] theorem State.modAsid_rdc (s : State) (k : Nat) (f : AsidCtx → AsidCtx) : (s.modAsid k f).rdc = s.rdc := rfl
@[simp] theorem State.modAsid_notices (s : State) (k : Nat) (f : AsidCtx → AsidCtx) : (s.modAsid k f).notices = s.notices := rfl
@[simp] theorem State.modAsid_evictBound (s : State) (k : Nat) (f : AsidCtx → AsidCtx) : (s.modAsid k f).evictBound = s.evictBound := rfl
@[simp] theorem State.modAsid_tlb (s : State) (k : Nat) (f : AsidCtx → AsidCtx) : (s.modAsid k f).tlb = s.tlb := rfl
@[simp] theorem State.modAsid_hbm (s : State) (k : Nat) (f : AsidCtx → AsidCtx) : (s.modAsid k f).hbm = s.hbm := rfl
@[simp] theorem State.modAsid_seals (s : State) (k : Nat) (f : AsidCtx → AsidCtx) : (s.modAsid k f).seals = s.seals := rfl
@[simp] theorem State.modAsid_poison (s : State) (k : Nat) (f : AsidCtx → AsidCtx) : (s.modAsid k f).poison = s.poison := rfl
@[simp] theorem State.modAsid_hbmScope (s : State) (k : Nat) (f : AsidCtx → AsidCtx) : (s.modAsid k f).hbmScope = s.hbmScope := rfl
@[simp] theorem State.modAsid_hostMem (s : State) (k : Nat) (f : AsidCtx → AsidCtx) : (s.modAsid k f).hostMem = s.hostMem := rfl
@[simp] theorem State.modAsid_peerMem (s : State) (k : Nat) (f : AsidCtx → AsidCtx) : (s.modAsid k f).peerMem = s.peerMem := rfl
@[simp] theorem State.modAsid_peerRefuse (s : State) (k : Nat) (f : AsidCtx → AsidCtx) : (s.modAsid k f).peerRefuse = s.peerRefuse := rfl
@[simp] theorem State.modAsid_peerLen (s : State) (k : Nat) (f : AsidCtx → AsidCtx) : (s.modAsid k f).peerLen = s.peerLen := rfl
@[simp] theorem State.modAsid_frameOwners (s : State) (k : Nat) (f : AsidCtx → AsidCtx) : (s.modAsid k f).frameOwners = s.frameOwners := rfl
@[simp] theorem State.modAsid_parts (s : State) (k : Nat) (f : AsidCtx → AsidCtx) : (s.modAsid k f).parts = s.parts := rfl
@[simp] theorem State.modAsid_fsets (s : State) (k : Nat) (f : AsidCtx → AsidCtx) : (s.modAsid k f).fsets = s.fsets := rfl
@[simp] theorem State.modAsid_pages (s : State) (k : Nat) (f : AsidCtx → AsidCtx) : (s.modAsid k f).pages = s.pages := rfl
@[simp] theorem State.modAsid_codes (s : State) (k : Nat) (f : AsidCtx → AsidCtx) : (s.modAsid k f).codes = s.codes := rfl
@[simp] theorem State.modAsid_pinnedFree (s : State) (k : Nat) (f : AsidCtx → AsidCtx) : (s.modAsid k f).pinnedFree = s.pinnedFree := rfl
@[simp] theorem State.modAsid_rows (s : State) (k : Nat) (f : AsidCtx → AsidCtx) : (s.modAsid k f).rows = s.rows := rfl
@[simp] theorem State.modAsid_curRow (s : State) (k : Nat) (f : AsidCtx → AsidCtx) : (s.modAsid k f).curRow = s.curRow := rfl
@[simp] theorem State.modAsid_rowStart (s : State) (k : Nat) (f : AsidCtx → AsidCtx) : (s.modAsid k f).rowStart = s.rowStart := rfl
@[simp] theorem State.modAsid_quads (s : State) (k : Nat) (f : AsidCtx → AsidCtx) : (s.modAsid k f).quads = s.quads := rfl
@[simp] theorem State.modAsid_pendingTable (s : State) (k : Nat) (f : AsidCtx → AsidCtx) : (s.modAsid k f).pendingTable = s.pendingTable := rfl
@[simp] theorem State.modAsid_tableWait (s : State) (k : Nat) (f : AsidCtx → AsidCtx) : (s.modAsid k f).tableWait = s.tableWait := rfl
@[simp] theorem State.modAsid_deferredCmds (s : State) (k : Nat) (f : AsidCtx → AsidCtx) : (s.modAsid k f).deferredCmds = s.deferredCmds := rfl
@[simp] theorem State.modAsid_fwWait (s : State) (k : Nat) (f : AsidCtx → AsidCtx) : (s.modAsid k f).fwWait = s.fwWait := rfl
@[simp] theorem State.modAsid_funcs (s : State) (k : Nat) (f : AsidCtx → AsidCtx) : (s.modAsid k f).funcs = s.funcs := rfl
@[simp] theorem State.modAsid_queue (s : State) (k : Nat) (f : AsidCtx → AsidCtx) : (s.modAsid k f).queue = s.queue := rfl
@[simp] theorem State.modAsid_done (s : State) (k : Nat) (f : AsidCtx → AsidCtx) : (s.modAsid k f).done = s.done := rfl
@[simp] theorem State.modAsid_nextCmdFn (s : State) (k : Nat) (f : AsidCtx → AsidCtx) : (s.modAsid k f).nextCmdFn = s.nextCmdFn := rfl
@[simp] theorem State.modAsid_vectors (s : State) (k : Nat) (f : AsidCtx → AsidCtx) : (s.modAsid k f).vectors = s.vectors := rfl
@[simp] theorem State.modAsid_mgmt (s : State) (k : Nat) (f : AsidCtx → AsidCtx) : (s.modAsid k f).mgmt = s.mgmt := rfl
@[simp] theorem State.modAsid_colls (s : State) (k : Nat) (f : AsidCtx → AsidCtx) : (s.modAsid k f).colls = s.colls := rfl
@[simp] theorem State.modAsid_heard (s : State) (k : Nat) (f : AsidCtx → AsidCtx) : (s.modAsid k f).heard = s.heard := rfl
@[simp] theorem State.modAsid_rounds (s : State) (k : Nat) (f : AsidCtx → AsidCtx) : (s.modAsid k f).rounds = s.rounds := rfl
@[simp] theorem State.modAsid_portUp (s : State) (k : Nat) (f : AsidCtx → AsidCtx) : (s.modAsid k f).portUp = s.portUp := rfl
@[simp] theorem State.modAsid_bootCount (s : State) (k : Nat) (f : AsidCtx → AsidCtx) : (s.modAsid k f).bootCount = s.bootCount := rfl
@[simp] theorem State.modAsid_bootRecord (s : State) (k : Nat) (f : AsidCtx → AsidCtx) : (s.modAsid k f).bootRecord = s.bootRecord := rfl
@[simp] theorem State.modAsid_recovery (s : State) (k : Nat) (f : AsidCtx → AsidCtx) : (s.modAsid k f).recovery = s.recovery := rfl
@[simp] theorem State.modAsid_replReq (s : State) (k : Nat) (f : AsidCtx → AsidCtx) : (s.modAsid k f).replReq = s.replReq := rfl
@[simp] theorem State.modAsid_degraded (s : State) (k : Nat) (f : AsidCtx → AsidCtx) : (s.modAsid k f).degraded = s.degraded := rfl
@[simp] theorem State.modAsid_throtEnd (s : State) (k : Nat) (f : AsidCtx → AsidCtx) : (s.modAsid k f).throtEnd = s.throtEnd := rfl
@[simp] theorem State.modAsid_hstat (s : State) (k : Nat) (f : AsidCtx → AsidCtx) : (s.modAsid k f).hstat = s.hstat := rfl
@[simp] theorem State.modAsid_hbmRate (s : State) (k : Nat) (f : AsidCtx → AsidCtx) : (s.modAsid k f).hbmRate = s.hbmRate := rfl
@[simp] theorem State.modAsid_pcie (s : State) (k : Nat) (f : AsidCtx → AsidCtx) : (s.modAsid k f).pcie = s.pcie := rfl
@[simp] theorem State.modAsid_mchk (s : State) (k : Nat) (f : AsidCtx → AsidCtx) : (s.modAsid k f).mchk = s.mchk := rfl
@[simp] theorem State.modAsid_keyGen (s : State) (k : Nat) (f : AsidCtx → AsidCtx) : (s.modAsid k f).keyGen = s.keyGen := rfl
@[simp] theorem State.modAsid_badScratch (s : State) (k : Nat) (f : AsidCtx → AsidCtx) : (s.modAsid k f).badScratch = s.badScratch := rfl
@[simp] theorem State.modAsid_badFetch (s : State) (k : Nat) (f : AsidCtx → AsidCtx) : (s.modAsid k f).badFetch = s.badFetch := rfl
@[simp] theorem State.modAsid_dmaW (s : State) (k : Nat) (f : AsidCtx → AsidCtx) : (s.modAsid k f).dmaW = s.dmaW := rfl
@[simp] theorem State.modAsid_dmaLr (s : State) (k : Nat) (f : AsidCtx → AsidCtx) : (s.modAsid k f).dmaLr = s.dmaLr := rfl
@[simp] theorem State.modAsid_coreW (s : State) (k : Nat) (f : AsidCtx → AsidCtx) : (s.modAsid k f).coreW = s.coreW := rfl
@[simp] theorem State.modAsid_issue (s : State) (k : Nat) (f : AsidCtx → AsidCtx) : (s.modAsid k f).issue = s.issue := rfl
@[simp] theorem State.modAsid_turns (s : State) (k : Nat) (f : AsidCtx → AsidCtx) : (s.modAsid k f).turns = s.turns := rfl
@[simp] theorem State.modAsid_tick (s : State) (k : Nat) (f : AsidCtx → AsidCtx) : (s.modAsid k f).tick = s.tick := rfl
@[simp] theorem State.modAsid_freeCtr (s : State) (k : Nat) (f : AsidCtx → AsidCtx) : (s.modAsid k f).freeCtr = s.freeCtr := rfl

/-! ### modPart -/

@[simp] theorem State.modPart_powered (s : State) (k : Nat) (f : Partition → Partition) : (s.modPart k f).powered = s.powered := rfl
@[simp] theorem State.modPart_fuses (s : State) (k : Nat) (f : Partition → Partition) : (s.modPart k f).fuses = s.fuses := rfl
@[simp] theorem State.modPart_coreMap (s : State) (k : Nat) (f : Partition → Partition) : (s.modPart k f).coreMap = s.coreMap := rfl
@[simp] theorem State.modPart_dies (s : State) (k : Nat) (f : Partition → Partition) : (s.modPart k f).dies = s.dies := rfl
@[simp] theorem State.modPart_cores (s : State) (k : Nat) (f : Partition → Partition) : (s.modPart k f).cores = s.cores := rfl
@[simp] theorem State.modPart_launches (s : State) (k : Nat) (f : Partition → Partition) : (s.modPart k f).launches = s.launches := rfl
@[simp] theorem State.modPart_clusters (s : State) (k : Nat) (f : Partition → Partition) : (s.modPart k f).clusters = s.clusters := rfl
@[simp] theorem State.modPart_wgs (s : State) (k : Nat) (f : Partition → Partition) : (s.modPart k f).wgs = s.wgs := rfl
@[simp] theorem State.modPart_groups (s : State) (k : Nat) (f : Partition → Partition) : (s.modPart k f).groups = s.groups := rfl
@[simp] theorem State.modPart_formed (s : State) (k : Nat) (f : Partition → Partition) : (s.modPart k f).formed = s.formed := rfl
@[simp] theorem State.modPart_ops (s : State) (k : Nat) (f : Partition → Partition) : (s.modPart k f).ops = s.ops := rfl
@[simp] theorem State.modPart_acks (s : State) (k : Nat) (f : Partition → Partition) : (s.modPart k f).acks = s.acks := rfl
@[simp] theorem State.modPart_mx (s : State) (k : Nat) (f : Partition → Partition) : (s.modPart k f).mx = s.mx := rfl
@[simp] theorem State.modPart_l1 (s : State) (k : Nat) (f : Partition → Partition) : (s.modPart k f).l1 = s.l1 := rfl
@[simp] theorem State.modPart_pathLines (s : State) (k : Nat) (f : Partition → Partition) : (s.modPart k f).pathLines = s.pathLines := rfl
@[simp] theorem State.modPart_travRuns (s : State) (k : Nat) (f : Partition → Partition) : (s.modPart k f).travRuns = s.travRuns := rfl
@[simp] theorem State.modPart_home (s : State) (k : Nat) (f : Partition → Partition) : (s.modPart k f).home = s.home := rfl
@[simp] theorem State.modPart_rdc (s : State) (k : Nat) (f : Partition → Partition) : (s.modPart k f).rdc = s.rdc := rfl
@[simp] theorem State.modPart_notices (s : State) (k : Nat) (f : Partition → Partition) : (s.modPart k f).notices = s.notices := rfl
@[simp] theorem State.modPart_evictBound (s : State) (k : Nat) (f : Partition → Partition) : (s.modPart k f).evictBound = s.evictBound := rfl
@[simp] theorem State.modPart_tlb (s : State) (k : Nat) (f : Partition → Partition) : (s.modPart k f).tlb = s.tlb := rfl
@[simp] theorem State.modPart_hbm (s : State) (k : Nat) (f : Partition → Partition) : (s.modPart k f).hbm = s.hbm := rfl
@[simp] theorem State.modPart_seals (s : State) (k : Nat) (f : Partition → Partition) : (s.modPart k f).seals = s.seals := rfl
@[simp] theorem State.modPart_poison (s : State) (k : Nat) (f : Partition → Partition) : (s.modPart k f).poison = s.poison := rfl
@[simp] theorem State.modPart_hbmScope (s : State) (k : Nat) (f : Partition → Partition) : (s.modPart k f).hbmScope = s.hbmScope := rfl
@[simp] theorem State.modPart_hostMem (s : State) (k : Nat) (f : Partition → Partition) : (s.modPart k f).hostMem = s.hostMem := rfl
@[simp] theorem State.modPart_peerMem (s : State) (k : Nat) (f : Partition → Partition) : (s.modPart k f).peerMem = s.peerMem := rfl
@[simp] theorem State.modPart_peerRefuse (s : State) (k : Nat) (f : Partition → Partition) : (s.modPart k f).peerRefuse = s.peerRefuse := rfl
@[simp] theorem State.modPart_peerLen (s : State) (k : Nat) (f : Partition → Partition) : (s.modPart k f).peerLen = s.peerLen := rfl
@[simp] theorem State.modPart_frameOwners (s : State) (k : Nat) (f : Partition → Partition) : (s.modPart k f).frameOwners = s.frameOwners := rfl
@[simp] theorem State.modPart_asids (s : State) (k : Nat) (f : Partition → Partition) : (s.modPart k f).asids = s.asids := rfl
@[simp] theorem State.modPart_fsets (s : State) (k : Nat) (f : Partition → Partition) : (s.modPart k f).fsets = s.fsets := rfl
@[simp] theorem State.modPart_pages (s : State) (k : Nat) (f : Partition → Partition) : (s.modPart k f).pages = s.pages := rfl
@[simp] theorem State.modPart_codes (s : State) (k : Nat) (f : Partition → Partition) : (s.modPart k f).codes = s.codes := rfl
@[simp] theorem State.modPart_pinnedFree (s : State) (k : Nat) (f : Partition → Partition) : (s.modPart k f).pinnedFree = s.pinnedFree := rfl
@[simp] theorem State.modPart_rows (s : State) (k : Nat) (f : Partition → Partition) : (s.modPart k f).rows = s.rows := rfl
@[simp] theorem State.modPart_curRow (s : State) (k : Nat) (f : Partition → Partition) : (s.modPart k f).curRow = s.curRow := rfl
@[simp] theorem State.modPart_rowStart (s : State) (k : Nat) (f : Partition → Partition) : (s.modPart k f).rowStart = s.rowStart := rfl
@[simp] theorem State.modPart_quads (s : State) (k : Nat) (f : Partition → Partition) : (s.modPart k f).quads = s.quads := rfl
@[simp] theorem State.modPart_pendingTable (s : State) (k : Nat) (f : Partition → Partition) : (s.modPart k f).pendingTable = s.pendingTable := rfl
@[simp] theorem State.modPart_tableWait (s : State) (k : Nat) (f : Partition → Partition) : (s.modPart k f).tableWait = s.tableWait := rfl
@[simp] theorem State.modPart_deferredCmds (s : State) (k : Nat) (f : Partition → Partition) : (s.modPart k f).deferredCmds = s.deferredCmds := rfl
@[simp] theorem State.modPart_fwWait (s : State) (k : Nat) (f : Partition → Partition) : (s.modPart k f).fwWait = s.fwWait := rfl
@[simp] theorem State.modPart_funcs (s : State) (k : Nat) (f : Partition → Partition) : (s.modPart k f).funcs = s.funcs := rfl
@[simp] theorem State.modPart_queue (s : State) (k : Nat) (f : Partition → Partition) : (s.modPart k f).queue = s.queue := rfl
@[simp] theorem State.modPart_done (s : State) (k : Nat) (f : Partition → Partition) : (s.modPart k f).done = s.done := rfl
@[simp] theorem State.modPart_nextCmdFn (s : State) (k : Nat) (f : Partition → Partition) : (s.modPart k f).nextCmdFn = s.nextCmdFn := rfl
@[simp] theorem State.modPart_vectors (s : State) (k : Nat) (f : Partition → Partition) : (s.modPart k f).vectors = s.vectors := rfl
@[simp] theorem State.modPart_mgmt (s : State) (k : Nat) (f : Partition → Partition) : (s.modPart k f).mgmt = s.mgmt := rfl
@[simp] theorem State.modPart_colls (s : State) (k : Nat) (f : Partition → Partition) : (s.modPart k f).colls = s.colls := rfl
@[simp] theorem State.modPart_heard (s : State) (k : Nat) (f : Partition → Partition) : (s.modPart k f).heard = s.heard := rfl
@[simp] theorem State.modPart_rounds (s : State) (k : Nat) (f : Partition → Partition) : (s.modPart k f).rounds = s.rounds := rfl
@[simp] theorem State.modPart_portUp (s : State) (k : Nat) (f : Partition → Partition) : (s.modPart k f).portUp = s.portUp := rfl
@[simp] theorem State.modPart_bootCount (s : State) (k : Nat) (f : Partition → Partition) : (s.modPart k f).bootCount = s.bootCount := rfl
@[simp] theorem State.modPart_bootRecord (s : State) (k : Nat) (f : Partition → Partition) : (s.modPart k f).bootRecord = s.bootRecord := rfl
@[simp] theorem State.modPart_recovery (s : State) (k : Nat) (f : Partition → Partition) : (s.modPart k f).recovery = s.recovery := rfl
@[simp] theorem State.modPart_replReq (s : State) (k : Nat) (f : Partition → Partition) : (s.modPart k f).replReq = s.replReq := rfl
@[simp] theorem State.modPart_degraded (s : State) (k : Nat) (f : Partition → Partition) : (s.modPart k f).degraded = s.degraded := rfl
@[simp] theorem State.modPart_throtEnd (s : State) (k : Nat) (f : Partition → Partition) : (s.modPart k f).throtEnd = s.throtEnd := rfl
@[simp] theorem State.modPart_hstat (s : State) (k : Nat) (f : Partition → Partition) : (s.modPart k f).hstat = s.hstat := rfl
@[simp] theorem State.modPart_hbmRate (s : State) (k : Nat) (f : Partition → Partition) : (s.modPart k f).hbmRate = s.hbmRate := rfl
@[simp] theorem State.modPart_pcie (s : State) (k : Nat) (f : Partition → Partition) : (s.modPart k f).pcie = s.pcie := rfl
@[simp] theorem State.modPart_mchk (s : State) (k : Nat) (f : Partition → Partition) : (s.modPart k f).mchk = s.mchk := rfl
@[simp] theorem State.modPart_keyGen (s : State) (k : Nat) (f : Partition → Partition) : (s.modPart k f).keyGen = s.keyGen := rfl
@[simp] theorem State.modPart_badScratch (s : State) (k : Nat) (f : Partition → Partition) : (s.modPart k f).badScratch = s.badScratch := rfl
@[simp] theorem State.modPart_badFetch (s : State) (k : Nat) (f : Partition → Partition) : (s.modPart k f).badFetch = s.badFetch := rfl
@[simp] theorem State.modPart_dmaW (s : State) (k : Nat) (f : Partition → Partition) : (s.modPart k f).dmaW = s.dmaW := rfl
@[simp] theorem State.modPart_dmaLr (s : State) (k : Nat) (f : Partition → Partition) : (s.modPart k f).dmaLr = s.dmaLr := rfl
@[simp] theorem State.modPart_coreW (s : State) (k : Nat) (f : Partition → Partition) : (s.modPart k f).coreW = s.coreW := rfl
@[simp] theorem State.modPart_issue (s : State) (k : Nat) (f : Partition → Partition) : (s.modPart k f).issue = s.issue := rfl
@[simp] theorem State.modPart_turns (s : State) (k : Nat) (f : Partition → Partition) : (s.modPart k f).turns = s.turns := rfl
@[simp] theorem State.modPart_tick (s : State) (k : Nat) (f : Partition → Partition) : (s.modPart k f).tick = s.tick := rfl
@[simp] theorem State.modPart_freeCtr (s : State) (k : Nat) (f : Partition → Partition) : (s.modPart k f).freeCtr = s.freeCtr := rfl

/-! ### modFunc -/

@[simp] theorem State.modFunc_powered (s : State) (k : Nat) (f : Func → Func) : (s.modFunc k f).powered = s.powered := rfl
@[simp] theorem State.modFunc_fuses (s : State) (k : Nat) (f : Func → Func) : (s.modFunc k f).fuses = s.fuses := rfl
@[simp] theorem State.modFunc_coreMap (s : State) (k : Nat) (f : Func → Func) : (s.modFunc k f).coreMap = s.coreMap := rfl
@[simp] theorem State.modFunc_dies (s : State) (k : Nat) (f : Func → Func) : (s.modFunc k f).dies = s.dies := rfl
@[simp] theorem State.modFunc_cores (s : State) (k : Nat) (f : Func → Func) : (s.modFunc k f).cores = s.cores := rfl
@[simp] theorem State.modFunc_launches (s : State) (k : Nat) (f : Func → Func) : (s.modFunc k f).launches = s.launches := rfl
@[simp] theorem State.modFunc_clusters (s : State) (k : Nat) (f : Func → Func) : (s.modFunc k f).clusters = s.clusters := rfl
@[simp] theorem State.modFunc_wgs (s : State) (k : Nat) (f : Func → Func) : (s.modFunc k f).wgs = s.wgs := rfl
@[simp] theorem State.modFunc_groups (s : State) (k : Nat) (f : Func → Func) : (s.modFunc k f).groups = s.groups := rfl
@[simp] theorem State.modFunc_formed (s : State) (k : Nat) (f : Func → Func) : (s.modFunc k f).formed = s.formed := rfl
@[simp] theorem State.modFunc_ops (s : State) (k : Nat) (f : Func → Func) : (s.modFunc k f).ops = s.ops := rfl
@[simp] theorem State.modFunc_acks (s : State) (k : Nat) (f : Func → Func) : (s.modFunc k f).acks = s.acks := rfl
@[simp] theorem State.modFunc_mx (s : State) (k : Nat) (f : Func → Func) : (s.modFunc k f).mx = s.mx := rfl
@[simp] theorem State.modFunc_l1 (s : State) (k : Nat) (f : Func → Func) : (s.modFunc k f).l1 = s.l1 := rfl
@[simp] theorem State.modFunc_pathLines (s : State) (k : Nat) (f : Func → Func) : (s.modFunc k f).pathLines = s.pathLines := rfl
@[simp] theorem State.modFunc_travRuns (s : State) (k : Nat) (f : Func → Func) : (s.modFunc k f).travRuns = s.travRuns := rfl
@[simp] theorem State.modFunc_home (s : State) (k : Nat) (f : Func → Func) : (s.modFunc k f).home = s.home := rfl
@[simp] theorem State.modFunc_rdc (s : State) (k : Nat) (f : Func → Func) : (s.modFunc k f).rdc = s.rdc := rfl
@[simp] theorem State.modFunc_notices (s : State) (k : Nat) (f : Func → Func) : (s.modFunc k f).notices = s.notices := rfl
@[simp] theorem State.modFunc_evictBound (s : State) (k : Nat) (f : Func → Func) : (s.modFunc k f).evictBound = s.evictBound := rfl
@[simp] theorem State.modFunc_tlb (s : State) (k : Nat) (f : Func → Func) : (s.modFunc k f).tlb = s.tlb := rfl
@[simp] theorem State.modFunc_hbm (s : State) (k : Nat) (f : Func → Func) : (s.modFunc k f).hbm = s.hbm := rfl
@[simp] theorem State.modFunc_seals (s : State) (k : Nat) (f : Func → Func) : (s.modFunc k f).seals = s.seals := rfl
@[simp] theorem State.modFunc_poison (s : State) (k : Nat) (f : Func → Func) : (s.modFunc k f).poison = s.poison := rfl
@[simp] theorem State.modFunc_hbmScope (s : State) (k : Nat) (f : Func → Func) : (s.modFunc k f).hbmScope = s.hbmScope := rfl
@[simp] theorem State.modFunc_hostMem (s : State) (k : Nat) (f : Func → Func) : (s.modFunc k f).hostMem = s.hostMem := rfl
@[simp] theorem State.modFunc_peerMem (s : State) (k : Nat) (f : Func → Func) : (s.modFunc k f).peerMem = s.peerMem := rfl
@[simp] theorem State.modFunc_peerRefuse (s : State) (k : Nat) (f : Func → Func) : (s.modFunc k f).peerRefuse = s.peerRefuse := rfl
@[simp] theorem State.modFunc_peerLen (s : State) (k : Nat) (f : Func → Func) : (s.modFunc k f).peerLen = s.peerLen := rfl
@[simp] theorem State.modFunc_frameOwners (s : State) (k : Nat) (f : Func → Func) : (s.modFunc k f).frameOwners = s.frameOwners := rfl
@[simp] theorem State.modFunc_asids (s : State) (k : Nat) (f : Func → Func) : (s.modFunc k f).asids = s.asids := rfl
@[simp] theorem State.modFunc_parts (s : State) (k : Nat) (f : Func → Func) : (s.modFunc k f).parts = s.parts := rfl
@[simp] theorem State.modFunc_fsets (s : State) (k : Nat) (f : Func → Func) : (s.modFunc k f).fsets = s.fsets := rfl
@[simp] theorem State.modFunc_pages (s : State) (k : Nat) (f : Func → Func) : (s.modFunc k f).pages = s.pages := rfl
@[simp] theorem State.modFunc_codes (s : State) (k : Nat) (f : Func → Func) : (s.modFunc k f).codes = s.codes := rfl
@[simp] theorem State.modFunc_pinnedFree (s : State) (k : Nat) (f : Func → Func) : (s.modFunc k f).pinnedFree = s.pinnedFree := rfl
@[simp] theorem State.modFunc_rows (s : State) (k : Nat) (f : Func → Func) : (s.modFunc k f).rows = s.rows := rfl
@[simp] theorem State.modFunc_curRow (s : State) (k : Nat) (f : Func → Func) : (s.modFunc k f).curRow = s.curRow := rfl
@[simp] theorem State.modFunc_rowStart (s : State) (k : Nat) (f : Func → Func) : (s.modFunc k f).rowStart = s.rowStart := rfl
@[simp] theorem State.modFunc_quads (s : State) (k : Nat) (f : Func → Func) : (s.modFunc k f).quads = s.quads := rfl
@[simp] theorem State.modFunc_pendingTable (s : State) (k : Nat) (f : Func → Func) : (s.modFunc k f).pendingTable = s.pendingTable := rfl
@[simp] theorem State.modFunc_tableWait (s : State) (k : Nat) (f : Func → Func) : (s.modFunc k f).tableWait = s.tableWait := rfl
@[simp] theorem State.modFunc_deferredCmds (s : State) (k : Nat) (f : Func → Func) : (s.modFunc k f).deferredCmds = s.deferredCmds := rfl
@[simp] theorem State.modFunc_fwWait (s : State) (k : Nat) (f : Func → Func) : (s.modFunc k f).fwWait = s.fwWait := rfl
@[simp] theorem State.modFunc_queue (s : State) (k : Nat) (f : Func → Func) : (s.modFunc k f).queue = s.queue := rfl
@[simp] theorem State.modFunc_done (s : State) (k : Nat) (f : Func → Func) : (s.modFunc k f).done = s.done := rfl
@[simp] theorem State.modFunc_nextCmdFn (s : State) (k : Nat) (f : Func → Func) : (s.modFunc k f).nextCmdFn = s.nextCmdFn := rfl
@[simp] theorem State.modFunc_vectors (s : State) (k : Nat) (f : Func → Func) : (s.modFunc k f).vectors = s.vectors := rfl
@[simp] theorem State.modFunc_mgmt (s : State) (k : Nat) (f : Func → Func) : (s.modFunc k f).mgmt = s.mgmt := rfl
@[simp] theorem State.modFunc_colls (s : State) (k : Nat) (f : Func → Func) : (s.modFunc k f).colls = s.colls := rfl
@[simp] theorem State.modFunc_heard (s : State) (k : Nat) (f : Func → Func) : (s.modFunc k f).heard = s.heard := rfl
@[simp] theorem State.modFunc_rounds (s : State) (k : Nat) (f : Func → Func) : (s.modFunc k f).rounds = s.rounds := rfl
@[simp] theorem State.modFunc_portUp (s : State) (k : Nat) (f : Func → Func) : (s.modFunc k f).portUp = s.portUp := rfl
@[simp] theorem State.modFunc_bootCount (s : State) (k : Nat) (f : Func → Func) : (s.modFunc k f).bootCount = s.bootCount := rfl
@[simp] theorem State.modFunc_bootRecord (s : State) (k : Nat) (f : Func → Func) : (s.modFunc k f).bootRecord = s.bootRecord := rfl
@[simp] theorem State.modFunc_recovery (s : State) (k : Nat) (f : Func → Func) : (s.modFunc k f).recovery = s.recovery := rfl
@[simp] theorem State.modFunc_replReq (s : State) (k : Nat) (f : Func → Func) : (s.modFunc k f).replReq = s.replReq := rfl
@[simp] theorem State.modFunc_degraded (s : State) (k : Nat) (f : Func → Func) : (s.modFunc k f).degraded = s.degraded := rfl
@[simp] theorem State.modFunc_throtEnd (s : State) (k : Nat) (f : Func → Func) : (s.modFunc k f).throtEnd = s.throtEnd := rfl
@[simp] theorem State.modFunc_hstat (s : State) (k : Nat) (f : Func → Func) : (s.modFunc k f).hstat = s.hstat := rfl
@[simp] theorem State.modFunc_hbmRate (s : State) (k : Nat) (f : Func → Func) : (s.modFunc k f).hbmRate = s.hbmRate := rfl
@[simp] theorem State.modFunc_pcie (s : State) (k : Nat) (f : Func → Func) : (s.modFunc k f).pcie = s.pcie := rfl
@[simp] theorem State.modFunc_mchk (s : State) (k : Nat) (f : Func → Func) : (s.modFunc k f).mchk = s.mchk := rfl
@[simp] theorem State.modFunc_keyGen (s : State) (k : Nat) (f : Func → Func) : (s.modFunc k f).keyGen = s.keyGen := rfl
@[simp] theorem State.modFunc_badScratch (s : State) (k : Nat) (f : Func → Func) : (s.modFunc k f).badScratch = s.badScratch := rfl
@[simp] theorem State.modFunc_badFetch (s : State) (k : Nat) (f : Func → Func) : (s.modFunc k f).badFetch = s.badFetch := rfl
@[simp] theorem State.modFunc_dmaW (s : State) (k : Nat) (f : Func → Func) : (s.modFunc k f).dmaW = s.dmaW := rfl
@[simp] theorem State.modFunc_dmaLr (s : State) (k : Nat) (f : Func → Func) : (s.modFunc k f).dmaLr = s.dmaLr := rfl
@[simp] theorem State.modFunc_coreW (s : State) (k : Nat) (f : Func → Func) : (s.modFunc k f).coreW = s.coreW := rfl
@[simp] theorem State.modFunc_issue (s : State) (k : Nat) (f : Func → Func) : (s.modFunc k f).issue = s.issue := rfl
@[simp] theorem State.modFunc_turns (s : State) (k : Nat) (f : Func → Func) : (s.modFunc k f).turns = s.turns := rfl
@[simp] theorem State.modFunc_tick (s : State) (k : Nat) (f : Func → Func) : (s.modFunc k f).tick = s.tick := rfl
@[simp] theorem State.modFunc_freeCtr (s : State) (k : Nat) (f : Func → Func) : (s.modFunc k f).freeCtr = s.freeCtr := rfl

/-! ### modQuad -/

@[simp] theorem State.modQuad_powered (s : State) (k : Nat) (f : QuadState → QuadState) : (s.modQuad k f).powered = s.powered := rfl
@[simp] theorem State.modQuad_fuses (s : State) (k : Nat) (f : QuadState → QuadState) : (s.modQuad k f).fuses = s.fuses := rfl
@[simp] theorem State.modQuad_coreMap (s : State) (k : Nat) (f : QuadState → QuadState) : (s.modQuad k f).coreMap = s.coreMap := rfl
@[simp] theorem State.modQuad_dies (s : State) (k : Nat) (f : QuadState → QuadState) : (s.modQuad k f).dies = s.dies := rfl
@[simp] theorem State.modQuad_cores (s : State) (k : Nat) (f : QuadState → QuadState) : (s.modQuad k f).cores = s.cores := rfl
@[simp] theorem State.modQuad_launches (s : State) (k : Nat) (f : QuadState → QuadState) : (s.modQuad k f).launches = s.launches := rfl
@[simp] theorem State.modQuad_clusters (s : State) (k : Nat) (f : QuadState → QuadState) : (s.modQuad k f).clusters = s.clusters := rfl
@[simp] theorem State.modQuad_wgs (s : State) (k : Nat) (f : QuadState → QuadState) : (s.modQuad k f).wgs = s.wgs := rfl
@[simp] theorem State.modQuad_groups (s : State) (k : Nat) (f : QuadState → QuadState) : (s.modQuad k f).groups = s.groups := rfl
@[simp] theorem State.modQuad_formed (s : State) (k : Nat) (f : QuadState → QuadState) : (s.modQuad k f).formed = s.formed := rfl
@[simp] theorem State.modQuad_ops (s : State) (k : Nat) (f : QuadState → QuadState) : (s.modQuad k f).ops = s.ops := rfl
@[simp] theorem State.modQuad_acks (s : State) (k : Nat) (f : QuadState → QuadState) : (s.modQuad k f).acks = s.acks := rfl
@[simp] theorem State.modQuad_mx (s : State) (k : Nat) (f : QuadState → QuadState) : (s.modQuad k f).mx = s.mx := rfl
@[simp] theorem State.modQuad_l1 (s : State) (k : Nat) (f : QuadState → QuadState) : (s.modQuad k f).l1 = s.l1 := rfl
@[simp] theorem State.modQuad_pathLines (s : State) (k : Nat) (f : QuadState → QuadState) : (s.modQuad k f).pathLines = s.pathLines := rfl
@[simp] theorem State.modQuad_travRuns (s : State) (k : Nat) (f : QuadState → QuadState) : (s.modQuad k f).travRuns = s.travRuns := rfl
@[simp] theorem State.modQuad_home (s : State) (k : Nat) (f : QuadState → QuadState) : (s.modQuad k f).home = s.home := rfl
@[simp] theorem State.modQuad_rdc (s : State) (k : Nat) (f : QuadState → QuadState) : (s.modQuad k f).rdc = s.rdc := rfl
@[simp] theorem State.modQuad_notices (s : State) (k : Nat) (f : QuadState → QuadState) : (s.modQuad k f).notices = s.notices := rfl
@[simp] theorem State.modQuad_evictBound (s : State) (k : Nat) (f : QuadState → QuadState) : (s.modQuad k f).evictBound = s.evictBound := rfl
@[simp] theorem State.modQuad_tlb (s : State) (k : Nat) (f : QuadState → QuadState) : (s.modQuad k f).tlb = s.tlb := rfl
@[simp] theorem State.modQuad_hbm (s : State) (k : Nat) (f : QuadState → QuadState) : (s.modQuad k f).hbm = s.hbm := rfl
@[simp] theorem State.modQuad_seals (s : State) (k : Nat) (f : QuadState → QuadState) : (s.modQuad k f).seals = s.seals := rfl
@[simp] theorem State.modQuad_poison (s : State) (k : Nat) (f : QuadState → QuadState) : (s.modQuad k f).poison = s.poison := rfl
@[simp] theorem State.modQuad_hbmScope (s : State) (k : Nat) (f : QuadState → QuadState) : (s.modQuad k f).hbmScope = s.hbmScope := rfl
@[simp] theorem State.modQuad_hostMem (s : State) (k : Nat) (f : QuadState → QuadState) : (s.modQuad k f).hostMem = s.hostMem := rfl
@[simp] theorem State.modQuad_peerMem (s : State) (k : Nat) (f : QuadState → QuadState) : (s.modQuad k f).peerMem = s.peerMem := rfl
@[simp] theorem State.modQuad_peerRefuse (s : State) (k : Nat) (f : QuadState → QuadState) : (s.modQuad k f).peerRefuse = s.peerRefuse := rfl
@[simp] theorem State.modQuad_peerLen (s : State) (k : Nat) (f : QuadState → QuadState) : (s.modQuad k f).peerLen = s.peerLen := rfl
@[simp] theorem State.modQuad_frameOwners (s : State) (k : Nat) (f : QuadState → QuadState) : (s.modQuad k f).frameOwners = s.frameOwners := rfl
@[simp] theorem State.modQuad_asids (s : State) (k : Nat) (f : QuadState → QuadState) : (s.modQuad k f).asids = s.asids := rfl
@[simp] theorem State.modQuad_parts (s : State) (k : Nat) (f : QuadState → QuadState) : (s.modQuad k f).parts = s.parts := rfl
@[simp] theorem State.modQuad_fsets (s : State) (k : Nat) (f : QuadState → QuadState) : (s.modQuad k f).fsets = s.fsets := rfl
@[simp] theorem State.modQuad_pages (s : State) (k : Nat) (f : QuadState → QuadState) : (s.modQuad k f).pages = s.pages := rfl
@[simp] theorem State.modQuad_codes (s : State) (k : Nat) (f : QuadState → QuadState) : (s.modQuad k f).codes = s.codes := rfl
@[simp] theorem State.modQuad_pinnedFree (s : State) (k : Nat) (f : QuadState → QuadState) : (s.modQuad k f).pinnedFree = s.pinnedFree := rfl
@[simp] theorem State.modQuad_rows (s : State) (k : Nat) (f : QuadState → QuadState) : (s.modQuad k f).rows = s.rows := rfl
@[simp] theorem State.modQuad_curRow (s : State) (k : Nat) (f : QuadState → QuadState) : (s.modQuad k f).curRow = s.curRow := rfl
@[simp] theorem State.modQuad_rowStart (s : State) (k : Nat) (f : QuadState → QuadState) : (s.modQuad k f).rowStart = s.rowStart := rfl
@[simp] theorem State.modQuad_pendingTable (s : State) (k : Nat) (f : QuadState → QuadState) : (s.modQuad k f).pendingTable = s.pendingTable := rfl
@[simp] theorem State.modQuad_tableWait (s : State) (k : Nat) (f : QuadState → QuadState) : (s.modQuad k f).tableWait = s.tableWait := rfl
@[simp] theorem State.modQuad_deferredCmds (s : State) (k : Nat) (f : QuadState → QuadState) : (s.modQuad k f).deferredCmds = s.deferredCmds := rfl
@[simp] theorem State.modQuad_fwWait (s : State) (k : Nat) (f : QuadState → QuadState) : (s.modQuad k f).fwWait = s.fwWait := rfl
@[simp] theorem State.modQuad_funcs (s : State) (k : Nat) (f : QuadState → QuadState) : (s.modQuad k f).funcs = s.funcs := rfl
@[simp] theorem State.modQuad_queue (s : State) (k : Nat) (f : QuadState → QuadState) : (s.modQuad k f).queue = s.queue := rfl
@[simp] theorem State.modQuad_done (s : State) (k : Nat) (f : QuadState → QuadState) : (s.modQuad k f).done = s.done := rfl
@[simp] theorem State.modQuad_nextCmdFn (s : State) (k : Nat) (f : QuadState → QuadState) : (s.modQuad k f).nextCmdFn = s.nextCmdFn := rfl
@[simp] theorem State.modQuad_vectors (s : State) (k : Nat) (f : QuadState → QuadState) : (s.modQuad k f).vectors = s.vectors := rfl
@[simp] theorem State.modQuad_mgmt (s : State) (k : Nat) (f : QuadState → QuadState) : (s.modQuad k f).mgmt = s.mgmt := rfl
@[simp] theorem State.modQuad_colls (s : State) (k : Nat) (f : QuadState → QuadState) : (s.modQuad k f).colls = s.colls := rfl
@[simp] theorem State.modQuad_heard (s : State) (k : Nat) (f : QuadState → QuadState) : (s.modQuad k f).heard = s.heard := rfl
@[simp] theorem State.modQuad_rounds (s : State) (k : Nat) (f : QuadState → QuadState) : (s.modQuad k f).rounds = s.rounds := rfl
@[simp] theorem State.modQuad_portUp (s : State) (k : Nat) (f : QuadState → QuadState) : (s.modQuad k f).portUp = s.portUp := rfl
@[simp] theorem State.modQuad_bootCount (s : State) (k : Nat) (f : QuadState → QuadState) : (s.modQuad k f).bootCount = s.bootCount := rfl
@[simp] theorem State.modQuad_bootRecord (s : State) (k : Nat) (f : QuadState → QuadState) : (s.modQuad k f).bootRecord = s.bootRecord := rfl
@[simp] theorem State.modQuad_recovery (s : State) (k : Nat) (f : QuadState → QuadState) : (s.modQuad k f).recovery = s.recovery := rfl
@[simp] theorem State.modQuad_replReq (s : State) (k : Nat) (f : QuadState → QuadState) : (s.modQuad k f).replReq = s.replReq := rfl
@[simp] theorem State.modQuad_degraded (s : State) (k : Nat) (f : QuadState → QuadState) : (s.modQuad k f).degraded = s.degraded := rfl
@[simp] theorem State.modQuad_throtEnd (s : State) (k : Nat) (f : QuadState → QuadState) : (s.modQuad k f).throtEnd = s.throtEnd := rfl
@[simp] theorem State.modQuad_hstat (s : State) (k : Nat) (f : QuadState → QuadState) : (s.modQuad k f).hstat = s.hstat := rfl
@[simp] theorem State.modQuad_hbmRate (s : State) (k : Nat) (f : QuadState → QuadState) : (s.modQuad k f).hbmRate = s.hbmRate := rfl
@[simp] theorem State.modQuad_pcie (s : State) (k : Nat) (f : QuadState → QuadState) : (s.modQuad k f).pcie = s.pcie := rfl
@[simp] theorem State.modQuad_mchk (s : State) (k : Nat) (f : QuadState → QuadState) : (s.modQuad k f).mchk = s.mchk := rfl
@[simp] theorem State.modQuad_keyGen (s : State) (k : Nat) (f : QuadState → QuadState) : (s.modQuad k f).keyGen = s.keyGen := rfl
@[simp] theorem State.modQuad_badScratch (s : State) (k : Nat) (f : QuadState → QuadState) : (s.modQuad k f).badScratch = s.badScratch := rfl
@[simp] theorem State.modQuad_badFetch (s : State) (k : Nat) (f : QuadState → QuadState) : (s.modQuad k f).badFetch = s.badFetch := rfl
@[simp] theorem State.modQuad_dmaW (s : State) (k : Nat) (f : QuadState → QuadState) : (s.modQuad k f).dmaW = s.dmaW := rfl
@[simp] theorem State.modQuad_dmaLr (s : State) (k : Nat) (f : QuadState → QuadState) : (s.modQuad k f).dmaLr = s.dmaLr := rfl
@[simp] theorem State.modQuad_coreW (s : State) (k : Nat) (f : QuadState → QuadState) : (s.modQuad k f).coreW = s.coreW := rfl
@[simp] theorem State.modQuad_issue (s : State) (k : Nat) (f : QuadState → QuadState) : (s.modQuad k f).issue = s.issue := rfl
@[simp] theorem State.modQuad_turns (s : State) (k : Nat) (f : QuadState → QuadState) : (s.modQuad k f).turns = s.turns := rfl
@[simp] theorem State.modQuad_tick (s : State) (k : Nat) (f : QuadState → QuadState) : (s.modQuad k f).tick = s.tick := rfl
@[simp] theorem State.modQuad_freeCtr (s : State) (k : Nat) (f : QuadState → QuadState) : (s.modQuad k f).freeCtr = s.freeCtr := rfl

/-! ### modDie -/

@[simp] theorem State.modDie_powered (s : State) (k : Nat) (f : Die → Die) : (s.modDie k f).powered = s.powered := rfl
@[simp] theorem State.modDie_fuses (s : State) (k : Nat) (f : Die → Die) : (s.modDie k f).fuses = s.fuses := rfl
@[simp] theorem State.modDie_coreMap (s : State) (k : Nat) (f : Die → Die) : (s.modDie k f).coreMap = s.coreMap := rfl
@[simp] theorem State.modDie_cores (s : State) (k : Nat) (f : Die → Die) : (s.modDie k f).cores = s.cores := rfl
@[simp] theorem State.modDie_launches (s : State) (k : Nat) (f : Die → Die) : (s.modDie k f).launches = s.launches := rfl
@[simp] theorem State.modDie_clusters (s : State) (k : Nat) (f : Die → Die) : (s.modDie k f).clusters = s.clusters := rfl
@[simp] theorem State.modDie_wgs (s : State) (k : Nat) (f : Die → Die) : (s.modDie k f).wgs = s.wgs := rfl
@[simp] theorem State.modDie_groups (s : State) (k : Nat) (f : Die → Die) : (s.modDie k f).groups = s.groups := rfl
@[simp] theorem State.modDie_formed (s : State) (k : Nat) (f : Die → Die) : (s.modDie k f).formed = s.formed := rfl
@[simp] theorem State.modDie_ops (s : State) (k : Nat) (f : Die → Die) : (s.modDie k f).ops = s.ops := rfl
@[simp] theorem State.modDie_acks (s : State) (k : Nat) (f : Die → Die) : (s.modDie k f).acks = s.acks := rfl
@[simp] theorem State.modDie_mx (s : State) (k : Nat) (f : Die → Die) : (s.modDie k f).mx = s.mx := rfl
@[simp] theorem State.modDie_l1 (s : State) (k : Nat) (f : Die → Die) : (s.modDie k f).l1 = s.l1 := rfl
@[simp] theorem State.modDie_pathLines (s : State) (k : Nat) (f : Die → Die) : (s.modDie k f).pathLines = s.pathLines := rfl
@[simp] theorem State.modDie_travRuns (s : State) (k : Nat) (f : Die → Die) : (s.modDie k f).travRuns = s.travRuns := rfl
@[simp] theorem State.modDie_home (s : State) (k : Nat) (f : Die → Die) : (s.modDie k f).home = s.home := rfl
@[simp] theorem State.modDie_rdc (s : State) (k : Nat) (f : Die → Die) : (s.modDie k f).rdc = s.rdc := rfl
@[simp] theorem State.modDie_notices (s : State) (k : Nat) (f : Die → Die) : (s.modDie k f).notices = s.notices := rfl
@[simp] theorem State.modDie_evictBound (s : State) (k : Nat) (f : Die → Die) : (s.modDie k f).evictBound = s.evictBound := rfl
@[simp] theorem State.modDie_tlb (s : State) (k : Nat) (f : Die → Die) : (s.modDie k f).tlb = s.tlb := rfl
@[simp] theorem State.modDie_hbm (s : State) (k : Nat) (f : Die → Die) : (s.modDie k f).hbm = s.hbm := rfl
@[simp] theorem State.modDie_seals (s : State) (k : Nat) (f : Die → Die) : (s.modDie k f).seals = s.seals := rfl
@[simp] theorem State.modDie_poison (s : State) (k : Nat) (f : Die → Die) : (s.modDie k f).poison = s.poison := rfl
@[simp] theorem State.modDie_hbmScope (s : State) (k : Nat) (f : Die → Die) : (s.modDie k f).hbmScope = s.hbmScope := rfl
@[simp] theorem State.modDie_hostMem (s : State) (k : Nat) (f : Die → Die) : (s.modDie k f).hostMem = s.hostMem := rfl
@[simp] theorem State.modDie_peerMem (s : State) (k : Nat) (f : Die → Die) : (s.modDie k f).peerMem = s.peerMem := rfl
@[simp] theorem State.modDie_peerRefuse (s : State) (k : Nat) (f : Die → Die) : (s.modDie k f).peerRefuse = s.peerRefuse := rfl
@[simp] theorem State.modDie_peerLen (s : State) (k : Nat) (f : Die → Die) : (s.modDie k f).peerLen = s.peerLen := rfl
@[simp] theorem State.modDie_frameOwners (s : State) (k : Nat) (f : Die → Die) : (s.modDie k f).frameOwners = s.frameOwners := rfl
@[simp] theorem State.modDie_asids (s : State) (k : Nat) (f : Die → Die) : (s.modDie k f).asids = s.asids := rfl
@[simp] theorem State.modDie_parts (s : State) (k : Nat) (f : Die → Die) : (s.modDie k f).parts = s.parts := rfl
@[simp] theorem State.modDie_fsets (s : State) (k : Nat) (f : Die → Die) : (s.modDie k f).fsets = s.fsets := rfl
@[simp] theorem State.modDie_pages (s : State) (k : Nat) (f : Die → Die) : (s.modDie k f).pages = s.pages := rfl
@[simp] theorem State.modDie_codes (s : State) (k : Nat) (f : Die → Die) : (s.modDie k f).codes = s.codes := rfl
@[simp] theorem State.modDie_pinnedFree (s : State) (k : Nat) (f : Die → Die) : (s.modDie k f).pinnedFree = s.pinnedFree := rfl
@[simp] theorem State.modDie_rows (s : State) (k : Nat) (f : Die → Die) : (s.modDie k f).rows = s.rows := rfl
@[simp] theorem State.modDie_curRow (s : State) (k : Nat) (f : Die → Die) : (s.modDie k f).curRow = s.curRow := rfl
@[simp] theorem State.modDie_rowStart (s : State) (k : Nat) (f : Die → Die) : (s.modDie k f).rowStart = s.rowStart := rfl
@[simp] theorem State.modDie_quads (s : State) (k : Nat) (f : Die → Die) : (s.modDie k f).quads = s.quads := rfl
@[simp] theorem State.modDie_pendingTable (s : State) (k : Nat) (f : Die → Die) : (s.modDie k f).pendingTable = s.pendingTable := rfl
@[simp] theorem State.modDie_tableWait (s : State) (k : Nat) (f : Die → Die) : (s.modDie k f).tableWait = s.tableWait := rfl
@[simp] theorem State.modDie_deferredCmds (s : State) (k : Nat) (f : Die → Die) : (s.modDie k f).deferredCmds = s.deferredCmds := rfl
@[simp] theorem State.modDie_fwWait (s : State) (k : Nat) (f : Die → Die) : (s.modDie k f).fwWait = s.fwWait := rfl
@[simp] theorem State.modDie_funcs (s : State) (k : Nat) (f : Die → Die) : (s.modDie k f).funcs = s.funcs := rfl
@[simp] theorem State.modDie_queue (s : State) (k : Nat) (f : Die → Die) : (s.modDie k f).queue = s.queue := rfl
@[simp] theorem State.modDie_done (s : State) (k : Nat) (f : Die → Die) : (s.modDie k f).done = s.done := rfl
@[simp] theorem State.modDie_nextCmdFn (s : State) (k : Nat) (f : Die → Die) : (s.modDie k f).nextCmdFn = s.nextCmdFn := rfl
@[simp] theorem State.modDie_vectors (s : State) (k : Nat) (f : Die → Die) : (s.modDie k f).vectors = s.vectors := rfl
@[simp] theorem State.modDie_mgmt (s : State) (k : Nat) (f : Die → Die) : (s.modDie k f).mgmt = s.mgmt := rfl
@[simp] theorem State.modDie_colls (s : State) (k : Nat) (f : Die → Die) : (s.modDie k f).colls = s.colls := rfl
@[simp] theorem State.modDie_heard (s : State) (k : Nat) (f : Die → Die) : (s.modDie k f).heard = s.heard := rfl
@[simp] theorem State.modDie_rounds (s : State) (k : Nat) (f : Die → Die) : (s.modDie k f).rounds = s.rounds := rfl
@[simp] theorem State.modDie_portUp (s : State) (k : Nat) (f : Die → Die) : (s.modDie k f).portUp = s.portUp := rfl
@[simp] theorem State.modDie_bootCount (s : State) (k : Nat) (f : Die → Die) : (s.modDie k f).bootCount = s.bootCount := rfl
@[simp] theorem State.modDie_bootRecord (s : State) (k : Nat) (f : Die → Die) : (s.modDie k f).bootRecord = s.bootRecord := rfl
@[simp] theorem State.modDie_recovery (s : State) (k : Nat) (f : Die → Die) : (s.modDie k f).recovery = s.recovery := rfl
@[simp] theorem State.modDie_replReq (s : State) (k : Nat) (f : Die → Die) : (s.modDie k f).replReq = s.replReq := rfl
@[simp] theorem State.modDie_degraded (s : State) (k : Nat) (f : Die → Die) : (s.modDie k f).degraded = s.degraded := rfl
@[simp] theorem State.modDie_throtEnd (s : State) (k : Nat) (f : Die → Die) : (s.modDie k f).throtEnd = s.throtEnd := rfl
@[simp] theorem State.modDie_hstat (s : State) (k : Nat) (f : Die → Die) : (s.modDie k f).hstat = s.hstat := rfl
@[simp] theorem State.modDie_hbmRate (s : State) (k : Nat) (f : Die → Die) : (s.modDie k f).hbmRate = s.hbmRate := rfl
@[simp] theorem State.modDie_pcie (s : State) (k : Nat) (f : Die → Die) : (s.modDie k f).pcie = s.pcie := rfl
@[simp] theorem State.modDie_mchk (s : State) (k : Nat) (f : Die → Die) : (s.modDie k f).mchk = s.mchk := rfl
@[simp] theorem State.modDie_keyGen (s : State) (k : Nat) (f : Die → Die) : (s.modDie k f).keyGen = s.keyGen := rfl
@[simp] theorem State.modDie_badScratch (s : State) (k : Nat) (f : Die → Die) : (s.modDie k f).badScratch = s.badScratch := rfl
@[simp] theorem State.modDie_badFetch (s : State) (k : Nat) (f : Die → Die) : (s.modDie k f).badFetch = s.badFetch := rfl
@[simp] theorem State.modDie_dmaW (s : State) (k : Nat) (f : Die → Die) : (s.modDie k f).dmaW = s.dmaW := rfl
@[simp] theorem State.modDie_dmaLr (s : State) (k : Nat) (f : Die → Die) : (s.modDie k f).dmaLr = s.dmaLr := rfl
@[simp] theorem State.modDie_coreW (s : State) (k : Nat) (f : Die → Die) : (s.modDie k f).coreW = s.coreW := rfl
@[simp] theorem State.modDie_issue (s : State) (k : Nat) (f : Die → Die) : (s.modDie k f).issue = s.issue := rfl
@[simp] theorem State.modDie_turns (s : State) (k : Nat) (f : Die → Die) : (s.modDie k f).turns = s.turns := rfl
@[simp] theorem State.modDie_tick (s : State) (k : Nat) (f : Die → Die) : (s.modDie k f).tick = s.tick := rfl
@[simp] theorem State.modDie_freeCtr (s : State) (k : Nat) (f : Die → Die) : (s.modDie k f).freeCtr = s.freeCtr := rfl

/-! ### signal -/

@[simp] theorem State.signal_powered (s : State) (fn v : Nat) : (s.signal fn v).powered = s.powered := rfl
@[simp] theorem State.signal_fuses (s : State) (fn v : Nat) : (s.signal fn v).fuses = s.fuses := rfl
@[simp] theorem State.signal_coreMap (s : State) (fn v : Nat) : (s.signal fn v).coreMap = s.coreMap := rfl
@[simp] theorem State.signal_dies (s : State) (fn v : Nat) : (s.signal fn v).dies = s.dies := rfl
@[simp] theorem State.signal_cores (s : State) (fn v : Nat) : (s.signal fn v).cores = s.cores := rfl
@[simp] theorem State.signal_launches (s : State) (fn v : Nat) : (s.signal fn v).launches = s.launches := rfl
@[simp] theorem State.signal_clusters (s : State) (fn v : Nat) : (s.signal fn v).clusters = s.clusters := rfl
@[simp] theorem State.signal_wgs (s : State) (fn v : Nat) : (s.signal fn v).wgs = s.wgs := rfl
@[simp] theorem State.signal_groups (s : State) (fn v : Nat) : (s.signal fn v).groups = s.groups := rfl
@[simp] theorem State.signal_formed (s : State) (fn v : Nat) : (s.signal fn v).formed = s.formed := rfl
@[simp] theorem State.signal_ops (s : State) (fn v : Nat) : (s.signal fn v).ops = s.ops := rfl
@[simp] theorem State.signal_acks (s : State) (fn v : Nat) : (s.signal fn v).acks = s.acks := rfl
@[simp] theorem State.signal_mx (s : State) (fn v : Nat) : (s.signal fn v).mx = s.mx := rfl
@[simp] theorem State.signal_l1 (s : State) (fn v : Nat) : (s.signal fn v).l1 = s.l1 := rfl
@[simp] theorem State.signal_pathLines (s : State) (fn v : Nat) : (s.signal fn v).pathLines = s.pathLines := rfl
@[simp] theorem State.signal_travRuns (s : State) (fn v : Nat) : (s.signal fn v).travRuns = s.travRuns := rfl
@[simp] theorem State.signal_home (s : State) (fn v : Nat) : (s.signal fn v).home = s.home := rfl
@[simp] theorem State.signal_rdc (s : State) (fn v : Nat) : (s.signal fn v).rdc = s.rdc := rfl
@[simp] theorem State.signal_notices (s : State) (fn v : Nat) : (s.signal fn v).notices = s.notices := rfl
@[simp] theorem State.signal_evictBound (s : State) (fn v : Nat) : (s.signal fn v).evictBound = s.evictBound := rfl
@[simp] theorem State.signal_tlb (s : State) (fn v : Nat) : (s.signal fn v).tlb = s.tlb := rfl
@[simp] theorem State.signal_hbm (s : State) (fn v : Nat) : (s.signal fn v).hbm = s.hbm := rfl
@[simp] theorem State.signal_seals (s : State) (fn v : Nat) : (s.signal fn v).seals = s.seals := rfl
@[simp] theorem State.signal_poison (s : State) (fn v : Nat) : (s.signal fn v).poison = s.poison := rfl
@[simp] theorem State.signal_hbmScope (s : State) (fn v : Nat) : (s.signal fn v).hbmScope = s.hbmScope := rfl
@[simp] theorem State.signal_hostMem (s : State) (fn v : Nat) : (s.signal fn v).hostMem = s.hostMem := rfl
@[simp] theorem State.signal_peerMem (s : State) (fn v : Nat) : (s.signal fn v).peerMem = s.peerMem := rfl
@[simp] theorem State.signal_peerRefuse (s : State) (fn v : Nat) : (s.signal fn v).peerRefuse = s.peerRefuse := rfl
@[simp] theorem State.signal_peerLen (s : State) (fn v : Nat) : (s.signal fn v).peerLen = s.peerLen := rfl
@[simp] theorem State.signal_frameOwners (s : State) (fn v : Nat) : (s.signal fn v).frameOwners = s.frameOwners := rfl
@[simp] theorem State.signal_asids (s : State) (fn v : Nat) : (s.signal fn v).asids = s.asids := rfl
@[simp] theorem State.signal_parts (s : State) (fn v : Nat) : (s.signal fn v).parts = s.parts := rfl
@[simp] theorem State.signal_fsets (s : State) (fn v : Nat) : (s.signal fn v).fsets = s.fsets := rfl
@[simp] theorem State.signal_pages (s : State) (fn v : Nat) : (s.signal fn v).pages = s.pages := rfl
@[simp] theorem State.signal_codes (s : State) (fn v : Nat) : (s.signal fn v).codes = s.codes := rfl
@[simp] theorem State.signal_pinnedFree (s : State) (fn v : Nat) : (s.signal fn v).pinnedFree = s.pinnedFree := rfl
@[simp] theorem State.signal_rows (s : State) (fn v : Nat) : (s.signal fn v).rows = s.rows := rfl
@[simp] theorem State.signal_curRow (s : State) (fn v : Nat) : (s.signal fn v).curRow = s.curRow := rfl
@[simp] theorem State.signal_rowStart (s : State) (fn v : Nat) : (s.signal fn v).rowStart = s.rowStart := rfl
@[simp] theorem State.signal_quads (s : State) (fn v : Nat) : (s.signal fn v).quads = s.quads := rfl
@[simp] theorem State.signal_pendingTable (s : State) (fn v : Nat) : (s.signal fn v).pendingTable = s.pendingTable := rfl
@[simp] theorem State.signal_tableWait (s : State) (fn v : Nat) : (s.signal fn v).tableWait = s.tableWait := rfl
@[simp] theorem State.signal_deferredCmds (s : State) (fn v : Nat) : (s.signal fn v).deferredCmds = s.deferredCmds := rfl
@[simp] theorem State.signal_fwWait (s : State) (fn v : Nat) : (s.signal fn v).fwWait = s.fwWait := rfl
@[simp] theorem State.signal_funcs (s : State) (fn v : Nat) : (s.signal fn v).funcs = s.funcs := rfl
@[simp] theorem State.signal_queue (s : State) (fn v : Nat) : (s.signal fn v).queue = s.queue := rfl
@[simp] theorem State.signal_done (s : State) (fn v : Nat) : (s.signal fn v).done = s.done := rfl
@[simp] theorem State.signal_nextCmdFn (s : State) (fn v : Nat) : (s.signal fn v).nextCmdFn = s.nextCmdFn := rfl
@[simp] theorem State.signal_mgmt (s : State) (fn v : Nat) : (s.signal fn v).mgmt = s.mgmt := rfl
@[simp] theorem State.signal_colls (s : State) (fn v : Nat) : (s.signal fn v).colls = s.colls := rfl
@[simp] theorem State.signal_heard (s : State) (fn v : Nat) : (s.signal fn v).heard = s.heard := rfl
@[simp] theorem State.signal_rounds (s : State) (fn v : Nat) : (s.signal fn v).rounds = s.rounds := rfl
@[simp] theorem State.signal_portUp (s : State) (fn v : Nat) : (s.signal fn v).portUp = s.portUp := rfl
@[simp] theorem State.signal_bootCount (s : State) (fn v : Nat) : (s.signal fn v).bootCount = s.bootCount := rfl
@[simp] theorem State.signal_bootRecord (s : State) (fn v : Nat) : (s.signal fn v).bootRecord = s.bootRecord := rfl
@[simp] theorem State.signal_recovery (s : State) (fn v : Nat) : (s.signal fn v).recovery = s.recovery := rfl
@[simp] theorem State.signal_replReq (s : State) (fn v : Nat) : (s.signal fn v).replReq = s.replReq := rfl
@[simp] theorem State.signal_degraded (s : State) (fn v : Nat) : (s.signal fn v).degraded = s.degraded := rfl
@[simp] theorem State.signal_throtEnd (s : State) (fn v : Nat) : (s.signal fn v).throtEnd = s.throtEnd := rfl
@[simp] theorem State.signal_hstat (s : State) (fn v : Nat) : (s.signal fn v).hstat = s.hstat := rfl
@[simp] theorem State.signal_hbmRate (s : State) (fn v : Nat) : (s.signal fn v).hbmRate = s.hbmRate := rfl
@[simp] theorem State.signal_pcie (s : State) (fn v : Nat) : (s.signal fn v).pcie = s.pcie := rfl
@[simp] theorem State.signal_mchk (s : State) (fn v : Nat) : (s.signal fn v).mchk = s.mchk := rfl
@[simp] theorem State.signal_keyGen (s : State) (fn v : Nat) : (s.signal fn v).keyGen = s.keyGen := rfl
@[simp] theorem State.signal_badScratch (s : State) (fn v : Nat) : (s.signal fn v).badScratch = s.badScratch := rfl
@[simp] theorem State.signal_badFetch (s : State) (fn v : Nat) : (s.signal fn v).badFetch = s.badFetch := rfl
@[simp] theorem State.signal_dmaW (s : State) (fn v : Nat) : (s.signal fn v).dmaW = s.dmaW := rfl
@[simp] theorem State.signal_dmaLr (s : State) (fn v : Nat) : (s.signal fn v).dmaLr = s.dmaLr := rfl
@[simp] theorem State.signal_coreW (s : State) (fn v : Nat) : (s.signal fn v).coreW = s.coreW := rfl
@[simp] theorem State.signal_issue (s : State) (fn v : Nat) : (s.signal fn v).issue = s.issue := rfl
@[simp] theorem State.signal_turns (s : State) (fn v : Nat) : (s.signal fn v).turns = s.turns := rfl
@[simp] theorem State.signal_tick (s : State) (fn v : Nat) : (s.signal fn v).tick = s.tick := rfl
@[simp] theorem State.signal_freeCtr (s : State) (fn v : Nat) : (s.signal fn v).freeCtr = s.freeCtr := rfl

end Sys2Proof.Machine
end

