-- ==== Sys2Proof/Laws/Memory.lean ====
section
/-! SUPPORT. Every operation that writes a memory keeps the memories in their canonical form: HBM lines and their seals, host
memory, frame owners; and what such a write leaves in place. -/

namespace Sys2Proof.Machine

/-- Replacing a unit leaves the memories. -/
theorem State.memWf_congr {s t : State} (h : s.memWf = true) (h1 : t.hbm = s.hbm) (h2 : t.seals = s.seals) (h3 : t.hostMem = s.hostMem)
    (h4 : t.peerMem = s.peerMem) (h5 : t.frameOwners = s.frameOwners) : t.memWf = true := by
  simpa [State.memWf, h1, h2, h3, h4, h5] using h

/-- Keeping the fuses leaves the memories. -/
@[simp] theorem State.memWf_fused (t s : State) : (t.fused s).memWf = t.memWf := rfl

/-- Writing host memory keeps the form. -/
theorem State.memWf_hostWrite {s : State} (h : s.memWf = true) (a : Nat) (bs : List Byte) :
    ({ s with hostMem := s.hostMem.setBytes a bs } : State).memWf = true := by
  rw [State.memWf_iff] at h ⊢
  exact ⟨h.1, h.2.1, Cells.wf_setBytes bs _ _ h.2.2.1, h.2.2.2⟩

/-- Writing a peer's window keeps the form. -/
theorem State.memWf_peerWrite {s : State} (h : s.memWf = true) (a : Nat) (bs : List Byte) :
    ({ s with peerMem := s.peerMem.setBytes a bs } : State).memWf = true := by
  rw [State.memWf_iff] at h ⊢
  exact ⟨h.1, h.2.1, h.2.2.1, Cells.wf_setBytes bs _ _ h.2.2.2.1, h.2.2.2.2⟩

/-- HBM after a line is written. -/
theorem State.writeHbmLine_hbm (s : State) (pa gen : Nat) (data : LineData) (mask poison : BitVec 8) :
    (s.writeHbmLine pa gen data mask poison).hbm =
      Cells.setBytes s.hbm (pa / 64 * 64) (lineList (mergeGranules (s.hbmLine (pa / 64 * 64) gen) data mask)) := by
  simp only [State.writeHbmLine]

/-- Writing a line of HBM and its seal keeps the form (R254). -/
theorem State.memWf_writeHbmLine {s : State} (h : s.memWf = true) (pa gen : Nat) (data : LineData) (mask poison : BitVec 8) :
    (s.writeHbmLine pa gen data mask poison).memWf = true := by
  rw [State.memWf_iff] at h ⊢
  simp only [State.writeHbmLine]
  generalize lineList _ = bs
  exact ⟨Cells.wf_setBytes bs _ _ h.1, Cells.wf_set _ _ _ h.2.1, h.2.2⟩

/-- A line of HBM written leaves every byte of other lines. -/
theorem State.writeHbmLine_other (s : State) (pa gen : Nat) (data : LineData) (mask poison : BitVec 8) (a : Nat) (h : a / 64 ≠ pa / 64) :
    Cells.get (s.writeHbmLine pa gen data mask poison).hbm a = Cells.get s.hbm a := by
  rw [State.writeHbmLine_hbm]
  generalize mergeGranules _ _ _ = l
  refine Cells.get_setBytes_outside _ _ _ _ ?_
  simp only [lineList, lineBytes, List.length_map, List.length_range]
  omega

/-- Granting or revoking frames keeps the form (R364). -/
theorem State.memWf_setOwners {s : State} (h : s.memWf = true) (hpa n : Nat) (e : Byte) : (s.setOwners hpa n e).memWf = true := by
  rw [State.memWf_iff] at h ⊢
  refine ⟨h.1, h.2.1, h.2.2.1, h.2.2.2.1, ?_⟩
  have : ∀ (l : List Nat) (c : Cells 8), Cells.wf c = true → Cells.wf (l.foldl (fun c k => Cells.set c (hpa / 65536 + k) e) c) = true := by
    intro l
    induction l with
    | nil => intro c hc; exact hc
    | cons k t ih => intro c hc; exact ih _ (Cells.wf_set c _ _ hc)
  exact this (List.range n) s.frameOwners h.2.2.2.2

/-- The new seals of a rotated key keep the form (R445). -/
theorem State.memWf_reseal {s : State} (h : s.memWf = true) (part old new : Nat) : (s.reseal part old new).memWf = true := by
  rw [State.memWf_iff] at h ⊢
  exact ⟨h.1, Cells.wf_setAll _ _ h.2.1, h.2.2⟩

/-- A completion keeps the form (R437). -/
theorem State.memWf_complete {s : State} (h : s.memWf = true) (hd : CmdHead) (status : Nat) (result : W64) :
    (s.complete hd status result).memWf = true := by
  unfold State.complete
  split
  · exact h
  · simp only
    split <;> exact State.memWf_hostWrite h _ _

/-- Writing an entry of a launch completion ring keeps the form (R442). -/
theorem State.memWf_putLaunch {s : State} (h : s.memWf = true) (vf : Nat) (e : W32 × Nat × W64) : (s.putLaunch vf e).memWf = true := by
  unfold State.putLaunch
  split
  · exact h
  · exact State.memWf_hostWrite h _ _

/-- Writing entries while there is room keeps the form (R442). -/
theorem State.memWf_putLaunches {s : State} (h : s.memWf = true) (vf : Nat) (l : List (W32 × Nat × W64)) :
    (State.putLaunches vf l s).memWf = true := by
  induction l generalizing s with
  | nil => exact h
  | cons e t ih =>
    unfold State.putLaunches
    split
    · exact h
    · exact ih (State.memWf_putLaunch h vf e)

/-- A launch completion entry, written or delayed, keeps the form (R442). -/
theorem State.memWf_launchEntry {s : State} (h : s.memWf = true) (vf : Nat) (id : W32) (status : Nat) (user : W64) :
    (s.launchEntry vf id status user).memWf = true := by
  unfold State.launchEntry
  split
  · exact h
  · split
    · exact State.memWf_putLaunches h vf _
    · exact h

/-- Posting a record keeps the form (R373). -/
theorem State.memWf_postOne {s : State} (h : s.memWf = true) (fn : Nat) : (s.postOne fn).memWf = true := by
  unfold State.postOne
  split
  · exact h
  · split
    · exact h
    · rename_i f _ r rest _
      split
      · generalize r.bytes = bs
        exact State.memWf_congr (State.memWf_hostWrite h _ bs) rfl rfl rfl rfl rfl
      · exact h

/-- Posting the held records keeps the form. -/
theorem State.memWf_postHeld {s : State} (h : s.memWf = true) (fn : Nat) : (s.postHeld fn).memWf = true := by
  unfold State.postHeld
  split
  · exact h
  · rename_i f hf
    clear hf
    generalize f.heldRecs = l
    induction l generalizing s with
    | nil => exact h
    | cons r t ih => exact ih (State.memWf_postOne h fn)

end Sys2Proof.Machine
end

