-- ==== Sys2Proof/Laws/PerInstr.lean ====
section
/-! SUPPORT. Facts about every instruction as syntax, one lemma per constructor: `OpcodeAssigned`, the opcode of a row that is a
word is one that the opcode map assigns (R54 to R64). -/

namespace Sys2Proof.Laws.OpcodeAssigned

/-- The opcode with which an instruction is encoded is one that R54 to R63 assign. -/
def Statement (i : Instr) : Prop := ∀ op f, i.form = some (op, f) → Instr.wellFormed.assignedOp op = true

/-- A statement about a row that is no word of a format holds of it. -/
theorem of_none {i : Instr} (h : i.form = none) : Statement i := by
  intro op f hf
  rw [h] at hf
  cases hf

/-- The statement of a word holds when its opcode is assigned. -/
theorem of_form {i : Instr} {op : Nat} {f : Form} (h : i.form = some (op, f)) (ha : Instr.wellFormed.assignedOp op = true) : Statement i := by
  intro op' f' hf
  rw [h] at hf
  cases hf
  exact ha

theorem ill (rest : BitVec 86) : Statement (.ill rest) := of_none rfl
theorem ill3ff (rest : BitVec 86) : Statement (.ill3ff rest) := of_none rfl
theorem unassignedOpcode (op : BitVec 10) (rest : BitVec 86) : Statement (.unassignedOpcode op rest) := of_none rfl
theorem nop (x : XForm) : Statement (.nop x) := of_form rfl rfl
theorem iadd (x : XForm) : Statement (.iadd x) := of_form rfl rfl
theorem isub (x : XForm) : Statement (.isub x) := of_form rfl rfl
theorem iaddc (x : XForm) : Statement (.iaddc x) := of_form rfl rfl
theorem imul (x : XForm) : Statement (.imul x) := of_form rfl rfl
theorem imulh (x : XForm) : Statement (.imulh x) := of_form rfl rfl
theorem imad (x : XForm) : Statement (.imad x) := of_form rfl rfl
theorem imadw (x : XForm) : Statement (.imadw x) := of_form rfl rfl
theorem iabs (x : XForm) : Statement (.iabs x) := of_form rfl rfl
theorem imin (x : XForm) : Statement (.imin x) := of_form rfl rfl
theorem imax (x : XForm) : Statement (.imax x) := of_form rfl rfl
theorem shl (x : XForm) : Statement (.shl x) := of_form rfl rfl
theorem shr (x : XForm) : Statement (.shr x) := of_form rfl rfl
theorem sar (x : XForm) : Statement (.sar x) := of_form rfl rfl
theorem rot (x : XForm) : Statement (.rot x) := of_form rfl rfl
theorem logic (x : XForm) : Statement (.logic x) := of_form rfl rfl
theorem bfe (x : XForm) : Statement (.bfe x) := of_form rfl rfl
theorem bfi (x : XForm) : Statement (.bfi x) := of_form rfl rfl
theorem popc (x : XForm) : Statement (.popc x) := of_form rfl rfl
theorem clz (x : XForm) : Statement (.clz x) := of_form rfl rfl
theorem ctz (x : XForm) : Statement (.ctz x) := of_form rfl rfl
theorem brev (x : XForm) : Statement (.brev x) := of_form rfl rfl
theorem prmt (x : XForm) : Statement (.prmt x) := of_form rfl rfl
theorem icmp (x : XForm) : Statement (.icmp x) := of_form rfl rfl
theorem iset (x : XForm) : Statement (.iset x) := of_form rfl rfl
theorem sel (x : XForm) : Statement (.sel x) := of_form rfl rfl
theorem plog (x : XForm) : Statement (.plog x) := of_form rfl rfl
theorem mov (x : XForm) : Statement (.mov x) := of_form rfl rfl
theorem movi (x : IForm) : Statement (.movi x) := of_form rfl rfl
theorem lea (x : XForm) : Statement (.lea x) := of_form rfl rfl
theorem icvt (x : XForm) : Statement (.icvt x) := of_form rfl rfl
theorem shfl (x : XForm) : Statement (.shfl x) := of_form rfl rfl
theorem ballot (x : XForm) : Statement (.ballot x) := of_form rfl rfl
theorem vote (x : XForm) : Statement (.vote x) := of_form rfl rfl
theorem readlane (x : XForm) : Statement (.readlane x) := of_form rfl rfl
theorem bra (x : BForm) : Statement (.bra x) := of_form rfl rfl
theorem brx (x : XForm) : Statement (.brx x) := of_form rfl rfl
theorem call (x : BForm) : Statement (.call x) := of_form rfl rfl
theorem callx (x : XForm) : Statement (.callx x) := of_form rfl rfl
theorem ret (x : XForm) : Statement (.ret x) := of_form rfl rfl
theorem exit (x : XForm) : Statement (.exit x) := of_form rfl rfl
theorem setmeet (x : BForm) : Statement (.setmeet x) := of_form rfl rfl
theorem setprio (x : XForm) : Statement (.setprio x) := of_form rfl rfl
theorem yield (x : XForm) : Statement (.yield x) := of_form rfl rfl
theorem regroup (x : XForm) : Statement (.regroup x) := of_form rfl rfl
theorem switchpt (x : XForm) : Statement (.switchpt x) := of_form rfl rfl
theorem cvdecl (x : XForm) : Statement (.cvdecl x) := of_form rfl rfl
theorem backoff (x : XForm) : Statement (.backoff x) := of_form rfl rfl
theorem sleep (x : XForm) : Statement (.sleep x) := of_form rfl rfl
theorem trap (x : XForm) : Statement (.trap x) := of_form rfl rfl
theorem bkpt (x : XForm) : Statement (.bkpt x) := of_form rfl rfl
theorem clock (x : XForm) : Statement (.clock x) := of_form rfl rfl
theorem fadd (x : XForm) : Statement (.fadd x) := of_form rfl rfl
theorem fsub (x : XForm) : Statement (.fsub x) := of_form rfl rfl
theorem fmul (x : XForm) : Statement (.fmul x) := of_form rfl rfl
theorem ffma (x : XForm) : Statement (.ffma x) := of_form rfl rfl
theorem fmin (x : XForm) : Statement (.fmin x) := of_form rfl rfl
theorem fmax (x : XForm) : Statement (.fmax x) := of_form rfl rfl
theorem fminnm (x : XForm) : Statement (.fminnm x) := of_form rfl rfl
theorem fmaxnm (x : XForm) : Statement (.fmaxnm x) := of_form rfl rfl
theorem fcmp (x : XForm) : Statement (.fcmp x) := of_form rfl rfl
theorem fset (x : XForm) : Statement (.fset x) := of_form rfl rfl
theorem fclass (x : XForm) : Statement (.fclass x) := of_form rfl rfl
theorem fsgn (x : XForm) : Statement (.fsgn x) := of_form rfl rfl
theorem fdiv (x : XForm) : Statement (.fdiv x) := of_form rfl rfl
theorem fsqrt (x : XForm) : Statement (.fsqrt x) := of_form rfl rfl
theorem frcpe (x : XForm) : Statement (.frcpe x) := of_form rfl rfl
theorem frsqe (x : XForm) : Statement (.frsqe x) := of_form rfl rfl
theorem frnd (x : XForm) : Statement (.frnd x) := of_form rfl rfl
theorem fldexp (x : XForm) : Statement (.fldexp x) := of_form rfl rfl
theorem fgetexp (x : XForm) : Statement (.fgetexp x) := of_form rfl rfl
theorem fcvt (x : XForm) : Statement (.fcvt x) := of_form rfl rfl
theorem f2i (x : XForm) : Statement (.f2i x) := of_form rfl rfl
theorem i2f (x : XForm) : Statement (.i2f x) := of_form rfl rfl
theorem dot2 (x : XForm) : Statement (.dot2 x) := of_form rfl rfl
theorem dot4 (x : XForm) : Statement (.dot4 x) := of_form rfl rfl
theorem hfma2 (x : XForm) : Statement (.hfma2 x) := of_form rfl rfl
theorem fsat (x : XForm) : Statement (.fsat x) := of_form rfl rfl
theorem ld (x : MForm) : Statement (.ld x) := of_form rfl rfl
theorem st (x : MForm) : Statement (.st x) := of_form rfl rfl
theorem lds (x : MForm) : Statement (.lds x) := of_form rfl rfl
theorem sts (x : MForm) : Statement (.sts x) := of_form rfl rfl
theorem ldq (x : MForm) : Statement (.ldq x) := of_form rfl rfl
theorem stq (x : MForm) : Statement (.stq x) := of_form rfl rfl
theorem ldv (x : MForm) : Statement (.ldv x) := of_form rfl rfl
theorem pref (x : MForm) : Statement (.pref x) := of_form rfl rfl
theorem atom (x : MForm) : Statement (.atom x) := of_form rfl rfl
theorem cas (x : MForm) : Statement (.cas x) := of_form rfl rfl
theorem red (x : MForm) : Statement (.red x) := of_form rfl rfl
theorem fence (x : MForm) : Statement (.fence x) := of_form rfl rfl
theorem fencex (x : MForm) : Statement (.fencex x) := of_form rfl rfl
theorem drop (x : MForm) : Statement (.drop x) := of_form rfl rfl
theorem promote (x : MForm) : Statement (.promote x) := of_form rfl rfl
theorem cctl (x : MForm) : Statement (.cctl x) := of_form rfl rfl
theorem bar (x : XForm) : Statement (.bar x) := of_form rfl rfl
theorem bara (x : XForm) : Statement (.bara x) := of_form rfl rfl
theorem barw (x : XForm) : Statement (.barw x) := of_form rfl rfl
theorem cbar (x : XForm) : Statement (.cbar x) := of_form rfl rfl
theorem sstep (x : XForm) : Statement (.sstep x) := of_form rfl rfl
theorem qdecl (x : XForm) : Statement (.qdecl x) := of_form rfl rfl
theorem qpush (x : XForm) : Statement (.qpush x) := of_form rfl rfl
theorem qpop (x : XForm) : Statement (.qpop x) := of_form rfl rfl
theorem qtry (x : XForm) : Statement (.qtry x) := of_form rfl rfl
theorem dqpush (x : XForm) : Statement (.dqpush x) := of_form rfl rfl
theorem dqpop (x : XForm) : Statement (.dqpop x) := of_form rfl rfl
theorem dqsteal (x : XForm) : Statement (.dqsteal x) := of_form rfl rfl
theorem launch (x : EForm) : Statement (.launch x) := of_form rfl rfl
theorem twait (x : XForm) : Statement (.twait x) := of_form rfl rfl
theorem migrate (x : MForm) : Statement (.migrate x) := of_form rfl rfl
theorem priowg (x : XForm) : Statement (.priowg x) := of_form rfl rfl
theorem cpy (x : EForm) : Statement (.cpy x) := of_form rfl rfl
theorem cpyw (x : EForm) : Statement (.cpyw x) := of_form rfl rfl
theorem gath (x : EForm) : Statement (.gath x) := of_form rfl rfl
theorem scat (x : EForm) : Statement (.scat x) := of_form rfl rfl
theorem publish (x : EForm) : Statement (.publish x) := of_form rfl rfl
theorem vhold (x : EForm) : Statement (.vhold x) := of_form rfl rfl
theorem vrel (x : EForm) : Statement (.vrel x) := of_form rfl rfl
theorem coll (x : EForm) : Statement (.coll x) := of_form rfl rfl
theorem mldred (x : EForm) : Statement (.mldred x) := of_form rfl rfl
theorem cwait (x : EForm) : Statement (.cwait x) := of_form rfl rfl
theorem halo (x : EForm) : Statement (.halo x) := of_form rfl rfl
theorem estat (x : EForm) : Statement (.estat x) := of_form rfl rfl
theorem tshape (x : XForm) : Statement (.tshape x) := of_form rfl rfl
theorem tld (x : MForm) : Statement (.tld x) := of_form rfl rfl
theorem tst (x : MForm) : Statement (.tst x) := of_form rfl rfl
theorem tzero (x : XForm) : Statement (.tzero x) := of_form rfl rfl
theorem tmovv (x : XForm) : Statement (.tmovv x) := of_form rfl rfl
theorem tmovt (x : XForm) : Statement (.tmovt x) := of_form rfl rfl
theorem mma (x : XForm) : Statement (.mma x) := of_form rfl rfl
theorem mmas (x : XForm) : Statement (.mmas x) := of_form rfl rfl
theorem gmma (x : XForm) : Statement (.gmma x) := of_form rfl rfl
theorem tcvt (x : XForm) : Statement (.tcvt x) := of_form rfl rfl
theorem mxscl (x : XForm) : Statement (.mxscl x) := of_form rfl rfl
theorem mxsclFill (x : XForm) : Statement (.mxsclFill x) := of_form rfl rfl
theorem tadd (x : XForm) : Statement (.tadd x) := of_form rfl rfl
theorem tscale (x : XForm) : Statement (.tscale x) := of_form rfl rfl
theorem tred (x : XForm) : Statement (.tred x) := of_form rfl rfl
theorem trace (x : XForm) : Statement (.trace x) := of_form rfl rfl
theorem tresume (x : XForm) : Statement (.tresume x) := of_form rfl rfl
theorem hitget (x : XForm) : Statement (.hitget x) := of_form rfl rfl
theorem bvhchk (x : XForm) : Statement (.bvhchk x) := of_form rfl rfl
theorem rngkey (x : XForm) : Statement (.rngkey x) := of_form rfl rfl
theorem rng (x : XForm) : Statement (.rng x) := of_form rfl rfl
theorem rngf (x : XForm) : Statement (.rngf x) := of_form rfl rfl
theorem mfsr (x : XForm) : Statement (.mfsr x) := of_form rfl rfl
theorem mtsr (x : XForm) : Statement (.mtsr x) := of_form rfl rfl
theorem eret (x : XForm) : Statement (.eret x) := of_form rfl rfl
theorem opreplay (x : XForm) : Statement (.opreplay x) := of_form rfl rfl
theorem opdrop (x : XForm) : Statement (.opdrop x) := of_form rfl rfl
theorem halt (x : XForm) : Statement (.halt x) := of_form rfl rfl
theorem idle (x : XForm) : Statement (.idle x) := of_form rfl rfl
theorem syscall (x : XForm) : Statement (.syscall x) := of_form rfl rfl
theorem deferredTrap (gid : Nat) : Statement (.deferredTrap gid) := of_none rfl
theorem loadReturn (op lane : Nat) : Statement (.loadReturn op lane) := of_none rfl
theorem storeApply (op lane : Nat) : Statement (.storeApply op lane) := of_none rfl
theorem storeAck (ack : Nat) : Statement (.storeAck ack) := of_none rfl
theorem atomicUnitChain (op : Nat) (addr : W64) : Statement (.atomicUnitChain op addr) := of_none rfl
theorem dequeChain (op : Nat) (addr : W64) : Statement (.dequeChain op addr) := of_none rfl
theorem fenceComplete (gid hold : Nat) : Statement (.fenceComplete gid hold) := of_none rfl
theorem gets (die asid line : Nat) : Statement (.gets die asid line) := of_none rfl
theorem getm (die asid line : Nat) : Statement (.getm die asid line) := of_none rfl
theorem homeReadMiss (asid line : Nat) : Statement (.homeReadMiss asid line) := of_none rfl
theorem recallLine (asid line : Nat) : Statement (.recallLine asid line) := of_none rfl
theorem rdcForward (die asid line : Nat) : Statement (.rdcForward die asid line) := of_none rfl
theorem puts (die asid line : Nat) : Statement (.puts die asid line) := of_none rfl
theorem pute (die asid line : Nat) : Statement (.pute die asid line) := of_none rfl
theorem putm (die asid line : Nat) : Statement (.putm die asid line) := of_none rfl
theorem puto (die asid line : Nat) : Statement (.puto die asid line) := of_none rfl
theorem leaseExpiry (core asid line : Nat) : Statement (.leaseExpiry core asid line) := of_none rfl
theorem translationWalk (op lane : Nat) : Statement (.translationWalk op lane) := of_none rfl
theorem fetchLineArrival (gid : Nat) (line : W64) : Statement (.fetchLineArrival gid line) := of_none rfl
theorem oplogReplay (op : Nat) : Statement (.oplogReplay op) := of_none rfl
theorem replayEntry (op : Nat) : Statement (.replayEntry op) := of_none rfl
theorem publishCut (gid slot : Nat) : Statement (.publishCut gid slot) := of_none rfl
theorem fillForwardComplete (part fset asid page : Nat) : Statement (.fillForwardComplete part fset asid page) := of_none rfl
theorem engineCommandDone (gid slot : Nat) : Statement (.engineCommandDone gid slot) := of_none rfl
theorem meetRelease (gid : Nat) (addr : W64) : Statement (.meetRelease gid addr) := of_none rfl
theorem backoffExpiry (gid lane : Nat) : Statement (.backoffExpiry gid lane) := of_none rfl
theorem sleepExpiry (gid lane : Nat) : Statement (.sleepExpiry gid lane) := of_none rfl
theorem flockBinRelease (wid : Nat) (addr : W64) : Statement (.flockBinRelease wid addr) := of_none rfl
theorem passedOverGuard (gid : Nat) : Statement (.passedOverGuard gid) := of_none rfl
theorem partitionStarvation (core ipart : Nat) : Statement (.partitionStarvation core ipart) := of_none rfl
theorem barrierPhaseComplete (wid bar : Nat) : Statement (.barrierPhaseComplete wid bar) := of_none rfl
theorem cbarPhaseComplete (cid bar : Nat) : Statement (.cbarPhaseComplete cid bar) := of_none rfl
theorem sstepRelease (lid : Nat) : Statement (.sstepRelease lid) := of_none rfl
theorem qpushProceed (cid q : Nat) : Statement (.qpushProceed cid q) := of_none rfl
theorem qpopProceed (cid q : Nat) : Statement (.qpopProceed cid q) := of_none rfl
theorem cvdeclWrite (gid tok : Nat) : Statement (.cvdeclWrite gid tok) := of_none rfl
theorem launchEntryGrant (op lane : Nat) : Statement (.launchEntryGrant op lane) := of_none rfl
theorem twaitComplete (gid tok : Nat) : Statement (.twaitComplete gid tok) := of_none rfl
theorem migrateLand (gid : Nat) : Statement (.migrateLand gid) := of_none rfl
theorem cwaitComplete (gid tok : Nat) : Statement (.cwaitComplete gid tok) := of_none rfl
theorem idleWake (gid lane : Nat) : Statement (.idleWake gid lane) := of_none rfl
theorem groupRetire (gid : Nat) : Statement (.groupRetire gid) := of_none rfl
theorem launchAdmit (vf id : Nat) (cores : List Nat) : Statement (.launchAdmit vf id cores) := of_none rfl
theorem switchRendezvous (wid : Nat) : Statement (.switchRendezvous wid) := of_none rfl
theorem contextPromote (core : Nat) : Statement (.contextPromote core) := of_none rfl
theorem contextAgeing (core : Nat) : Statement (.contextAgeing core) := of_none rfl
theorem matrixGrant (quad : Nat) : Statement (.matrixGrant quad) := of_none rfl
theorem matrixPassComplete (quad : Nat) : Statement (.matrixPassComplete quad) := of_none rfl
theorem traversalComplete (op lane : Nat) : Statement (.traversalComplete op lane) := of_none rfl
theorem issueStop (quad : Nat) : Statement (.issueStop quad) := of_none rfl
theorem quiescenceComplete (quad : Nat) : Statement (.quiescenceComplete quad) := of_none rfl
theorem contextSaveComplete (quad : Nat) : Statement (.contextSaveComplete quad) := of_none rfl
theorem slotBoundary : Statement .slotBoundary := of_none rfl
theorem overrun (quad : Nat) : Statement (.overrun quad) := of_none rfl
theorem slackDonation (quad : Nat) : Statement (.slackDonation quad) := of_none rfl
theorem workgroupResume (wid core : Nat) : Statement (.workgroupResume wid core) := of_none rfl
theorem keyRotateComplete (part : Nat) : Statement (.keyRotateComplete part) := of_none rfl
theorem partCreate (h : CmdHead) (part parent : BitVec 8) (area : W64) (frames : W32) : Statement (.partCreate h part parent area frames) := of_none rfl
theorem partDelete (h : CmdHead) (part : BitVec 8) : Statement (.partDelete h part) := of_none rfl
theorem partMode (h : CmdHead) (table : W64) (nrows : BitVec 16) (children : List (BitVec 8 × BitVec 8)) : Statement (.partMode h table nrows children) := of_none rfl
theorem slotWrite (h : CmdHead) (table : W64) (nrows : BitVec 16) : Statement (.slotWrite h table nrows) := of_none rfl
theorem vfBind (h : CmdHead) (vf : BitVec 16) (part : BitVec 8) (ring : W64) (log : BitVec 8) : Statement (.vfBind h vf part ring log) := of_none rfl
theorem vfUnbind (h : CmdHead) (vf : BitVec 16) : Statement (.vfUnbind h vf) := of_none rfl
theorem asidCreate (h : CmdHead) (asid vf : BitVec 16) (root : W64) (len : BitVec 16) : Statement (.asidCreate h asid vf root len) := of_none rfl
theorem asidDelete (h : CmdHead) (asid : BitVec 16) : Statement (.asidDelete h asid) := of_none rfl
theorem regionSet (h : CmdHead) (asid : BitVec 16) (region : BitVec 8) (entry : W32) : Statement (.regionSet h asid region entry) := of_none rfl
theorem leaseSet (h : CmdHead) (asid len : BitVec 16) : Statement (.leaseSet h asid len) := of_none rfl
theorem map (h : CmdHead) (asid : BitVec 16) (size attrs : BitVec 8) (count : W32) (va gpa : W64) : Statement (.map h asid size attrs count va gpa) := of_none rfl
theorem unmap (h : CmdHead) (asid : BitVec 16) (size : BitVec 8) (count : W32) (va : W64) : Statement (.unmap h asid size count va) := of_none rfl
theorem frameGrant (h : CmdHead) (part dest fset attrs : BitVec 8) (count : W32) (hpa gpa : W64) : Statement (.frameGrant h part dest fset attrs count hpa gpa) := of_none rfl
theorem frameRevoke (h : CmdHead) (part : BitVec 8) (count : W32) (hpa : W64) : Statement (.frameRevoke h part count hpa) := of_none rfl
theorem codeLoad (h : CmdHead) (asid : BitVec 16) (source : W64) (length : W32) (dest : W64) : Statement (.codeLoad h asid source length dest) := of_none rfl
theorem codeUnload (h : CmdHead) (asid : BitVec 16) (kobj : W64) : Statement (.codeUnload h asid kobj) := of_none rfl
theorem lqCreate (h : CmdHead) (base : W64) (log : BitVec 8) (cring : W64) (clog : BitVec 8) : Statement (.lqCreate h base log cring clog) := of_none rfl
theorem lqDelete (h : CmdHead) : Statement (.lqDelete h) := of_none rfl
theorem fsetCreate (h : CmdHead) (part fset nr : BitVec 8) (wstep : W32) (ranges : W64) : Statement (.fsetCreate h part fset nr wstep ranges) := of_none rfl
theorem fsetDelete (h : CmdHead) (part fset : BitVec 8) : Statement (.fsetDelete h part fset) := of_none rfl
theorem keyRotate (h : CmdHead) (part : BitVec 8) : Statement (.keyRotate h part) := of_none rfl
theorem fqServiceReplay (h : CmdHead) (fid : W32) : Statement (.fqServiceReplay h fid) := of_none rfl
theorem fqServiceDrop (h : CmdHead) (fid : W32) : Statement (.fqServiceDrop h fid) := of_none rfl
theorem fqServiceTrap (h : CmdHead) (fid : W32) : Statement (.fqServiceTrap h fid) := of_none rfl
theorem collJoin (h : CmdHead) (part : BitVec 8) (group rank members : BitVec 16) (timeout : W32) (wasid : BitVec 16) (wbase wlen : W64) : Statement (.collJoin h part group rank members timeout wasid wbase wlen) := of_none rfl
theorem collLeave (h : CmdHead) (part : BitVec 8) (group : BitVec 16) : Statement (.collLeave h part group) := of_none rfl
theorem attest (h : CmdHead) (nonce : List Byte) (report : W64) : Statement (.attest h nonce report) := of_none rfl
theorem health (h : CmdHead) (report : W64) : Statement (.health h report) := of_none rfl
theorem roundClosure (part group kind round : Nat) (off : W64) : Statement (.roundClosure part group kind round off) := of_none rfl
theorem collectiveTimeout (part group kind round : Nat) (off : W64) : Statement (.collectiveTimeout part group kind round off) := of_none rfl
theorem functionLevelResetDone (vf : Nat) : Statement (.functionLevelResetDone vf) := of_none rfl
theorem overrunDelayEnd (quad : Nat) : Statement (.overrunDelayEnd quad) := of_none rfl
theorem softError (e : SoftError) : Statement (.softError e) := of_none rfl
theorem scrubPass (hbm : Bool) (unit : Nat) : Statement (.scrubPass hbm unit) := of_none rfl
theorem timeSyncLoss (die : Nat) : Statement (.timeSyncLoss die) := of_none rfl
theorem thermalThrottle (die : Nat) (temp : BitVec 16) : Statement (.thermalThrottle die temp) := of_none rfl
theorem thermalShutdown : Statement .thermalShutdown := of_none rfl
theorem throttlingEnd (die : Nat) (temp : BitVec 16) : Statement (.throttlingEnd die temp) := of_none rfl
theorem coldReset (b : BootResults) : Statement (.coldReset b) := of_none rfl
theorem warmReset (b : BootResults) : Statement (.warmReset b) := of_none rfl
theorem functionLevelReset (vf : Nat) : Statement (.functionLevelReset vf) := of_none rfl
theorem pfReset : Statement .pfReset := of_none rfl
theorem configRequest (fn : Nat) (access : ConfigAccess) : Statement (.configRequest fn access) := of_none rfl
theorem cqdb (fn : Nat) (value : W32) : Statement (.cqdb fn value) := of_none rfl
theorem lqdb (fn level : Nat) (value : W32) : Statement (.lqdb fn level value) := of_none rfl
theorem cpci (fn : Nat) (value : W32) : Statement (.cpci fn value) := of_none rfl
theorem fqci (fn : Nat) (value : W32) : Statement (.fqci fn value) := of_none rfl
theorem apsync (fn : Nat) : Statement (.apsync fn) := of_none rfl
theorem fstat (fn : Nat) (value : W32) : Statement (.fstat fn value) := of_none rfl
theorem registerWrite (fn off : Nat) (value : W64) : Statement (.registerWrite fn off value) := of_none rfl
theorem apertureAccess (fn : Nat) (off : W64) (write : Bool) (data : List Byte) : Statement (.apertureAccess fn off write data) := of_none rfl
theorem mctpControl (bus : MctpBus) (body : List Byte) : Statement (.mctpControl bus body) := of_none rfl
theorem mctpUnsupported (bus : MctpBus) (type : Byte) : Statement (.mctpUnsupported bus type) := of_none rfl
theorem healthVdm (bus : MctpBus) : Statement (.healthVdm bus) := of_none rfl
theorem vendorResetMessage (b : BootResults) : Statement (.vendorResetMessage b) := of_none rfl
theorem getVersion : Statement .getVersion := of_none rfl
theorem getCapabilities : Statement .getCapabilities := of_none rfl
theorem negotiateAlgorithms (asym hash : W32) : Statement (.negotiateAlgorithms asym hash) := of_none rfl
theorem getDigests : Statement .getDigests := of_none rfl
theorem getCertificate (offset length : BitVec 16) : Statement (.getCertificate offset length) := of_none rfl
theorem challenge (nonce : List Byte) : Statement (.challenge nonce) := of_none rfl
theorem getMeasurements (block : Byte) (nonce : List Byte) : Statement (.getMeasurements block nonce) := of_none rfl
theorem peerRequest (r : PeerRequest) : Statement (.peerRequest r) := of_none rfl
theorem linkReplayFailure (port : Nat) : Statement (.linkReplayFailure port) := of_none rfl
theorem ualinkLinkUp (port : Nat) : Statement (.ualinkLinkUp port) := of_none rfl
theorem collAnnounce (part group : Nat) (rank : MemberName) (members : Nat) (leave : Bool) : Statement (.collAnnounce part group rank members leave) := of_none rfl
theorem memberArrival (a : ArrivalMsg) : Statement (.memberArrival a) := of_none rfl
theorem haloSendAck (part group round rank : Nat) (refused : Bool) : Statement (.haloSendAck part group round rank refused) := of_none rfl
theorem haloReport (part group round rank : Nat) : Statement (.haloReport part group round rank) := of_none rfl

end Sys2Proof.Laws.OpcodeAssigned
end

