-- ==== Sys2Proof/Tests/Slice0.lean ====
section
/-! SUPPORT. Tests: words that decode as the manual lays them out, ill-formed terms, values of the manual's examples, and for
each statement of the obligations a state and operands that meet its hypotheses. -/

-- One theorem at a time: elaborated side by side, the tests would need more memory than a check has.
set_option Elab.async false

open Sys2Proof Sys2Proof.Machine

/-- A loaded program's group of w threads that issues at slot 0 of its line. -/
def Tests.ready (w : Nat) : State :=
  { State.reset.loadedWith w 0 with
    issue := { Issue.idle with core := 0, parts := [⟨4, maskOf (List.range w), 0⟩], pc := 0x10004, igsize := w } }

/-- A word is well formed and executes there. -/
def Tests.issuesHere (i : Instr) : Bool := i.wellFormed && ((Tests.ready 8).issues i).isSome

/-- The state `ready 8` with its group changed. -/
def Tests.grp (f : Group → Group) : State := (Tests.ready 8).modGroup 4 f

/-- The state `ready 8` with the threads of its group changed. -/
def Tests.thr (f : Nat → Thread → Thread) : State := Tests.grp (fun g => g.modThreads (fun _ => true) f)

/-- The word is well formed and executes at s in a context of which P holds. -/
def Tests.meets (s : State) (i : Instr) (P : Ctx → Bool) : Bool :=
  match s.issues i with
  | some c => i.wellFormed && P c
  | none => false

/-- A word without operands. -/
def Tests.bare : XForm := ⟨0, 7, 0, 0, 0, 0, 0, 0, 0, 0, 0, 0⟩

/-- Some lane that the path holds enters the line. -/
def Tests.entering (s : State) : Bool :=
  s.issue.parts.any (fun p => (s.group? p.gid).any (fun g => (List.range g.width).any (fun h => laneIn p.mask h &&
    (g.threads[h]?).any (fun x => !x.exited && (x.lastLine != some (lineBase x.pc) || x.arrival != .sequence)))))

/-! ### Words that complete

Each word meets the hypotheses of the statement named: it is well formed and executes in a loaded program. -/

/-- Words that meet the hypotheses of `DecodeFaults`: they issue in a loaded program. -/
theorem witness_words_DecodeFaults : ([.nop ⟨0, 7, 0, 0, 0, 0, 0, 0, 0, 0, 0, 0⟩] : List Instr).all Tests.issuesHere = true := by decide +kernel

/-- Words that meet the hypotheses of `IntegerElementArithmetic`: they issue in a loaded program. -/
theorem witness_words_IntegerElementArithmetic : ([.iadd ⟨0, 7, 4, 0, 8, 12, 0, 0, 0, 0, 0, 0⟩,
    .isub ⟨0, 7, 4, 0, 8, 12, 0, 0, 0, 0, 0, 0⟩,
    .imul ⟨0, 7, 4, 0, 8, 12, 0, 0, 0, 0, 0, 0⟩,
    .imad ⟨0, 7, 4, 0, 8, 12, 16, 0, 0, 0, 0, 0⟩,
    .iabs ⟨0, 7, 4, 0, 8, 0, 0, 0, 1, 0, 0, 0⟩,
    .imin ⟨0, 7, 4, 0, 8, 12, 0, 0, 0, 0, 0, 0⟩,
    .imax ⟨0, 7, 4, 0, 8, 12, 0, 0, 0, 0, 0, 0⟩] : List Instr).all Tests.issuesHere = true := by decide +kernel

/-- Words that meet the hypotheses of `IntegerWideArithmetic`: they issue in a loaded program. -/
theorem witness_words_IntegerWideArithmetic : ([.iaddc ⟨0, 7, 4, 0, 8, 12, 16, 0, 0, 0, 0, 0⟩,
    .imulh ⟨0, 7, 4, 0, 8, 12, 0, 0, 0, 0, 0, 0⟩,
    .imadw ⟨0, 7, 4, 0, 8, 12, 16, 0, 0, 0, 0, 0⟩,
    .lea ⟨0, 7, 4, 0, 8, 12, 0, 0, 0, 0, 0, 0⟩,
    .icvt ⟨0, 7, 4, 0, 8, 0, 0, 0, 0, 0, 0, 0⟩] : List Instr).all Tests.issuesHere = true := by decide +kernel

/-- Words that meet the hypotheses of `ShiftsAndRotates`: they issue in a loaded program. -/
theorem witness_words_ShiftsAndRotates : ([.shl ⟨0, 7, 4, 0, 8, 12, 0, 0, 0, 0, 0, 0⟩,
    .shr ⟨0, 7, 4, 0, 8, 12, 0, 0, 0, 0, 0, 0⟩,
    .sar ⟨0, 7, 4, 0, 8, 12, 0, 0, 1, 0, 0, 0⟩,
    .rot ⟨0, 7, 4, 0, 8, 12, 0, 0, 0, 0, 0, 0⟩] : List Instr).all Tests.issuesHere = true := by decide +kernel

/-- Words that meet the hypotheses of `BitwiseInstructions`: they issue in a loaded program. -/
theorem witness_words_BitwiseInstructions : ([.logic ⟨0, 7, 4, 0, 8, 12, 16, 0, 0, 0, 0, 0⟩,
    .bfe ⟨0, 7, 4, 0, 8, 12, 0, 0, 0, 0, 0, 0⟩,
    .bfi ⟨0, 7, 4, 0, 8, 12, 16, 0, 0, 0, 0, 0⟩,
    .popc ⟨0, 7, 4, 0, 8, 0, 0, 0, 0, 0, 0, 0⟩,
    .clz ⟨0, 7, 4, 0, 8, 0, 0, 0, 0, 0, 0, 0⟩,
    .ctz ⟨0, 7, 4, 0, 8, 0, 0, 0, 0, 0, 0, 0⟩,
    .brev ⟨0, 7, 4, 0, 8, 0, 0, 0, 0, 0, 0, 0⟩,
    .plog ⟨0, 7, 324, 0, 324, 511, 325, 0, 0, 0, 0, 0⟩] : List Instr).all Tests.issuesHere = true := by decide +kernel

/-- Words that meet the hypotheses of `CompareSelectMove`: they issue in a loaded program. -/
theorem witness_words_CompareSelectMove : ([.icmp ⟨0, 7, 324, 0, 8, 12, 0, 0, 0, 0, 0, 0⟩,
    .iset ⟨0, 7, 4, 0, 8, 12, 0, 0, 0, 0, 0, 0⟩,
    .sel ⟨0, 7, 4, 0, 8, 12, 16, 0, 0, 0, 0, 0⟩,
    .mov ⟨0, 7, 4, 0, 8, 0, 0, 0, 0, 0, 0, 0⟩,
    .movi ⟨0, 7, 4, 0, 0, 0, 5⟩] : List Instr).all Tests.issuesHere = true := by decide +kernel

/-- Words that meet the hypotheses of `BytePermute`: they issue in a loaded program. -/
theorem witness_words_BytePermute : ([.prmt ⟨0, 7, 4, 0, 8, 12, 16, 0, 0, 0, 0, 0⟩] : List Instr).all Tests.issuesHere = true := by decide +kernel

/-- Words that meet the hypotheses of `LaneExchangeAndClock`: they issue in a loaded program. -/
theorem witness_words_LaneExchangeAndClock : ([.shfl ⟨0, 7, 4, 0, 8, 12, 0, 0, 0, 0, 0, 0⟩,
    .ballot ⟨0, 7, 4, 0, 8, 0, 0, 0, 2, 0, 0, 0⟩,
    .vote ⟨0, 7, 4, 0, 8, 0, 0, 0, 0, 0, 0, 0⟩,
    .readlane ⟨0, 7, 4, 0, 8, 266, 0, 0, 0, 0, 0, 0⟩,
    .clock ⟨0, 7, 4, 0, 0, 0, 0, 0, 0, 0, 0, 0⟩] : List Instr).all Tests.issuesHere = true := by decide +kernel

/-- Words that meet the hypotheses of `FloatSumsAndProducts`: they issue in a loaded program. -/
theorem witness_words_FloatSumsAndProducts : ([.fadd ⟨0, 7, 4, 0, 8, 12, 0, 0, 4, 0, 0, 0⟩,
    .fsub ⟨0, 7, 4, 0, 8, 12, 0, 0, 4, 0, 0, 0⟩,
    .fmul ⟨0, 7, 4, 0, 8, 12, 0, 0, 4, 0, 0, 0⟩,
    .ffma ⟨0, 7, 4, 0, 8, 12, 16, 0, 4, 0, 0, 0⟩,
    .dot2 ⟨0, 7, 4, 0, 8, 12, 16, 0, 8, 0, 0, 0⟩,
    .dot4 ⟨0, 7, 4, 0, 8, 12, 16, 0, 8, 0, 0, 0⟩,
    .hfma2 ⟨0, 7, 4, 0, 8, 12, 16, 0, 8, 0, 0, 0⟩] : List Instr).all Tests.issuesHere = true := by decide +kernel

/-- Words that meet the hypotheses of `FloatQuotientsAndRoots`: they issue in a loaded program. -/
theorem witness_words_FloatQuotientsAndRoots : ([.fdiv ⟨0, 7, 4, 0, 8, 12, 0, 0, 4, 0, 0, 0⟩,
    .fsqrt ⟨0, 7, 4, 0, 8, 0, 0, 0, 4, 0, 0, 0⟩,
    .frcpe ⟨0, 7, 4, 0, 8, 0, 0, 0, 4, 0, 0, 0⟩,
    .frsqe ⟨0, 7, 4, 0, 8, 0, 0, 0, 4, 0, 0, 0⟩] : List Instr).all Tests.issuesHere = true := by decide +kernel

/-- Words that meet the hypotheses of `FloatSelectionAndComparison`: they issue in a loaded program. -/
theorem witness_words_FloatSelectionAndComparison : ([.fmin ⟨0, 7, 4, 0, 8, 12, 0, 0, 4, 0, 0, 0⟩,
    .fmax ⟨0, 7, 4, 0, 8, 12, 0, 0, 4, 0, 0, 0⟩,
    .fminnm ⟨0, 7, 4, 0, 8, 12, 0, 0, 4, 0, 0, 0⟩,
    .fmaxnm ⟨0, 7, 4, 0, 8, 12, 0, 0, 4, 0, 0, 0⟩,
    .fcmp ⟨0, 7, 324, 0, 8, 12, 0, 0, 4, 0, 0, 0⟩,
    .fset ⟨0, 7, 4, 0, 8, 12, 0, 0, 4, 0, 0, 0⟩,
    .fclass ⟨0, 7, 4, 0, 8, 0, 0, 0, 4, 0, 0, 0⟩,
    .fsgn ⟨0, 7, 4, 0, 8, 12, 0, 0, 4, 0, 0, 0⟩,
    .fsat ⟨0, 7, 4, 0, 8, 0, 0, 0, 4, 0, 0, 0⟩] : List Instr).all Tests.issuesHere = true := by decide +kernel

/-- Words that meet the hypotheses of `FloatConversions`: they issue in a loaded program. -/
theorem witness_words_FloatConversions : ([.frnd ⟨0, 7, 4, 0, 8, 0, 0, 0, 4, 0, 0, 0⟩,
    .fldexp ⟨0, 7, 4, 0, 8, 12, 0, 0, 4, 0, 0, 0⟩,
    .fgetexp ⟨0, 7, 4, 0, 8, 0, 0, 0, 4, 0, 0, 0⟩,
    .fcvt ⟨0, 7, 4, 0, 8, 12, 2, 0, 0, 0, 0, 0⟩,
    .i2f ⟨0, 7, 4, 0, 8, 0, 0, 0, 4, 0, 0, 0⟩,
    .f2i ⟨0, 7, 4, 0, 8, 0, 4, 0, 0, 0, 0, 0⟩] : List Instr).all Tests.issuesHere = true := by decide +kernel

/-- Words that meet the hypotheses of `BranchesAndCalls`: they issue in a loaded program. -/
theorem witness_words_BranchesAndCalls : ([.brx ⟨0, 7, 0, 0, 8, 0, 0, 0, 0, 0, 0, 0⟩,
    .callx ⟨0, 7, 4, 0, 8, 0, 0, 0, 0, 0, 0, 0⟩,
    .ret ⟨0, 7, 0, 0, 8, 0, 0, 0, 0, 0, 0, 0⟩] : List Instr).all Tests.issuesHere = true := by decide +kernel

/-- Words that meet the hypotheses of `ThreadStates`: they issue in a loaded program. -/
theorem witness_words_ThreadStates : ([.setprio ⟨0, 7, 0, 0, 8, 0, 0, 0, 0, 0, 0, 0⟩,
    .yield ⟨0, 7, 0, 0, 0, 0, 0, 0, 0, 0, 0, 0⟩,
    .regroup ⟨0, 7, 0, 0, 0, 0, 0, 0, 0, 0, 0, 0⟩,
    .sleep ⟨0, 7, 0, 0, 8, 0, 0, 0, 0, 0, 0, 0⟩] : List Instr).all Tests.issuesHere = true := by decide +kernel

/-- Words that meet the hypotheses of `BackoffDraws`: they issue in a loaded program. -/
theorem witness_words_BackoffDraws : ([.backoff ⟨0, 7, 0, 0, 8, 0, 0, 0, 0, 0, 0, 0⟩] : List Instr).all Tests.issuesHere = true := by decide +kernel

/-- Words that meet the hypotheses of `ExitEndsThreads`: they issue in a loaded program. -/
theorem witness_words_ExitEndsThreads : ([.exit ⟨0, 7, 0, 0, 0, 0, 0, 0, 0, 0, 0, 0⟩] : List Instr).all Tests.issuesHere = true := by decide +kernel

/-- Words that meet the hypotheses of `ConvergenceDeclared`: they issue in a loaded program. -/
theorem witness_words_ConvergenceDeclared : ([.cvdecl ⟨0, 7, 4, 0, 264, 0, 0, 0, 0, 0, 0, 0⟩] : List Instr).all Tests.issuesHere = true := by decide +kernel

/-- Words that meet the hypotheses of `SwitchPoints`: they issue in a loaded program. -/
theorem witness_words_SwitchPoints : ([.switchpt ⟨0, 7, 0, 0, 0, 0, 0, 0, 0, 0, 0, 0⟩] : List Instr).all Tests.issuesHere = true := by decide +kernel

/-- Words that meet the hypotheses of `SoftwareTraps`: they issue in a loaded program. -/
theorem witness_words_SoftwareTraps : ([.trap ⟨0, 7, 0, 0, 0, 0, 0, 0, 0, 0, 0, 0⟩,
    .bkpt ⟨0, 7, 0, 0, 0, 0, 0, 0, 0, 0, 0, 0⟩,
    .syscall ⟨0, 7, 0, 0, 0, 0, 0, 0, 0, 0, 0, 0⟩] : List Instr).all Tests.issuesHere = true := by decide +kernel

/-- Words that meet the hypotheses of `WorkgroupEndings`: they issue in a loaded program. -/
theorem witness_words_WorkgroupEndings : ([.halt ⟨0, 7, 0, 0, 0, 0, 0, 0, 0, 0, 0, 0⟩] : List Instr).all Tests.issuesHere = true := by decide +kernel

/-- Words that meet the hypotheses of `SystemRegisterReads`: they issue in a loaded program. -/
theorem witness_words_SystemRegisterReads : ([.mfsr ⟨0, 7, 4, 0, 0, 0, 0, 0, 0, 0, 0, 0⟩] : List Instr).all Tests.issuesHere = true := by decide +kernel

/-- Words that meet the hypotheses of `SystemRegisterWrites`: they issue in a loaded program. -/
theorem witness_words_SystemRegisterWrites : ([.mtsr ⟨0, 7, 0, 0, 264, 0, 0, 0, 0, 0, 0, 0⟩] : List Instr).all Tests.issuesHere = true := by decide +kernel

/-- Words that meet the hypotheses of `ReturnFromHandler`: they issue in a loaded program. -/
theorem witness_words_ReturnFromHandler : ([.eret ⟨0, 7, 0, 0, 0, 0, 0, 0, 0, 0, 0, 0⟩] : List Instr).all Tests.issuesHere = true := by decide +kernel

/-- Words that meet the hypotheses of `OperandLogInstructions`: they issue in a loaded program. -/
theorem witness_words_OperandLogInstructions : ([.opreplay ⟨0, 7, 0, 0, 264, 0, 0, 0, 0, 0, 0, 0⟩,
    .opdrop ⟨0, 7, 0, 0, 264, 0, 0, 0, 0, 0, 0, 0⟩] : List Instr).all Tests.issuesHere = true := by decide +kernel

/-- Words that meet the hypotheses of `IdleWaits`: they issue in a loaded program. -/
theorem witness_words_IdleWaits : ([.idle ⟨0, 7, 0, 0, 8, 0, 0, 0, 0, 0, 0, 0⟩] : List Instr).all Tests.issuesHere = true := by decide +kernel

/-- Words that meet the hypotheses of `AccessesIssue`: they issue in a loaded program. -/
theorem witness_words_AccessesIssue : ([.ld ⟨0, 7, 4, 0, 8, 12, 511, 0, 0, 0, 0, 0⟩,
    .st ⟨0, 7, 4, 0, 8, 12, 511, 0, 0, 0, 0, 0⟩,
    .lds ⟨0, 7, 4, 0, 8, 12, 511, 0, 0, 0, 0, 0⟩,
    .sts ⟨0, 7, 4, 0, 8, 12, 511, 0, 0, 0, 0, 0⟩,
    .ldq ⟨0, 7, 4, 0, 8, 12, 511, 0, 0, 0, 0, 0⟩,
    .stq ⟨0, 7, 4, 0, 8, 12, 511, 0, 0, 0, 0, 0⟩,
    .ldv ⟨0, 7, 4, 0, 8, 12, 268, 0, 0, 0, 0, 0⟩,
    .atom ⟨0, 7, 4, 0, 8, 12, 16, 0, 0, 0, 0, 0⟩,
    .cas ⟨0, 7, 4, 0, 8, 12, 16, 0, 0, 0, 0, 0⟩,
    .red ⟨0, 7, 0, 0, 8, 12, 16, 0, 0, 0, 0, 0⟩] : List Instr).all Tests.issuesHere = true := by decide +kernel

/-- Words that meet the hypotheses of `PrefetchAndFences`: they issue in a loaded program. -/
theorem witness_words_PrefetchAndFences : ([.pref ⟨0, 7, 0, 0, 8, 12, 0, 0, 0, 0, 0, 0⟩,
    .fence ⟨0, 7, 0, 0, 0, 0, 0, 0, 0, 0, 1, 0⟩,
    .fencex ⟨0, 7, 0, 0, 0, 0, 0, 0, 0, 0, 0, 30723⟩] : List Instr).all Tests.issuesHere = true := by decide +kernel

/-- Words that meet the hypotheses of `CacheControl`: they issue in a loaded program. -/
theorem witness_words_CacheControl : ([.drop ⟨0, 7, 0, 0, 264, 266, 268, 0, 0, 0, 0, 0⟩,
    .cctl ⟨0, 7, 0, 0, 264, 266, 268, 0, 0, 0, 0, 0⟩,
    .promote ⟨0, 7, 0, 0, 264, 266, 268, 768, 0, 0, 0, 0⟩] : List Instr).all Tests.issuesHere = true := by decide +kernel

/-- Words that meet the hypotheses of `DequeChains`: they issue in a loaded program. -/
theorem witness_words_DequeChains : ([.dqpush ⟨0, 7, 0, 0, 8, 0, 16, 0, 0, 0, 0, 0⟩,
    .dqpop ⟨0, 7, 4, 0, 8, 0, 0, 0, 0, 0, 0, 0⟩,
    .dqsteal ⟨0, 7, 4, 0, 8, 0, 0, 0, 0, 0, 0, 0⟩] : List Instr).all Tests.issuesHere = true := by decide +kernel

/-- Words that meet the hypotheses of `RandomStreams`: they issue in a loaded program. -/
theorem witness_words_RandomStreams : ([.rngkey ⟨0, 7, 0, 0, 8, 12, 0, 0, 0, 0, 0, 0⟩,
    .rng ⟨0, 7, 4, 0, 8, 0, 0, 0, 0, 0, 0, 0⟩] : List Instr).all Tests.issuesHere = true := by decide +kernel

/-- Words that meet the hypotheses of `RandomUnitFloat`: they issue in a loaded program. -/
theorem witness_words_RandomUnitFloat : ([.rngf ⟨0, 7, 4, 0, 8, 0, 0, 0, 0, 0, 0, 0⟩] : List Instr).all Tests.issuesHere = true := by decide +kernel

/-- Words that meet the hypotheses of `TraversalsIssue`: they issue in a loaded program. -/
theorem witness_words_TraversalsIssue : ([.trace ⟨0, 7, 4, 0, 8, 12, 0, 0, 0, 0, 0, 0⟩,
    .tresume ⟨0, 7, 4, 0, 8, 0, 0, 0, 0, 0, 0, 0⟩,
    .hitget ⟨0, 7, 4, 0, 0, 0, 0, 0, 0, 0, 0, 0⟩,
    .bvhchk ⟨0, 7, 4, 0, 8, 0, 0, 0, 0, 0, 0, 0⟩] : List Instr).all Tests.issuesHere = true := by decide +kernel

/-- Words that meet the hypotheses of `BarrierArrivals`: they issue in a loaded program. -/
theorem witness_words_BarrierArrivals : ([.bar ⟨0, 7, 0, 0, 0, 0, 0, 0, 0, 0, 0, 0⟩,
    .bara ⟨0, 7, 0, 0, 0, 0, 0, 0, 0, 0, 0, 0⟩,
    .barw ⟨0, 7, 0, 0, 0, 0, 0, 0, 0, 0, 0, 0⟩,
    .cbar ⟨0, 7, 0, 0, 0, 0, 0, 0, 0, 0, 0, 0⟩,
    .sstep ⟨0, 7, 260, 0, 0, 0, 0, 0, 0, 0, 0, 0⟩] : List Instr).all Tests.issuesHere = true := by decide +kernel

/-- Words that meet the hypotheses of `QueueInstructions`: they issue in a loaded program. -/
theorem witness_words_QueueInstructions : ([.qdecl ⟨0, 7, 0, 0, 264, 0, 0, 0, 0, 0, 0, 0⟩,
    .qpush ⟨0, 7, 0, 0, 8, 0, 0, 0, 0, 0, 0, 0⟩,
    .qpop ⟨0, 7, 4, 0, 0, 0, 0, 0, 0, 0, 0, 0⟩,
    .qtry ⟨0, 7, 4, 0, 0, 0, 0, 0, 0, 0, 0, 0⟩] : List Instr).all Tests.issuesHere = true := by decide +kernel

/-- Words that meet the hypotheses of `Migration`: they issue in a loaded program. -/
theorem witness_words_Migration : ([.migrate ⟨0, 7, 0, 0, 264, 266, 511, 0, 0, 0, 0, 0⟩,
    .priowg ⟨0, 7, 0, 0, 264, 0, 0, 0, 0, 0, 0, 0⟩] : List Instr).all Tests.issuesHere = true := by decide +kernel

/-- Words that meet the hypotheses of `TasksLaunch`: they issue in a loaded program. -/
theorem witness_words_TasksLaunch : ([.launch ⟨0, 7, 4, 8, 0, 0, 0⟩] : List Instr).all Tests.issuesHere = true := by decide +kernel

/-- Words that meet the hypotheses of `TasksAwaited`: they issue in a loaded program. -/
theorem witness_words_TasksAwaited : ([.twait ⟨0, 7, 4, 0, 8, 0, 0, 0, 0, 0, 0, 0⟩] : List Instr).all Tests.issuesHere = true := by decide +kernel

/-- Words that meet the hypotheses of `EngineCommandsIssue`: they issue in a loaded program. -/
theorem witness_words_EngineCommandsIssue : ([.cpy ⟨0, 7, 260, 264, 266, 268, 0⟩,
    .cpyw ⟨0, 7, 260, 264, 266, 268, 0⟩,
    .gath ⟨0, 7, 260, 264, 266, 268, 0⟩,
    .scat ⟨0, 7, 260, 264, 266, 268, 0⟩,
    .publish ⟨0, 7, 260, 264, 0, 0, 0⟩,
    .vhold ⟨0, 7, 260, 264, 0, 0, 0⟩,
    .vrel ⟨0, 7, 260, 264, 0, 0, 0⟩,
    .coll ⟨0, 7, 260, 264, 0, 268, 0⟩,
    .mldred ⟨0, 7, 260, 264, 266, 268, 0⟩,
    .cwait ⟨0, 7, 260, 264, 0, 0, 0⟩,
    .halo ⟨0, 7, 260, 264, 0, 0, 0⟩,
    .estat ⟨0, 7, 260, 264, 0, 0, 0⟩] : List Instr).all Tests.issuesHere = true := by decide +kernel

/-- Words that meet the hypotheses of `MatrixInstructionsIssue`: they issue in a loaded program. -/
theorem witness_words_MatrixInstructionsIssue : ([.tshape ⟨0, 7, 4, 0, 264, 0, 0, 0, 0, 0, 0, 0⟩,
    .tzero ⟨0, 7, 4, 0, 0, 0, 0, 0, 0, 0, 0, 0⟩,
    .tmovv ⟨0, 7, 4, 0, 8, 0, 268, 0, 0, 0, 0, 0⟩,
    .tmovt ⟨0, 7, 4, 0, 8, 0, 268, 0, 0, 0, 0, 0⟩,
    .mma ⟨0, 7, 4, 0, 8, 12, 0, 0, 0, 0, 0, 0⟩,
    .gmma ⟨0, 7, 4, 0, 8, 12, 16, 0, 0, 0, 0, 0⟩,
    .tcvt ⟨0, 7, 4, 0, 8, 0, 0, 0, 0, 0, 0, 0⟩,
    .mxscl ⟨0, 7, 4, 0, 8, 0, 0, 0, 0, 0, 0, 0⟩,
    .mxsclFill ⟨0, 7, 4, 0, 0, 0, 0, 0, 0, 0, 0, 256⟩,
    .tadd ⟨0, 7, 4, 0, 8, 12, 0, 0, 0, 0, 0, 0⟩,
    .tscale ⟨0, 7, 4, 0, 8, 0, 268, 0, 0, 0, 0, 0⟩,
    .tred ⟨0, 7, 4, 0, 8, 0, 0, 0, 0, 0, 0, 0⟩] : List Instr).all Tests.issuesHere = true := by decide +kernel

/-- Words that meet the hypotheses of `SignedMultiplies`: they issue in a loaded program. -/
theorem witness_words_SignedMultiplies : ([.mmas ⟨0, 7, 4, 0, 8, 12, 0, 0, 0, 0, 0, 0⟩] : List Instr).all Tests.issuesHere = true := by decide +kernel

/-- Words that meet the hypotheses of `TileAccessesIssue`: they issue in a loaded program. -/
theorem witness_words_TileAccessesIssue : ([.tld ⟨0, 7, 4, 0, 264, 266, 268, 0, 0, 0, 0, 0⟩,
    .tst ⟨0, 7, 4, 0, 264, 266, 268, 0, 0, 0, 0, 0⟩] : List Instr).all Tests.issuesHere = true := by decide +kernel


/-! ### Control -/

/-- Hypotheses of `StepRunsTheDecodedInstruction`: a chosen turn, a due event, an issue by default; an address that is no
slot, a slot that holds a single word, and one that begins a pair. -/
theorem witness_StepRunsTheDecodedInstruction :
    (let s := State.reset.loaded (makeLine [] 0 0x1F)
     let t := { s with turns := [.issue 0 0] }
     t.powered && ({ t with turns := [] } : State).tidyFormed.partFree 0 0 &&
       (({ t with turns := [] } : State).tidyFormed.chooseIssue 0 0).isSome) &&
    (let s := (State.reset.loaded 0).modGroup 4 (fun g => g.modThreads (fun _ => true) (fun _ t => { t with wait := .sleep }))
     s.powered && s.turns = [] && s.chore.isNone && s.due.isSome) &&
    (let s := State.reset.loaded 0
     s.powered && s.turns = [] && s.chore.isNone && s.due.isNone && s.tidyFormed.nextIssue.isSome) &&
    (let u := State.reset.loaded (makeLine [0x005C00000000000000000000, 0x005C00000000000000000000] 1 0x1F)
     (u.group? 4).any (fun g => (match u.codeLine g.asid.toNat (lineBase (0x10004 : W64)).toNat with
       | .ok l => linePair l 0 && !linePair l 1 && (decode (lineSlot l 0)).toOption.isSome
       | _ => false) && slotOf (0x10004 : W64) = some 0 && slotOf (0x10010 : W64) = some 1 && slotOf (0x10000 : W64) = none)) = true := by
  decide +kernel

/-- Hypotheses of `LineEntry`, clause by clause. -/
theorem witness_LineEntry :
    let l := makeLine [] 0 0x1F
    let closed := makeLine [] 0 0
    let reserved : LineData := 512 ||| (BitVec.setWidth 512 (linePar 512) <<< 24)
    let s := Tests.ready 8
    let t := Tests.thr (fun _ x => { x with arrival := .transfer 0x10010 })
    let inside := Tests.thr (fun _ x => { x with lastLine := some 0x10000, arrival := .sequence })
    let resumed := Tests.thr (fun _ x => { x with lastLine := some 0x10000, arrival := .resume })
    slotOf s.issue.pc = some 0 && Tests.entering s && Tests.entering t && Tests.entering resumed && !Tests.entering inside &&
    s.parityBad 1 0x10000 1 && !s.parityBad 1 0x10000 reserved && lineReserved reserved && !s.parityBad 1 0x10000 closed &&
    !lineReserved closed && !lineTgt closed 0 && !s.parityBad 1 0x10000 l && !lineReserved l && lineTgt l 0 = true := by decide +kernel

/-- Hypotheses of `DecodeFaults`: an operand that does not exist, a stale latch, and none of these. -/
theorem witness_DecodeFaults :
    (match mkCtx (Tests.ready 8) (.iadd ⟨0, 7, 4, 0, 0x140, 12, 0, 0, 0, 0, 0, 0⟩) ⟨4, 0xFF, 0⟩ with
      | some c => c.i.wellFormed && c.i.modOk c.code.modsel c.g.width && (c.i.badOperand c.code.modsel c.vd.regs c.vd.tiles).isNone &&
          c.staleLanes 1 != [] && c.decodeFault.isSome
      | none => false) &&
    (match mkCtx (Tests.ready 8) (.iadd ⟨0, 7, 4, 0, 8, 12, 0, 0, 0xF, 0, 0, 0⟩) ⟨4, 0xFF, 0⟩ with
      | some c => !c.i.wellFormed && c.decodeFault.isSome
      | none => false) &&
    (match mkCtx ({ Tests.ready 8 with codes := [{ loadCode 8 with variants := (loadCode 8).variants.map (fun v => { v with regs := 16 }) }] })
        (.iadd ⟨0, 7, 4, 0, 16, 12, 0, 0, 0, 0, 0, 0⟩) ⟨4, 0xFF, 0⟩ with
      | some c => c.i.wellFormed && c.i.modOk c.code.modsel c.g.width &&
          c.i.badOperand c.code.modsel c.vd.regs c.vd.tiles == some 1
      | none => false) = true := by decide +kernel

/-- Words with a label issue too: `BranchesAndCalls`, `ThreadStates`. -/
theorem witness_words_labels : ([.bra ⟨0, 7, 0, 0, 0, 0, 0, 0⟩, .call ⟨0, 7, 4, 0, 0, 0, 0, 0⟩, .setmeet ⟨0, 7, 0, 8, 0, 1, 0, 0⟩,
    .setmeet ⟨0, 7, 0, 0, 0, 0, 0, 0⟩, .setmeet ⟨0, 7, 0, 8, 0, 2, 0, 0⟩, .setmeet ⟨0, 7, 0, 0, 0, 3, 0, 0⟩] : List Instr).all
    Tests.issuesHere = true := by decide +kernel

/-- Hypotheses of `BranchesAndCalls` and `IllegalTargets`: targets that are all legal, and one that is no instruction address; the
code line with slot 0 a target, and with slot 1 none. -/
theorem witness_BranchesAndCalls :
    (let s := { State.reset.loadedWith 8 (makeLine [] 0 1) with issue := (Tests.ready 8).issue }
     Tests.meets s (.bra ⟨0, 7, 0, 0, 0, 0, 0, 0⟩) (fun c => c.act.all (fun _ => !s.targetBad 1 0x10004 false)) &&
     Tests.meets s (.brx ⟨0, 7, 0, 0, 8, 0, 0, 0, 0, 0, 0, 0⟩) (fun c => c.act.head? == some 0 && s.targetBad 1 (c.val 1 0) true) &&
     s.targetBad 1 0x10010 false && s.targetBad 1 (2 ^ 57 + 4) true && !s.targetBad 1 (2 ^ 57 + 4) false) = true := by decide +kernel

/-- Hypotheses of `BackoffDraws`: the issuing core. -/
theorem witness_BackoffDraws : Tests.meets (Tests.ready 8) (.backoff ⟨0, 7, 0, 0, 8, 0, 0, 0, 0, 0, 0, 0⟩) (fun c =>
    ((Tests.ready 8).cores[c.core]?).isSome && c.act.length == 8) = true := by decide +kernel

/-- Hypotheses of `ConvergenceDeclared`: a register that is empty and one that is not. -/
theorem witness_ConvergenceDeclared :
    (Tests.meets (Tests.ready 8) (.cvdecl ⟨0, 7, 4, 0, 264, 0, 0, 0, 0, 0, 0, 0⟩) (fun c => c.act != [] && c.g.cvs.get 4 == 0) &&
    Tests.meets (Tests.grp (fun g => { g with cvs := g.cvs.set 4 1 })) (.cvdecl ⟨0, 7, 4, 0, 264, 0, 0, 0, 0, 0, 0, 0⟩)
      (fun c => c.act != [] && c.g.cvs.get 4 == 1)) = true := by decide +kernel

/-- A workgroup under an order, and a group of it beside group 4 that waits at point m. -/
def Tests.ordered (m : Nat) : State :=
  let s := (Tests.ready 8).modWg 3 (fun w => { w with order := some ⟨1⟩ })
  { s with groups := s.groups ++ [{ loadGroup 8 with gid := 5, threads := List.replicate 8 { Thread.start 0x10004 with wait := .switchpt m } }] }

/-- Hypotheses of `SwitchPoints`: no order; an order reached while another group waits at another point, or at the same. -/
theorem witness_SwitchPoints :
    let i : Instr := .switchpt Tests.bare
    let reached (c : Ctx) : Bool := c.w.order.isSome && !c.g.inh && c.act != [] && c.g.live.all c.act.contains
    let others (s : State) : List Nat := ((s.groups.filter (fun g => g.wid == 3 && g.gid != 4 && !g.retired)).map Group.switchWaits).flatten
    (Tests.meets (Tests.ready 8) i (fun c => c.w.order.isNone && !c.g.inh && c.act != [] && c.g.live.all c.act.contains) &&
    Tests.meets (Tests.ready 8) (.switchpt { Tests.bare with gp := 0 }) (fun c => c.act == []) &&
    Tests.meets (Tests.ordered 1) i (fun c => reached c && (others (Tests.ordered 1)).any (· != 0)) &&
    Tests.meets (Tests.ordered 0) i (fun c => reached c && (others (Tests.ordered 0)).all (· == 0))) = true := by decide +kernel

/-! ### Waits, traps and system registers -/

/-- Hypotheses of `ThreadWaitsEnd`: threads held at X, alone and with one still to come; a core for BACKOFF; a CVDECL waiting. -/
theorem witness_ThreadWaitsEnd :
    let held (n : Nat) := Tests.thr (fun h t => { t with meet := 0x10010, pc := if h < n then 0x10010 else 0x10004 })
    let ready (s : State) : Bool := (s.group? 4).any (fun g => g.threads.all (fun y => y.exited || y.meet != 0x10010 ||
      y.wait == .backoff || y.wait == .sleep || y.held))
    let cv := Tests.thr (fun h t => if h = 0 then { t with wait := .cvdecl 9 4 1 } else t)
    [ready (held 8), !ready (held 7), ((Tests.ready 8).group? 4).bind (Tests.ready 8).coreOf == some 0,
     (cv.group? 4).any (fun g => g.threads.any (fun t => t.wait == .cvdecl 9 4 1) && g.cvs.get 4 == 0 &&
       g.threads.all (fun t => match t.wait with
         | .cvdecl tok k n => tok != 9 || (k == 4 && n == 1)
         | _ => true))].all id = true := by decide +kernel

/-- Group 4 with all threads in REGROUP at one address, their window over. -/
def Tests.regrouping : State := Tests.thr (fun _ t => { t with wait := .regroup 0 0 0x10010, pc := 0x10010 })

/-- `FlockBinsFormGroups` speaks of a group that is formed. -/
theorem witness_FlockBinsFormGroups : (match exec (.flockBinRelease 3 0x10010) Tests.regrouping with
    | .next t => Tests.regrouping.formed == [] && t.formed.map (·.members.length) == [8] &&
        ((Tests.regrouping.wg? 3).bind (·.core)).any (fun k => (Tests.regrouping.cores[k]?).isSome) &&
        Tests.regrouping.groups.all (fun g => g.landing == none)
    | _ => false) = true := by decide +kernel

/-- Hypotheses of `IssueGuards`: a path passed over 64 times; one starving group. -/
theorem witness_IssueGuards :
    let s := Tests.thr (fun h t => if h = 0 then { t with passed := 64 } else t)
    let u := Tests.grp (fun g => { g with passed := 4096 })
    [(s.group? 4).any (fun g => g.threads.any (fun t => !t.exited && decide (64 ≤ t.passed))),
     (u.group? 4).any (fun g => u.coreOf g == some 0 && g.ipart == 0 && !g.retired && decide (4096 ≤ g.passed)
       && u.groups.length == 1)].all id = true := by decide +kernel

/-- The loaded program with a trap vector. -/
def Tests.vectored (f : Group → Group) : State :=
  (Tests.grp f).modLaunch 1 (fun l => { l with record := { l.record with tvec := 0x10010 } })

/-- A group in a handler entered at level 1 with frame threads as they were. -/
def Tests.handling (f : Group → Group) : State :=
  Tests.vectored (fun g => f { g with inh := true, lvl := 1, epc := 0x10010, frame := some ⟨g.threads, 0xFF, 1, 0⟩ })

/-- Hypotheses of `TrapEntry` and `WorkgroupEndings`: with a vector outside a handler; in a handler; without a vector; HALT without
an active lane, at group level and above. -/
theorem witness_TrapEntry :
    let parts (s : State) (p : Group → Launch → Bool) : Bool :=
      (s.group? 4).any (fun g => (s.wg? g.wid).any (fun w => (s.launch? w.lid).any (p g)))
    [parts (Tests.vectored id) (fun g l => !g.inh && l.record.tvec != 0), parts (Tests.handling id) (fun g _ => g.inh),
     parts (Tests.ready 8) (fun _ l => l.record.tvec == 0),
     Tests.meets (Tests.ready 8) (.halt { Tests.bare with gp := 0 }) (fun c => c.act == []),
     Tests.meets (Tests.ready 8) (.halt Tests.bare) (fun c => c.act != [] && c.g.lvl == 0),
     Tests.meets (Tests.handling id) (.halt Tests.bare) (fun c => c.act != [] && c.g.lvl == 1)].all id = true := by decide +kernel

/-- TRAP, SYSCALL and BKPT with and without an active lane: `SoftwareTraps`. -/
theorem witness_SoftwareTraps :
    let is (x : XForm) : List Instr := [.trap x, .syscall x, .bkpt x]
    [(is Tests.bare).all (fun i => Tests.meets (Tests.ready 8) i (fun c => c.act != [])),
     (is { Tests.bare with gp := 0 }).all (fun i => Tests.meets (Tests.ready 8) i (fun c => c.act == []))].all id = true := by
  decide +kernel

/-- MFSR and MTSR of register n. -/
def Tests.mfsr (n : Nat) : Instr := .mfsr ⟨0, 7, 4, 0, 0, 0, 0, 0, 0, 0, 0, BitVec.ofNat 24 n⟩
def Tests.mtsr (n : Nat) : Instr := .mtsr ⟨0, 7, 0, 0, 264, 0, 0, 0, 0, 0, 0, BitVec.ofNat 24 n⟩

/-- Hypotheses of `SystemRegisterReads`: each register, at the ends of each range, at a level that may read it, and the trap
registers at group level; the fields that clauses name. -/
theorem witness_SystemRegisterReads :
    [[0, 1, 2, 3, 4, 5, 6, 8, 9, 0x10, 0x11, 0x18, 0x20, 0x21, 0x30, 0x40, 0x5F, 0x60, 0x67, 0x70, 0x7F, 0x80, 0x90].all
      (fun n => Tests.meets (Tests.handling id) (Tests.mfsr n) (fun c => c.act != [] && c.g.lvl != 0)),
     [1, 2, 3, 4, 5, 6].all (fun n => Tests.meets (Tests.ready 8) (Tests.mfsr n) (fun c => c.act != [] && c.g.lvl == 0)),
     Tests.meets (Tests.ready 8) (.mfsr { Tests.bare with gp := 0, d := 4 }) (fun c => c.act == []),
     Tests.meets (Tests.ready 8) (Tests.mfsr 0x30) (fun c => decide (c.core < 256) && (c.s.part? c.la.part).any (·.parent < 64) &&
       (c.s.fuses.mxcap[c.core / 4]?) == some [32, 32, 32, 32, 32] && (c.s.cluster? c.w.cid).isSome && (c.s.asid? 1).isSome)].all id
      = true := by decide +kernel

/-- Hypotheses of `SystemRegisterWrites`: the registers open at each level, at the ends of each range, and one that the level does
not open. -/
theorem witness_SystemRegisterWrites :
    let at' (l : BitVec 2) := Tests.handling (fun g => { g with lvl := l })
    [[9, 0x90, 0x40, 0x5F, 0x60, 0x67].all (fun n => Tests.meets (at' 0) (Tests.mtsr n) (fun c => c.act != [] && c.g.lvl == 0)),
     [0, 1, 2, 4, 5, 8, 0x70, 0x7F].all (fun n => Tests.meets (at' 1) (Tests.mtsr n) (fun c => c.act != [] && c.g.lvl == 1)),
     [3, 0x20, 0x80].all (fun n => Tests.meets (at' 2) (Tests.mtsr n) (fun c => c.act != [] && c.g.lvl == 2)),
     Tests.meets (at' 0) (Tests.mtsr 0) (fun c => c.act != []), Tests.meets (at' 1) (Tests.mtsr 3) (fun c => c.act != []),
     Tests.meets (at' 2) (Tests.mtsr 0x10) (fun c => c.act != []),
     Tests.meets (at' 1) (Tests.mtsr 0x7F) (fun c => (c.s.cluster? c.w.cid).any (fun k => 0xF < k.qbs.length)),
     Tests.meets (at' 1) (.mtsr { Tests.bare with gp := 0, a := 264 }) (fun c => c.act == [])].all id = true := by decide +kernel

/-- Hypotheses of `ReturnFromHandler`: outside a handler; with a thread not active; with a bad EPC; a return. -/
theorem witness_ReturnFromHandler :
    let e : Instr := .eret Tests.bare
    let part : Instr := .eret { Tests.bare with gp := 0 }
    [Tests.meets (Tests.ready 8) e (fun c => !c.g.inh),
     Tests.meets (Tests.handling id) part (fun c => c.g.inh && c.g.frame.isSome && c.g.live.any (fun h => !c.act.contains h)),
     Tests.meets (Tests.handling (fun g => { g with epc := 0x10000 })) e (fun c => c.g.inh && c.g.frame.isSome &&
       c.g.live.all c.act.contains && !c.g.deferred && (slotOf c.g.epc).isNone),
     Tests.meets (Tests.handling (fun g => { g with epc := 2 ^ 57 + 4 })) e (fun c => c.g.inh && (slotOf c.g.epc).isSome &&
       decide (2 ^ 57 ≤ c.g.epc.toNat)),
     Tests.meets (Tests.handling id) e (fun c => c.g.inh && c.g.frame.isSome && c.g.live.all c.act.contains && slotOf c.g.epc == some 1
       && decide (c.g.epc.toNat < 2 ^ 57))].all id = true := by decide +kernel

/-- A load of group 4, outstanding since tick 7, with its lanes at the given stage. -/
def Tests.loadOp (st : LaneStage) : MemOp :=
  { id := 7, gid := 4, core := 0, ipart := 0, entry := 0, pc := 0x10004, instr := .ld ⟨0, 7, 4, 0, 8, 12, 511, 0, 0, 0, 0, 0⟩, asid := 1
    scratch := false, path := 1, noAlloc := false, lanes := [⟨0, 0x20000, 0, 0, 0, [], st⟩], fid := none, log := .raised
    since := 0, agg := 0, joint := false, undo := [] }

/-- A page fault at 0x20000. -/
def Tests.fault : LaneFault := ⟨0x08, 0, false, false, 0x20000, 0, none, 0⟩

/-- Hypotheses of `OperandLogInstructions`: at group level, without the entry, and with it. -/
theorem witness_OperandLogInstructions :
    let x : XForm := { Tests.bare with a := 264 }
    let s := { Tests.handling id with ops := [Tests.loadOp (.logged Tests.fault)] }
    let here (c : Ctx) (o : MemOp) : Bool := o.gid == c.g.gid && o.isLogged && o.entry == (c.uval 1).toNat % 32
    [([.opreplay x, .opdrop x] : List Instr).all (fun i =>
      Tests.meets (Tests.ready 8) i (fun c => c.act != [] && c.g.lvl == 0) &&
      Tests.meets (Tests.handling id) i (fun c => c.act != [] && c.s.ops == []) &&
      Tests.meets s i (fun c => c.act != [] && c.g.lvl != 0 && (s.ops.filter (here c)).length == 1 && (s.func? c.la.vf).isSome))].all id
      = true := by decide +kernel

/-- Hypotheses of `DeferredTrapsInOrder`: two pending traps. -/
theorem witness_DeferredTrapsInOrder :
    let s := Tests.vectored (fun g => { g with traps := [⟨9, 0x08, 0, 0, 0, some 1, 0⟩, ⟨7, 0x08, 0, 0, 0, some 0, 0⟩] })
    [(s.group? 4).any (fun g => g.frame.isNone && g.live != [] && s.unstopped g && !g.stopped && !g.retired &&
      g.traps.any (fun d => d.op == 7 && g.traps.all (fun e => e == d || decide (d.op < e.op))))].all id = true := by decide +kernel

/-- Hypotheses of `IdleWaits`: an IDLE with and without an active lane, one waiting for its limit and one past it. -/
theorem witness_IdleWaits :
    let x : XForm := { Tests.bare with a := 8 }
    let s (limit : W64) := Tests.thr (fun _ t => { t with wait := .idle 7 (some limit) })
    let past (s : State) : Bool := (s.group? 4).any (fun g => decide (7 < g.wakeTick) || (g.inh && decide (7 < g.serviceTick)) ||
      g.threads.any (fun y => match y.wait with
        | .idle _ (some e) => decide (e ≤ s.time (s.groupDie g))
        | _ => false))
    [Tests.meets (Tests.ready 8) (.idle x) (fun c => c.act != []),
     Tests.meets (Tests.ready 8) (.idle { x with gp := 0 }) (fun c => c.act == []), past (s 0), !past (s 1)].all id = true := by
  decide +kernel

/-! ### Memory -/

/-- `Tests.ready 8` with page 2 in a TLB, a region of host memory, and page 3 of it mapped. -/
def Tests.mapped : State :=
  let s := Tests.ready 8
  { s with
    tlb := [⟨0, 0, 1, 2, 16, 2, true, true, false⟩, ⟨0, 0, 1, 0x200000003, 16, 0x800000003, true, true, false⟩]
    asids := s.asids.map (fun c => { c with regions := [(0, 0x84010000), (1, 0x88000000)], table := c.table ++
      [⟨0, 64, mkTablePte (loadRootGpa + 0x20000)⟩, ⟨1, 2 ^ 20, mkTablePte (loadRootGpa + 0x40000)⟩,
        ⟨2, 2 ^ 28, mkTablePte (loadRootGpa + 0x60000)⟩, ⟨3, 0x200000003, mkPte 0x30000 true true false⟩] })
    parts := s.parts.map (fun p => { p with table := p.table ++ [⟨3, 3, mkPte (2 ^ 51 + 0x30000) true true false⟩] }) }

/-- An operation of group 4 with one lane at an address. -/
def Tests.op (i : Instr) (scratch : Bool) (a : W64) : MemOp :=
  { Tests.loadOp .todo with instr := i, scratch := scratch, lanes := [⟨0, a, 5, 0, 0, [], .todo⟩] }

/-- `Tests.mapped` with one operation outstanding. -/
def Tests.running (o : MemOp) : State := { Tests.mapped with ops := [o] }

/-- The home line of 0x20000 at die 0, where it is homed. -/
def Tests.homeLine : HomeLine := ⟨1, 0x800, 0, 0, 0, 0, 0, 0x20000, .i, 0, 0, 0, ScopeRec.none, none, []⟩

def Tests.ld : MForm := ⟨0, 7, 4, 0, 8, 12, 511, 0, 0, 0, 0, 0⟩

/-- The ten words of `AccessesIssue`. -/
def Tests.accesses (x : MForm) : List Instr :=
  [.ld x, .st x, .lds x, .sts x, .ldq x, .stq x, .ldv { x with c := 268 }, .atom { x with c := 16 }, .cas { x with c := 16 },
   .red { x with d := 0, c := 16 }]

/-- Hypotheses of `AccessesIssue`: no lane's address faults, and no lane is active; of `MemoryIssueFaults`: a lane whose address
is misaligned, out of the scratchpad, or at 2^57. -/
theorem witness_AccessesIssue :
    let lane (n : Nat) (v : W32) := Tests.grp (fun g => { g with vregs := g.vregs.set n v })
    let bad (cause : Nat) (s : State) (i : Instr) : Bool := Tests.meets s i (fun c => c.act.contains 0 &&
      (c.addrFault (c.ea 0)).any (·.1 == cause) && (!i.scalar || c.act.head? == some 0))
    [(Tests.accesses Tests.ld).all (fun i => Tests.meets (Tests.ready 8) i (fun c => c.act != [] && !i.scalar &&
       c.act.all (fun h => c.addrFault (c.ea h) == none && !c.meetsPoison (c.ea h)))),
     (Tests.accesses { Tests.ld with gp := 0 }).all (fun i => Tests.meets (Tests.ready 8) i (fun c => c.act == [])),
     bad 0x07 (lane 8 1) (.ldq Tests.ld), bad 0x10 (lane 8 0x1000) (.lds Tests.ld), bad 0x08 (lane 9 0x2000000) (.ld Tests.ld),
     !bad 0x10 (lane 8 0xFF0) (.lds Tests.ld), !bad 0x08 (lane 9 0x1FFFFFF) (.ld Tests.ld)].all id = true := by decide +kernel

/-- Hypotheses of `LoadedValues`: a lane whose thread has not exited, and the last destination that four registers fit at. -/
theorem witness_LoadedValues : [((Tests.ready 8).group? 4).any (fun g => !g.gone 0 && !g.gone 7 && g.gone 8), decide (252 + 3 < 256)].all id
    = true := by decide +kernel

/-- Hypotheses of `LoadsReturn`: a lane that may not perform yet (no TLB entry), a scratchpad read, an L1 hit, a read served, a
versioned read, a read of bad data, and the last lane of an operation. -/
theorem witness_LoadsReturn :
    let ready (s : State) (p : MemOp → LaneReq → Group → Bool) : Bool := (s.op? 7).any (fun o => (o.lane? 0).any (fun l =>
      (s.group? o.gid).any (fun g => o.instr.isPlainLoad && s.laneReady o l && !s.loadBehind o l && s.inTurn o l.addr && p o l g)))
    let got (b : Bool) : Got → Bool := fun r => match r with
      | .ok _ _ bad _ _ => bad == b
      | _ => false
    let s := Tests.running (Tests.op (.ld Tests.ld) false 0x20000)
    let v := Tests.running (Tests.op (.ldv { Tests.ld with c := 268 }) false 0x20000)
    let k := { s with l1 := [⟨0, 1, 0x800, 0, 0, 8, ScopeRec.none⟩] }
    let p := { s with home := [{ Tests.homeLine with poison := 1 }] }
    [({ s with tlb := [] } : State).op? 7 |>.any (fun o => o.lanes.all (fun l => !({ s with tlb := [] } : State).laneReady o l)),
     let r := Tests.running (Tests.op (.lds Tests.ld) true 0xFFF); ready r (fun o l _ => r.place o l == some (4, 0xFFF)),
     ready k (fun o l _ => o.instr.order % 2 == 0 && !o.instr.noL1 && k.buffered 0 1 4 o.id l.addr.toNat o.instr.accessBytes == [] &&
       (k.l1Hit 0 1 (l.addr.toNat / 64)).any (·.poison == 0)),
     ready s (fun o l g => got false ((s.serve o l.addr).lsuRead 0 4 o.id 1 l.addr.toNat o.instr.accessBytes o.instr.noL1 o.noAlloc) &&
       ((s.serve o l.addr).acquireFault o g l.addr.toNat none false).isNone),
     ready p (fun o l _ => got true ((p.serve o l.addr).lsuRead 0 4 o.id 1 l.addr.toNat o.instr.accessBytes o.instr.noL1 o.noAlloc)),
     ready v (fun o l _ => got false ((v.serve o l.addr).viewRead 0 4 o.id 1 l.addr.toNat o.instr.accessBytes l.view o.instr.noL1 o.noAlloc)),
     s.ops.all (fun o => o.lanes.all (·.lane == 0))].all id = true := by decide +kernel

/-- Hypotheses of `StoresApply`: a store to a scratchpad, to host memory, to a home line that nothing else holds; an acknowledgement. -/
theorem witness_StoresApply :
    let ready (s : State) (p : MemOp → LaneReq → Bool) : Bool := (s.op? 7).any (fun o => (o.lane? 0).any (fun l =>
      (s.group? o.gid).isSome && o.instr.isLaneStore && s.laneReady o l && s.inTurn o l.addr && o.lanes == [l] && p o l))
    let a := Tests.running (Tests.op (.sts Tests.ld) true 0xFFF)
    let b := Tests.running (Tests.op (.st Tests.ld) false 0x2000000030000)
    let c := { Tests.running (Tests.op (.st Tests.ld) false 0x20000) with home := [Tests.homeLine] }
    let r : State := let s := Tests.running (Tests.op (.st Tests.ld) false 0x000E008000000000)
      { s with asids := s.asids.map (fun k => { k with regions := k.regions.set 7 0x8C000000 }),
               colls := [⟨1, 7, 0, 2, 100, 1, 0x20000, 0x10000, [⟨0, 0, 2, false⟩, ⟨1, 1, 2, false⟩], false, []⟩] }
    [ready a (fun o l => a.place o l == some (4, 0xFFF) && (a.wg? 3).isSome),
     ready b (fun o l => o.instr.order == 0 && (match b.resolve 1 l.addr.toNat .write with
       | .ok (.host n) => n == 0x30000
       | _ => false)),
     ready c (fun o l => o.instr.order == 0 && (match c.resolve 1 l.addr.toNat .write with
       | .ok (.line home a v _ tr) => !tr.trk && dieOf o.core == home && (c.home? a (v / 64)).any (fun h => !h.taken && h.dir == .i)
       | _ => false)),
     ready r (fun o l => o.instr.order == 0 && (match r.resolve 1 l.addr.toNat .write with
       | .ok (.peer _ 1 0) => true
       | _ => false)),
     let k : Ack := ⟨9, 4, 7, 0, 1, 0x800, 3, false⟩
     ({ c with acks := [k] } : State).acks.find? (fun a => a.id == k.id) == some k].all id = true := by decide +kernel

/-- Hypotheses of `CacheControl` and `DropAttempts`: a range of zero bytes and one that ends at 2^57; a drop with and without a store to
wait for; a line of the range that is not taken, at I and at M with its owner's copy, whose frame is its partition's; a victim in the
partition and one outside; no active lane. -/
theorem witness_CacheControl :
    let x : MForm := ⟨0, 7, 0, 0, 264, 266, 268, 0, 0, 0, 0, 0⟩
    let at' (a v : W64) := Tests.grp (fun g => { g with sregs := (g.sregs.set 8 a).set 12 v })
    let low (s : State) (i : Instr) : Bool := Tests.meets s i (fun c => c.act != [] &&
      ((c.uval 3).toNat == 0 || decide ((c.ea ((c.act.head?).getD 0)).toNat + (c.uval 3).toNat ≤ 2 ^ 57)))
    let held : State := { at' 0x20000 64 with tick := 9, ops := [Tests.loadOp .todo, { Tests.loadOp .todo with id := 8, instr := .st Tests.ld }] }
    let line (h : HomeLine) (r : List RdcLine) (p : HomeLine → Bool) : Bool :=
      let s := { at' 0x20000 64 with home := [h], rdc := r }
      Tests.meets s (.cctl x) (fun c => s.memWf && (s.home? 1 0x800).any (fun h => !h.taken && p h && s.ownsFrame 1 h.backing) &&
        s.mayWriteBack 1 0x800 && (c.ea 0).toNat / 64 == 0x800)
    [Tests.meets (at' (2 ^ 57) 0) (.drop x) (fun c => c.act.head? == some 0 && decide (2 ^ 57 ≤ (c.ea 0).toNat)),
     Tests.meets (at' (2 ^ 57 - 64) 65) (.cctl x) (fun c => c.act.head? == some 0 && decide (2 ^ 57 < (c.ea 0).toNat + (c.uval 3).toNat)),
     Tests.meets (Tests.ready 8) (.pref { x with a := 8, b := 12, c := 0 }) (fun c => c.s.home == [] && c.s.rdc == [] && c.s.notices == []),
     low (at' 0 0) (.drop x), low (at' (2 ^ 57 - 64) 64) (.drop x), low (at' 0 0) (.cctl x), low (at' (2 ^ 57 - 64) 64) (.cctl x),
     Tests.meets (at' 0x20000 64) (.drop x) (fun c => (c.s.dropStep c.core c.g.asid c.s.tick 0x20000 0x20040).2),
     Tests.meets held (.drop x) (fun c => !(c.s.dropStep c.core c.g.asid c.s.tick 0x20000 0x20040).2),
     line { Tests.homeLine with dirty := 1 } [] (fun h => h.dir == .i),
     line { Tests.homeLine with dir := .m, owner := 2 } [⟨2, 1, 0x800, 0, .m, 5, 0, 0, ScopeRec.none⟩] (fun h => h.dir == .m &&
       h.owner == 2),
     Tests.meets (at' 0x20000 3) (.promote { x with m := 768 }) (fun c => c.act != [] && c.s.coreInPart 3 c.la.part && decide ((c.ea 0).toNat < 2 ^ 57)),
     Tests.meets (at' 0x20000 4) (.promote { x with m := 768 }) (fun c => c.act != [] && !c.s.coreInPart 4 c.la.part),
     ([.drop { x with gp := 0 }, .cctl { x with gp := 0 }, .promote { x with gp := 0, m := 768 }] : List Instr).all (fun i =>
       Tests.meets (Tests.ready 8) i (fun c => c.act == []))].all id = true := by decide +kernel

/-- Hypotheses of `AtomicChains`: an atomic in a scratchpad, and one of system scope in host memory. -/
theorem witness_AtomicChains :
    let x : MForm := { Tests.ld with c := 16 }
    let ready (s : State) (a : W64) : Bool := (s.op? 7).any (fun o => (s.group? o.gid).isSome && o.instr.isAtomic && s.chainReady o a &&
      s.inTurn o a && !o.joint && (s.chainLanes o a).any (fun p => p.1 == o && ((s.serve o a).scopeVerdict o a.toNat).isNone))
    let a := Tests.running (Tests.op (.atom x) true 0xFFC)
    let b := Tests.running (Tests.op (.cas { x with m := 0x500 }) false 0x2000000030000)
    let c := { Tests.running (Tests.op (.atom x) false 0x20000) with home := [Tests.homeLine] }
    [ready a 0xFFC && (a.op? 7).any (fun o => o.lanes.all (fun l => a.place o l == some (4, 0xFFC))),
     ready b 0x2000000030000 && (b.op? 7).any (fun o => o.instr.scopeOf == 5) && (match b.resolve 1 0x2000000030000 .write with
       | .ok (.host _) => true
       | _ => false),
     ready c 0x20000 && (match c.resolve 1 0x20000 .write with
       | .ok (.line _ a v _ tr) => !tr.trk && !tr.own && (c.home? a (v / 64)).any (fun h => !h.taken && h.dir == .i && h.poison == 0 &&
         (c.group? 4).any (h.scope.passes c))
       | _ => false)].all id = true := by decide +kernel

/-- A deque header at 0x20000 with 2 entries of 8: TOP 0, BOT 2, BUF 0x20040, capacity 2^3. -/
def Tests.dequeState (i : Instr) (bot : Nat) : State :=
  let s := Tests.running { Tests.op i false 0x20000 with lanes := [⟨0, 0x20000, 9, 0, 1, [], .todo⟩] }
  { s with home := [{ Tests.homeLine with data := lineSet 0 0 (natBytes 8 0 ++ natBytes 8 bot ++ natBytes 8 0x20040 ++ natBytes 4 3) }] }

/-- A DQPOP of a header in host memory. -/
def Tests.farHeader : State :=
  Tests.running { Tests.op (.dqpop ⟨0, 7, 4, 0, 8, 0, 0, 0, 0, 0, 0, 0⟩) false 0x2000000030000 with
    lanes := [⟨0, 0x2000000030000, 9, 0, 1, [], .todo⟩] }

/-- Hypotheses of `DequeChains`: an operation on a header that is ready, with a deque neither empty nor full, empty, and full; a header
in host memory. -/
theorem witness_DequeChains :
    let words : List Instr := [.dqpush ⟨0, 7, 0, 0, 8, 0, 16, 0, 0, 0, 0, 0⟩, .dqpop ⟨0, 7, 4, 0, 8, 0, 0, 0, 0, 0, 0, 0⟩,
      .dqsteal ⟨0, 7, 4, 0, 8, 0, 0, 0, 0, 0, 0, 0⟩]
    let ok (bot : Nat) (i : Instr) : Bool :=
      let s := Tests.dequeState i bot
      (s.op? 7).any (fun o => (s.group? o.gid).any (fun g => o.instr.isDeque && s.chainReady o 0x20000 && s.inTurn o 0x20000 && s.lineFree 1 0x800 &&
        !s.farDeque o.asid.toNat 0x20000 && (s.chainLanes o 0x20000).all (fun p => p.1 == o && ((s.serve o 0x20000).scopeVerdict o 0x20000).isNone) &&
        (match s.resolve 1 0x20000 .write with
          | .ok (.line home a v hpa tr) => !tr.own &&
            let s0 := ((s.serve o 0x20000).fillHome home a v hpa).dirRecall a (v / 64)
            ((s.home? a (v / 64)).bind (·.busy)).isNone && (s0.home? a (v / 64)).any (fun h => h.scope.passes s g &&
              !poisonedAt h.poison 0 28 &&
              (let rd (k n : Nat) : Nat := leNat (lineBytes h.data k n)
               let r := (s.chainLanes o 0x20000).foldl (DequeRun.step o.instr 1 0x20000 (rd 16 8) (2 ^ (rd 24 4 % 64))) ⟨s0, ⟨rd 0 8, rd 8 8⟩, [], [], [], false, 0⟩
               decide (1 ≤ rd 24 4 % 64) && decide (rd 24 4 % 64 ≤ 20) && rd 16 8 % 8 == 0 && !r.bad && r.faults.isEmpty &&
               (match (if r.ends = ⟨rd 0 8, rd 8 8⟩ then Except.ok (r.s, h.lr)
                  else r.s.homeApply home a v hpa (natBytes 8 r.ends.top ++ natBytes 8 r.ends.bot) tr.trk) with
                | .ok (s1, _) => (s1.home? a (v / 64)).isSome
                | .error _ => false)))
          | _ => false)))
    let far := Tests.farHeader
    [words.all (ok 2), words.all (ok 0), words.all (ok 8),
     (far.op? 7).any (fun o => o.instr.isDeque && far.chainReady o 0x2000000030000 && far.inTurn o 0x2000000030000 &&
       far.farDeque 1 0x2000000030000)].all id = true := by decide +kernel

/-- Hypotheses of `FencesComplete`: a hold whose conditions are met, and one that a load keeps; a PROMOTE whose line has no
record, the victim's record, and another core's. -/
theorem witness_FencesComplete :
    let hold : Hold := ⟨9, 3, 1, 0, 0xFF⟩
    let f := Tests.grp (fun g => { g with holds := [hold] })
    let b := { f with ops := [Tests.loadOp .todo] }
    let pr (r : ScopeRec) : State := { Tests.running { Tests.op (.promote ⟨0, 7, 0, 0, 264, 266, 268, 768, 0, 0, 0, 0⟩) false 0x20000 with
      lanes := [⟨0, 0x20000, 0, 3, 0, [], .todo⟩] } with home := [{ Tests.homeLine with scope := r }] }
    let mine (s : State) (p : ScopeRec → Group → Bool) : Bool := (s.op? 7).any (fun o => (s.group? 4).any (fun g =>
      !s.victimBusy o 3 && s.lineFree 1 0x800 && s.resident 4 && o.lanes.all (fun l => !s.shutLane o l) && o.lanes.all (fun l => l.view == 0 && l.data == 0) && (s.home? 1 0x800).any (fun h => p h.scope g)))
    [(f.op? 9).isNone && (f.group? 4).any (fun g => f.holdDone g hold), (b.op? 9).isNone && (b.group? 4).any (fun g => !b.holdDone g hold),
     (let d := Tests.running (Tests.op (.drop ⟨0, 7, 0, 0, 264, 266, 268, 0, 0, 0, 0, 0⟩) false 0x20000)
      (d.op? 7).any (fun o => o.lanes.length == 1 && d.resident o.gid) && !({ d with wgs := [] } : State).resident 4),
     mine (pr ScopeRec.none) (fun h _ => !h.valid),
     mine (pr ⟨true, 0, 3, 0, 9, 9, 9⟩) (fun h g => h.valid && !h.includes (pr h) g && h.core == 3),
     mine (pr ⟨true, 0, 2, 0, 9, 9, 9⟩) (fun h g => h.valid && !h.includes (pr h) g && h.core != 3)].all id = true := by decide +kernel

/-- Hypotheses of `LogEntriesReplay`: a serviced entry, one not serviced yet, and a chain withdrawn at a slot edge. -/
theorem witness_LogEntriesReplay :
    let logged (st : LogState) (f : LaneFault) : State := Tests.running { Tests.loadOp (.logged f) with log := st }
    let ready (s : State) : Bool := (s.op? 7).any (fun o => s.groupActive o.gid && s.ops.all (fun p => p.id == o.id) &&
      o.lanes.any (fun l => l.isLogged && !l.withdrawn) && o.lanes.all (fun l => !l.isTodo) &&
      (o.log == .replay || (o.log == .reported && s.depthCleared o)))
    [ready (logged .replay Tests.fault), !ready (logged .reported Tests.fault),
     let s := logged .raised { Tests.fault with cause := 0 }
     (s.op? 7).any (fun o => s.groupActive o.gid && o.lanes.any LaneReq.withdrawn && o.instr.enginePath == some 0)].all id = true := by
  decide +kernel

/-- Hypotheses of `TranslationWalks`: a lane that waits for a walk which finds a page, and which faults; a path that waits for a line. -/
theorem witness_TranslationWalks :
    let s (a : W64) : State := { Tests.running (Tests.op (.ld Tests.ld) false a) with tlb := [] }
    let waits (u : State) (ok : Bool) : Bool := (u.op? 7).any (fun o => (o.lane? 0).any (fun l => l.isTodo && o.instr.tiles == [] &&
      o.instr.enginePath == some 0 && !isCacheOp o.instr && u.resident o.gid && !u.shutLane o l && u.walkFirst o l && (u.asid? 1).any (fun c =>
        match u.resolve 1 l.addr.toNat (Instr.needOf o.instr), walk u c l.addr.toNat (Instr.needOf o.instr) with
        | .ok _, .ok _ => ok
        | .error _, _ => !ok
        | _, _ => false)))
    let t := Tests.thr (fun _ x => { x with wait := .fetch 0x10000 none })
    let full : State := { s 0x20000 with tlb := List.replicate 2048 ⟨0, 0, 7, 0, 16, 0, true, true, false⟩ }
    [waits (s 0x20000) true, waits (s 0x50000) false, waits full true && full.tlb.length == 2048,
     (t.group? 4).any (fun g => decide (g.threads.length ≤ 64) && g.nextTrap.isNone && !g.stopped && !g.retired && g.threads.all (fun x => x.pc == 0x10004 && !x.exited) &&
       (match t.codeLine 1 0x10000 with
         | .ok l => [1, 0xFF].all (fun m => (t.lineFault g m 0x10004 l).isNone)
         | .error _ => false))].all id = true := by decide +kernel

/-- The home line of 0x20000 with another directory state, and the copy of it at die 1. -/
def Tests.dirState (d : DirState) (own : Nat) (busy : Option Busy) : State :=
  { Tests.mapped with home := [{ Tests.homeLine with dir := d, owner := own, busy := busy }] }

/-- Hypotheses of `DirectoryRequests`: each directory state that a clause names, with the requester die 1 and the owner die 2, and a busy line. -/
theorem witness_DirectoryRequests :
    let ok (s : State) (p : HomeLine → Bool) : Bool := match s.resolve 1 (0x800 * 64) .read with
      | .ok (.line home a v _ _) => home == 0 && (s.home? a (v / 64)).any p && (s.rdc? 1 1 0x800).isNone && (s.notice? 1 a (v / 64)).isNone &&
        !s.shut 1 (0x800 * 64) 64
      | _ => false
    [([.i, .s, .e, .m, .o] : List DirState).all (fun d => ok (Tests.dirState d 2 none) (fun h => h.busy.isNone && h.dir == d && h.owner != 1)),
     ok (Tests.dirState .m 2 (some ⟨.readMiss, [2], []⟩)) (fun h => h.busy.isSome),
     ok { Tests.mapped with home := [{ Tests.homeLine with queue := [(0, .readMiss)] }] } (fun h => h.queue == [(0, .readMiss)] && h.busy.isNone)].all id = true := by decide +kernel

/-- Hypotheses of `DirectoryForwards` and `ReplacementNotices`: each request waiting for the owner die 2, whose copy it holds; a
notice of die 2, of each kind and of another. -/
theorem witness_DirectoryForwards :
    let fwd (r : DirReq) : State := { Tests.dirState .m 2 (some ⟨r, [2], []⟩) with rdc := [⟨2, 1, 0x800, 0, .m, 5, 0, 0, ScopeRec.none⟩] }
    let note (d : DirState) : State := { Tests.dirState d 2 none with notices := [⟨2, 1, 0x800, d, 5, 0, 0, ScopeRec.none⟩] }
    [([.getS 1, .getM 1, .readMiss, .recall] : List DirReq).all (fun r => ((fwd r).home? 1 0x800).any (fun h => h.busy == some ⟨r, [2], []⟩ &&
       h.queue.isEmpty && h.dir == .m && h.owner == 2 && ((fwd r).rdc? 2 1 0x800).isSome && ((fwd r).notice? 2 1 0x800).isNone &&
       ((fwd r).rdc? 1 1 0x800).isNone)),
     ([.s, .e, .m, .o] : List DirState).all (fun d => ((note d).notice? 2 1 0x800).any (fun n => n.st == d &&
       ((note d).home? 1 0x800).any (fun h => h.busy.isNone)))].all id = true := by decide +kernel

/-! ### Traversal, barriers, queues, tasks -/

/-- A ray from the origin along z, and a traversal of it from 0x20000 on. -/
def Tests.ray : Ray := ⟨0, 0, 0, 0, 0, 0x3F800000⟩

def Tests.walk : TravWalk :=
  { root := 0x20000, org := Tests.ray, tmin := ⟨0, 1⟩, tlim := some ⟨2, 1⟩, flags := 0, view := none, best := none, stack := [], trail := []
    marks := [], todo := .node 0 0x20000 Tests.ray 0xFFFFFFFF 0 }

/-- The traversal suspended at a candidate. -/
def Tests.suspended : Trav := ⟨some ⟨Tests.walk, ⟨⟨1, 1⟩, ⟨0, 1⟩, ⟨0, 1⟩, 0, 0, Tests.ray, 0, 0, 0, 0, 0⟩⟩, none⟩

/-- A triangle at distance 1 that the ray meets, which asks for a candidate, facing one way and the other. -/
def Tests.triangle (turned : Bool) : List Byte :=
  let m : Nat := 0xBF800000
  let p : Nat := 0x3F800000
  let corners := [[m, m, p], if turned then [0, p, p] else [p, m, p], if turned then [p, m, p] else [0, p, p]]
  (corners.flatten ++ [7, 1, 0]).flatMap (natBytes 4)

/-- Hypotheses of `TraversalsComplete`: a lane that begins with a void ray, one whose traversal stands at a step, one whose
BVHCHK has a misaligned and a high address; a suspended traversal that TRESUME takes on, and none. -/
theorem witness_TraversalsComplete :
    let trace : Instr := .trace ⟨0, 7, 4, 0, 8, 12, 0, 0, 0, 0, 0, 0⟩
    let resume : Instr := .tresume ⟨0, 7, 4, 0, 8, 0, 0, 0, 0, 0, 0, 0⟩
    let chk : Instr := .bvhchk ⟨0, 7, 4, 0, 8, 0, 0, 0, 0, 0, 0, 0⟩
    let ray : List W32 := [0, 0, 0, 0, 0, 0, 0x3F800000, 0x40000000]
    let at' (i : Instr) (a : W64) (srcs : List W32) : State := Tests.running { Tests.op i false a with lanes := [⟨0, a, 0, 0, 0, srcs, .todo⟩] }
    let begins (s : State) (old : Trav) (p : Except TravStop TravLane → Bool) : Bool := (s.op? 7).any (fun o => (o.lane? 0).any (fun l =>
      (s.group? 4).isSome && (isTravState o.instr || isBvhchk o.instr) && s.travReady o l && (s.travRun 7 0).walk.isNone &&
      p (s.travBegin o l old)))
    let codes (ws : List W32) (r : Except TravStop TravLane) : Bool := match r with
      | .ok (.done v _) => v == ws
      | _ => false
    let runs (r : Except TravStop TravLane) : Bool := match r with
      | .ok (.run _) => true
      | _ => false
    [begins (at' trace 0x20000 (List.replicate 8 0x7FC00000)) ⟨none, none⟩ (codes [0x7F800000, 0, 0, 0, 0, 0]),
     begins (at' trace 0x50000 ray) ⟨none, none⟩ (fun r => match r with
       | .ok (.run w) => match w.run ((at' trace 0x50000 ray).travRead (Tests.op trace false 0x50000) 0 none) travSteps with
         | .out (.fault _) => true
         | _ => false
       | _ => false),
     begins (at' resume 0 [3]) ⟨none, none⟩ (codes [0x7F800000, 0, 0, 0, 0, 5]),
     begins (at' resume 0 [0]) Tests.suspended runs,
     begins (at' resume 0 [1]) Tests.suspended runs, begins (at' resume 0 [2]) Tests.suspended (codes [0x7F800000, 0, 0, 0, 0, 0]),
     (let s : State := { at' resume 0 [3] with wgs := [] }
      (s.op? 7).any (fun o => o.lanes.all (fun l => !s.travReady o l))),
     begins (at' chk 0x20020 []) ⟨none, none⟩ (codes [2]), begins (at' chk (2 ^ 57) []) ⟨none, none⟩ (codes [3]),
     rayOf (List.replicate 8 0x7FC00000) == none, (rayOf ray).isSome].all id = true := by decide +kernel

/-- Hypotheses of `TraversalSteps`: a stack of seven and of eight; a node at levels 31 and 32, at a good and a misaligned address,
whose record is sound and defective; a triangle that the ray meets from either side. -/
theorem witness_TraversalSteps :
    let e (k : Nat) : TravEntry := ⟨k, Tests.ray, 0, 0, ⟨0, ⟨0, 1⟩, none, 0, 0, 0⟩⟩
    let full := (List.range 8).map e
    let hit (turned : Bool) (p : Int → Bool) : Bool := (triHit (Tests.triangle turned) Tests.ray ⟨0, 1⟩ (some ⟨2, 1⟩)).any (fun h => p h.2.2.2.1)
    [{ Tests.walk with stack := full.take 7 }.stack.length == 7, full == full.take 7 ++ [e 7] && full.length == 8,
     addrCode 0 0x20000 == 0, addrCode 0 0x20020 != 0, recCode 0 (List.replicate 64 0) == 0, recCode 0 (List.replicate 64 0xFF) != 0,
     hit false (fun dn => decide (0 < dn)), hit true (fun dn => decide (dn < 0)),
     (recWord (Tests.triangle false) 0x28 4).testBit 0].all id = true := by decide +kernel

/-- Hypotheses of `BarrierArrivals`: every thread of a group that has not arrived issues, for the last barrier of each kind; BARW after
an arrival in the open phase and for the next one. -/
theorem witness_BarrierArrivals :
    let s := Tests.ready 8
    let bar (i : Instr) (k : Nat) : Bool := Tests.meets s i (fun c => c.act != [] && c.g.live.all c.act.contains &&
      s.barrier c.w k == Barrier.fresh && c.w.bars.length == 16 && (s.cluster? c.w.cid).any (·.cbars.length == 4))
    let after (b : Barrier) := s.modWg 3 (fun w => { w with bars := w.bars.set 15 b })
    [bar (.bar { Tests.bare with imm := 15 }) 15, bar (.bara { Tests.bare with imm := 31 }) 15, bar (.cbar { Tests.bare with imm := 3 }) 19,
     bar (.sstep { Tests.bare with d := 260 }) 20,
     ([.bar { Tests.bare with gp := 0 }, .bara { Tests.bare with gp := 0 }, .cbar { Tests.bare with gp := 0 },
       .sstep { Tests.bare with gp := 0, d := 260 }] : List Instr).all (fun i => Tests.meets s i (fun c => c.act == [])),
     Tests.meets (after ⟨0, some 2, [(4, 1)], [], [], []⟩) (.barw { Tests.bare with imm := 15 }) (fun c =>
       c.act != [] && (c.s.barrier c.w 15).arrived.any (fun a => a.1 == 4)),
     Tests.meets (after ⟨0, some 2, [(5, 1)], [(4, 1, 2)], [], []⟩) (.barw { Tests.bare with imm := 15 }) (fun c =>
       (c.s.barrier c.w 15).next.any (fun e => e.1 == 4))].all id = true := by decide +kernel

/-- Hypotheses of `BarrierPhases`: a complete phase of each kind, and one that is not. -/
theorem witness_BarrierPhases :
    let full : Barrier := ⟨0, some 0, [(4, 1)], [], [], []⟩
    let s := (((Tests.ready 8).modWg 3 (fun w => { w with bars := (w.bars.set 0 full).set 15 full })).modCluster 2 (fun c => { c with
      cbars := (c.cbars.set 0 full).set 3 full })).modLaunch 1 (fun l => { l with sstep := full })
    let t := s.modWg 3 (fun w => { w with bars := w.bars.set 0 ⟨0, some 2, [(4, 1)], [], [], []⟩ })
    [(s.wg? 3).any (fun w => [0, 15, 16, 19, 20].all (s.barrierMet w) && w.bars.length == 16 &&
       s.wgs.find? (fun x => x.cid == w.cid) == some w && s.wgs.find? (fun x => x.lid == w.lid) == some w),
     (t.wg? 3).any (fun w => !t.barrierMet w 0 && !t.barrierMet w 1)].all id = true := by decide +kernel

/-- `Tests.ready 8` with queue 15 of its cluster at value v, allowances and pushers given. -/
def Tests.queue (v : W64) (allow : List (Nat × Nat × Nat)) (pushers : List Nat) (f : Group → Group) : State :=
  (Tests.grp f).modCluster 2 (fun c => { c with
    qbs := c.qbs.set 15 v, allow := allow, pushers := c.pushers.set 15 pushers, qslots := [(15, 3, 0x100)] })

/-- Hypotheses of `QueueInstructions`: a queue that is declared and empty, declared and not empty, and not declared; a good descriptor
and a bad one; registers that exist, and that do not. -/
theorem witness_QueueInstructions :
    let x : XForm := { Tests.bare with imm := 15 }
    let s (v d : W64) := Tests.queue v [(15, 4, 2)] [] (fun g => { g with sregs := g.sregs.set 8 d })
    let ok (s : State) (i : Instr) (p : W64 → Ctx → Bool) : Bool := Tests.meets s i (fun c => c.act != [] && (s.cluster? c.w.cid).any (fun cl =>
      decide (15 < cl.qbs.length) && p (cl.qb 15) c))
    let bad (c : Ctx) : Bool := let d := c.uval 1
      d &&& ~~~0x00003F3F0F3FFFFF != 0 || qNs d == 0 || (qAddr d).toNat % 16 != 0 ||
        (c.s.scratchTarget c.w (qAddr d) ((qNs d + 1) * qBytes d)).isNone
    let short (v : W64) (c : Ctx) (base : Nat) : Bool := decide (c.vd.regs ≤ base + (qBytes v / 4 - 1) / c.g.width)
    let decl : Instr := .qdecl { x with a := 264 }
    let empty : W64 := 0x8000000100000100
    let one : W64 := 0x8040000100000100
    let big : W64 := 0x800000010F000100
    [ok (s one 0x100000100) decl (fun v _ => v.getLsbD 63 && qCnt v == 1), ok (s empty 0x100000100) decl (fun v c => qCnt v == 0 && !bad c),
     ok (s 0 0x100000100) decl (fun v c => !v.getLsbD 63 && !bad c), ok (s 0 0x100000108) decl (fun _ c => bad c),
     ok (s 0 0x100) decl (fun _ c => bad c), ok (s 0 0x8000000100000100) decl (fun _ c => bad c),
     ok (s 0 0) (.qtry { x with d := 4 }) (fun v _ => !v.getLsbD 63), ok (s one 0) (.qtry { x with d := 4 }) (fun v _ => v.getLsbD 63),
     ok (s 0 0) (.qpush { x with a := 8 }) (fun v _ => !v.getLsbD 63), ok (s empty 0) (.qpush { x with a := 8 }) (fun v c => !short v c 8),
     ok (s big 0) (.qpush { x with a := 248 }) (fun v c => !short v c 248), ok (s big 0) (.qpush { x with a := 249 }) (fun v c => short v c 249),
     ok (s 0 0) (.qpop { x with d := 4 }) (fun v _ => !v.getLsbD 63), ok (s one 0) (.qpop { x with d := 4 }) (fun v c => !short v c 4),
     ok (s big 0) (.qpop { x with d := 249 }) (fun v c => short v c 249)].all id = true := by decide +kernel

/-- Hypotheses of `QueuesProceed`: a pusher with an allowance and a free slot; a popper with an entry, whole and with a bad byte; a full
queue and an empty one; a waiter of a queue that is no longer declared, and one whose registers no longer exist. -/
theorem witness_QueuesProceed :
    let waits (w : Wait) (g : Group) : Group := g.modThreads (fun _ => true) (fun _ t => { t with wait := w })
    let pushing (v : W64) (reg : Nat) := Tests.queue v [(15, 4, 2)] [] (waits (.qpush 7 15 reg 0 [1, 2, 3, 4]))
    let popping (v : W64) (reg : BitVec 9) := Tests.queue v [(15, 4, 1)] [4] (waits (.qpop 7 15 0 reg))
    let ok (s : State) (ws : List QueueWait) (p : Cluster → QueueWait → Bool) : Bool := (s.cluster? 2).any (fun c => !s.justSet c 15 &&
      decide (15 < c.qbs.length) && decide (15 < c.pushers.length) && c.qslots.find? (fun e => e.1 == 15) == some (15, 3, 0x100) &&
      ws.all (fun r => ws.all (fun p => p.key == r.key && p.gid == 4 && p.tok == 7)) && ws.length == 8 && ws.all (p c))
    let suits (s : State) (c : Cluster) (r : QueueWait) : Bool := (s.waitFault (c.qb 15) r).isNone
    let empty : W64 := 0x8000000100000100
    let one : W64 := 0x8040000100000100
    let full : W64 := 0x8080000100000100
    let big : W64 := 0x804000010F000100
    let bad : State := { popping one 4 with badScratch := [(3, 0x20)] }
    let push (s : State) := ok s (s.pushWaits 2 15)
    let pop (s : State) := ok s (s.popWaits 2 15)
    [push (pushing empty 8) (fun c r => suits (pushing empty 8) c r && c.allowance 15 4 != 0 && qCnt (c.qb 15) != qNs (c.qb 15) + 1 &&
       (pushing empty 8).groups.any (fun g => (pushing empty 8).writesDone g 7 2)),
     push (pushing full 8) (fun c r => suits (pushing full 8) c r && qCnt (c.qb 15) == qNs (c.qb 15) + 1),
     push (pushing 0 8) (fun c r => !suits (pushing 0 8) c r), push (pushing big 249) (fun c r => !suits (pushing big 249) c r),
     pop (popping one 4) (fun c r => suits (popping one 4) c r && qCnt (c.qb 15) == 1 && !(popping one 4).oldestBad c 15 && r.reg == 4),
     pop bad (fun c r => suits bad c r && qCnt (c.qb 15) == 1 && bad.oldestBad c 15),
     pop (popping empty 4) (fun c r => suits (popping empty 4) c r && qCnt (c.qb 15) == 0),
     (let s := (popping one 4).modCluster 2 (fun c => { c with qbSet := [(15, (popping one 4).cycle 0)] })
      (s.cluster? 2).any (fun c => s.justSet c 15)),
     pop (popping 0 4) (fun c r => !suits (popping 0 4) c r), pop (popping big 249) (fun c r => !suits (popping big 249) c r)].all id
      = true := by decide +kernel

/-- Hypotheses of `DequesIssue`: active lanes whose addresses do not fault, and none. -/
theorem witness_DequesIssue :
    let words (p : BitVec 3) : List Instr := [.dqpush ⟨0, p, 0, 0, 8, 0, 16, 0, 0, 0, 0, 0⟩, .dqpop ⟨0, p, 4, 0, 8, 0, 0, 0, 0, 0, 0, 0⟩,
      .dqsteal ⟨0, p, 4, 0, 8, 0, 0, 0, 0, 0, 0, 0⟩]
    [(words 7).all (fun i => Tests.meets (Tests.ready 8) i (fun c => c.act != [] && c.s.ops == [] && c.memLanes != [] &&
       c.memLanes.all (fun p => c.addrFault (c.ea p.2) == none && !c.meetsPoison (c.ea p.2)))),
     (words 0).all (fun i => Tests.meets (Tests.ready 8) i (fun c => c.act == []))].all id = true := by decide +kernel

/-- Hypotheses of `Migration`: a MIGRATE in a handler, with a thread not active, at 2^57, outside every region, to a die where the
partition has a core and to one where it has none; a group that waits to land at home, on its own die, and on another. -/
theorem witness_Migration :
    let x : MForm := ⟨0, 7, 0, 0, 264, 266, 511, 0, 0, 0, 0, 0⟩
    let at' (a : W64) := Tests.grp (fun g => { g with sregs := g.sregs.set 8 a })
    let far (owner : Option Nat) (s : State) : State := { s with
      quads := s.quads.set 16 { QuadState.idle with owner := owner }
      rows := [⟨1000, ((some 1 :: List.replicate 63 none).set 16 owner), []⟩]
      asids := s.asids.map (fun c => { c with regions := [(0, 0x80000100)] }) }
    let all (c : Ctx) : Bool := !c.g.inh && c.g.live.all c.act.contains
    let mig (s : State) (p : Ctx → Bool) : Bool := Tests.meets s (.migrate x) p
    let w (ea : W64) (queued : Option W64) (l : Option Landing) := Tests.grp (fun g => { g.modThreads (fun _ => true) (fun _ t =>
      { t with wait := .migrate 7 ea queued }) with landing := l })
    let waits (s : State) (p : Nat → Group → Bool) : Bool := (s.group? 4).any (fun g => (s.wg? g.wid).any (fun w => w.core == some 0) &&
      (g.migrateWait).any (fun m => (s.homeDie 1 m.2.1.toNat).any (fun d => p d g)))
    let ready (s : State) (p : Nat → Group → Bool) : Bool := waits s (fun d g => s.unstopped g && p d g &&
      (g.migrateWait).any (fun m => m.2.2.isSome || (s.readsDone g m.1 && s.writesDone g m.1 3 && s.ops.isEmpty)))
    let later (s : State) : State := { s with cores := modNth s.cores 0 (fun c => { c with cycle := 9 }) }
    let first (s : State) (g : Group) : Bool := s.groups.all (fun x => x.gid == g.gid || (match s.slotWait x with
      | some (_, _, t) => !s.waitsBefore x g t 5
      | none => true))
    let free (s : State) (core k : Nat) : Bool := s.coreInPart core 1 && s.edgeOpen core && s.groups.all (fun x => x.landing != some ⟨core, k⟩)
    [mig (Tests.handling id) (fun c => c.g.inh), Tests.meets (at' 0) (.migrate { x with gp := 0 }) (fun c => !all c && !c.g.inh),
     mig (at' (2 ^ 57)) (fun c => all c && decide (2 ^ 57 ≤ (c.ea 0).toNat)),
     mig (at' (2 ^ 57 - 1)) (fun c => all c && decide ((c.ea 0).toNat < 2 ^ 57) && (c.s.homeDie 1 (c.ea 0).toNat).isNone),
     mig (far none (at' 0)) (fun c => all c && c.s.homeDie 1 0 == some 1 && (List.range 64).all (fun k => !c.s.coreInPart (64 + k) 1)),
     mig (far (some 1) (at' 0)) (fun c => all c && c.s.homeDie 1 0 == some 1 && (List.range 64).any (fun k => c.s.coreInPart (64 + k) 1)),
     ready (w 0 none none) (fun d g => d == 0 && g.landing.isNone),
     ready (far (some 1) (w 0 none (some ⟨64, 0⟩))) (fun d g => d == 1 && (far (some 1) (w 0 none (some ⟨64, 0⟩))).groupDie g == 1),
     ready (w 0 none (some ⟨64, 0⟩)) (fun d g => d == 0 && g.landing.isSome),
     ready (far (some 1) (w 0 none none)) (fun d g => d == 1 && (far (some 1) (w 0 none none)).groupDie g == 0),
     (let s := far (some 1) (later (w 0 (some 5) none))
      ready s (fun d g => d == 1 && s.groupDie g == 0 && !g.retired && !g.stopped && g.landDie.isNone && first s g && free s 64 0 &&
        decide (5 < s.cycle (s.waitCore g)))),
     ready (far (some 1) (w 0 (some 5) none)) (fun d g => d == 1 && decide ((far (some 1) (w 0 (some 5) none)).cycle 0 ≤ 5) && !g.retired),
     (let s := w 0 none none
      waits { s with quads := modNth s.quads 0 (fun k => { k with edge := .stopped }) } (fun _ g =>
        !({ s with quads := modNth s.quads 0 (fun k => { k with edge := .stopped }) } : State).unstopped g)),
     ready (far none (w 0 (some 5) none)) (fun d _ => d == 1),
     Tests.meets (Tests.ready 8) (.priowg { Tests.bare with a := 264 }) (fun c => c.act != [])].all id = true := by decide +kernel

/-- Hypotheses of `TasksLaunch`: a record that ends at 2^57 and one above; a lane that reads its record, with the queue free and full. -/
theorem witness_TasksLaunch :
    let x : EForm := ⟨0, 7, 4, 8, 0, 0, 0⟩
    let at' (lo hi : W32) := Tests.grp (fun g => { g with vregs := (g.vregs.set 8 lo).set 9 hi })
    let s := Tests.running (Tests.op (.launch x) false 0x20000)
    let grant (s : State) (free : Bool) : Bool := (s.op? 7).any (fun o => (o.lane? 0).any (fun l => !l.isLogged && !s.launchBlocked o l && s.resident 4 && !s.shutLane o l &&
      s.releaseOk o && !s.needsWalk 1 l.addr.toNat && (match s.engineReadAll 1 l.addr.toNat 160 with
        | .ok (s1, bs, false) => s1.queueFree 1 == free && bs.length == 160
        | _ => false)))
    [Tests.meets (at' 0xFFFFFF60 0x1FFFFFF) (.launch x) (fun c => c.act.all (fun h => decide ((c.val 1 h).toNat + 160 ≤ 2 ^ 57))),
     Tests.meets (at' 0xFFFFFF68 0x1FFFFFF) (.launch x) (fun c => c.act.head? == some 0 && decide (2 ^ 57 < (c.val 1 0).toNat + 160)),
     grant s true && s.ops.all (fun o => o.lanes.all (fun l => !s.launchWaits o l)), (s.func? 1).isSome,
     (let two : LaneStage → State := fun st => { s with ops := s.ops.map (fun o => { o with lanes :=
        [⟨0, 0x20000, 5, 0, 0, [], st⟩, ⟨1, 0x20000, 5, 0, 0, [], .todo⟩] }) }
      let lane (s : State) (p : MemOp → LaneReq → Bool) : Bool := (s.op? 7).any (fun o => (o.lane? 1).any (p o))
      lane (two .todo) (fun o l => (two .todo).launchBlocked o l) &&
      lane (two .waiting) (fun o l => !(two .waiting).launchBlocked o l && (two .waiting).launchWaits o l))].all id = true := by decide +kernel

/-- Hypotheses of `TasksAwaited`: a TWAIT with and without an active lane; a wait whose task is done, and one whose task is not. -/
theorem witness_TasksAwaited :
    let x : XForm := ⟨0, 7, 4, 0, 8, 0, 0, 0, 0, 0, 0, 0⟩
    let w := Tests.thr (fun _ t => { t with wait := .twait 7 3 4 })
    let u : State := { w with funcs := w.funcs.map (fun f => { f with nextId := 8 }) }
    let d : State := { u with done := [⟨1, 3, 2, none, 0⟩] }
    let e : State := { u with queue := u.queue ++ [⟨1, 3, 0, loadRecord, [], 0, true, none, 0, false⟩] }
    [Tests.meets (Tests.ready 8) (.twait x) (fun c => c.act != []), Tests.meets (Tests.ready 8) (.twait { x with gp := 0 }) (fun c => c.act == []),
     d.taskStatus 1 3 == some 2, e.taskStatus 1 3 == none, (d.group? 4).any (fun g => g.threads.all (fun y => y.wait == .twait 7 3 4))].all id
      = true := by decide +kernel

/-! ### Engines and collectives -/

/-- A command of tag 16, issued at tick 7 and still queued. -/
def Tests.slot (i : Instr) : CmdSlot :=
  { tag := 16, st := 1, code := 0, freed := 0, tick := 7, pc := 0x10004, instr := i, a := 0, b := 0, c := 0, row := 0, off := 0
    fid := none, again := false, depth := none, performed := false, w := 0, round := none, deadline := 0, group := none, num := none
    told := false, data := none }

/-- Group 4 with these commands. -/
def Tests.cmds (l : List CmdSlot) : State := Tests.grp (fun g => { g with cmds := l })

def Tests.eng (cmd : BitVec 24) : EForm := ⟨0, 7, 260, 264, 266, 268, cmd⟩

/-- Hypotheses of `EngineCommandsIssue`: the path is whole, and not; fewer than 16 slots, and 16 of which one is free; a tag that names
its slot, and one that does not. -/
theorem witness_EngineCommandsIssue :
    let words (p : BitVec 3) : List Instr := let x : EForm := { Tests.eng 0 with gp := p }
      let y : EForm := { x with b := 0, c := 0 }
      [.cpy x, .gath x, .scat x, .publish y, .vhold y, .vrel y, .coll { x with b := 0 }, .mldred x, .halo y, .cpyw x, .cwait y, .estat y]
    let k := Tests.slot (.cpy (Tests.eng 0))
    [(words 7).all (fun i => Tests.meets (Tests.ready 8) i (fun c => c.act != [] && c.g.live.all c.act.contains && decide (c.g.cmds.length < 16))),
     (words 0).all (fun i => Tests.meets (Tests.ready 8) i (fun c => c.g.live.any (fun h => !c.act.contains h))),
     Tests.meets (Tests.cmds ((List.range 16).map (fun j => { k with st := if j = 15 then 3 else 1 }))) (.cpy (Tests.eng 0)) (fun c =>
       c.g.cmds.length == 16 && c.g.cmds.any (fun k => k.st == 3)),
     ((Tests.cmds [k]).group? 4).any (fun g => (g.cmds[0]?).any (fun k => k.tag == 16 && decide (k.code.toNat < 256)) && g.cmds[1]?.isNone)].all id
      = true := by decide +kernel

/-- Hypotheses of `EngineCommandsEnd`: effects made with the writes past and not; a copy of no byte and of one row within the
scratchpad; a CWAIT of a tag and of all, that goes on and that waits. -/
theorem witness_EngineCommandsEnd :
    let k := Tests.slot (.cpy (Tests.eng 3))
    let at' (w : W64) := Tests.cmds [{ k with performed := true, w := w }]
    let copy (c : W64) := Tests.cmds [{ k with a := 0x40, b := 0x80, c := c }]
    let runs (s : State) : Bool := (s.group? 4).any (fun g => (g.cmds[0]?).any (fun k => k.st == 1 && !k.performed && k.fid.isNone &&
      s.resident 4 && !g.pathBusy k && k.row == 0 && k.off == 0 && (s.wg? g.wid).any (fun w => (s.launch? w.lid).isSome)))
    let waiting (st : Nat) (tag : Option W32) : State := (Tests.cmds [{ k with st := st }]).modGroup 4 (fun g =>
      g.modThreads (fun _ => true) (fun _ t => { t with wait := .cwait 9 tag 0x104 9 }))
    let busy (s : State) (tag : Option W32) : Bool := (s.group? 4).any (fun g => g.threads.all (fun y => y.wait == .cwait 9 tag 0x104 9) &&
      (match tag with
        | some t => (g.cmds[t.toNat % 16]?).any (fun k => k.tag == t && k.st != 3)
        | none => g.cmds.any (fun k => k.st != 0 && k.st != 3 && decide (k.tick < 9))))
    [((at' 0).group? 4).any (fun g => (at' 0).past g 0), ((at' 1).group? 4).any (fun g => !(at' 1).past g 1), runs (copy 0x10000), runs (copy 0x10040),
     ((copy 0x10040).wg? 3).any (fun w => (copy 0x10040).scratchTarget w 0x80 64 == some (3, 0x80) &&
       (copy 0x10040).scratchTarget w 0x40 64 == some (3, 0x40) && !(copy 0x10040).scratchBad 3 0x80 64),
     busy (waiting 1 none) none, !busy (waiting 3 none) none, busy (waiting 1 (some 16)) (some 16), !busy (waiting 3 (some 16)) (some 16)].all id
      = true := by decide +kernel

/-- The loaded program with a field set at step 5 that holds step 3 m times. -/
def Tests.fieldSet (k : CmdSlot) (holds : List (W32 × Nat)) (pages : List TrackedPage) : State :=
  { Tests.cmds [k] with fsets := [⟨1, 2, [(0x20000, 0x30000)], 5, [0x50000], holds⟩], pages := pages }

/-- Hypotheses of `SnapshotCommands`: every step that a clause names, with a set that exists and that does not; a chain with a
released frame whose lines the newer frame has. -/
theorem witness_SnapshotCommands :
    let view (n : W64) : W64 := 2 ^ 33 ||| n
    let k (i : Instr) (n : W64) : CmdSlot := { Tests.slot i with a := view n }
    let p : TrackedPage := ⟨1, 2, 1, 2, 0x20000, [⟨0x20000, 4, 1, .current, none⟩, ⟨0x30000, 0, 1, .released, some 4⟩]⟩
    let ok (s : State) (q : Group → CmdSlot → FieldSet → Bool) : Bool := (s.group? 4).any (fun g => (g.cmds[0]?).any (fun k =>
      k.st == 1 && !k.performed && k.fid.isNone && s.resident 4 && !g.pathBusy k && decide (k.a.toNat < 2 ^ 38) &&
      (s.fset? 1 (k.a.toNat / 2 ^ 32 % 64)).any (q g k)))
    let e := Tests.eng 0
    let s (i : Instr) (n : W64) (h : List (W32 × Nat)) := Tests.fieldSet (k i n) h []
    [ok (s (.publish e) 5 []) (fun g k f => (s (.publish e) 5 []).writesDone g k.tick 4 && (s (.publish e) 5 []).past g k.w &&
       (s (.publish e) 5 []).acks == [] && f.wstep == 5),
     ok (s (.publish e) 4 []) (fun _ k f => k.a.setWidth 32 != f.wstep),
     ok ({ s (.publish e) 5 [] with ops := [{ Tests.op (.st Tests.ld) false 0x20000 with id := 5 }] }) (fun g k _ =>
       !({ s (.publish e) 5 [] with ops := [{ Tests.op (.st Tests.ld) false 0x20000 with id := 5 }] } : State).writesDone g k.tick 4),
     ok (Tests.fieldSet (k (.vhold e) 3) [] [p]) (fun _ _ f => (Tests.fieldSet (k (.vhold e) 3) [] [p]).stepLost f 3), ok (s (.vhold e) 4 []) (fun _ _ f => !(s (.vhold e) 4 []).stepLost f 4),
     ok (s (.vhold e) 4 ((List.range 16).map (fun j => (BitVec.ofNat 32 (100 + j), 1)))) (fun _ _ f => f.holds.length == 16),
     ok (s (.vhold e) 4 [(4, 65535)]) (fun _ _ f => f.holds.find? (fun h => h.1 == 4) == some (4, 65535)),
     ok (s (.vhold e) 4 [(4, 65534)]) (fun _ _ f => f.holds.find? (fun h => h.1 == 4) == some (4, 65534)),
     ok (s (.vrel e) 4 []) (fun _ _ f => f.holds == []), ok (s (.vrel e) 4 [(4, 1)]) (fun _ _ f => f.holds != []),
     decide ((Tests.slot (.vrel e)).a.toNat < 2 ^ 38) && ((s (.vrel e) 4 []).fset? 1 0).isNone,
     let t := Tests.fieldSet (k (.vrel e) 4) [] [p]
     t.pages.find? (fun q => q.part == 1 && q.fset == 2 && q.asid == 1 && q.page == 2) == some p && !t.isPinned 0x30000].all id = true := by
  decide +kernel

/-- The loaded program's partition as rank 0 of 2 in a formed group 7, with one round of the kind. -/
def Tests.collective (kind : Nat) (arrivals : List ArrivalMsg) (closed : Bool) : State :=
  { Tests.cmds [{ Tests.slot (.coll { Tests.eng 0 with b := 0 }) with c := 7, round := some 0 }] with
    colls := [⟨1, 7, 0, 2, 100, 1, 0x20000, 0x10000, [⟨0, 0, 2, false⟩, ⟨1, 1, 2, false⟩], false, []⟩]
    rounds := [⟨1, 7, kind, 0, 0, arrivals, closed, false, false, false, false, false, [], []⟩] }

/-- Hypotheses of `CollectiveArrivals`: an MLDRED not started, whose group is joined, with its stores done and not. -/
theorem witness_CollectiveArrivals :
    let x := Tests.eng 5
    let s : State := { Tests.cmds [{ Tests.slot (.mldred x) with a := 0x40, b := 0x80, c := 7 }] with
      colls := (Tests.collective 0 [] false).colls }
    let busy : State := { s with ops := [{ Tests.op (.st Tests.ld) false 0x20000 with id := 5 }] }
    let starts (s : State) (done : Bool) : Bool := (s.group? 4).any (fun g => (g.cmds[0]?).any (fun k => k.st == 1 && !k.performed &&
      k.fid.isNone && k.round.isNone && k.num.isNone && !k.told && (s.wg? g.wid).any (fun w => (s.launch? w.lid).any (fun la => la.part == 1)) &&
      (s.coll? 1 7).any (fun c => c.part == 1 && c.group == 7 && !c.conflicted && (s.round? 1 7 0 0x80 (c.count 0 k.b + 1)).isNone) &&
      s.writesDone g k.tick 5 == done))
    [starts s true, starts busy false].all id = true := by decide +kernel

/-- Hypotheses of `CollectiveEvents` and `RoundsSettle`: a port up; a round not known and one known, which has ended and has not, late
and not; a halo round with and without a row that is not acknowledged; a group joined; a round that completes, one that has closed, and
one that is told of, at its end. -/
theorem witness_CollectiveEvents :
    let s := Tests.collective 1 [] false
    let late (s : State) : Bool := s.groups.any (fun g => g.cmds.any (fun k => s.partOfGroup g == some 1 && k.st == 1 && !k.performed &&
      k.round == some 0 && decide (k.deadline ≤ s.time (s.groupDie g)) && k.collGroup == some 7 && k.collKey == (1, 0)))
    let h := Tests.collective 2 [] false
    let sent : State := { h with sends := [⟨1, 7, 0, 1, 4, 0, 3, 0, [1]⟩] }
    let mine (s : State) : Bool := s.sends.any (fun e => e.part == 1 && e.group == 7 && e.round == 0 && e.rank == 1)
    let from' (r : Nat) : ArrivalMsg := ⟨1, 7, 1, 0, 0, r, 0, 0, 0, [], false, false, [], []⟩
    let full := Tests.collective 1 [from' 0, from' 1] false
    let ends (s : State) (f : Round → Bool) : Bool := s.settleRounds.rounds.any f
    let mod (f : Round → Round) : State := { s with rounds := s.rounds.map f }
    [s.linked, (s.round? 1 7 1 0 1).isNone, (s.round? 1 7 1 0 0).any (fun r => !r.ok && !r.closed), late s, !late { s with groups := [] },
     ((Tests.collective 1 [] true).round? 1 7 1 0 0).any (·.closed), (h.round? 1 7 2 0 0).isSome && !mine h, mine sent,
     (s.coll? 1 7).any (fun c => c.members == 2), ends full (·.ok), ends (mod (fun r => { r with closing := true })) (·.closed),
     ends (mod (fun r => { r with expired := true })) (·.closed), ends s (fun r => !r.ok && !r.closed)].all id = true := by decide +kernel

/-- Hypotheses of `PeerTraffic`: a group not joined, another rank, the last offset of the window and the first past it; a port on
which nothing is in flight. -/
theorem witness_PeerTraffic :
    let s := Tests.collective 1 [] false
    let w : State := { s with tlb := Tests.mapped.tlb }
    [s.linked && peerCarried (.read 64) && peerCarried (.write [1]), !peerCarried (.read 65), !({ s with portUp := 0 } : State).linked,
     (match w.peerStore 1 0x20000 [1, 2, 3, 4] with
       | .ok _ => true
       | _ => false),
     (s.coll? 1 8).isNone, (s.coll? 1 7).any (fun c => !s.shutIn c.wasid && c.formed && c.rank == 0 && decide (0xFFFF < c.wlen) && decide (c.wlen ≤ 0x10000) &&
       (match s.engineReadAll c.wasid (c.wbase + 0xFFC0) 64 with
         | .ok (_, _, false) => true
         | _ => false)), (s.part? 1).isSome, s.ops == []].all id = true := by decide +kernel

/-! ### Matrix engine -/

/-- Tiles 4, 8 and 12 as 8 × 8 of FP32, tile 5 as E8M0, tile 6 one row of FP32; group 4 at a landing. -/
def Tests.tiled (l : Option Landing) : State :=
  (Tests.grp (fun g => { g with landing := l })).modWg 3 (fun w => { w with tiles := w.tiles.mapIdx (fun j t =>
    { t with tsh := if j = 5 then 0x3879 else if j = 6 then 0x3801 else if j < 16 then 0x3871 else 15 }) })

/-- The forms of `MatrixInstructionsIssue` with operands whose shapes pass, and with tiles of a reserved format. -/
def Tests.matrixForms (p : BitVec 3) (good : Bool) : List Instr :=
  let k (n : BitVec 9) : BitVec 9 := if good then n else n + 16
  let x : XForm := ⟨0, p, k 4, 0, k 8, k 12, 0, 0, 0, 0, 0, 0⟩
  let checked : List Instr := [.mxscl { x with a := k 5, b := 0 }, .tmovv { x with a := 8, b := 0, c := 268 }, .tmovt { x with d := 4, b := 0, c := 268 },
    .mma x, .gmma { x with c := 16 }, .tcvt { x with b := 0 }, .tadd x, .tscale { x with b := 0, c := 268 }, .tred { x with d := k 6, b := 0 }]
  if good then [.tshape { x with a := 264, b := 0 }, .tzero { x with a := 0, b := 0 }, .mxsclFill { x with a := 0, b := 0, imm := 256 }] ++ checked
  else checked

/-- Hypotheses of `MatrixInstructionsIssue`: each form migrated, partial, and whole, where its shapes pass and where they do not. -/
theorem witness_MatrixInstructionsIssue :
    let whole (c : Ctx) : Bool := c.g.live.all c.act.contains
    let caps (i : Instr) (c : Ctx) : Bool := i.tiles.all (fun k => (c.shapeOf k).capOk)
    let s := Tests.tiled none
    [(Tests.matrixForms 7 true).all (fun i => Tests.meets (Tests.tiled (some ⟨4, 0⟩)) i (fun c => c.g.landing.isSome)),
     (Tests.matrixForms 0 true).all (fun i => Tests.meets s i (fun c => c.g.landing.isNone && !whole c)),
     (Tests.matrixForms 7 true).all (fun i => Tests.meets s i (fun c => c.g.landing.isNone && whole c && caps i c)),
     (Tests.matrixForms 7 false).all (fun i => Tests.meets s i (fun c => c.g.landing.isNone && whole c && !caps i c)),
     Tests.meets s (.mma ⟨0, 7, 4, 0, 8, 12, 0, 0, 0, 0, 0, 0⟩) (fun c =>
       (MulReq.err ⟨4, 8, 12, 0, 0, none⟩ (c.shapeOf 4) (c.shapeOf 8) (c.shapeOf 12) (s.mxcapOf c.core)).isNone),
     Tests.meets s (.gmma ⟨0, 7, 4, 0, 8, 12, 16, 0, 0, 0, 0, 0⟩) (fun c =>
       let list := c.gmmaList ⟨0, 7, 4, 0, 8, 12, 16, 0, 0, 0, 0, 0⟩
       let es := gmmaEntries false list.1
       list.2.2.isNone && (MulReq.err ⟨4, 8, 12, 0, 0, some (1, es.1, es.2 || list.2.1)⟩ (c.shapeOf 4) (c.shapeOf 8) (c.shapeOf 12)
         (s.mxcapOf c.core)).isNone),
     Tests.meets s (.tcvt ⟨0, 7, 4, 0, 8, 0, 0, 0, 0, 0, 0, 0⟩) (fun c => (tcvtErr 4 8 (c.shapeOf 4) (c.shapeOf 8) false).isNone),
     Tests.meets s (.tadd ⟨0, 7, 4, 0, 8, 12, 0, 0, 0, 0, 0, 0⟩) (fun c =>
       (taddErr [(4, c.shapeOf 4), (8, c.shapeOf 8), (12, c.shapeOf 12)] true 0 0).isNone),
     Tests.meets s (.tred ⟨0, 7, 6, 0, 8, 0, 0, 0, 0, 0, 0, 0⟩) (fun c => (tredErr 6 8 (c.shapeOf 6) (c.shapeOf 8) 0 0 0).isNone),
     Tests.meets s (.mxscl ⟨0, 7, 4, 0, 5, 0, 0, 0, 0, 0, 0, 0⟩) (fun c => (c.shapeOf 5).fmt == 9 && decide ((c.shapeOf 5).count ≤ 512)),
     Tests.meets s (.tmovv ⟨0, 7, 4, 0, 8, 0, 268, 0, 0, 0, 0, 0⟩) (fun c => decide (0 < (c.shapeOf 4).rows) && (c.shapeOf 4).lineBits false % 8 == 0)].all
      id = true := by decide +kernel

/-- Hypotheses of `SignedMultiplies`: migrated, without an active lane, no member, a signature that is not the last, the last with shapes
that pass and that do not. -/
theorem witness_SignedMultiplies :
    let x : XForm := ⟨0, 7, 4, 0, 8, 12, 0, 0, 0, 0, 0, 0⟩
    let s (l : Option Landing) (m : W64) : State := (Tests.tiled l).modGroup 4 (fun g => { g with cvs := g.cvs.set 0 m })
    let same (c : Ctx) : Bool := (c.g.mmas.find? (fun r => r.cv == 0)).isNone
    let err (c : Ctx) (x : XForm) : Bool := (c.s.roundErr c.core c.w ⟨0, x, 0, c.pc⟩).isSome
    [Tests.meets (s (some ⟨4, 0⟩) 0xFF) (.mmas x) (fun c => c.g.landing.isSome),
     Tests.meets (s none 0xFF) (.mmas { x with gp := 0 }) (fun c => c.act == []),
     Tests.meets (s none 0x7F) (.mmas x) (fun c => c.act.any (fun h => !(c.g.cvs.get 0).getLsbD h)),
     Tests.meets (s none 0x1FF) (.mmas x) (fun c => same c && c.act.all (fun h => (c.g.cvs.get 0).getLsbD h) && c.g.cvs.get 0 &&& ~~~c.actMask != 0),
     Tests.meets (s none 0xFF) (.mmas x) (fun c => same c && c.g.cvs.get 0 &&& ~~~c.actMask == 0 && !err c x),
     Tests.meets (s none 0xFF) (.mmas { x with d := 20 }) (fun c => same c && c.g.cvs.get 0 &&& ~~~c.actMask == 0 && err c { x with d := 20 })].all
      id = true := by decide +kernel

/-- Hypotheses of `TileAccessesIssue`: a shape that fails, a range above 2^57, a misaligned address, an access that passes; its walk
with room in the table, with a fault, and with the table full. -/
theorem witness_TileAccessesIssue :
    let x : MForm := ⟨0, 7, 4, 0, 264, 266, 511, 0, 0, 0, 0, 0⟩
    let at' (a : W64) : State := (Tests.tiled none).modGroup 4 (fun g => { g with sregs := g.sregs.set 8 a })
    let both (s : State) (x : MForm) (p : Ctx → Bool) : Bool := [Instr.tld x, .tst x].all (fun i => Tests.meets s i (fun c =>
      c.g.landing.isNone && c.g.live.all c.act.contains && p c))
    let good (c : Ctx) : Bool := (c.shapeOf 4).capOk && (c.shapeOf 4).lineBits false == 256 && (c.shapeOf 4).lines false == 8
    let walk (a : W64) (n : Nat) : State := { at' a with
      ops := [{ Tests.op (.tld x) false a with lanes := [⟨0, a, 32 + 2 ^ 64, 0, 0, [], .todo⟩] }]
      mx := (List.range n).map (fun j => ⟨20 + j, 0, 0, 0, 9, 0, 0, false, 0, .tzero Tests.bare, 0, 0, 0, [], []⟩) }
    let pages (s : State) (a : Nat) : Bool := match s.tilePages 1 false ((List.range 8).map (fun m => (a + m * 32, 32))) with
      | .ok _ => true
      | .error _ => false
    [both (at' 0) { x with d := 20 } (fun c => !(c.shapeOf 20).capOk), both (at' (2 ^ 57 - 255)) x (fun c => good c && (c.ea 0).toNat == 2 ^ 57 - 255),
     both (at' 2) x (fun c => good c && (c.ea 0).toNat == 2), both (at' (2 ^ 57 - 256)) x (fun c => good c && (c.ea 0).toNat == 2 ^ 57 - 256),
     pages (walk 0x20000 31) 0x20000, !pages (walk 0x50000 31) 0x50000, ((walk 0x20000 31).op? 7).any (fun o => o.instr.tiles.contains 4),
     [31, 32].map (fun n => (walk 0x20000 n).groups.any (fun g => (walk 0x20000 n).mxRoom g 0)) == [true, false],
     (walk 0x20000 0).ops.all (fun o => !(walk 0x20000 0).tileBefore o && (walk 0x20000 0).resident o.gid &&
       (List.range 8).all (fun m => !(walk 0x20000 0).shut 1 (0x20000 + m * 32) 32)),
     (walk 0x20000 31).mx.all (fun e => e.id != 7), !({ walk 0x20000 0 with wgs := [] } : State).resident 4,
     (let w := (walk 0x20000 0).modWg 3 (fun w => w.modTile 4 (fun t => { t with tsh := 15 }))
      (w.wg? 3).any (fun v => (tileMemFault x false (tshape (v.tile 4).tsh) 0x20000 (some 32)).isSome)),
     let w := walk 0x20000 0
     let w : State := { w with ops := w.ops ++ w.ops.map (fun o => { o with id := 8, instr := .tst x }) }
     (w.op? 8).any w.tileBefore].all id = true := by decide +kernel

/-- Hypotheses of `MatrixGrants` and `MatrixPasses`: overdue entries at the limit and below; competing entries with and without a granted
one; a granted entry of each kind that a clause names. -/
theorem witness_MatrixGrants :
    let e (id age : Nat) (granted : Bool) (i : Instr) : MxEntry := ⟨id, 0, 0, 0, 4, 0, age, granted, 0, i, 0x3871, 0x3871, 0x3871, [0x3871], []⟩
    let x : XForm := ⟨0, 7, 4, 0, 8, 12, 0, 0, 0, 0, 0, 0⟩
    let s (l : List MxEntry) : State := let t := Tests.tiled none
      { t with mx := l, cores := modNth t.cores 0 (fun k => { k with cycle := 1 }) }
    [(s []).mxBefore (e 1 224 false (.mma x)) (e 2 223 false (.mma x)), (s [e 1 0 true (.mma x)]).mx.any (·.granted),
     (s [e 1 0 false (.mma x), e 2 0 false (.mma x)]).mx.all (fun y => !y.granted && y.quad == 0 && decide (y.entered < (s []).cycle y.core)),
     [Instr.tshape x, .tzero x, .mxsclFill x, .tadd x, .mma x].all (fun i => (s [e 1 0 true i]).mx.find? (fun y => y.quad == 0 && y.granted) ==
       some (e 1 0 true i) && ((s []).wg? 3).any (fun w => (w.tiles[4]?).isSome)),
     (mulClass (tshape 0x3871).fmt (tshape 0x3871).fmt).isSome && (tshape 0x3871).rows == 8 && (tshape 0x3871).cols == 8,
     (mulClass 12 12).any (fun k => k.kind == 4)].all id = true := by decide +kernel

/-! ### Commands -/

/-- s with one command in the ring of a function: opcode, and parameters as (offset, value). -/
def Tests.order (s : State) (fn op : Nat) (l : List (Nat × Nat)) : State :=
  s.modFunc fn (fun f => { f with cpCfg := 0x80000004
                                  cmds := [natBytes 64 (l.foldl (fun a p => a + p.2 * 256 ^ (8 + p.1)) op)] })

def Tests.pf : CmdHead := ⟨0, 0, 0⟩
def Tests.vf : CmdHead := ⟨1, 0, 0⟩

/-- The loaded program with a row of 1,000 µs at 0x1000 of host memory that gives quad 0 to its one entry, partition 1. -/
def Tests.tables : State :=
  { Tests.ready 8 with hostMem := [(0x1000, 0xE8), (0x1001, 3), (0x1004, 1), (0x1008, 1)] ++ (List.range 63).map (fun k => (0x1009 + k, 0x80)) ++
      [(0x1048, 0x81), (0x104C, 0xF), (0x1050, 1)] }

/-- Hypotheses of `PartitionCommands`: each command accepted and refused for each reason. -/
theorem witness_PartitionCommands :
    let s := Tests.tables
    let h := Tests.pf
    let doom (s : State) : State := { s with deferredCmds := [.partDelete h 1 0] }
    let create (s : State) (part parent : BitVec 8) (area : W64) : Bool :=
      (Tests.order s 0 1 [(0, part.toNat), (1, parent.toNat), (8, area.toNat), (16, 2)]).mayTake h (.partCreate h part parent area 2)
    let delete (s : State) (part : BitVec 8) : Bool := (Tests.order s 0 2 [(0, part.toNat)]).mayTake h (.partDelete h part)
    let slots (s : State) (n : BitVec 16) (t : W64) : Bool := (Tests.order s 0 4 [(0, t.toNat), (8, n.toNat)]).mayTake h (.slotWrite h t n)
    let rotate (s : State) (part : BitVec 8) : Bool := (Tests.order s 0 0x30 [(0, part.toNat)]).mayTake h (.keyRotate h part)
    let mode (s : State) (kid : Nat) : Bool := (Tests.order s 0 3 [(0, 0x1000), (8, 1), (10, 1), (16, kid), (17, 1)]).mayTake h
      (.partMode h 0x1000 1 [(BitVec.ofNat 8 kid, 1)])
    let free := { s with funcs := [Func.reset 0], asids := [] }
    [create s 2 1 0x50000, create s 1 1 0x50000, create s 64 1 0x50000, create s 2 2 0x50001, create s 2 3 0x50000, create s 63 63 0xFFFFFE0000,
     s.hbmFrames 0x50000 2 && (s.part? 2).isNone && (s.part? 1).any (·.parent == 1) && s.frameOwners.get 5 == 0 && s.frameOwners.get 6 == 0,
     delete s 2, delete s 1 && (s.funcs.any (·.bound == some 1)), delete free 1 && free.asids == [] && free.funcs.all (·.bound.isNone),
     slots s 0 0x1000, slots s 257 0x1000, slots s 256 0x1000, slots s 1 0x2000 && (s.readTable 0x2000 1 (s.parentIn [])).isNone,
     slots s 1 0x1000 && (s.readTable 0x1000 1 (s.parentIn [])).isSome && s.pendingTable.isNone,
     slots { s with pendingTable := some ⟨h, [Row.idle], [], 0⟩ } 1 0x1000, slots (doom s) 1 0x1000,
     rotate s 2, rotate s 1 && s.deferredCmds == [], rotate (doom s) 1, mode s 1 && (s.readTable 0x1000 1 (s.parentIn [(1, 1)])).isSome, mode s 9,
     (Tests.order s 0 3 [(0, 0x1000), (8, 1), (10, 9)]).mayTake h (.partMode h 0x1000 1 (List.replicate 9 (0, 0))) ||
       (Tests.order s 0 3 [(0, 0x1000), (8, 1), (10, 0)]).mayTake h (.partMode h 0x1000 1 []),
     !delete { s with funcs := [] } 1].all id = true := by decide +kernel

/-- Hypotheses of `AddressCommands`: each command accepted and refused. -/
theorem witness_AddressCommands :
    let s := Tests.ready 8
    let h := Tests.pf
    let free := { s with funcs := [Func.reset 0], queue := [], launches := [], ops := [], asids := [] }
    let bind (s : State) (vf : BitVec 16) (part : BitVec 8) : Bool := (Tests.order s 0 8 [(0, vf.toNat), (2, part.toNat), (8, 0x4000), (16, 4)]).mayTake h
      (.vfBind h vf part 0x4000 4)
    let unbind (s : State) (vf : BitVec 16) : Bool := (Tests.order s 0 9 [(0, vf.toNat)]).mayTake h (.vfUnbind h vf)
    let asidC (s : State) (a vf : BitVec 16) : Bool := (Tests.order s 0 0x10 [(0, a.toNat), (2, vf.toNat), (8, 0x9000), (16, 125)]).mayTake h
      (.asidCreate h a vf 0x9000 125)
    let asidD (s : State) (a : BitVec 16) : Bool := (Tests.order s 0 0x11 [(0, a.toNat)]).mayTake h (.asidDelete h a)
    let region (a : BitVec 16) : Bool := (Tests.order s 0 0x12 [(0, a.toNat), (2, 255), (4, 0x84010000)]).mayTake h (.regionSet h a 255 0x84010000)
    let lease (a : BitVec 16) : Bool := (Tests.order s 0 0x13 [(0, a.toNat), (2, 9000)]).mayTake h (.leaseSet h a 9000)
    let map (a : BitVec 16) (va gpa : W64) : Bool := (Tests.order s 0 0x18 [(0, a.toNat), (3, 3), (4, 1), (8, va.toNat), (16, gpa.toNat)]).mayTake h
      (.map h a 0 3 1 va gpa)
    let unmap (va : W64) : Bool := (Tests.order s 0 0x19 [(0, 1), (4, 1), (8, va.toNat)]).mayTake h (.unmap h 1 0 1 va)
    let grant (s : State) (hpa gpa : W64) : Bool := (Tests.order s 0 0x1A [(0, 1), (3, 3), (4, 1), (8, hpa.toNat), (16, gpa.toNat)]).mayTake h
      (.frameGrant h 1 0 0 3 1 hpa gpa)
    let revoke (s : State) (hpa : W64) : Bool := (Tests.order s 0 0x1B [(0, 1), (4, 1), (8, hpa.toNat)]).mayTake h (.frameRevoke h 1 1 hpa)
    let meets (a : Nat) : Bool := (s.asid? 1).any (fun c => leafMeets c.table a (a + 0x10000))
    let owned (s : State) : Bool := (s.part? 1).any (fun p => s.ownsFrame 1 0x20000 && s.frameMapped p 0x20000)
    let tracked : State := { s with fsets := [⟨1, 2, [(0x30000, 0x10000)], 5, [], []⟩] }
    let mapT (s : State) : Bool := (Tests.order s 0 0x18 [(0, 1), (3, 7), (4, 1), (8, 0x30000), (16, 0x30000)]).mayTake h (.map h 1 0 7 1 0x30000 0x30000)
    let pool (s : State) (f : BitVec 8) : Bool := (Tests.order s 0 0x1A [(0, 1), (1, 1), (2, f.toNat), (3, 3), (4, 1), (8, 0x30000)]).mayTake h
      (.frameGrant h 1 1 f 3 1 0x30000 0)
    let doom (s : State) : State := { s with deferredCmds := [.partDelete h 1 0] }
    let leaf : Pte := ⟨3, 3, mkPte 0x30000 true true true⟩
    let shared : State := { tracked with asids := tracked.asids.map (fun c => { c with root := 0x9000 * 0x20000, table := leaf :: c.table }) }
    let lines (l : W64) : State := { free with asids := s.asids, home := [{ Tests.homeLine with lr := l }] }
    let ranges := (lines 5).rangesOf [1] 0 (2 ^ 57)
    let waiting (l t : Nat) : State := { s with
      dies := modNth s.dies 0 (fun d => { d with time := BitVec.ofNat 64 t }), fwWait := some ⟨h, .asidDelete h 1, ranges, BitVec.ofNat 64 l⟩ }
    [bind s 256 1 && s.partOf 256 == none && !s.doomed 1, bind s 1 1 && s.partOf 1 == some 1, bind s 2 9 && (s.part? 9).isNone,
     unbind s 2 && s.partOf 2 == none, unbind s 1 && s.asids.any (·.vf == 1), unbind { free with funcs := s.funcs } 1,
     asidC s 7 1 && (s.asid? 7).isNone, asidC s 1 1, asidC s 7 2, asidD s 7, asidD s 1 && s.asidBusy 1,
     asidD { free with asids := s.asids } 1 && !({ free with asids := s.asids } : State).asidBusy 1, region 1, region 7, lease 1, lease 7,
     map 1 0x30000 0x30000 && !meets 0x30000, map 1 0x20000 0x30000 && meets 0x20000, map 7 0x30000 0x30000, map 1 0x30001 0x30000,
     map 1 (2 ^ 57 - 65536) 0x30000, unmap 0x20000, unmap 0x40000, unmap 0x20001,
     grant s 0x30000 0x30000 && s.hbmFrames 0x30000 1 && s.frameOwners.get 3 == 0 && (s.part? 1).any (fun p => !leafMeets p.table 0x30000 0x40000),
     grant s 0x10000 0x30000 && s.frameOwners.get 1 != 0, revoke s 0x20000 && owned s, revoke free 0x20000 && !owned free,
     revoke (doom s) 0x20000 && (doom s).doomed 1, mapT tracked && (tracked.fsetAt 1 0x30000).isSome, mapT s && s.fsets == [], pool s 2 && (s.fset? 1 2).isNone,
     pool tracked 2 && (tracked.fset? 1 2).any (fun f => decide (f.pool.length + 1 ≤ 2 ^ 20)) && !tracked.doomed 1,
     pteV leaf.word && pteLeaf leaf.word && pteTrk leaf.word && (shared.fsetAt 1 0x30000).isSome && shared.asids.any (fun c => c.table.contains leaf),
     (lines 5).leaseOver ranges == 5 && decide ((lines 5).time 0 ≤ 5), (lines 0).leaseOver ranges == 0, decide ((waiting 5 5).time 0 ≤ 5),
     decide ((5 : W64) < (waiting 5 6).time 0) && (waiting 5 6).fwWait.isSome].all id = true := by
  decide +kernel

/-- The loaded program with host memory that holds a code object of 192 bytes at 0x1000 (one variant of width 8, its line at 128) and a
field range at 0x3000. -/
def Tests.objects : State :=
  { Tests.ready 8 with hostMem := [(0x1000, 0x31), (0x1001, 0x4B), (0x1002, 0x52), (0x1003, 0x43), (0x1004, 8), (0x1006, 1), (0x1008, 128),
      (0x1010, 8), (0x1013, 1), (0x3002, 3), (0x300A, 1)] }

/-- Hypotheses of `WorkCommands`: each command accepted and refused. -/
theorem witness_WorkCommands :
    let s := Tests.objects
    let h := Tests.pf
    let v := Tests.vf
    let load (s : State) (a : BitVec 16) (k : W64) (src : W64) : Bool :=
      (Tests.order s 0 0x20 [(0, a.toNat), (8, src.toNat), (16, 192), (24, k.toNat)]).mayTake h (.codeLoad h a src 192 k)
    let unload (s : State) (k : W64) : Bool := (Tests.order s 0 0x21 [(0, 1), (8, k.toNat)]).mayTake h (.codeUnload h 1 k)
    let idle := { s with queue := [], launches := [] }
    let lqc (s : State) (log clog : BitVec 8) : Bool := (Tests.order s 1 0x22 [(0, 0x8000), (8, log.toNat), (16, 0x9000), (24, clog.toNat)]).mayTake v
      (.lqCreate v 0x8000 log 0x9000 clog)
    let made (s : State) : State := s.modFunc 1 (fun f => { f with lqMade := true })
    let lqd (s : State) : Bool := (Tests.order s 1 0x23 []).mayTake v (.lqDelete v)
    let fs (s : State) (p f : BitVec 8) : Bool := (Tests.order s 0 0x28 [(0, p.toNat), (1, f.toNat), (2, 1), (4, 5), (8, 0x3000)]).mayTake h
      (.fsetCreate h p f 1 5 0x3000)
    let fd (s : State) (f : BitVec 8) : Bool := (Tests.order s 0 0x29 [(0, 1), (1, f.toNat)]).mayTake h (.fsetDelete h 1 f)
    let set := Tests.fieldSet (Tests.slot (.vrel (Tests.eng 0))) [] []
    let paged := { set with pages := [⟨1, 2, 1, 2, 0x20000, []⟩] }
    let op (l : LogState) : State := (Tests.running { Tests.loadOp (.logged Tests.fault) with log := l, fid := some 5 }).modFunc 1 (fun f =>
      { f with openFids := [(5, .op 7)] })
    let fq (s : State) (fid : W32) (a : Nat) (i : Instr) : Bool := (Tests.order s 1 0x31 [(0, fid.toNat), (4, a)]).mayTake v i
    let join (s : State) (p : BitVec 8) (m : BitVec 16) (a : BitVec 16) : Bool :=
      (Tests.order s 0 0x38 [(0, p.toNat), (2, 9), (6, m.toNat), (12, a.toNat), (16, 0x20000), (24, 0x10000)]).mayTake h
        (.collJoin h p 9 0 m 0 a 0x20000 0x10000)
    let coll := Tests.collective 1 [] false
    let leave (s : State) (g : BitVec 16) : Bool := (Tests.order s 0 0x39 [(0, 1), (2, g.toNat)]).mayTake h (.collLeave h 1 g)
    let rs : List (Nat × Nat) := [(s.hostMem.le 0x3000 8, s.hostMem.le 0x3008 8)]
    [load s 1 0x20000 0x1000 && (parseObject (s.hostMem.bytes 0x1000 192) 1 0x20000).isSome && s.codeMapped 1 0x20000 192 && (s.code? 1 0x20000).isNone,
     load s 1 0x20000 0x2000 && (parseObject (s.hostMem.bytes 0x2000 192) 1 0x20000).isNone, load s 7 0x20000 0x1000,
     load s 1 0x50000 0x1000 && !s.codeMapped 1 0x50000 192,
     unload s 0x10000 && s.queue.any (fun e => e.record.asid == 1 && e.record.kobj == 0x10000), unload idle 0x10000 && (idle.code? 1 0x10000).isSome,
     unload s 0x30000 && (s.code? 1 0x30000).isNone, lqc s 2 4, lqc s 12 12, lqc s 1 4, lqc s 13 4, lqc s 2 3, lqc s 2 13, lqc (made s) 2 4,
     lqd s, lqd (made s) && (made s).queued 1 == 1 || (made s).queued 1 == 0, lqd (made { s with queue := [] }),
     fs s 1 63 && rs == [(0x30000, 0x10000)] && (s.fset? 1 63).isNone, fs s 9 0, fs ({ s with fsets := [⟨1, 2, [(0x50000, 0x10000)], 5, [], []⟩] }) 1 2,
     fd set 2 && (set.fset? 1 2).isSome && set.pages == [], fd set 3, fd paged 2 && paged.pages.any (fun g => g.part == 1 && g.fset == 2),
     fq (op .reported) 5 0 (.fqServiceReplay v 5) && (op .reported).fidRef 1 5 == some (.op 7), fq (op .reported) 5 1 (.fqServiceDrop v 5),
     fq (op .reported) 5 2 (.fqServiceTrap v 5) && ((op .reported).op? 7).any (fun o => o.trapOf.isSome), fq (op .handler) 5 2 (.fqServiceTrap v 5),
     fq (op .reported) 6 0 (.fqServiceReplay v 6) && ((op .reported).fidRef 1 6).isNone,
     join s 1 1024 1 && (s.coll? 1 9).isNone, join s 1 1025 1, join s 9 1 1, join s 1 1 7, join { s with colls := [⟨1, 9, 0, 2, 100, 1, 0, 65536, [], false, []⟩] } 1 1 1,
     leave coll 7 && coll.collBusy 1 7, leave { coll with groups := [] } 7 && !({ coll with groups := [] } : State).collBusy 1 7, leave coll 8,
     (Tests.order s 0 0x39 [(0, 64), (2, 7)]).mayTake h (.collLeave h 64 7), (Tests.order s 0 0x29 [(0, 64)]).mayTake h (.fsetDelete h 64 0),
     leave { coll with deferredCmds := [.partDelete h 1 0] } 7 && ({ coll with deferredCmds := [.partDelete h 1 0] } : State).doomed 1,
     (Tests.order s 0 0x40 [(32, 0x4000)]).mayTake h (.attest h (List.replicate 32 0) 0x4000),
     (Tests.order s 0 0x41 [(0, 0x4000)]).mayTake h (.health h 0x4000)].all id = true := by decide +kernel

/-! ### Launches, contexts, slot edges -/

/-- The loaded program whose partition has an area of frames and whose code object is c, with a further launch that waits. -/
def Tests.waiting (frames : Nat) (c : CodeObj) (f : LaunchRec → LaunchRec) : State :=
  let s := Tests.ready 8
  { s with parts := s.parts.map (fun p => { p with areaFrames := frames }), codes := [c]
           queue := s.queue ++ [⟨1, 5, 2, f loadRecord, [], 0, false, none, 0, false⟩] }

/-- The loaded program with an order to variant 1 of its code, whose variants keep v10 of 0 in v20 of 1 over point 9. -/
def Tests.switching (f : Group → Group) : State :=
  let s := Tests.grp f
  let v := (loadCode 8).variants
  { s with codes := [{ loadCode 8 with vmask := 3, variants := v ++ v.map (fun v => { v with scratch := 64 }), switches := [⟨9, 0, [10, 20], 0⟩],
                                       points := [(0, 9, 4), (1, 9, 8)] }]
           wgs := s.wgs.map (fun w => { w with order := some ⟨1⟩ }) }

/-- Hypotheses of `LaunchesPlaced`: a group that may not retire, is the last of its workgroup, is not; a launch that is not considered, is
impossible, is placed, waits for a saved workgroup or for the area; a rendezvous that is clear and is not; a kept register. -/
theorem witness_LaunchesPlaced :
    let c := loadCode 8
    let gone : Group → Group := fun g => g.modThreads (fun _ => true) (fun _ t => { t with exited := true })
    let retire (s : State) (ok : Bool) : Bool := (s.group? 4).any (fun g => !g.retired && (g.live.isEmpty || g.stopped) && s.groupIdle g == ok && s.mayRetire g &&
      (s.wg? g.wid).any (fun w => !w.retired))
    let two (r : Bool) : State := let s := Tests.grp gone
      { s with groups := s.groups ++ [{ loadGroup 8 with gid := 5, grp := 1, gslot := 1, retired := r }] }
    let near (s : State) (room : Bool) : Bool := s.partOf 1 == some 1 && (s.headLaunch 1).any (fun e => e.id == 5 &&
      (s.code? e.record.asid e.record.kobj).any (fun c => s.possible 1 c e.record &&
        decide (s.imagesOf 1 + imageBytes c e.record * e.record.count ≤ s.areaBytes 1) == room))
    let s := Tests.waiting 64 c id
    let saved := { s with wgs := s.wgs.map (fun w => { w with core := none }) }
    let high := Tests.waiting 64 c (fun r => { r with kobj := 0x30000 })
    let at9 : Group → Group := fun g => g.modThreads (fun _ => true) (fun _ t => { t with wait := .switchpt 9 })
    let sw := Tests.switching at9
    let es := [(⟨9, 0, [10, 20], 0⟩ : SwitchEnt)]
    let meet (s : State) (clear : Bool) : Bool := s.meetingPoint 3 == some 9 && s.rendezvousClear 3 == clear && (s.wg? 3).any (fun w =>
      w.core == some 0 && w.order == some ⟨1⟩ && (s.launch? 1).any (fun l => (s.codeOf l).any (fun c => (c.variant? 0).isSome && (c.variant? 1).isSome &&
        c.points.find? (fun p => p.1 == 1 && p.2.1 == 9) == some (1, 9, 8))))
    [retire (Tests.grp gone) true, retire (Tests.grp (fun g => { g with stopped := true })) true, retire (two false) true, retire (two true) true,
     retire { Tests.grp gone with acks := [⟨9, 4, 8, 0, 1, 2048, 0, false⟩] } false, (Tests.ready 8).groups.all (fun g => g.live != [] && !g.stopped),
     (let late : State := { Tests.grp gone with rowStart := 9, cores := modNth (Tests.ready 8).cores 0 (fun c => { c with cycle := 9 }), quads := (Tests.ready 8).quads.map (fun k => { k with edge := .stopped, crossed := 0, bound := 5 }) }
      (late.group? 4).any (fun g => !late.mayRetire g)),
     near s true && (s.levelHeads 1).any (·.id == 5) && s.savedOf 1 == [] && s.placeGiven c loadRecord (s.usages []) (s.openQuads 1) [1] == some [(1, 0)],
     near saved true && saved.savedOf 1 != [], near (Tests.waiting 6 c id) false, (s.headLaunch 1).all (fun e => e.id != 0),
     (high.headLaunch 1).any (fun e => (high.code? e.record.asid e.record.kobj).isNone),
     !((Tests.waiting 1 c id).possible 1 c loadRecord), !(s.possible 1 { c with variants := [] } loadRecord),
     meet sw true && sw.quads[0]?.any (·.edge == .running), meet { sw with mx := (Tests.ready 8).mx ++ [⟨9, 0, 0, 0, 4, 0, 0, false, 0, .nop Tests.bare, 0, 0, 0, [], []⟩] } false,
     meet { sw with quads := sw.quads.map (fun k => { k with edge := .stopped }) } true,
     moves es 0 0 1 == [(10, 20)]].all id = true := by decide +kernel

/-- Hypotheses of `ContextsMove`: an issuable group outside the active set, that has waited short and long; and none. -/
theorem witness_ContextsMove :
    let s (t : Nat) : State := let s := Tests.grp (fun g => { g with tier := .pending })
      { s with cores := modNth s.cores 0 (fun c => { c with cycle := BitVec.ofNat 64 t }) }
    let old (s : State) := (s.waitingGroups 0).filter (fun g => 65536 ≤ (s.cycle 0 - g.tierSince).toNat)
    let first (l : List Group) (s : State) : Bool := (l.sortBy s.promoteBefore).head?.any (fun g =>
      decide (sumOf (((s.groups.filter (fun x => !x.retired && s.coreOf x == some 0 && x.tier == .active)).map s.unitsOf)) + s.unitsOf g ≤ 1024))
    [first ((s 0).waitingGroups 0) (s 0), old (s 65535) == [], first (old (s 65536)) (s 65536), (Tests.ready 8).waitingGroups 0 == []].all id
      = true := by decide +kernel

/-- The loaded program with two rows, the second without quads, at t ns of its first row of 1,000 µs. -/
def Tests.edge (t : Nat) (f : QuadState → QuadState) : State :=
  let s := Tests.ready 8
  { s with rows := [⟨1000, some 1 :: List.replicate 63 none, [⟨1, some 2, 0, 0, 0, 0⟩]⟩, ⟨1000, List.replicate 64 none, []⟩]
           dies := modNth s.dies 0 (fun d => { d with time := BitVec.ofNat 64 t }), quads := modNth s.quads 0 f }

/-- Hypotheses of `SlotEdges`: the quad before and at 20 µs from its boundary; each phase of its edge; a row's end with and without a table
that waits; an Overrun and a delay, over and not; a quad with and without work; a workgroup to resume, first and not; a rotation. -/
theorem witness_SlotEdges :
    let q (s : State) (p : QuadState → Bool) : Bool := s.quads[0]?.any p
    let stopped : QuadState → QuadState := fun k => { k with edge := .stopped, leaver := some 1, bound := 1000000 }
    let quiesced : QuadState → QuadState := fun k => { stopped k with edge := .quiesced }
    let after (s : State) : State := { s with curRow := 1, rowStart := 1000000 }
    let busy (s : State) : State := { s with acks := [⟨9, 4, 8, 0, 1, 2048, 0, false⟩] }
    let s := Tests.edge 980000 id
    let table (a : W64) (s : State) : State := { s with pendingTable := some ⟨⟨0, 0, 0⟩, [Row.idle], [], a⟩ }
    let free (t : Nat) : State := let s := Tests.edge t id
      { s with wgs := [], groups := [], parts := s.parts ++ s.parts.map (fun p => { p with num := 2 }) }
    let gives (s : State) : Bool := (s.quads[0]?.bind (·.owner)) == some 1 && (s.row.ents.find? (fun e => e.part == 1)).any (fun e => e.donTo == some 2) &&
      q s (fun k => k.edge == .running && k.donor == none) && s.mayHold (s.time 0).toNat 2 && !s.hasWork 0
    let saved : State := let s := Tests.edge 0 id
      { s with wgs := s.wgs.map (fun w => { w with core := none }) ++ [{ loadWg with wid := 9, cid := 8, core := none, savedTick := 5 }] }
    let resumes (s : State) (wid : Nat) : Bool := (s.wg? wid).any (fun w => w.wid == wid && (s.launch? w.lid).any (fun l => (s.codeOf l).isSome &&
      (s.savedOf l.part).head? == some w && (s.resumeVariant w (s.usages []) 3).isSome && s.resumeFits w l.part 3))
    let turning (o : Option Nat) : State := let s := Tests.edge 0 (fun k => { k with owner := o })
      { s with parts := s.parts.map (fun p => { p with rotating := true }) }
    [(Tests.edge 979999 id).leavesAt 0 == some 1000000 || (Tests.edge 979999 id).leavesAt 0 == none, s.leavesAt 0 == some 1000000 && s.stopGroups 0 != [],
     q (Tests.edge 980000 stopped) (·.edge == .stopped) && (Tests.edge 980000 stopped).quiet 0, !(busy (Tests.edge 980000 stopped)).quiet 0,
     q (Tests.edge 990000 quiesced) (fun k => k.edge == .quiesced && !decide (k.bound ≤ (Tests.edge 990000 quiesced).rowStart)),
     q (after (Tests.edge 1000001 quiesced)) (fun k => k.edge == .quiesced && decide (k.bound ≤ (1000000 : W64))),
     decide (s.rowEnd = 1000000 ∧ (s.time 0).toNat < s.rowEnd), decide ((Tests.edge 1000000 id).rowEnd ≤ ((Tests.edge 1000000 id).time 0).toNat),
     (Tests.edge 1000000 id).deferredCmds == [] && (Tests.edge 1000000 id).pendingTable.isNone,
     (table 960000 (Tests.edge 1000000 id)).pendingTable.any (fun p => dueBy p.accepted 1000000), !dueBy 960001 1000000,
     (after (Tests.edge 1010001 quiesced)).part? 1 != none && !decide (((after (Tests.edge 1010001 quiesced)).time 0).toNat ≤ 1000000 + 10000),
     decide (((after (Tests.edge 1010000 quiesced)).time 0).toNat ≤ 1000000 + 10000),
     decide ((5 : W64) ≠ 0 ∧ (5 : W64) ≤ (Tests.edge 5 id).time 0 ∧ (Tests.edge 4 id).time 0 < (5 : W64)),
     gives (free 10000) && gives (free 960000) && gives (free 960001) && gives (free 9999), s.hasWork 0,
     resumes saved 3, (saved.savedOf 1).head?.all (fun v => v.wid != 9), (saved.wg? 3).any (fun w => !saved.resumeFits w 1 4),
     (turning none).part? 1 != none && (turning none).quads.all (fun z => z.owner != some 1 && z.leaver != some 1)].all id = true := by decide +kernel

/-! ### Errors, resets, host registers, steps -/

/-- Hypotheses of `ErrorsAndHeat` and `ResetsEnd`: a die; a VF; one whose reset has no launch left, and one with a launch. -/
theorem witness_ErrorsResetsAndHeat :
    let s := Tests.ready 8
    let r (s : State) : State := s.modFunc 1 (fun f => { f with resetting := true })
    [(s.dies[3]?).isSome, (s.func? 1).any (fun f => !f.resetting), (r s).launches.any (·.vf == 1) && ((r s).func? 1).any (·.resetting),
     (r { s with launches := [] }).launches.all (·.vf != 1) && ((r { s with launches := [] }).func? 1).any (·.resetting),
     s.boot.isNone, s.dies.all (fun d => decide (d.tempC.toNat < 120))].all id = true := by
  decide +kernel

/-- A sound image, and one whose signature fails. -/
def Tests.image (ok : Bool) : ImageCheck := ⟨ok, 0, none⟩

/-- A boot at a step of a unit, with an earlier entry of that step and unit. -/
def Tests.booting (step unit : Nat) (retry : Option Nat) (prev : List BootEntry) : State :=
  { State.reset with bootRecord := prev, bootCount := 2, boot := some ⟨⟨Tests.image false, Tests.image true, none, [], [(3, 11000), (3, 8000)],
    [5], [5], [5], [], false⟩, true, [(step, unit)], retry, false, false⟩ }

/-- Hypotheses of `BootsRun`: a step of a unit that fails and of one that does not, after an entry that failed and after none; a stack at each
of its tries; the table image at both copies; an image that passes and one that does not. -/
theorem witness_BootsRun :
    let old (step unit out : Nat) : List BootEntry := [⟨1, BitVec.ofNat 8 step, BitVec.ofNat 8 out, BitVec.ofNat 16 unit, 0, 0⟩]
    let at' (s : State) (step unit : Nat) (p : BootRun → Option BootEntry → Bool) : Bool := s.boot.any (fun b => b.todo == [(step, unit)] &&
      p b (s.prevEntry step unit))
    [([5, 6, 7] : List Nat).all (fun k =>
       at' (Tests.booting k 5 none []) k 5 (fun b e => e.isNone && (b.results.coreFail ++ b.results.engineFail ++ b.results.portFail).contains 5) &&
       at' (Tests.booting k 4 none []) k 4 (fun b e => e.isNone && !b.results.coreFail.contains 4) &&
       at' (Tests.booting k 4 none (old k 4 1)) k 4 (fun _ e => e.any (·.out == 1))),
     at' (Tests.booting 4 3 none []) 4 3 (fun b e => e.isNone && b.results.hbmFail.contains (3, 11000)),
     at' (Tests.booting 4 2 none (old 4 2 0)) 4 2 (fun b e => e.any (·.out == 0) && !b.results.hbmFail.contains (2, 11000)),
     at' (Tests.booting 4 3 (some 1) []) 4 3 (fun b _ => !b.results.hbmFail.contains (3, 9600)),
     at' (Tests.booting 4 3 (some 2) []) 4 3 (fun b _ => b.results.hbmFail.contains (3, 8000)),
     at' (Tests.booting 1 0 none []) 1 0 (fun b e => e.isNone && !imageOk Fuses.unharvested b.results.imageA),
     at' (Tests.booting 1 0 (some 1) []) 1 0 (fun b _ => imageOk Fuses.unharvested b.results.imageB),
     (Tests.booting 1 0 none []).hbmRate.length == 16, State.reset.boot.isNone, imageOk Fuses.unharvested (Tests.image true),
     !imageOk { Fuses.unharvested with pqReq := true } (Tests.image true)].all id = true := by decide +kernel

/-- Hypotheses of `HostRegisters`: a doorbell accepted and refused; a queue with room and without; an aperture that reaches, and does not. -/
theorem witness_HostRegisters :
    let cfg (c : W32) : State := (Tests.ready 8).modFunc 1 (fun f => { f with cqCfg := c })
    let bad (s : State) (v : W32) : Bool := (s.func? 1).any (fun f => !f.cqCfg.getLsbD 31 ||
      decide (2 ^ (f.cqCfg.toNat % 16) < (f.cqPi - f.cqCi).toNat + ((v.setWidth 16 : BitVec 16) - f.cqPi).toNat))
    let lq : State := (Tests.ready 8).modFunc 1 (fun f => { f with lqMade := true, lqLog := 2, heldRecs := [] })
    let fits (v : W32) : Bool := (lq.func? 1).any (fun f => decide ((f.lqPi[7]?.getD 0 - f.lqCi[7]?.getD 0).toNat +
      ((v.setWidth 16 : BitVec 16) - f.lqPi[7]?.getD 0).toNat ≤ 2 ^ f.lqLog) && f.lqSubmitted == [] && f.heldRecs == [])
    let full := { lq with queue := (List.range 4096).map (fun k => ⟨1, BitVec.ofNat 32 k, 0, loadRecord, [], 0, false, none, 0, false⟩) }
    let ap (a : BitVec 16) (b : W64) : State := Tests.mapped.modFunc 1 (fun f => { f with apAsid := a, apBase := b })
    let own (s : State) : Bool := (s.func? 1).any (fun f => !f.resetting && (s.asid? f.apAsid.toNat).any (fun c => f.bound == some c.part) &&
      f.bound.all (fun p => (s.part? p).all (fun x => !x.rotating)))
    let get (s : State) (f : Func → Nat) : Nat := ((s.func? 1).map f).getD 0
    let bytes : List Byte := (List.range 256).map (fun k => if k ∈ [2, 0x10, 0x14, 0x18, 0xA0, 0xA2, 0xA4] then 1 else 0)
    let task : State := { lq with hostMem := lq.hostMem.setBytes (get lq (·.lqBase.toNat) + 7 * 1024) bytes }
    let here := Tests.ready 8
    [here.answers 1 && here.answers 0 && !here.answers 257 && !({ here with recovery := true } : State).answers 1,
     !(Tests.booting 1 0 none []).answers 0, fits 1 && lq.queueFree 1 && (lq.func? 1).any (fun f => f.lqPi.length == 8 && f.lqCi.length == 8 &&
       f.lqPi[7]? == f.lqCi[7]?), (task.func? 1).any (fun f => !(task.parseLaunch 1 (task.hostMem.bytes (f.lqBase.toNat + 7 * 1024) 256)).malformed),
     (let w := (ap 1 0x20000).modFunc 1 (fun f => { f with resetting := true })
      (w.func? 1).any (·.resetting)), (here.func? 1).any (fun f => decide (2 ^ 16 ∣ f.bar0.toNat) && decide (2 ^ 34 ∣ f.bar2.toNat)),
     bad (cfg 4) 1, bad (cfg 0x80000004) 17, !bad (cfg 0x80000004) 16, fits 4, !fits 5, fits 4 && !full.queueFree 1,
     own (ap 1 0x20000) && !own (ap 0 0x20000), decide (2 ^ 57 < get (ap 1 0x1FFFFFFFFFF0000) (·.apBase.toNat) + 65536 + 1),
     match (ap 1 0x20000).engineWriteLr 1 0x20000 [1, 2, 3, 4] with | .ok _ => true | _ => false,
     match (ap 1 0x20000).engineReadAll 1 0x20000 4 with | .ok (_, bs, false) => bs.length == 4 | _ => false].all id = true := by decide +kernel

/-- Hypotheses of `EncodingRoundTrip`, `FusesNeverChange` and `MemoryKeepsCanonicalForm`: a well-formed instruction and its word; a step. -/
theorem witness_Steps :
    let i : Instr := .nop Tests.bare
    [i.wellFormed && (encode i).isSome, (match decode 0x005C00000000000000000000 with | .ok j => j == i | .error _ => false), State.reset.memWf,
     match step State.reset with | .next _ => true | _ => false].all id = true := by decide +kernel

/-- Hypotheses of `IssuedPathMovesOn` and `LaneResultsLand`: a word with a narrow and one with a 64-bit destination. -/
theorem witness_Results : Tests.meets (Tests.ready 8) (.iadd ⟨0, 7, 255, 0, 8, 12, 0, 0, 0, 0, 0, 0⟩) (fun c => !c.dWide) &&
    Tests.meets (Tests.ready 8) (.iadd ⟨0, 7, 254, 0, 8, 12, 0, 0, 2, 0, 0, 0⟩) (fun c => c.dWide && c.fieldCode 0 != 0xFF) = true := by decide +kernel

/-! ### Decoding

Each word below is written out from the layout of its format (R21) and its opcode (R54 to R63); where the manual works an example, it is that
example's word. -/

/-- The word decodes to the instruction, and the instruction encodes to the word. -/
def Tests.reads (w : Word96) (i : Instr) : Bool :=
  (match decode w with | .ok j => j == i | .error _ => false) && encode i == some w

/-- Integer and lane exchange: the words of IADDC (R77), SHFL (R91) and a NOP. -/
theorem test_decode_integer : Tests.reads 0x011C0002022C000040000001 (.iaddc ⟨0, 7, 0, 0, 4, 8, 0x160, 0, 2, 0, 0, 1⟩) &&
    Tests.reads 0x0C1C020158C1600000000000 (.shfl ⟨0, 7, 1, 0, 2, 0x163, 11, 0, 0, 0, 0, 0⟩) &&
    Tests.reads 0x005C00000000000000000000 (.nop Tests.bare) = true := by decide

/-- MOVI v3, 1234: opcode 0x029, D 3, IMM32 1234 in bits 53 to 22 (R23). -/
theorem test_decode_movi : Tests.reads ((0x029 <<< 86) ||| (7 <<< 82) ||| (3 <<< 73) ||| (1234 <<< 22)) (.movi ⟨0, 7, 3, 0, 0, 0, 1234⟩) = true := by
  decide

/-- Floating point: FFMA.F64 v4, v6, v8, v10 (R12), FDIV v10, v8, v3 and the third FCVT of the FP8 example. -/
theorem test_decode_float : Tests.reads 0x30DC080302014000A0000000 (.ffma ⟨0, 7, 4, 0, 6, 8, 10, 0, 5, 0, 0, 0⟩) &&
    Tests.reads 0x341C140400C0000080000000 (.fdiv ⟨0, 7, 10, 0, 8, 3, 0, 0, 4, 0, 0, 0⟩) &&
    Tests.reads 0x381C0A018142800001000002 (.fcvt ⟨0, 7, 5, 0, 3, 5, 0x14, 0, 0, 0, 1, 2⟩) = true := by decide

/-- Control: ?p1 BRA neg of the if-else example, and REGROUP with IMM 40. -/
theorem test_decode_control : Tests.reads 0x200400000000000000000008 (.bra ⟨0, 1, 0, 0, 0, 0, 1, 0⟩) &&
    Tests.reads 0x22DC00000000000000000028 (.regroup { Tests.bare with imm := 40 }) = true := by decide

/-- Memory: two loads, a migration and a FENCEX. -/
theorem test_decode_memory : Tests.reads 0x501C088181BFE95601000040 (.ld ⟨0, 7, 4, 0, 0x103, 6, 0x1FF, 0x4AB, 0, 0, 1, 0x40⟩) &&
    Tests.reads 0x501C0C81503FE11000000000 (.ld ⟨0, 7, 6, 0, 0x102, 0x140, 0x1FF, 0x88, 0, 0, 0, 0⟩) &&
    Tests.reads 0x661C0083FFFFE00000000000 (.migrate ⟨0, 7, 0, 0, 0x107, 0x1FF, 0x1FF, 0, 0, 0, 0, 0⟩) &&
    Tests.reads 0x545C00000000080000000201 (.fencex ⟨0, 7, 0, 0, 0, 0, 0, 0x400, 0, 0, 0, 0x201⟩) = true := by decide

/-- Queues, engine commands and their waits. -/
theorem test_decode_engine : Tests.reads 0x625C00040000000000000002 (.qpush ⟨0, 7, 0, 0, 8, 0, 0, 0, 0, 0, 0, 2⟩) &&
    Tests.reads 0x721E12850000000000000000 (.publish ⟨0, 7, 0x109, 0x10A, 0, 0, 0⟩) &&
    Tests.reads 0x745E14814120A00000000013 (.mldred ⟨0, 7, 0x10A, 0x102, 0x104, 0x105, 0x13⟩) &&
    Tests.reads 0x749E16850000000000000000 (.cwait ⟨0, 7, 0x10B, 0x10A, 0, 0, 0⟩) &&
    Tests.reads 0x761E14810000000000000000 (.halo ⟨0, 7, 0x10A, 0x102, 0, 0, 0⟩) = true := by decide

/-- Matrix, traversal and random numbers. -/
theorem test_decode_matrix_traversal : Tests.reads 0x821C04000040000000000000 (.mma ⟨0, 7, 2, 0, 0, 1, 0, 0, 0, 0, 0, 0⟩) &&
    Tests.reads 0x801C00FF8000000000007803 (.tshape ⟨0, 7, 0, 0, 0x1FF, 0, 0, 0, 0, 0, 0, 0x7803⟩) &&
    Tests.reads ((0x240 <<< 86) ||| (7 <<< 82) ||| (0x10 <<< 73) ||| (8 <<< 63) ||| (0x106 <<< 54) ||| 0xFF) (.trace ⟨0, 7, 0x10, 0, 8, 0x106, 0, 0, 0, 0, 0, 0xFF⟩) &&
    Tests.reads 0x925C28060000000000000000 (.rng ⟨0, 7, 0x14, 0, 0xC, 0, 0, 0, 0, 0, 0, 0⟩) = true := by decide

/-- System: MFSR, MTSR and ERET; opcode 0 and the opcode all ones; an unassigned one. -/
theorem test_decode_system : Tests.reads 0x981E50000000000000000002 (.mfsr ⟨0, 7, 0x128, 0, 0, 0, 0, 0, 0, 0, 0, 2⟩) &&
    Tests.reads 0x985C00940000000000000002 (.mtsr ⟨0, 7, 0, 0, 0x128, 0, 0, 0, 0, 0, 0, 2⟩) &&
    Tests.reads 0x989C00000000000000000000 (.eret Tests.bare) && Tests.reads 0 (.ill 0) &&
    Tests.reads (0x3FF <<< 86) (.ill3ff 0) && Tests.reads (0x00C <<< 86) (.unassignedOpcode 0xC 0) = true := by decide

/-- A word whose fields break a rule is rejected: NOP with a reserved bit, a format-B slot of 5. -/
theorem test_decode_rejects : (decode 0x005C00000000000002000000).toOption.isNone && (decode 0x201C00000000000000000005).toOption.isNone
    && (decodeTableWord 96 0x005C00000000000000000000).isSome = true := by decide

/-! ### Well-formedness: one ill-formed term for each check. -/

/-- Format X and I: an unused field (R22), a code beyond its range (R72), a T code not accepted, an unused RM, SAT, W, M, an IMM too
wide for its element type and one that no source reads (R34). -/
theorem test_ill_formed_general : ([.nop { Tests.bare with a := 1 }, .nop { Tests.bare with imm := 1 }, .icmp ⟨0, 7, 0x144, 0, 8, 12, 0x1F, 0, 0, 0, 0, 0⟩,
    .imulh ⟨0, 7, 4, 0, 8, 12, 0, 0, 4, 0, 0, 0⟩, .iadd ⟨0, 7, 4, 0, 8, 12, 0, 0, 0, 1, 0, 0⟩, .imulh ⟨0, 7, 4, 0, 8, 12, 0, 0, 0, 0, 1, 0⟩,
    .nop { Tests.bare with w := 1 }, .ffma ⟨0, 7, 4, 0, 8, 12, 16, 0, 4, 5, 0, 0⟩, .fadd ⟨0, 7, 4, 0, 8, 0x1FF, 0, 0, 6, 0, 0, 0x10000⟩,
    .iadd ⟨0, 7, 4, 0, 8, 12, 0, 0, 0, 0, 0, 1⟩, .movi ⟨0, 7, 4, 0, 1, 0, 5⟩, .nop { Tests.bare with m := 1 }] : List Instr).all
      (fun i => !i.wellFormed) = true := by decide

/-- Format M: an index shift of 4 (R24), a shift without an index, a form of ORD, of atomic and of FENCE that the opcode does not have. -/
theorem test_ill_formed_memory : ([.ld { Tests.ld with m := 4 }, .ld { Tests.ld with m := 1, b := 0x1FF }, .ld { Tests.ld with rm := 1 },
    .lds { Tests.ld with ord := 2 }, .atom { Tests.ld with m := 0xFF8 }, .fence { Tests.ld with d := 1 }, .migrate { Tests.ld with d := 0, c := 8 },
    .st { Tests.ld with t := 15 }, .cctl { Tests.ld with d := 0, m := 0xFF8 }, .ld { Tests.ld with sat := 1 }] : List Instr).all (fun i => !i.wellFormed) = true := by decide

/-- Formats B and E and the rest: a slot of 5 (R25), a SETMEET with both an address and a label, an unused CMD bit, bad codes of BAR, SHFL,
FCVT, COLL and MXSCL, an assigned opcode as an unassigned one. -/
theorem test_ill_formed_other : ([.bra ⟨0, 7, 0, 0, 0, 0, 0, 5⟩, .bra ⟨0, 7, 1, 0, 0, 0, 0, 0⟩, .setmeet ⟨0, 7, 0, 0, 0, 2, 1, 0⟩, .launch ⟨0, 7, 4, 8, 0, 0, 8⟩,
    .bar { Tests.bare with imm := 0x800000 }, .shfl ⟨0, 7, 1, 0, 2, 3, 0x1F, 0, 0, 0, 0, 0⟩, .fcvt ⟨0, 7, 5, 0, 3, 5, 0x1F, 0, 0, 0, 0, 0⟩,
    .coll ⟨0, 7, 0x10A, 0x102, 0x104, 0x105, 0xFFFFFF⟩, .mxscl { Tests.bare with imm := 0x100 }, .mxsclFill Tests.bare, .mfsr { Tests.bare with d := 4, imm := 0x1000 },
    .unassignedOpcode 1 0] : List Instr).all (fun i => !i.wellFormed) = true := by decide

/-! ### Values

Lane 0 of a loaded program executes one word; the expected results are those of the manual's examples. -/

/-- Register k of lane 0 after the word at a group whose lane 0 holds the given values. -/
def Tests.result (i : Instr) (regs : List (Nat × W32)) (k : Nat) : W32 :=
  match exec i (Tests.grp (fun g => { g with vregs := regs.foldl (fun v p => v.set p.1 p.2) [] })) with
  | .next t => ((t.group? 4).map (fun g => g.vreg 0 k)).getD 0
  | _ => 0

/-- R75: IMULH of the largest unsigned numbers, and of −1 by 1. -/
theorem test_imulh : Tests.result (.imulh ⟨0, 7, 4, 0, 8, 9, 0, 0, 0, 0, 0, 0⟩) [(8, 0xFFFFFFFF), (9, 0xFFFFFFFF)] 4 = 0xFFFFFFFE ∧
    Tests.result (.imulh ⟨0, 7, 4, 0, 8, 9, 0, 0, 1, 0, 0, 0⟩) [(8, 0xFFFFFFFF), (9, 1)] 4 = 0xFFFFFFFF := by decide +kernel

/-- R83: the two examples of PRMT, their control word in v3. -/
theorem test_prmt : Tests.result (.prmt ⟨0, 7, 1, 0, 2, 0x160, 3, 0, 0, 0, 0, 0⟩) [(2, 0x11223344), (3, 0x1083)] 1 = 0x44332211 ∧
    Tests.result (.prmt ⟨0, 7, 1, 0, 2, 0x160, 3, 0, 0, 0, 0, 0⟩) [(2, 0x80), (3, 0x820800)] 1 = 0xFFFFFF80 := by decide +kernel

/-- R77: the low half of the 128-bit add, and its high half with the carry set. -/
theorem test_iaddc : Tests.result (.iaddc ⟨0, 7, 0, 0, 4, 8, 0x160, 0, 2, 0, 0, 1⟩) [(4, 0xFFFFFFFF), (5, 0xFFFFFFFF), (8, 1), (0, 9)] 0 = 0 ∧
    Tests.result (.iaddc ⟨0, 7, 2, 0, 6, 10, 0x161, 0, 2, 0, 0, 0⟩) [(6, 2), (10, 3)] 2 = 6 := by decide +kernel

/-- R34: FADD.F32 v1, v2, 1.5 of 1.0 is 2.5, with IMM 0x3FC000. -/
theorem test_fadd_immediate : Tests.result (.fadd ⟨0, 7, 1, 0, 2, 0x1FF, 0, 0, 4, 0, 0, 0x3FC000⟩) [(2, 0x3F800000)] 1 = 0x40200000 := by decide +kernel

/-- R130: one rounding against two; RM 3 or 2 rounds v5 up. -/
theorem test_ffma : Tests.result (.fmul ⟨0, 7, 5, 0, 2, 3, 0, 0, 4, 0, 0, 0⟩) [(2, 0x3F800800), (3, 0x3F800800)] 5 = 0x3F801000 ∧
    Tests.result (.ffma ⟨0, 7, 7, 0, 2, 3, 4, 0, 4, 0, 0, 0⟩) [(2, 0x3F800800), (3, 0x3F800800), (4, 0xBF801000)] 7 = 0x33800000 := by decide +kernel

/-- R132: FRCPE.F32 of 3.0 and FDIV.F32 of 1.0 by 3.0. -/
theorem test_reciprocal : Tests.result (.frcpe ⟨0, 7, 1, 0, 2, 0, 0, 0, 4, 0, 0, 0⟩) [(2, 0x40400000)] 1 = 0x3EAAAC00 ∧
    Tests.result (.fdiv ⟨0, 7, 1, 0, 3, 2, 0, 0, 4, 0, 0, 0⟩) [(2, 0x40400000), (3, 0x3F800000)] 1 = 0x3EAAAAAB := by decide +kernel

/-- R141: the third and fourth conversions of the FP8 example. -/
theorem test_fcvt : Tests.result (.fcvt ⟨0, 7, 5, 0, 3, 5, 0x14, 0, 0, 0, 1, 2⟩) [(3, 0x43FA0000), (5, 0x7938)] 5 = 0x7E7938 ∧
    Tests.result (.fcvt ⟨0, 7, 5, 0, 4, 5, 0x14, 0, 0, 0, 0, 3⟩) [(4, 0xBDCCCCCD), (5, 0x7E7938)] 5 = 0x9D7E7938 := by decide +kernel

/-- R354: RNG v20, v12 and RNGF.UI32 v24, v20 with key and counter 0. -/
theorem test_rng : (List.range 4).map (fun k => Tests.result (.rng ⟨0, 7, 0x14, 0, 0xC, 0, 0, 0, 0, 0, 0, 0⟩) [] (20 + k)) =
      [0x6627E8D5, 0xE169C58D, 0xBC57AC4C, 0x9B00DBD8] ∧
    Tests.result (.rngf ⟨0, 7, 24, 0, 20, 0, 0, 0, 0, 0, 0, 0⟩) [(20, 0x6627E8D5)] 24 = 0x3ECC4FD0 := by decide +kernel

/-- R20: the line of the manual's example, NOP and ?!p2 NOP with slot 0 a target: its parity byte is 0x09, its line word 0x0900_0001. -/
theorem test_parity : lineWord (makeLine (0x005C00000000000000000000 :: 0x006800000000000000000000 :: List.replicate 3 0x005C00000000000000000000) 0 1) =
    0x09000001 := by decide +kernel

/-- R25: ?p1 BRA neg at 0x401C goes to slot 0 of the next line. -/
theorem test_branch_target : branchTarget 0x401C 1 0 = 0x4044 ∧ nextPc 0x4034 = 0x4044 ∧ nextPc 0x4028 = 0x4034 := by decide

/-- R239: with MASK 0b1011 and chunks of 64 KiB, 0x0005_0000 is homed on die 3 and 0x0006_0000 on die 0. -/
theorem test_home_die :
    let s : State := { Tests.ready 8 with asids := (Tests.ready 8).asids.map (fun c => { c with regions := [(0, 0x840B0000)] }) }
    s.homeDie 1 0x50000 = some 3 ∧ s.homeDie 1 0x60000 = some 0 := by decide +kernel

/-- A step at a loaded line runs MOVI v3, 1234. -/
theorem test_step_runs : (match step (State.reset.withFetchWord 96 3206099607816893794367832064) with
    | .next t => (t.group? 4).map (fun g => g.vreg 0 3)
    | _ => none) = some 1234 := by decide +kernel
end

section
/-! # The memories keep their canonical form (O6) and the state at reset (O7)

A step reaches the memories through few writers, which the laws of the state treat already. So: a frame lemma for each function that
leaves the memories, a lemma for each function that writes one, one for the meaning of each instruction, then the table and the turns. -/

namespace Sys2Proof.Machine

/-! ## The memories, and the functions that leave them -/

/-- The memories of a machine: HBM, its seals, host memory, the peers' windows, the frame owners. -/
abbrev Mems := Cells 8 × Cells 32 × Cells 8 × Cells 8 × Cells 8

/-- The memories of a state. -/
def State.mems (s : State) : Mems :=
  (s.hbm, s.seals, s.hostMem, s.peerMem, s.frameOwners)

/-- An update of other fields leaves the memories. -/
@[simp] theorem State.mems_update (s : State)
    {powered fuses coreMap dies cores launches clusters wgs groups formed ops acks mx l1 pathLines travRuns home rdc notices
     evictBound tlb poison hbmScope peerRefuse peerLen asids parts fsets pages codes pinnedFree rows curRow rowStart quads
     pendingTable tableWait deferredCmds fwWait funcs queue done nextCmdFn vectors mgmt binding colls heard collLeft rounds sends
     portUp bootCount bootRecord boot patched earlyDegraded recovery replReq degraded throtEnd hstat hbmRate pcie mchk keyGen
     badScratch badFetch dmaW dmaLr peerW peerLr coreW lineTurns issue turns tick freeCtr} :
    ({ s with
        powered, fuses, coreMap, dies, cores, launches, clusters, wgs, groups, formed, ops, acks, mx, l1, pathLines, travRuns,
        home, rdc, notices, evictBound, tlb, poison, hbmScope, peerRefuse, peerLen, asids, parts, fsets, pages, codes, pinnedFree,
        rows, curRow, rowStart, quads, pendingTable, tableWait, deferredCmds, fwWait, funcs, queue, done, nextCmdFn, vectors,
        mgmt, binding, colls, heard, collLeft, rounds, sends, portUp, bootCount, bootRecord, boot, patched, earlyDegraded,
        recovery, replReq, degraded, throtEnd, hstat, hbmRate, pcie, mchk, keyGen, badScratch, badFetch, dmaW, dmaLr, peerW,
        peerLr, coreW, lineTurns, issue, turns, tick, freeCtr } : State).mems =
      s.mems := (rfl)

/-- A fold of steps that leave the memories leaves them. -/
@[simp] theorem foldl_mems {α : Type} {f : State → α → State} (hf : ∀ s a, (f s a).mems = s.mems) (l : List α) (s : State) :
    (l.foldl f s).mems = s.mems := by
  induction l generalizing s with
  | nil => rfl
  | cons a t ih => rw [List.foldl_cons, ih, hf]

/-- A choice between states has the memories of the one chosen. -/
@[simp] theorem State.mems_ite (p : Prop) [Decidable p] (s t : State) : (if p then s else t).mems = if p then s.mems else t.mems :=
  apply_ite State.mems p s t

/-- A state looked up, or the one that stands where there is none. -/
theorem State.mems_getD {o : Option State} {s : State} (h : ∀ t, o = some t → t.mems = s.mems) : (o.getD s).mems = s.mems := by
  cases o with
  | none => rfl
  | some t => exact h t rfl

/-! ### Operands: what leaves the memories -/

@[simp] theorem State.mems_modGroup (s : State) (gid : Nat) (f : Group → Group) : (s.modGroup gid f).mems = s.mems := by
  simp [State.modGroup]

@[simp] theorem State.mems_modWg (s : State) (wid : Nat) (f : Workgroup → Workgroup) : (s.modWg wid f).mems = s.mems := by
  simp [State.modWg]

@[simp] theorem State.mems_modCluster (s : State) (cid : Nat) (f : Cluster → Cluster) : (s.modCluster cid f).mems = s.mems := by
  simp [State.modCluster]

@[simp] theorem State.mems_modLaunch (s : State) (lid : Nat) (f : Launch → Launch) : (s.modLaunch lid f).mems = s.mems := by
  simp [State.modLaunch]

/-! ### Ops: what leaves the memories -/

@[simp] theorem State.mems_signal (s : State) (fn v : Nat) : (s.signal fn v).mems = s.mems := by simp [State.signal]
@[simp] theorem State.mems_machineRecord (s : State) : s.machineRecord.mems = s.mems := by simp [State.machineRecord]
@[simp] theorem State.mems_modFunc (s : State) (fn : Nat) (f : Func → Func) : (s.modFunc fn f).mems = s.mems := by simp [State.modFunc]
@[simp] theorem State.mems_closeFid (s : State) (fn : Nat) (fid : W32) : (s.closeFid fn fid).mems = s.mems := by simp [State.closeFid]
@[simp] theorem State.mems_clearPend (s : State) (gid op : Nat) : (s.clearPend gid op).mems = s.mems := by simp [State.clearPend]
@[simp] theorem State.mems_clearPendLane (s : State) (gid op lane : Nat) : (s.clearPendLane gid op lane).mems = s.mems := by
  simp [State.clearPendLane]

@[simp] theorem State.mems_dropLogged (s : State) (vf : Nat) (o : MemOp) : (s.dropLogged vf o).mems = s.mems := by
  unfold State.dropLogged; split <;> simp

@[simp] theorem State.mems_dissolve (s : State) (gid : Nat) : (s.dissolve gid).mems = s.mems := by simp [State.dissolve]
@[simp] theorem State.mems_dropPart (s : State) (gid : Nat) : (s.dropPart gid).mems = s.mems := by simp [State.dropPart]

/-! ### Translate: what leaves the memories -/

@[simp] theorem State.mems_modAsid (s : State) (a : Nat) (f : AsidCtx → AsidCtx) : (s.modAsid a f).mems = s.mems := by
  simp [State.modAsid]

@[simp] theorem State.mems_modPart (s : State) (p : Nat) (f : Partition → Partition) : (s.modPart p f).mems = s.mems := by
  simp [State.modPart]

@[simp] theorem State.mems_modPage (s : State) (asid page : Nat) (f : TrackedPage → TrackedPage) :
    (s.modPage asid page f).mems = s.mems := by
  simp [State.modPage]

@[simp] theorem State.mems_modFset (s : State) (part num : Nat) (f : FieldSet → FieldSet) : (s.modFset part num f).mems = s.mems := by
  simp [State.modFset]

@[simp] theorem State.mems_addTlb (s : State) (e : TlbEnt) : (s.addTlb e).mems = s.mems := by simp [State.addTlb]

/-! ### Lines: what leaves the memories -/

@[simp] theorem State.mems_putHome (s : State) (h : HomeLine) : (s.putHome h).mems = s.mems := by simp [State.putHome]
@[simp] theorem State.mems_delHome (s : State) (asid line : Nat) : (s.delHome asid line).mems = s.mems := by simp [State.delHome]
@[simp] theorem State.mems_delRdc (s : State) (die asid line : Nat) : (s.delRdc die asid line).mems = s.mems := by simp [State.delRdc]
@[simp] theorem State.mems_putRdc (s : State) (r : RdcLine) : (s.putRdc r).mems = s.mems := by simp [State.putRdc]
@[simp] theorem State.mems_delNotice (s : State) (die asid line : Nat) : (s.delNotice die asid line).mems = s.mems := by
  simp [State.delNotice]

@[simp] theorem State.mems_takeNotice (s : State) (die asid line : Nat) : (s.takeNotice die asid line).mems = s.mems := by
  unfold State.takeNotice; split <;> simp

@[simp] theorem State.mems_rdcGiveUp (s : State) (die asid line : Nat) : (s.rdcGiveUp die asid line).mems = s.mems := by
  unfold State.rdcGiveUp; (repeat' split) <;> simp

@[simp] theorem State.mems_rdcShare (s : State) (die asid line : Nat) : (s.rdcShare die asid line).mems = s.mems := by
  unfold State.rdcShare; (repeat' split) <;> simp

@[simp] theorem State.mems_rdcReplace (s : State) (die asid line : Nat) : (s.rdcReplace die asid line).mems = s.mems := by
  unfold State.rdcReplace; split <;> simp

@[simp] theorem State.mems_dirRecall (s : State) (asid line : Nat) : (s.dirRecall asid line).mems = s.mems := by
  simp only [State.dirRecall]; (repeat' split) <;> simp

@[simp] theorem State.mems_dirReadMiss (s : State) (asid line : Nat) : (s.dirReadMiss asid line).mems = s.mems := by
  simp only [State.dirReadMiss]; (repeat' split) <;> simp

@[simp] theorem State.mems_fillRdc (s : State) (r : RdcLine) : (s.fillRdc r).mems = s.mems := by
  simp only [State.fillRdc]; (repeat' split) <;> simp

@[simp] theorem State.mems_grantS (s : State) (d asid line : Nat) : (s.grantS d asid line).mems = s.mems := by
  unfold State.grantS; split <;> simp

@[simp] theorem State.mems_dirGetS (s : State) (d asid line : Nat) : (s.dirGetS d asid line).mems = s.mems := by
  simp only [State.dirGetS]; (repeat' split) <;> simp

@[simp] theorem State.mems_dirGetM (s : State) (d asid line : Nat) : (s.dirGetM d asid line).mems = s.mems := by
  simp only [State.dirGetM]; (repeat' split) <;> simp

@[simp] theorem State.mems_finishReq (s : State) (asid line : Nat) (x : DirReq) : (s.finishReq asid line x).mems = s.mems := by
  unfold State.finishReq; split <;> simp

@[simp] theorem State.mems_beginReq (s : State) (asid line : Nat) (r : DirReq) : (s.beginReq asid line r).mems = s.mems := by
  unfold State.beginReq; split <;> simp

@[simp] theorem State.mems_dirRequest (s : State) (asid line : Nat) (r : DirReq) : (s.dirRequest asid line r).mems = s.mems := by
  unfold State.dirRequest; split <;> simp

@[simp] theorem State.mems_startQueued (s : State) (asid line : Nat) (q : List (W64 × DirReq)) :
    (s.startQueued asid line q).mems = s.mems := by
  induction q generalizing s with
  | nil => rfl
  | cons r rest ih => unfold State.startQueued; (repeat' split) <;> simp [ih]

@[simp] theorem State.mems_startLine (s : State) (asid line : Nat) : (s.startLine asid line).mems = s.mems := by
  unfold State.startLine; split <;> simp

@[simp] theorem State.mems_startLines (s : State) : s.startLines.mems = s.mems := by simp [State.startLines]
@[simp] theorem State.mems_settleBusy (s : State) (asid line : Nat) : (s.settleBusy asid line).mems = s.mems := by
  unfold State.settleBusy; (repeat' split) <;> simp

@[simp] theorem State.mems_forwardAt (s : State) (die asid line : Nat) : (s.forwardAt die asid line).mems = s.mems := by
  simp only [State.forwardAt]; (repeat' split) <;> simp

@[simp] theorem State.mems_noticeArrives (s : State) (die asid line : Nat) : (s.noticeArrives die asid line).mems = s.mems := by
  simp only [State.noticeArrives]; (repeat' split) <;> simp

@[simp] theorem State.mems_noticeAt (s : State) (die asid line : Nat) (st : DirState) : (s.noticeAt die asid line st).mems = s.mems := by
  unfold State.noticeAt; split <;> simp

@[simp] theorem State.mems_quietOnce (s : State) (asid line : Nat) : (s.quietOnce asid line).mems = s.mems := by
  unfold State.quietOnce; (repeat' split) <;> simp

@[simp] theorem State.mems_quietLine (s : State) (asid line : Nat) : (s.quietLine asid line).mems = s.mems := by
  unfold State.quietLine; split <;> simp

/-! ### Hierarchy: what leaves the memories -/

@[simp] theorem State.mems_leaveHome (s : State) (asid line : Nat) : (s.leaveHome asid line).mems = s.mems := by
  unfold State.leaveHome; split <;> simp

@[simp] theorem State.mems_dropL1 (s : State) (p : L1Line → Bool) : (s.dropL1 p).mems = s.mems := by simp [State.dropL1]
@[simp] theorem State.mems_dropPath (s : State) (p : PathLine → Bool) : (s.dropPath p).mems = s.mems := by simp [State.dropPath]
@[simp] theorem State.mems_recordLease (s : State) (die home asid line : Nat) (e : W64) :
    (s.recordLease die home asid line e).mems = s.mems := by
  unfold State.recordLease; (repeat' split) <;> simp

/-! ### Memory: what leaves the memories -/

@[simp] theorem State.mems_newId (s : State) : s.newId.2.mems = s.mems := (rfl)

@[simp] theorem State.mems_modOp (s : State) (id : Nat) (f : MemOp → MemOp) : (s.modOp id f).mems = s.mems := by simp [State.modOp]
@[simp] theorem State.mems_delOp (s : State) (gid id : Nat) : (s.delOp gid id).mems = s.mems := by simp [State.delOp]
@[simp] theorem State.mems_freeEntry (s : State) (id : Nat) : (s.freeEntry id).mems = s.mems := by simp [State.freeEntry]
@[simp] theorem State.mems_scratchWrite (s : State) (wid off : Nat) (bs : List Byte) : (s.scratchWrite wid off bs).mems = s.mems := by
  simp [State.scratchWrite]

@[simp] theorem State.mems_l1Update (s : State) (core asid addr : Nat) (bs : List Byte) :
    (s.l1Update core asid addr bs).mems = s.mems := by
  simp [State.l1Update]

@[simp] theorem State.mems_l1Replace (s : State) (core asid line : Nat) : (s.l1Replace core asid line).mems = s.mems := by
  simp [State.l1Replace]

@[simp] theorem State.mems_fillL1 (s : State) (x : L1Line) : (s.fillL1 x).mems = s.mems := by
  simp only [State.fillL1]; (repeat' split) <;> simp

@[simp] theorem State.mems_setRecord (s : State) (die asid line : Nat) (r : ScopeRec) : (s.setRecord die asid line r).mems = s.mems := by
  unfold State.setRecord; (repeat' split) <;> simp

@[simp] theorem State.mems_sendAck (s : State) (o : MemOp) (line : Nat) (w : W64) (system : Bool) :
    (s.sendAck o line w system).mems = s.mems := by
  simp [State.sendAck]

@[simp] theorem State.mems_sendAcks (s : State) (os : List MemOp) (line : Nat) (w : W64) (system : Bool) :
    (s.sendAcks os line w system).mems = s.mems := by
  simp [State.sendAcks]

/-! ### MemoryInstr: what leaves the memories -/

@[simp] theorem Ctx.mems_issueOp (c : Ctx) (lanes : List LaneReq) (dests : List (Nat × W64)) :
    (Ctx.issueOp c lanes dests).mems = c.s.mems := by
  simp [Ctx.issueOp]

@[simp] theorem Ctx.mems_addHold (c : Ctx) (ord : BitVec 2) (scope : BitVec 3) (producers consumers : BitVec 8) :
    (Ctx.addHold c ord scope producers consumers).mems = c.s.mems := by
  simp [Ctx.addHold]

@[simp] theorem State.mems_noAllocate (s : State) (p : MemOp → Bool) : (s.noAllocate p).mems = s.mems := by simp [State.noAllocate]

/-! ### MemoryEvents: what leaves the memories -/

@[simp] theorem State.mems_serve (s : State) (o : MemOp) (addr : W64) : (s.serve o addr).mems = s.mems := by simp [State.serve]
@[simp] theorem State.mems_reopenLogged (s : State) (id : Nat) (p : LaneReq → Bool) : (s.reopenLogged id p).mems = s.mems := by
  simp [State.reopenLogged]

@[simp] theorem State.mems_liftHold (s : State) (gid hold : Nat) : (s.liftHold gid hold).mems = s.mems := by
  unfold State.liftHold; (repeat' split) <;> simp

@[simp] theorem State.mems_ackArrives (s : State) (ack : Nat) : (s.ackArrives ack).mems = s.mems := by
  unfold State.ackArrives; split <;> simp

/-! ### Matrix: what leaves the memories -/

@[simp] theorem State.mems_enterMx (s : State) (id : Nat) (g : Group) (w : Workgroup) (core : Nat) (pc : W64) (i : Instr) (r : MxReq) :
    (s.enterMx id g w core pc i r).mems = s.mems := by
  unfold State.enterMx; split <;> simp

@[simp] theorem State.mems_stallMx (s : State) (g : Group) (core : Nat) : (s.stallMx g core).mems = s.mems := by simp [State.stallMx]
@[simp] theorem State.mems_tileEntryFault (s : State) (o : MemOp) (k : Nat) (info : W32) (a : W64) :
    (s.tileEntryFault o k info a).mems = s.mems := by
  simp [State.tileEntryFault]

@[simp] theorem State.mems_mxGrant (s : State) (quad : Nat) : (s.mxGrant quad).mems = s.mems := by
  unfold State.mxGrant; (repeat' split) <;> simp

/-! ### Tasks: what leaves the memories -/

@[simp] theorem State.mems_wakeCreator (s : State) (creator : Option Nat) : (s.wakeCreator creator).mems = s.mems := by
  unfold State.wakeCreator; split <;> simp

@[simp] theorem State.mems_twaitDone (s : State) (gid tok : Nat) : (s.twaitDone gid tok).mems = s.mems := by
  unfold State.twaitDone; (repeat' split) <;> simp

/-! ### Sync: what leaves the memories -/

@[simp] theorem State.mems_modBarrier (s : State) (w : Workgroup) (k : Nat) (f : Barrier → Barrier) :
    (s.modBarrier w k f).mems = s.mems := by
  simp [State.modBarrier]

@[simp] theorem State.mems_checkArrival (s : State) (gid k : Nat) (last : W64) : (s.checkArrival gid k last).mems = s.mems := by
  simp only [State.checkArrival]; (repeat' split) <;> simp

@[simp] theorem State.mems_arrive (s : State) (w : Workgroup) (gid k n : Nat) (mask : W64) (waits : Bool) (d : BitVec 9) :
    (s.arrive w gid k n mask waits d).mems = s.mems := by
  simp [State.arrive]

@[simp] theorem State.mems_exitArrivals (s : State) (gid : Nat) : (s.exitArrivals gid).mems = s.mems := by simp [State.exitArrivals]
@[simp] theorem State.mems_releaseBar (s : State) (w : Workgroup) (k : Nat) : (s.releaseBar w k).mems = s.mems := by
  simp [State.releaseBar]

@[simp] theorem State.mems_barrierStep (s : State) (w : Workgroup) (k : Nat) : (s.barrierStep w k).mems = s.mems := by
  simp [State.barrierStep]

@[simp] theorem State.mems_placeQueue (s : State) (w : Workgroup) (q : Nat) (v : W64) : (s.placeQueue w q v).mems = s.mems := by
  simp only [State.placeQueue]; split <;> simp

@[simp] theorem State.mems_clearQueues (s : State) (wid : Nat) : (s.clearQueues wid).mems = s.mems := by simp [State.clearQueues]
@[simp] theorem State.mems_moveGroup (s : State) (gid core : Nat) (landing : Option Landing) :
    (s.moveGroup gid core landing).mems = s.mems := by
  simp [State.moveGroup]

@[simp] theorem State.mems_migrateStep (s : State) (gid : Nat) : (s.migrateStep gid).mems = s.mems := by
  unfold State.migrateStep; (repeat' split) <;> simp

/-! ### Fetch: what leaves the memories -/

@[simp] theorem State.mems_clearFetch (s : State) (gid : Nat) (mask : W64) : (s.clearFetch gid mask).mems = s.mems := by
  simp [State.clearFetch]

/-! ### Control: what leaves the memories -/

@[simp] theorem State.mems_issueRound (s : State) (g : Group) (w : Workgroup) (core : Nat) (r : MmasRound) :
    (s.issueRound g w core r).mems = s.mems := by
  simp [State.issueRound]

@[simp] theorem State.mems_emptied (s : State) (gid cv : Nat) : (s.emptied gid cv).mems = s.mems := by
  simp only [State.emptied]; (repeat' split) <;> simp

@[simp] theorem State.mems_dropTraps (s : State) (gid : Nat) : (s.dropTraps gid).mems = s.mems := by
  unfold State.dropTraps
  split
  · rfl
  · exact foldl_mems (fun t x => by split <;> simp) _ _

@[simp] theorem State.mems_exitThreads (s : State) (gid : Nat) (mask : W64) : (s.exitThreads gid mask).mems = s.mems := by
  unfold State.exitThreads
  dsimp only
  generalize State.group? _ _ = o
  cases o <;> simp

@[simp] theorem State.mems_cvdeclDone (s : State) (gid tok : Nat) : (s.cvdeclDone gid tok).mems = s.mems := by
  unfold State.cvdeclDone; (repeat' split) <;> simp

@[simp] theorem State.mems_meetRelease (s : State) (gid : Nat) (x : W64) : (s.meetRelease gid x).mems = s.mems := by
  simp [State.meetRelease]

@[simp] theorem State.mems_formBin (s : State) (wid core : Nat) (b : List PoolThread) : (s.formBin wid core b).mems = s.mems := by
  simp [State.formBin]

@[simp] theorem State.mems_releasePool (s : State) (wid core : Nat) (l : List PoolThread) : (s.releasePool wid core l).mems = s.mems := by
  simp [State.releasePool]

@[simp] theorem State.mems_flockRelease (s : State) (wid : Nat) (addr : W64) : (s.flockRelease wid addr).mems = s.mems := by
  unfold State.flockRelease
  split
  · rfl
  · refine (foldl_mems (fun t g => by split <;> simp) _ _).trans ?_
    split <;> simp

@[simp] theorem State.mems_endSwitchWaits (s : State) (wid : Nat) : (s.endSwitchWaits wid).mems = s.mems := by simp [State.endSwitchWaits]
@[simp] theorem State.mems_reachPoint (s : State) (wid gid n : Nat) : (s.reachPoint wid gid n).mems = s.mems := by
  unfold State.reachPoint; (repeat' split) <;> simp

@[simp] theorem State.mems_backoffDone (s : State) (gid lane : Nat) : (s.backoffDone gid lane).mems = s.mems := by
  unfold State.backoffDone; (repeat' split) <;> simp

@[simp] theorem State.mems_sleepDone (s : State) (gid lane : Nat) : (s.sleepDone gid lane).mems = s.mems := by
  unfold State.sleepDone; split <;> simp

@[simp] theorem State.mems_passedGuard (s : State) (gid : Nat) : (s.passedGuard gid).mems = s.mems := by simp [State.passedGuard]
@[simp] theorem State.mems_starve (s : State) (core ipart : Nat) : (s.starve core ipart).mems = s.mems := by
  simp only [State.starve]; split <;> simp

/-! ### System: what leaves the memories -/

@[simp] theorem Ctx.mems_sysWrite (c : Ctx) (idx : Nat) (v : W64) : (Ctx.sysWrite c idx v).mems = c.s.mems := by
  unfold Ctx.sysWrite; (repeat' split) <;> simp

@[simp] theorem State.mems_idleWakes (s : State) (gid lane : Nat) : (s.idleWakes gid lane).mems = s.mems := by
  unfold State.idleWakes; split <;> simp

/-! ### Engine: what leaves the memories -/

@[simp] theorem State.mems_modCmd (s : State) (gid slot : Nat) (f : CmdSlot → CmdSlot) : (s.modCmd gid slot f).mems = s.mems := by
  simp [State.modCmd]

@[simp] theorem State.mems_cmdPerformed (s : State) (gid slot : Nat) (code : Byte) (w : W64) :
    (s.cmdPerformed gid slot code w).mems = s.mems := by
  simp [State.cmdPerformed]

@[simp] theorem State.mems_cmdDone (s : State) (gid slot : Nat) : (s.cmdDone gid slot).mems = s.mems := by simp [State.cmdDone]
@[simp] theorem State.mems_cmdResume (s : State) (gid slot : Nat) : (s.cmdResume gid slot).mems = s.mems := by
  unfold State.cmdResume; (repeat' split) <;> simp

@[simp] theorem State.mems_cut (s : State) (part : Nat) (v : W64) : (s.cut part v).1.mems = s.mems := by
  simp only [State.cut]; (repeat' split) <;> simp

@[simp] theorem State.mems_vhold (s : State) (part : Nat) (v : W64) : (s.vhold part v).1.mems = s.mems := by
  simp only [State.vhold]; (repeat' split) <;> simp

@[simp] theorem State.mems_releaseFrames (s : State) (part fset : Nat) : (s.releaseFrames part fset).mems = s.mems := by
  unfold State.releaseFrames; split <;> simp

@[simp] theorem State.mems_vrel (s : State) (part : Nat) (v : W64) : (s.vrel part v).1.mems = s.mems := by
  simp only [State.vrel]; (repeat' split) <;> simp

@[simp] theorem State.mems_freeFrame (s : State) (part fset hpa : Nat) : (s.freeFrame part fset hpa).mems = s.mems := by
  simp [State.freeFrame]

@[simp] theorem Ctx.mems_cwaits (c : Ctx) (tok : Nat) (tag : Option W32) (d : BitVec 9) (s : State) :
    (Ctx.cwaits c tok tag d s).mems = s.mems := by
  simp [Ctx.cwaits]

@[simp] theorem State.mems_cwaitDone (s : State) (gid tok : Nat) : (s.cwaitDone gid tok).mems = s.mems := by simp [State.cwaitDone]
@[simp] theorem State.mems_publishCut (s : State) (gid slot : Nat) : (s.publishCut gid slot).mems = s.mems := by
  simp only [State.publishCut]; (repeat' split) <;> simp

@[simp] theorem State.mems_cmdLands (s : State) (gid slot : Nat) : (s.cmdLands gid slot).mems = s.mems := by
  unfold State.cmdLands; split <;> simp

/-! ### Collective: what leaves the memories -/

@[simp] theorem State.mems_sendLink (s : State) (part kind : Nat) (body : List Byte) : (s.sendLink part kind body).mems = s.mems := by
  simp [State.sendLink]

@[simp] theorem State.mems_modRound (s : State) (part group kind : Nat) (off : W64) (num : Nat) (f : Round → Round) :
    (s.modRound part group kind off num f).mems = s.mems := by
  unfold State.modRound; split <;> simp

@[simp] theorem State.mems_modColl (s : State) (part group : Nat) (f : CollGroup → CollGroup) :
    (s.modColl part group f).mems = s.mems := by
  simp [State.modColl]

@[simp] theorem State.mems_noteArrival (s : State) (a : ArrivalMsg) : (s.noteArrival a).mems = s.mems := by simp [State.noteArrival]
@[simp] theorem State.mems_closeRound (s : State) (part group kind num : Nat) (off : W64) :
    (s.closeRound part group kind num off).mems = s.mems := by
  simp [State.closeRound]

@[simp] theorem State.mems_settleRounds (s : State) : s.settleRounds.mems = s.mems := by simp [State.settleRounds]
@[simp] theorem State.mems_collNumber (s : State) (x : CollCtx) : (s.collNumber x).1.mems = s.mems := by
  simp only [State.collNumber]; (repeat' split) <;> simp

@[simp] theorem State.mems_collTell (s : State) (x : CollCtx) (a : ArrivalMsg) : (s.collTell x a).mems = s.mems := by
  simp [State.collTell]

@[simp] theorem State.mems_collArrive (s : State) (x : CollCtx) (cmd : BitVec 24) (count : W32) (root : BitVec 16)
    (lists sends : List Nat) :
    (s.collArrive x cmd count root lists sends).mems = s.mems := by
  simp [State.collArrive]

@[simp] theorem State.mems_announced (s : State) (part group : Nat) (a : Announced) (leave : Bool) :
    (s.announced part group a leave).mems = s.mems := by
  simp [State.announced]

@[simp] theorem State.mems_roundTimeout (s : State) (part group kind num : Nat) (off : W64) :
    (s.roundTimeout part group kind num off).mems = s.mems := by
  simp [State.roundTimeout]

@[simp] theorem State.mems_sendsRefused (s : State) (gone : PeerSend → Bool) : (s.sendsRefused gone).mems = s.mems := by
  simp [State.sendsRefused]

@[simp] theorem State.mems_haloReported (s : State) (part group num rank : Nat) : (s.haloReported part group num rank).mems = s.mems := by
  simp [State.haloReported]

/-! ### Traversal: what leaves the memories -/

@[simp] theorem State.mems_setTravRun (s : State) (r : TravRun) : (s.setTravRun r).mems = s.mems := by simp [State.setTravRun]
@[simp] theorem State.mems_dropTravRun (s : State) (op lane : Nat) : (s.dropTravRun op lane).mems = s.mems := by simp [State.dropTravRun]
@[simp] theorem State.mems_travAhead (s : State) (id lane addr : Nat) : (s.travAhead id lane addr).mems = s.mems := by
  simp only [State.travAhead]; (repeat' split) <;> simp

@[simp] theorem State.mems_pathFill (s : State) (path core asid line : Nat) : (s.pathFill path core asid line).mems = s.mems := by
  unfold State.pathFill; split <;> simp

/-! ### Issue: what leaves the memories -/

@[simp] theorem State.mems_tidyFormed (s : State) : s.tidyFormed.mems = s.mems := by simp [State.tidyFormed]
@[simp] theorem State.mems_account (s : State) (core ipart : Nat) (c : Cand) : (s.account core ipart c).mems = s.mems := by
  simp [State.account]

@[simp] theorem State.mems_secondSlot (s : State) (i : Instr) : (s.secondSlot i).mems = s.mems := by simp [State.secondSlot]
@[simp] theorem State.mems_endIssue (s : State) (is : List Instr) : (s.endIssue is).mems = s.mems := by simp [State.endIssue]

/-! ### Dispatcher: what leaves the memories -/

@[simp] theorem State.mems_startGroups (s : State) (la : Launch) (wid core n width : Nat) (pc : W64) :
    (s.startGroups la wid core n width pc).mems = s.mems := by
  simp [State.startGroups]

@[simp] theorem State.mems_startWg (s : State) (la : Launch) (c : CodeObj) (cid ix core k : Nat) :
    (s.startWg la c cid ix core k).mems = s.mems := by
  unfold State.startWg; split <;> simp

@[simp] theorem State.mems_startPlaced (la : Launch) (c : CodeObj) (s : State) (p : (Nat × Nat) × Nat) :
    (State.startPlaced la c s p).mems = s.mems := by
  simp [State.startPlaced]

@[simp] theorem State.mems_takeIn (s : State) (e : QEntry) (part : Nat) (c : CodeObj) (pl : Placing) :
    (s.takeIn e part c pl).mems = s.mems := by
  simp [State.takeIn]

@[simp] theorem State.mems_order (s : State) (wid u : Nat) : (s.order wid u).mems = s.mems := by
  unfold State.order
  refine (foldl_mems (fun t g => ?_) _ _).trans (by simp)
  split <;> simp

@[simp] theorem State.mems_ordersOnFree (s : State) (q : Nat) : (s.ordersOnFree q).mems = s.mems := by
  unfold State.ordersOnFree
  exact foldl_mems (fun t w => by split <;> simp) _ _

@[simp] theorem State.mems_ordersForLaunch (s : State) (e : QEntry) (part : Nat) (c : CodeObj) (q : Nat) :
    (s.ordersForLaunch e part c q).mems = s.mems := by
  simp only [State.ordersForLaunch]
  split
  · rfl
  · refine foldl_mems (fun t w => ?_) _ _
    split
    · rfl
    · split <;> simp

@[simp] theorem State.mems_switchWg (s : State) (w : Workgroup) (c : CodeObj) (n u : Nat) : (s.switchWg w c n u).mems = s.mems := by
  unfold State.switchWg; split <;> simp

@[simp] theorem State.mems_rendezvous (s : State) (wid : Nat) : (s.rendezvous wid).mems = s.mems := by
  unfold State.rendezvous; (repeat' split) <;> simp

@[simp] theorem State.mems_setTier (s : State) (core : Nat) (t : Tier) (g : Group) : (s.setTier core t g).mems = s.mems := by
  simp [State.setTier]

@[simp] theorem State.mems_overflow (s : State) (core : Nat) : (s.overflow core).mems = s.mems := by
  unfold State.overflow
  dsimp only
  generalize s.enough _ _ = o
  cases o <;> simp

@[simp] theorem State.mems_trimActive (s : State) (core : Nat) : (s.trimActive core).mems = s.mems := by
  unfold State.trimActive
  dsimp only
  generalize s.enough _ _ = o
  cases o <;> simp

@[simp] theorem State.mems_fitTiers (s : State) : s.fitTiers.mems = s.mems := by simp [State.fitTiers]
@[simp] theorem State.mems_moveEntries (s : State) (gid core ipart : Nat) : (s.moveEntries gid core ipart).mems = s.mems := by
  simp [State.moveEntries]

theorem State.mems_of_promoteOver {s t : State} {core : Nat} {g : Group} {vs : List Group} (h : s.promoteOver core g vs = some t) :
    t.mems = s.mems := by
  unfold State.promoteOver at h
  dsimp only at h
  generalize s.enough _ _ = o at h
  cases o with
  | none => cases h
  | some out => rw [← Option.some.inj h]; simp

@[simp] theorem State.mems_takeParts (s : State) (core : Nat) : (s.takeParts core).mems = s.mems := by simp [State.takeParts]
theorem State.mems_of_aged {s t : State} {core : Nat} (h : s.aged core = some t) : t.mems = s.mems := by
  obtain ⟨g, -, hg⟩ := List.exists_of_findSome?_eq_some h
  exact State.mems_of_promoteOver hg

@[simp] theorem State.mems_promoteNext (s : State) (core : Nat) : (s.promoteNext core).mems = s.mems := by
  unfold State.promoteNext
  split
  · rfl
  · refine State.mems_getD fun t ht => ?_
    obtain ⟨g, -, hg⟩ := List.exists_of_findSome?_eq_some ht
    exact State.mems_of_promoteOver hg

@[simp] theorem State.mems_ageNext (s : State) (core : Nat) : (s.ageNext core).mems = s.mems :=
  State.mems_getD fun _ ht => State.mems_of_aged ht

/-! ### Host: what leaves the memories -/

@[simp] theorem State.mems_withFunc (s : State) (fn : Nat) : (s.withFunc fn).mems = s.mems := by simp [State.withFunc]
@[simp] theorem State.mems_noteHealth (s : State) : s.noteHealth.mems = s.mems := by simp [State.noteHealth]
@[simp] theorem State.mems_ringErr (s : State) (fn : Nat) : (s.ringErr fn).mems = s.mems := by simp [State.ringErr]
@[simp] theorem State.mems_commandDoorbell (s : State) (fn : Nat) (v : W32) : (s.commandDoorbell fn v).mems = s.mems := by
  unfold State.commandDoorbell; split <;> simp

@[simp] theorem State.mems_takeCommand (s : State) (fn : Nat) : (s.takeCommand fn).mems = s.mems := by simp [State.takeCommand]
@[simp] theorem State.mems_sendRead (s : State) (kind fn off : Nat) (bs : List Byte) : (s.sendRead kind fn off bs).mems = s.mems := by
  simp [State.sendRead]

@[simp] theorem State.mems_configRequest (s : State) (fn reg : Nat) (write : Option W32) :
    (s.configRequest fn reg write).mems = s.mems := by
  unfold State.configRequest; (repeat' split) <;> simp

/-! ### Slots: what leaves the memories -/

@[simp] theorem State.mems_modQuad (s : State) (q : Nat) (f : QuadState → QuadState) : (s.modQuad q f).mems = s.mems := by
  simp [State.modQuad]

@[simp] theorem State.mems_stopGroup (s : State) (gid : Nat) : (s.stopGroup gid).mems = s.mems := by simp [State.stopGroup]
@[simp] theorem State.mems_stopAt (s : State) (q b : Nat) : (s.stopAt q b).mems = s.mems := by simp [State.stopAt]
@[simp] theorem State.mems_issueStop (s : State) (q : Nat) : (s.issueStop q).mems = s.mems := by unfold State.issueStop; split <;> simp
@[simp] theorem State.mems_quiesce (s : State) (q : Nat) : (s.quiesce q).mems = s.mems := by unfold State.quiesce; split <;> simp
@[simp] theorem State.mems_saveGroup (s : State) (gid : Nat) : (s.saveGroup gid).mems = s.mems := by
  unfold State.saveGroup; (repeat' split) <;> simp

@[simp] theorem State.mems_saveWg (s : State) (wid : Nat) : (s.saveWg wid).mems = s.mems := by simp [State.saveWg]
@[simp] theorem State.mems_overrunAt (s : State) (q : Nat) : (s.overrunAt q).mems = s.mems := by
  unfold State.overrunAt; (repeat' split) <;> simp

@[simp] theorem State.mems_overrunDue (s : State) (q : Nat) : (s.overrunDue q).mems = s.mems := by unfold State.overrunDue; split <;> simp
@[simp] theorem State.mems_excessAt (s : State) (q : Nat) : (s.excessAt q).mems = s.mems := by
  unfold State.excessAt; (repeat' split) <;> simp

@[simp] theorem State.mems_clearQuad (s : State) (q : Nat) : (s.clearQuad q).mems = s.mems := by simp [State.clearQuad]
@[simp] theorem State.mems_abortCmds (s : State) (p : Group → CmdSlot → Bool) : (s.abortCmds p).mems = s.mems := by
  refine foldl_mems (fun t g => foldl_mems (fun u j => ?_) _ _) _ _
  split <;> simp

@[simp] theorem State.mems_dropFset (s : State) (part num : Nat) : (s.dropFset part num).mems = s.mems := by
  unfold State.dropFset; split <;> simp

@[simp] theorem State.mems_forgetAsid (s : State) (asid : Nat) : (s.forgetAsid asid).mems = s.mems := by simp [State.forgetAsid]
@[simp] theorem State.mems_tableAt (s : State) (b : Nat) : (s.tableAt b).mems = s.mems := by unfold State.tableAt; split <;> simp
@[simp] theorem State.mems_crossQuad (b : Nat) (s : State) (q : Nat) : (State.crossQuad b s q).mems = s.mems := by
  unfold State.crossQuad; split <;> simp

@[simp] theorem State.mems_payDelay (s : State) (entering : List Nat) : (s.payDelay entering).mems = s.mems := by simp [State.payDelay]
@[simp] theorem State.mems_delayEnd (s : State) (q : Nat) : (s.delayEnd q).mems = s.mems := by unfold State.delayEnd; split <;> simp
@[simp] theorem State.mems_markIdle (s : State) : s.markIdle.mems = s.mems := by simp [State.markIdle]
@[simp] theorem State.mems_donate (s : State) (q : Nat) : (s.donate q).mems = s.mems := by unfold State.donate; (repeat' split) <;> simp
@[simp] theorem State.mems_resumeGroup (s : State) (part core slot gid : Nat) : (s.resumeGroup part core slot gid).mems = s.mems := by
  unfold State.resumeGroup; split <;> simp

@[simp] theorem State.mems_landSaved (s : State) (gid : Nat) : (s.landSaved gid).mems = s.mems := by
  unfold State.landSaved; (repeat' split) <;> simp

@[simp] theorem State.mems_resumeWg (s : State) (wid core : Nat) : (s.resumeWg wid core).mems = s.mems := by
  simp only [State.resumeWg]; (repeat' split) <;> simp

/-! ### Tuinko: what leaves the memories -/

@[simp] theorem State.mems_modTables (s : State) (asid : Nat) (f : List Pte → List Pte) : (s.modTables asid f).mems = s.mems := by
  unfold State.modTables; split <;> simp

@[simp] theorem State.mems_track (s : State) (part asid : Nat) (pages : List (Nat × Nat)) : (s.track part asid pages).mems = s.mems := by
  simp [State.track]

@[simp] theorem State.mems_unpin (s : State) : s.unpin.mems = s.mems := by
  refine (foldl_mems (fun t e => ?_) _ _).trans (by simp)
  split <;> simp

@[simp] theorem State.mems_startChains (s : State) (part : Nat) : (s.startChains part).mems = s.mems := by simp [State.startChains]
@[simp] theorem State.mems_forgetRecords (s : State) (hpa n : Nat) : (s.forgetRecords hpa n).mems = s.mems := by
  simp [State.forgetRecords]

@[simp] theorem State.mems_serviced (s : State) (gid : Nat) : (s.serviced gid).mems = s.mems := by simp [State.serviced]

/-! ### Health: what leaves the memories -/

@[simp] theorem State.mems_tickFree (s : State) : s.tickFree.mems = s.mems := by simp [State.tickFree]
@[simp] theorem State.mems_respond (s : State) (kind : Nat) (body : List Byte) : (s.respond kind body).mems = s.mems := by
  simp [State.respond]

@[simp] theorem State.mems_reply (s : State) (b : MctpBus) (kind : Nat) (body : List Byte) : (s.reply b kind body).mems = s.mems := by
  simp [State.reply]

/-! ### Resets: what leaves the memories -/

@[simp] theorem State.mems_flrDone (s : State) (vf : Nat) : (s.flrDone vf).mems = s.mems := by unfold State.flrDone; split <;> simp
@[simp] theorem State.mems_record (s : State) (step unit : Nat) (r : StepEnd) : (s.record step unit r).mems = s.mems := by
  simp [State.record]

@[simp] theorem State.mems_loseCores (s : State) (cs : List Nat) : (s.loseCores cs).mems = s.mems := by simp [State.loseCores]
@[simp] theorem State.mems_setPort (s : State) (p : Nat) (up : Bool) : (s.setPort p up).mems = s.mems := by simp [State.setPort]
@[simp] theorem State.mems_bootUse (s : State) (r : BootResults) (step unit : Nat) (e : StepEnd) :
    (s.bootUse r step unit e).mems = s.mems := by
  unfold State.bootUse; split <;> simp

@[simp] theorem State.mems_bootEnd (s : State) (b : BootRun) (fatal : Bool) : (s.bootEnd b fatal).mems = s.mems := by simp [State.bootEnd]
@[simp] theorem State.mems_bootPass (s : State) : s.bootPass.mems = s.mems := by simp [State.bootPass]
@[simp] theorem State.mems_bootNext (s : State) : s.bootNext.mems = s.mems := by simp only [State.bootNext]; (repeat' split) <;> simp
@[simp] theorem State.mems_startBoot (s : State) (cold : Bool) (r : BootResults) : (s.startBoot cold r).mems = s.mems := by
  simp [State.startBoot]

@[simp] theorem State.mems_modDie (s : State) (d : Nat) (f : Die → Die) : (s.modDie d f).mems = s.mems := by simp [State.modDie]
@[simp] theorem State.mems_countEcc (s : State) (d : Nat) (double : Bool) (n : Nat) : (s.countEcc d double n).mems = s.mems := by
  simp [State.countEcc]

@[simp] theorem State.mems_requestRepl (s : State) : s.requestRepl.mems = s.mems := by simp [State.requestRepl]
@[simp] theorem State.mems_linesLost (s : State) (die n : Nat) : (s.linesLost die n).mems = s.mems := by simp [State.linesLost]
@[simp] theorem State.mems_rdcTagError (s : State) (die set : Nat) : (s.rdcTagError die set).mems = s.mems := by simp [State.rdcTagError]
@[simp] theorem State.mems_l1TagError (s : State) (core set : Nat) : (s.l1TagError core set).mems = s.mems := by simp [State.l1TagError]
@[simp] theorem State.mems_syncLoss (s : State) (die : Nat) : (s.syncLoss die).mems = s.mems := by simp [State.syncLoss]
@[simp] theorem State.mems_heat (s : State) (die : Nat) (temp : BitVec 16) (f : Die → Die) : (s.heat die temp f).mems = s.mems := by
  simp [State.heat]

@[simp] theorem State.mems_throttle (s : State) (die : Nat) (temp : BitVec 16) : (s.throttle die temp).mems = s.mems := by
  simp [State.throttle]

@[simp] theorem State.mems_unthrottle (s : State) (die : Nat) (temp : BitVec 16) : (s.unthrottle die temp).mems = s.mems := by
  simp [State.unthrottle]

/-! ### Due: what leaves the memories -/

@[simp] theorem State.mems_served (s : State) (core ipart : Nat) (c : Cand) : (s.served core ipart c).mems = s.mems := by
  simp [State.served]

@[simp] theorem State.mems_pass (s : State) (cycles ns : Nat) : (s.pass cycles ns).mems = s.mems := by simp [State.pass]
@[simp] theorem State.mems_markSince (s : State) : s.markSince.mems = s.mems := by simp [State.markSince]
@[simp] theorem State.mems_markPassed (s : State) : s.markPassed.mems = s.mems := by simp [State.markPassed]
@[simp] theorem State.mems_markStalls (s : State) : s.markStalls.mems = s.mems := by simp [State.markStalls]
@[simp] theorem State.mems_elapse (s : State) (cycles ns : Nat) : (s.elapse cycles ns).mems = s.mems := by simp [State.elapse]
@[simp] theorem State.mems_tickCycle (s : State) : s.tickCycle.mems = s.mems := by simp [State.tickCycle]
@[simp] theorem State.mems_seatGroups (s : State) : s.seatGroups.mems = s.mems := by simp [State.seatGroups]

/-! ## The canonical form of the memories

What the laws of the state say of single writes, in terms of the memories; folds, reads and meanings that keep the form. -/

/-- Every memory is in canonical form. -/
def Mems.Wf (m : Mems) : Prop :=
  Cells.wf m.1 = true ∧ Cells.wf m.2.1 = true ∧ Cells.wf m.2.2.1 = true ∧ Cells.wf m.2.2.2.1 = true ∧ Cells.wf m.2.2.2.2 = true

/-- The invariant speaks of the memories alone. -/
theorem State.memWf_iff_mems (s : State) : s.memWf = true ↔ s.mems.Wf := s.memWf_iff

/-- A fold of steps that keep the form keeps it. -/
theorem foldl_wf {α : Type} {f : State → α → State} (hf : ∀ t a, t.mems.Wf → (f t a).mems.Wf) (l : List α) {s : State}
    (h : s.mems.Wf) : (l.foldl f s).mems.Wf := by
  induction l generalizing s with
  | nil => exact h
  | cons a t ih => exact ih (hf s a h)

@[simp] theorem State.wf_hostWrite {s : State} (h : s.mems.Wf) (a : Nat) (bs : List Byte) :
    ({ s with hostMem := s.hostMem.setBytes a bs } : State).mems.Wf :=
  (memWf_iff_mems _).1 (memWf_hostWrite ((memWf_iff_mems s).2 h) a bs)

@[simp] theorem State.wf_peerWrite {s : State} (h : s.mems.Wf) (a : Nat) (bs : List Byte) :
    ({ s with peerMem := s.peerMem.setBytes a bs } : State).mems.Wf :=
  (memWf_iff_mems _).1 (memWf_peerWrite ((memWf_iff_mems s).2 h) a bs)

@[simp] theorem State.wf_writeHbmLine {s : State} (h : s.mems.Wf) (pa gen : Nat) (data : LineData) (mask poison : BitVec 8) :
    (s.writeHbmLine pa gen data mask poison).mems.Wf :=
  (memWf_iff_mems _).1 (memWf_writeHbmLine ((memWf_iff_mems s).2 h) pa gen data mask poison)

@[simp] theorem State.wf_setOwners {s : State} (h : s.mems.Wf) (hpa n : Nat) (e : Byte) : (s.setOwners hpa n e).mems.Wf :=
  (memWf_iff_mems _).1 (memWf_setOwners ((memWf_iff_mems s).2 h) hpa n e)

@[simp] theorem State.wf_reseal {s : State} (h : s.mems.Wf) (part old new : Nat) : (s.reseal part old new).mems.Wf :=
  (memWf_iff_mems _).1 (memWf_reseal ((memWf_iff_mems s).2 h) part old new)

@[simp] theorem State.wf_complete {s : State} (h : s.mems.Wf) (hd : CmdHead) (status : Nat) (result : W64) :
    (s.complete hd status result).mems.Wf :=
  (memWf_iff_mems _).1 (memWf_complete ((memWf_iff_mems s).2 h) hd status result)

@[simp] theorem State.wf_putLaunches {s : State} (h : s.mems.Wf) (vf : Nat) (l : List (W32 × Nat × W64)) :
    (State.putLaunches vf l s).mems.Wf :=
  (memWf_iff_mems _).1 (memWf_putLaunches ((memWf_iff_mems s).2 h) vf l)

@[simp] theorem State.wf_launchEntry {s : State} (h : s.mems.Wf) (vf : Nat) (id : W32) (status : Nat) (user : W64) :
    (s.launchEntry vf id status user).mems.Wf :=
  (memWf_iff_mems _).1 (memWf_launchEntry ((memWf_iff_mems s).2 h) vf id status user)

@[simp] theorem State.wf_postHeld {s : State} (h : s.mems.Wf) (fn : Nat) : (s.postHeld fn).mems.Wf :=
  (memWf_iff_mems _).1 (memWf_postHeld ((memWf_iff_mems s).2 h) fn)

/-- The state that a read or a read-modify-write leaves, where it yields bytes, is in form. -/
def Got.Wf : Got → Prop
  | .ok s _ _ _ _ => s.mems.Wf
  | _ => True

@[simp] theorem Got.wf_wait : Got.wait.Wf := trivial
@[simp] theorem Got.wf_fault (f : LaneFault) : (Got.fault f).Wf := trivial
@[simp] theorem Got.wf_ok (s : State) (bs : List Byte) (bad : Bool) (r : Option ScopeRec) (far : Bool) :
    (Got.ok s bs bad r far).Wf ↔ s.mems.Wf := Iff.rfl

/-- A meaning of an instruction keeps the memories in form. -/
def KeepsMems (f : Ctx → Except TrapInfo Res) : Prop := ∀ c, c.s.mems.Wf → ∀ r, f c = .ok r → r.s.mems.Wf

/-- Of two choices both are in form. -/
@[simp] theorem Mems.wf_ite (p : Prop) [Decidable p] (m n : Mems) : Mems.Wf (if p then m else n) ↔ if p then m.Wf else n.Wf := by
  split <;> rfl

theorem Got.Wf.of_ok {g : Got} (hg : g.Wf) {s : State} {bs : List Byte} {bad : Bool} {r : Option ScopeRec} {far : Bool}
    (e : g = .ok s bs bad r far) : s.mems.Wf := by rw [e] at hg; exact hg

/-- A bound below one that every index lies above. -/
theorem Cells.above_mono {w : Nat} {b i : Nat} (hb : b < i) : {c : Cells w} → Cells.above i c = true → Cells.above b c = true
  | [], _ => rfl
  | (j, v) :: t, h => (Cells.above_cons b j v t).2 (hb.trans ((Cells.above_cons i j v t).1 h))

/-- Dropping entries by index and value keeps every index above a bound. -/
theorem Cells.above_filter {w : Nat} (p : Nat × BitVec w → Bool) {b : Nat} : (c : Cells w) → Cells.above b c = true → Cells.wf c = true →
    Cells.above b (c.filter p) = true
  | [], _, _ => rfl
  | (i, u) :: t, ha, hw => by
    obtain ⟨-, hi, ht⟩ := (Cells.wf_cons i u t).1 hw
    have hb := (Cells.above_cons b i u t).1 ha
    rw [List.filter_cons]
    split
    · exact (Cells.above_cons b i u _).2 hb
    · exact Cells.above_filter p t (Cells.above_mono hb hi) ht

/-- Dropping entries by index and value keeps the canonical form. -/
theorem Cells.wf_filter {w : Nat} (p : Nat × BitVec w → Bool) : (c : Cells w) → Cells.wf c = true → Cells.wf (c.filter p) = true
  | [], _ => rfl
  | (i, u) :: t, hw => by
    obtain ⟨hu, hi, ht⟩ := (Cells.wf_cons i u t).1 hw
    rw [List.filter_cons]
    split
    · exact (Cells.wf_cons i u _).2 ⟨hu, Cells.above_filter p t hi ht, Cells.wf_filter p t ht⟩
    · exact Cells.wf_filter p t ht

/-! ## Functions that write a memory

Each keeps the form; the order is the model's. A function that answers a result, or no state, keeps it where it answers a state. -/

/-! ### Ops: what keeps the form -/

@[simp] theorem State.wf_makeRecord {s : State} (h : s.mems.Wf) (fn : Nat) (r : FaultRec) (ref : Option FidRef) :
    (s.makeRecord fn r ref).1.mems.Wf := by
  unfold State.makeRecord; split <;> simp [h]

@[simp] theorem State.wf_endWorkgroup {s : State} (h : s.mems.Wf) (g : Group) (cause : Nat) (epc : W64) (haltCode : W32) :
    (s.endWorkgroup g cause epc haltCode).mems.Wf := by
  unfold State.endWorkgroup; (repeat' split) <;> simp [h]

@[simp] theorem State.wf_takeTrap {s : State} (h : s.mems.Wf) (gid : Nat) (t : TrapInfo) : (s.takeTrap gid t).mems.Wf := by
  unfold State.takeTrap; (repeat' split) <;> simp [h]

@[simp] theorem State.wf_stepTrap {s : State} (h : s.mems.Wf) (gid : Nat) (mask : W64) : (s.stepTrap gid mask).mems.Wf := by
  simp only [State.stepTrap]; (repeat' split) <;> simp [h]

@[simp] theorem Ctx.wf_finish (c : Ctx) {r : Res} (h : r.s.mems.Wf) : (c.finish r).mems.Wf := by
  unfold Ctx.finish; split <;> simp [h]

theorem mkCtx_s {s : State} {i : Instr} {p : Part} {c : Ctx} (h : mkCtx s i p = some c) : c.s = s := by
  simp only [mkCtx, Option.bind_eq_bind, Option.bind_eq_some_iff, Option.some.injEq] at h
  obtain ⟨_, _, _, _, _, _, _, _, _, _, _, _, _, _, rfl⟩ := h
  rfl

theorem KeepsMems.wf_issuePart {f : Ctx → Except TrapInfo Res} (hf : KeepsMems f) (i : Instr) {s : State} (h : s.mems.Wf) (p : Part) :
    (issuePart i f s p).mems.Wf := by
  unfold issuePart
  split
  · exact h
  · rename_i c hc
    have hcs : c.s.mems.Wf := by rw [mkCtx_s hc]; exact h
    split
    · simp [h]
    · split
      · simp [h]
      · split
        · simp [h]
        · split
          · simp [h]
          · rename_i r hr
            simp [hf c hcs r hr]

@[simp] theorem KeepsMems.wf_issueWord {f : Ctx → Except TrapInfo Res} (hf : KeepsMems f) (i : Instr) {s : State} (h : s.mems.Wf) :
    (issueWord i f s).mems.Wf :=
  foldl_wf (fun _ p ht => hf.wf_issuePart i ht p) _ h

@[simp] theorem State.wf_illegalWord {s : State} (h : s.mems.Wf) : (illegalWord s).mems.Wf :=
  foldl_wf (fun t p ht => by simp [ht]) _ h

@[simp] theorem laneOp_keeps (f : Ctx → Nat → LaneOut) : KeepsMems (laneOp f) := by
  intro c h
  simp only [laneOp]; split <;> simp [h]

@[simp] theorem noEffect_keeps : KeepsMems noEffect := by
  intro c h
  simp [noEffect, h]

/-! ### Hierarchy: what keeps the form -/

@[simp] theorem State.wf_writeBackHome {s : State} (h : s.mems.Wf) (asid line : Nat) : (s.writeBackHome asid line).mems.Wf := by
  simp only [State.writeBackHome]; (repeat' split) <;> simp [h]

@[simp] theorem State.wf_evictHome {s : State} (h : s.mems.Wf) (asid line : Nat) : (s.evictHome asid line).mems.Wf := by
  simp [State.evictHome, h]

@[simp] theorem State.wf_fillHome {s : State} (h : s.mems.Wf) (die asid va hpa : Nat) : (s.fillHome die asid va hpa).mems.Wf := by
  simp only [State.fillHome]; (repeat' split) <;> simp [h]

@[simp] theorem State.wf_settleLine {s : State} (h : s.mems.Wf) (asid va : Nat) : (s.settleLine asid va).mems.Wf := by
  unfold State.settleLine; split <;> simp [h]

@[simp] theorem State.wf_evictLines {s : State} (h : s.mems.Wf) (asid : Nat) (p : Nat → Bool) : (s.evictLines asid p).mems.Wf :=
  foldl_wf (fun t x ht => by simp [ht]) _ (by simp [h])

theorem State.wf_serveRead {s : State} (h : s.mems.Wf) (die home asid va hpa : Nat) :
    ∀ r, s.serveRead die home asid va hpa = some r → r.1.mems.Wf := by
  simp only [State.serveRead]; (repeat' split) <;> simp [h]

@[simp] theorem State.wf_copyLine {s : State} (h : s.mems.Wf) (asid va : Nat) : (s.copyLine asid va).mems.Wf := by
  simp only [State.copyLine]; (repeat' split) <;> simp [h]

theorem State.mems_of_nextFrame {s t : State} {p : TrackedPage} {va : Nat} (h : s.nextFrame p va = .ok t) : t.mems = s.mems := by
  revert h
  unfold State.nextFrame
  (repeat' split) <;> rintro ⟨⟩ <;> simp

theorem State.wf_homeApply {s : State} (h : s.mems.Wf) (home asid va hpa : Nat) (bs : List Byte) (tracked : Bool) :
    ∀ r, s.homeApply home asid va hpa bs tracked = .ok r → r.1.mems.Wf := by
  have h0 : ((s.fillHome home asid va hpa).dirRecall asid (va / 64)).mems.Wf := by simp [h]
  unfold State.homeApply
  dsimp only
  generalize State.dirRecall _ _ _ = s0 at h0
  generalize he : (if tracked = true then _ else _ : Except LaneFault State) = e
  have hs : ∀ t, e = .ok t → t.mems.Wf := by
    rw [← he]
    split
    · split
      · split
        · simp
        · rename_i t ht
          split <;> simp [h0, State.mems_of_nextFrame ht]
      · simp [h0]
    · simp [h0]
  split
  · simp
  · rename_i t
    split <;> simp [hs t rfl]

@[simp] theorem State.wf_rdcAcquire {s : State} (h : s.mems.Wf) (die home asid va hpa : Nat) :
    (s.rdcAcquire die home asid va hpa).mems.Wf := by
  simp only [State.rdcAcquire]; split <;> simp [h]

@[simp] theorem State.wf_rdcApply {s : State} (h : s.mems.Wf) (die home asid va hpa : Nat) (bs : List Byte) :
    (s.rdcApply die home asid va hpa bs).1.mems.Wf := by
  simp only [State.rdcApply]; split <;> simp [h]

theorem State.wf_engineRead {s : State} (h : s.mems.Wf) (asid va n : Nat) :
    ∀ r, s.engineRead asid va n = .ok r → r.1.mems.Wf := by
  unfold State.engineRead
  dsimp only
  split
  · simp
  · simp [h]
  · simp [h]
  · split
    · simp [h]
    · rename_i hr
      simpa using State.wf_serveRead (State.wf_settleLine h asid va) _ _ _ _ _ _ hr

theorem State.wf_engineWrite {s : State} (h : s.mems.Wf) (asid va : Nat) (bs : List Byte) :
    ∀ r, s.engineWrite asid va bs = .ok r → r.1.mems.Wf := by
  have hs := State.wf_settleLine h asid va
  unfold State.engineWrite
  dsimp only
  split
  · simp
  · simp [hs]
  · simp [hs]
  · exact State.wf_homeApply hs _ _ _ _ _ _

/-- A fold that goes on from results in form ends in one. -/
theorem foldl_ok_wf {α β ε : Type} {f : Except ε (State × β) → α → Except ε (State × β)}
    (herr : ∀ e a, f (.error e) a = .error e)
    (hok : ∀ t b a, t.mems.Wf → ∀ r, f (.ok (t, b)) a = .ok r → r.1.mems.Wf) (l : List α) {s : State} (h : s.mems.Wf) (b : β) :
    ∀ r, l.foldl f (.ok (s, b)) = .ok r → r.1.mems.Wf := by
  induction l generalizing s b with
  | nil => simp [h]
  | cons a l ih =>
    rw [List.foldl_cons]
    cases hfa : f (.ok (s, b)) a with
    | error e =>
      have hl : l.foldl f (.error e) = .error e := by
        clear ih
        induction l with
        | nil => rfl
        | cons a l ih => rw [List.foldl_cons, herr, ih]
      simp [hl]
    | ok r => exact ih (hok s b a h r hfa) r.2

theorem State.wf_engineReadAll {s : State} (h : s.mems.Wf) (asid va n : Nat) :
    ∀ r, s.engineReadAll asid va n = .ok r → r.1.mems.Wf := by
  refine foldl_ok_wf (fun _ _ => rfl) (fun t b p ht => ?_) _ h _
  dsimp only
  split
  · simp
  · rename_i hr
    simpa using State.wf_engineRead ht _ _ _ _ hr

theorem State.wf_pathRead {s : State} (h : s.mems.Wf) (path core asid va n : Nat) :
    ∀ r, s.pathRead path core asid va n = .ok r → r.1.mems.Wf := by
  refine foldl_ok_wf (fun _ _ => rfl) (fun t b p ht => ?_) _ h _
  dsimp only
  split
  · simp [ht]
  · split
    · simp
    · rename_i hr
      simpa using State.wf_engineRead ht _ _ _ _ hr

theorem State.wf_engineWriteLr {s : State} (h : s.mems.Wf) (asid va : Nat) (bs : List Byte) :
    ∀ r, s.engineWriteLr asid va bs = .ok r → r.1.mems.Wf := by
  refine foldl_ok_wf (fun _ _ => rfl) (fun t b p ht => ?_) _ h _
  dsimp only
  split
  · simp
  · rename_i hr
    simpa using State.wf_engineWrite ht _ _ _ _ hr

theorem exists_of_map_eq_ok {ε α β : Type} {f : α → β} {x : Except ε α} {b : β} (h : x.map f = .ok b) : ∃ a, x = .ok a ∧ f a = b := by
  cases x with
  | error e => cases h
  | ok a => exact ⟨a, rfl, Except.ok.inj h⟩

theorem State.wf_engineNat {s : State} (h : s.mems.Wf) (asid va n : Nat) :
    ∀ r, s.engineNat asid va n = .ok r → r.1.mems.Wf := by
  intro r hr
  obtain ⟨q, hq, rfl⟩ := exists_of_map_eq_ok hr
  exact State.wf_engineReadAll h asid va n q hq

/-! ### Memory: what keeps the form -/

@[simp] theorem State.wf_report {s : State} (h : s.mems.Wf) (o : MemOp) : (s.report o).mems.Wf := by
  simp only [State.report]; (repeat' split) <;> simp [h]

@[simp] theorem State.wf_settle {s : State} (h : s.mems.Wf) (id : Nat) : (s.settle id).mems.Wf := by
  unfold State.settle; (repeat' split) <;> simp [h]

@[simp] theorem State.wf_laneDone {s : State} (h : s.mems.Wf) (gid id lane : Nat) : (s.laneDone gid id lane).mems.Wf := by
  simp [State.laneDone, h]

theorem State.mems_of_entryAgain {s t : State} {id : Nat} (h : s.entryAgain id = some t) : t.mems = s.mems := by
  unfold State.entryAgain at h
  split at h
  · rw [← Option.some.inj h]
  · split at h
    · rw [← Option.some.inj h]
    · obtain ⟨e, -, rfl⟩ := Option.map_eq_some_iff.1 h
      simp

@[simp] theorem State.wf_laneFault {s : State} (h : s.mems.Wf) (id lane : Nat) (f : LaneFault) : (s.laneFault id lane f).mems.Wf := by
  unfold State.laneFault
  dsimp only
  split
  · simp [h]
  · rename_i t ht
    simp [State.mems_of_entryAgain ht, h]

@[simp] theorem State.wf_storeFault {s : State} (h : s.mems.Wf) (o : MemOp) (l : LaneReq) (f : LaneFault) :
    (s.storeFault o l f).mems.Wf :=
  foldl_wf (fun t x ht => by simp [ht]) _ h

@[simp] theorem State.wf_machineCheckOp {s : State} (h : s.mems.Wf) (o : MemOp) (addr : W64) : (s.machineCheckOp o addr).mems.Wf := by
  simp [State.machineCheckOp, h]

@[simp] theorem State.wf_partyRead {s : State} (h : s.mems.Wf) (core asid va n : Nat) (alloc : Bool) :
    (s.partyRead core asid va n alloc).Wf := by
  unfold State.partyRead
  split
  · simp
  · simp [h]
  · simp [h]
  · extract_lets die
    split
    · simp
    · rename_i hr
      split at hr
      · simp [State.wf_serveRead h _ _ _ _ _ _ hr]
      · cases hr

@[simp] theorem State.wf_lsuRead {s : State} (h : s.mems.Wf) (core gid id asid va n : Nat) (na noAlloc : Bool) :
    (s.lsuRead core gid id asid va n na noAlloc).Wf := by
  unfold State.lsuRead
  dsimp only
  split
  · split <;> simp [h]
  · split
    · split
      · simp
      · have hp := State.wf_partyRead h core asid va n (!na && !noAlloc)
        split
        · rename_i hr
          rw [hr] at hp
          simpa using hp
        · exact hp
    · (repeat' split) <;> simp [h]

@[simp] theorem State.wf_viewRead {s : State} (h : s.mems.Wf) (core gid id asid va n : Nat) (view : W64) (na noAlloc : Bool) :
    (s.viewRead core gid id asid va n view na noAlloc).Wf := by
  simp only [State.viewRead]; (repeat' split) <;> simp [h]

@[simp] theorem State.wf_deliverLane {s : State} (h : s.mems.Wf) (o : MemOp) (l : LaneReq) (bs : List Byte) :
    (s.deliverLane o l bs).mems.Wf := by
  simp [State.deliverLane, h]

@[simp] theorem State.wf_loadLane {s : State} (h : s.mems.Wf) (o : MemOp) (l : LaneReq) : (s.loadLane o l).mems.Wf := by
  unfold State.loadLane
  split
  · exact h
  · extract_lets n va got
    split
    · (repeat' split) <;> simp [h]
    · have hgot : got.Wf := by simp only [got]; split <;> simp [h]
      clear_value got
      cases got with
      | wait => exact h
      | fault f => simp [h]
      | ok t bs bad r far =>
        have ht : t.mems.Wf := hgot
        dsimp only
        (repeat' split) <;> simp [h, ht]

@[simp] theorem State.wf_storeLane {s : State} (h : s.mems.Wf) (o : MemOp) (l : LaneReq) : (s.storeLane o l).mems.Wf := by
  unfold State.storeLane
  extract_lets n bs va sync die
  split
  · split <;> simp [h]
  · split
    · exact h
    · split
      · simp [h]
      · split <;> simp [h]
      · split <;> simp [h]
      · extract_lets atHome s0 u rec0 r
        split
        · exact h
        · have hu : u.mems.Wf := by simp [u, s0, h]
          split
          · simp [hu]
          · split
            · simp [hu]
            · have hr : ∀ q, r = .ok q → q.1.mems.Wf := by
                simp only [r]
                split
                · exact State.wf_homeApply hu _ _ _ _ _ _
                · rintro q hq
                  rw [← Except.ok.inj hq]
                  simp [hu]
              clear_value r
              obtain e | ⟨w, lr⟩ := r
              · simp [hu]
              · have hw : w.mems.Wf := hr _ rfl
                simp [hw]

@[simp] theorem State.wf_chainDone {s : State} (h : s.mems.Wf) (ps : List (MemOp × LaneReq)) (outs : List (LaneReq × Nat × Flags)) :
    (s.chainDone ps outs).mems.Wf :=
  foldl_wf (fun t p ht => by simp [ht]) _ h

@[simp] theorem State.wf_chainFault {s : State} (h : s.mems.Wf) (ps : List (MemOp × LaneReq)) (f : LaneFault) :
    (s.chainFault ps f).mems.Wf :=
  foldl_wf (fun t p ht => by simp [ht]) _ h

@[simp] theorem State.wf_splitChain {s : State} (h : s.mems.Wf) (ps : List (MemOp × LaneReq)) (va : Nat) :
    (s.splitChain ps va).1.mems.Wf := by
  unfold State.splitChain
  dsimp only
  split
  · exact h
  · exact foldl_wf (fun t p ht => by split <;> simp [ht]) _ h

@[simp] theorem State.wf_homeRmw {s : State} (h : s.mems.Wf) (os : List MemOp) (o : MemOp) (g : Group)
    (va n : Nat) (f : List Byte → List Byte) :
    (s.homeRmw os o g va n f).Wf := by
  unfold State.homeRmw
  extract_lets sys
  split
  · simp
  · split <;> simp [h]
  · split <;> simp [h]
  · rename_i home a v hpa t _
    extract_lets line r0
    split
    · simp
    · split
      · simp
      · rename_i hl _
        split
        · simp
        · split
          · simp
          · rcases he : r0.homeApply home a v hpa (f (lineBytes hl.data (v % 64) n)) t.trk with e | ⟨w, lr⟩
            · simp [he]
            · have hw : w.mems.Wf := State.wf_homeApply (by simp [r0, h]) _ _ _ _ _ _ _ he
              simp only [he, Got.wf_ok]
              split <;> simp [hw]

/-- Operations that meet a double error each take their Machine check. -/
theorem State.wf_checkAll {s : State} (h : s.mems.Wf) (os : List MemOp) (addr : W64) :
    (os.foldl (fun s o => s.machineCheckOp o addr) s).mems.Wf :=
  foldl_wf (fun u x hu => by simp [hu]) os h

@[simp] theorem State.wf_atomicChain {s : State} (h : s.mems.Wf) (o : MemOp) (addr : W64) : (s.atomicChain o addr).mems.Wf := by
  unfold State.atomicChain
  extract_lets all n
  generalize hp : (if o.scratch = true then (s, all) else s.splitChain all addr.toNat) = p
  have hs : p.1.mems.Wf := by rw [← hp]; split <;> simp [h]
  obtain ⟨t, ps⟩ := p
  dsimp only
  split
  · split
    · split
      · simp [hs]
      · split
        · exact State.wf_checkAll hs _ _
        · simp [hs]
    · have hg := State.wf_homeRmw hs (ps.map (·.1)).eraseDups o ‹Group› addr.toNat n
        (fun old => natBytes n (runChain o.instr (ps.map (·.2)) (leNat old)).1)
      split
      · exact hs
      · simp [hs]
      · rename_i hr
        rw [hr] at hg
        split
        · exact State.wf_checkAll hs _ _
        · simp [Got.wf_ok _ _ _ _ _ |>.1 hg]
  · exact hs

@[simp] theorem State.wf_drain {s : State} (h : s.mems.Wf) (p : MemOp → LaneReq → Bool) : (s.drain p).mems.Wf := by
  refine foldl_wf (fun t o ht => ?_) _ h
  split
  · refine foldl_wf (fun u l hu => ?_) _ ht
    (repeat' split) <;> simp [hu]
  · exact ht

/-! ### MemoryInstr: what keeps the form -/

@[simp] theorem memIssue_keeps : KeepsMems memIssue := by
  intro c h
  simp only [memIssue]; (repeat' split) <;> simp [h]

@[simp] theorem prefIssue_keeps (x : MForm) : KeepsMems (prefIssue x) := by
  intro c h r hr
  cases hr
  refine foldl_wf (fun t l ht => ?_) _ h
  dsimp only
  split
  · exact ht
  · split
    · exact ht
    · split
      · rename_i hg
        exact (State.wf_partyRead (by simp [ht]) _ _ _ _ _).of_ok hg
      · exact ht

@[simp] theorem fenceIssue_keeps (x : MForm) : KeepsMems (fenceIssue x) := by
  intro c h
  simp [fenceIssue, h]

@[simp] theorem fencexIssue_keeps (x : MForm) : KeepsMems (fencexIssue x) := by
  intro c h
  simp [fencexIssue, h]

@[simp] theorem State.wf_dropStep {s : State} (h : s.mems.Wf) (core : Nat) (asid : BitVec 16) (upto lo hi : Nat) :
    (s.dropStep core asid upto lo hi).1.mems.Wf := by
  unfold State.dropStep
  dsimp only
  split <;> simp [h]

@[simp] theorem dropIssue_keeps : KeepsMems dropIssue := by
  intro c h
  unfold dropIssue
  split
  · simp [h]
  · split
    · simp
    · split
      · simp [h]
      · rename_i lo hi _
        have hs := State.wf_dropStep h c.core c.g.asid c.s.tick lo hi
        split <;> rename_i ht <;> rw [ht] at hs <;> simp [hs]

@[simp] theorem promoteIssue_keeps : KeepsMems promoteIssue := by
  intro c h
  simp only [promoteIssue]; (repeat' split) <;> simp [h]

@[simp] theorem cctlIssue_keeps (x : MForm) : KeepsMems (cctlIssue x) := by
  intro c h
  unfold cctlIssue
  split
  · simp [h]
  · split
    · simp
    · split
      · simp [h]
      · extract_lets asid inR lines s
        have hs : s.mems.Wf := foldl_wf (fun t l ht => by simp [ht]) _ h
        simp [hs]

/-! ### MemoryEvents: what keeps the form -/

theorem State.wf_dequeEntry {s : State} (h : s.mems.Wf) (asid : Nat) (hdr : W64) (va : Nat) (w : Option W64) :
    ∀ r, s.dequeEntry asid hdr va w = .ok r → r.1.mems.Wf := by
  intro r hr
  unfold State.dequeEntry at hr
  split at hr
  · cases hr
  · split at hr
    · obtain ⟨q, hq, rfl⟩ := exists_of_map_eq_ok hr
      exact State.wf_engineWriteLr h _ _ _ _ hq
    · obtain ⟨q, hq, rfl⟩ := exists_of_map_eq_ok hr
      exact State.wf_engineNat h _ _ _ _ hq

theorem DequeRun.wf_step (i : Instr) (asid : Nat) (hdr : W64) (buf cap : Nat) {r : DequeRun} (h : r.s.mems.Wf) (p : MemOp × LaneReq) :
    (r.step i asid hdr buf cap p).s.mems.Wf := by
  unfold DequeRun.step
  extract_lets e l size slot fail k
  have hf : fail.s.mems.Wf := h
  clear_value fail size k slot
  split <;>
  · split
    · exact hf
    · split
      · exact h
      · rename_i hr
        exact State.wf_dequeEntry h _ _ _ _ _ hr

@[simp] theorem State.wf_dequeDone {s : State} (h : s.mems.Wf) (outs : List (MemOp × LaneReq × W64 × Bool)) :
    (s.dequeDone outs).mems.Wf :=
  foldl_wf (fun t p ht => by simp [ht]) _ h

theorem DequeRun.wf_run (i : Instr) (asid : Nat) (hdr : W64) (buf cap : Nat)
    (ps : List (MemOp × LaneReq)) {r : DequeRun} (h : r.s.mems.Wf) :
    (ps.foldl (DequeRun.step i asid hdr buf cap) r).s.mems.Wf := by
  induction ps generalizing r with
  | nil => exact h
  | cons p ps ih => exact ih (DequeRun.wf_step i asid hdr buf cap h p)

@[simp] theorem State.wf_dequeChain {s : State} (h : s.mems.Wf) (o : MemOp) (addr : W64) : (s.dequeChain o addr).mems.Wf := by
  unfold State.dequeChain
  extract_lets va all
  split
  · simp [h]
  · have hs := State.wf_splitChain h all va
    generalize s.splitChain all va = p at hs ⊢
    obtain ⟨t, ps⟩ := p
    dsimp -zeta only at hs ⊢
    extract_lets os
    split
    · exact hs
    · simp [hs]
    · rename_i g home a v hpa tr _ _
      extract_lets line s0
      have h0 : s0.mems.Wf := by simp [s0, hs]
      split
      · exact hs
      · split
        · exact hs
        · extract_lets rd lcap buf e0 r w
          have hr : r.s.mems.Wf := DequeRun.wf_run _ _ _ _ _ _ h0
          have hw : ∀ q, w = .ok q → q.1.mems.Wf := by
            simp only [w]
            split
            · simp [hr]
            · exact State.wf_homeApply hr _ _ _ _ _ _
          clear_value r w
          split
          · simp [hs]
          · split
            · exact State.wf_checkAll hs _ _
            · split
              · simp [hs]
              · split
                · exact State.wf_checkAll hs _ _
                · obtain e | ⟨u, lr⟩ := w
                  · simp [hs]
                  · have hu : u.mems.Wf := hw _ rfl
                    dsimp -zeta only
                    extract_lets s1 s2 s3
                    have h2 : s2.mems.Wf := by
                      simp only [s2, s1]
                      split <;> simp [hu]
                    exact foldl_wf (fun t p ht => by simp [ht]) _ (by simp [s3, h2])
    · simp [hs]

@[simp] theorem State.wf_tryLoad {s : State} (h : s.mems.Wf) (id lane : Nat) : (s.tryLoad id lane).mems.Wf := by
  unfold State.tryLoad; (repeat' split) <;> simp [h]

@[simp] theorem State.wf_tryStore {s : State} (h : s.mems.Wf) (id lane : Nat) : (s.tryStore id lane).mems.Wf := by
  unfold State.tryStore; (repeat' split) <;> simp [h]

@[simp] theorem State.wf_tryAtomic {s : State} (h : s.mems.Wf) (id : Nat) (addr : W64) : (s.tryAtomic id addr).mems.Wf := by
  unfold State.tryAtomic; (repeat' split) <;> simp [h]

@[simp] theorem State.wf_tryDeque {s : State} (h : s.mems.Wf) (id : Nat) (addr : W64) : (s.tryDeque id addr).mems.Wf := by
  unfold State.tryDeque; (repeat' split) <;> simp [h]

@[simp] theorem State.wf_walkFault {s : State} (h : s.mems.Wf) (o : MemOp) (l : LaneReq) (f : LaneFault) :
    (s.walkFault o l f).mems.Wf := by
  unfold State.walkFault; (repeat' split) <;> simp [h]

theorem State.mems_of_fillTlb {s t : State} {asid va : Nat} {need : Need} (h : s.fillTlb asid va need = .ok t) : t.mems = s.mems := by
  revert h
  unfold State.fillTlb
  (repeat' split) <;> rintro ⟨⟩ <;> simp

@[simp] theorem State.wf_walkLane {s : State} (h : s.mems.Wf) (id lane : Nat) : (s.walkLane id lane).mems.Wf := by
  unfold State.walkLane
  split
  · exact h
  · split
    · exact h
    · split
      · split
        · rename_i ht
          rw [State.mems_of_fillTlb ht]; exact h
        · simp [h]
      · exact h

@[simp] theorem State.wf_tryLane {s : State} (h : s.mems.Wf) (id : Nat) (l : LaneReq) : (s.tryLane id l).mems.Wf :=
  wf_tryDeque (wf_tryAtomic (wf_tryStore (wf_tryLoad (wf_walkLane h id l.lane) _ _) _ _) _ _) _ _

@[simp] theorem State.wf_performLogged {s : State} (h : s.mems.Wf) (id : Nat) (p : LaneReq → Bool) : (s.performLogged id p).mems.Wf := by
  unfold State.performLogged
  split
  · exact h
  · dsimp only
    split
    · exact foldl_wf (fun t l ht => by simp [ht]) _ (by simp [h])
    · simp [h]

@[simp] theorem State.wf_replayOp {s : State} (h : s.mems.Wf) (id : Nat) : (s.replayOp id).mems.Wf := by
  simp only [State.replayOp]; (repeat' split) <;> simp [h]

@[simp] theorem State.wf_promoteDone {s : State} (h : s.mems.Wf) (id : Nat) : (s.promoteDone id).mems.Wf := by
  simp only [State.promoteDone]; (repeat' split) <;> simp [h]

@[simp] theorem State.wf_dropDone {s : State} (h : s.mems.Wf) (id : Nat) : (s.dropDone id).mems.Wf := by
  unfold State.dropDone
  split
  · exact h
  · split
    · exact h
    · split
      · exact h
      · rename_i o _ _ l _ _ _
        have hs := State.wf_dropStep h o.core o.asid o.id l.addr.toNat l.data.toNat
        split <;> rename_i ht <;> rw [ht] at hs <;> simp [hs]

/-! ### Matrix: what keeps the form -/

theorem Ctx.wf_mxIssue {c : Ctx} (h : c.s.mems.Wf) (err : Option TrapInfo) (q : MxReq) (dests : List (Nat × W64)) :
    ∀ r, c.mxIssue err q dests = .ok r → r.s.mems.Wf := by
  unfold Ctx.mxIssue
  split
  · simp
  · split <;> simp [h]

@[simp] theorem tshapeIssue_keeps (x : XForm) : KeepsMems (tshapeIssue x) := fun _ h => by
  unfold tshapeIssue; exact Ctx.wf_mxIssue h _ _ _

@[simp] theorem tileOnly_keeps (d : Nat) : KeepsMems (tileOnly d) := fun _ h => by
  unfold tileOnly; exact Ctx.wf_mxIssue h _ _ _

@[simp] theorem mxsclIssue_keeps (x : XForm) : KeepsMems (mxsclIssue x) := fun _ h => by
  unfold mxsclIssue; exact Ctx.wf_mxIssue h _ _ _

@[simp] theorem tmovvIssue_keeps (x : XForm) : KeepsMems (tmovvIssue x) := fun _ h => by
  unfold tmovvIssue; exact Ctx.wf_mxIssue h _ _ _

@[simp] theorem tmovtIssue_keeps (x : XForm) : KeepsMems (tmovtIssue x) := fun _ h => by
  unfold tmovtIssue; exact Ctx.wf_mxIssue h _ _ _

@[simp] theorem mmaIssue_keeps (x : XForm) : KeepsMems (mmaIssue x) := fun _ h => by
  unfold mmaIssue; exact Ctx.wf_mxIssue h _ _ _

@[simp] theorem gmmaIssue_keeps (x : XForm) : KeepsMems (gmmaIssue x) := fun _ h => by
  unfold gmmaIssue; exact Ctx.wf_mxIssue h _ _ _

@[simp] theorem tcvtIssue_keeps (x : XForm) : KeepsMems (tcvtIssue x) := fun _ h => by
  unfold tcvtIssue; exact Ctx.wf_mxIssue h _ _ _

@[simp] theorem taddIssue_keeps (x : XForm) : KeepsMems (taddIssue x) := fun _ h => by
  unfold taddIssue; exact Ctx.wf_mxIssue h _ _ _

@[simp] theorem tscaleIssue_keeps (x : XForm) : KeepsMems (tscaleIssue x) := fun _ h => by
  unfold tscaleIssue; exact Ctx.wf_mxIssue h _ _ _

@[simp] theorem tredIssue_keeps (x : XForm) : KeepsMems (tredIssue x) := fun _ h => by
  unfold tredIssue; exact Ctx.wf_mxIssue h _ _ _

@[simp] theorem tileMemIssue_keeps (x : MForm) : KeepsMems (tileMemIssue x) := by
  intro c h
  simp only [tileMemIssue]; (repeat' split) <;> simp [h]

theorem State.mems_of_tilePages {s : State} {asid : Nat} {wr : Bool} {lines : List (Nat × Nat)} :
    ∀ t, s.tilePages asid wr lines = .ok t → t.mems = s.mems := by
  unfold State.tilePages
  extract_lets ps seen
  clear_value seen
  split
  · simp
  · split
    · simp [eq_comm]
    · refine List.foldlRecOn (motive := fun r : Except LaneFault State => ∀ t, r = .ok t → t.mems = s.mems) _ _
        (by simp [eq_comm]) fun r hr p _ => ?_
      split
      · simp
      · split
        · exact hr
        · exact fun t ht => (State.mems_of_nextFrame ht).trans (hr _ rfl)

@[simp] theorem State.wf_walkTile {s : State} (h : s.mems.Wf) (id : Nat) : (s.walkTile id).mems.Wf := by
  unfold State.walkTile
  split
  · exact h
  · split
    · exact h
    · split
      · exact h
      · split
        · split
          · exact h
          · split
            · simp [h]
            · split
              · simp [h]
              · split
                · simp [h]
                · rename_i ht
                  simp [State.mems_of_tilePages _ ht, h]
        · exact h

theorem State.wf_readLines {s : State} (h : s.mems.Wf) (core asid : Nat) (lines : List (Nat × Nat)) :
    ∀ r, s.readLines core asid lines = .ok r → r.1.mems.Wf := by
  refine foldl_ok_wf (fun _ _ => rfl) (fun t b p ht => ?_) _ h _
  dsimp only
  split
  · simp
  · rename_i hr
    simpa using State.wf_pathRead ht _ _ _ _ _ _ hr

theorem State.wf_writeLines {s : State} (h : s.mems.Wf) (asid : Nat) (ls : List ((Nat × Nat) × Nat)) :
    ∀ r, s.writeLines asid ls = .ok r → r.1.mems.Wf := by
  refine foldl_ok_wf (fun _ _ => rfl) (fun t b p ht => ?_) _ h _
  dsimp only
  split
  · simp
  · rename_i hr
    simpa using State.wf_engineWriteLr ht _ _ _ _ hr

@[simp] theorem State.wf_tileMemPass {s : State} (h : s.mems.Wf) (e : MxEntry) (w : Workgroup) : (s.tileMemPass e w).mems.Wf := by
  unfold State.tileMemPass
  split
  · exact h
  · extract_lets sh lines
    split
    · exact h
    · extract_lets ls asid t
      split
      · split
        · simp [h]
        · rename_i u hu
          have hw : u.mems.Wf := by rw [State.mems_of_tilePages _ hu]; exact h
          split
          · simp [hw]
          · rename_i hr
            have := State.wf_writeLines hw _ _ _ hr
            simp_all
      · split
        · simp [h]
        · rename_i hr
          have := State.wf_readLines h _ _ _ _ hr
          split <;> simp_all

@[simp] theorem State.wf_mxPass {s : State} (h : s.mems.Wf) (e : MxEntry) : (s.mxPass e).mems.Wf := by
  simp only [State.mxPass]; (repeat' split) <;> simp [h]

@[simp] theorem State.wf_mxComplete {s : State} (h : s.mems.Wf) (quad : Nat) : (s.mxComplete quad).mems.Wf := by
  unfold State.mxComplete; split <;> simp [h]

/-! ### Tasks: what keeps the form -/

@[simp] theorem State.wf_launchRead {s : State} (h : s.mems.Wf) (vf n : Nat) : (s.launchRead vf n).mems.Wf := by
  unfold State.launchRead; split <;> simp [h]

@[simp] theorem State.wf_finishTask {s : State} (h : s.mems.Wf) (vf : Nat) (id : W32) (status hostStatus : Nat) (silent : Bool) :
    (s.finishTask vf id status hostStatus silent).mems.Wf := by
  unfold State.finishTask; (repeat' split) <;> simp [h]

@[simp] theorem State.wf_addTask {s : State} (h : s.mems.Wf) (vf level : Nat) (r : LaunchRec) (creator : Option Nat) :
    (s.addTask vf level r creator).1.mems.Wf := by
  unfold State.addTask; (repeat' split) <;> simp [h]

@[simp] theorem State.wf_firmLaunch {s : State} (h : s.mems.Wf) (vf level : Nat) (r : LaunchRec) : (s.firmLaunch vf level r).mems.Wf := by
  simp [State.firmLaunch, h]

@[simp] theorem State.wf_tryLaunch {s : State} (h : s.mems.Wf) (id lane : Nat) : (s.tryLaunch id lane).mems.Wf := by
  unfold State.tryLaunch
  split
  · exact h
  · split
    · split
      · exact h
      · split
        · exact h
        · split
          · simp [h]
          · rename_i t bs bad hr
            have ht : t.mems.Wf := State.wf_engineReadAll h _ _ _ _ hr
            split
            · simp [h]
            · split <;> simp [ht]
    · exact h

@[simp] theorem launchIssue_keeps (x : EForm) : KeepsMems (launchIssue x) := by
  intro c h
  simp only [launchIssue]; split <;> simp [h]

@[simp] theorem twaitIssue_keeps (x : XForm) : KeepsMems (twaitIssue x) := by
  intro c h
  unfold twaitIssue; split <;> simp [h]

/-! ### Sync: what keeps the form -/

@[simp] theorem arriveIssue_keeps (k n : Nat) (waits : Bool) (d : BitVec 9) : KeepsMems (arriveIssue k n waits d) := by
  intro c h
  unfold arriveIssue; split <;> simp [h]

@[simp] theorem barwIssue_keeps (k : Nat) : KeepsMems (barwIssue k) := by
  intro c h
  simp only [barwIssue]; split <;> simp [h]

@[simp] theorem qdeclIssue_keeps (x : XForm) : KeepsMems (qdeclIssue x) := by
  intro c h
  simp only [qdeclIssue]; (repeat' split) <;> simp [h]

@[simp] theorem State.wf_queueTrap {s : State} (h : s.mems.Wf) (gid tok cause : Nat) (finfo : W32) :
    (s.queueTrap gid tok cause finfo).mems.Wf := by
  unfold State.queueTrap; (repeat' split) <;> simp [h]

@[simp] theorem State.wf_pushStep {s : State} (h : s.mems.Wf) (cid q : Nat) : (s.pushStep cid q).mems.Wf := by
  simp only [State.pushStep]; (repeat' split) <;> simp [h]

@[simp] theorem State.wf_popStep {s : State} (h : s.mems.Wf) (cid q : Nat) : (s.popStep cid q).mems.Wf := by
  simp only [State.popStep]; (repeat' split) <;> simp [h]

@[simp] theorem qpushIssue_keeps (x : XForm) : KeepsMems (qpushIssue x) := by
  intro c h
  simp only [qpushIssue]; (repeat' split) <;> simp [h]

@[simp] theorem qpopIssue_keeps (x : XForm) : KeepsMems (qpopIssue x) := by
  intro c h
  simp only [qpopIssue]; (repeat' split) <;> simp [h]

@[simp] theorem qtryIssue_keeps (x : XForm) : KeepsMems (qtryIssue x) := by
  intro c h
  simp only [qtryIssue]; (repeat' split) <;> simp [h]

@[simp] theorem dequeIssue_keeps (x : XForm) : KeepsMems (dequeIssue x) := by
  intro c h
  unfold dequeIssue
  split
  · simp
  · rename_i r hr
    have hs := memIssue_keeps c h r hr
    split <;> simp [hs]

@[simp] theorem migrateIssue_keeps : KeepsMems migrateIssue := by
  intro c h
  simp only [migrateIssue]; (repeat' split) <;> simp [h]

@[simp] theorem priowgIssue_keeps : KeepsMems priowgIssue := by
  intro c h
  unfold priowgIssue; split <;> simp [h]

/-! ### Fetch: what keeps the form -/

@[simp] theorem State.wf_fetchFault {s : State} (h : s.mems.Wf) (gid : Nat) (mask pc : W64) (f : LaneFault) :
    (s.fetchFault gid mask pc f).mems.Wf := by
  unfold State.fetchFault; (repeat' split) <;> simp [h]

@[simp] theorem State.wf_lineArrives {s : State} (h : s.mems.Wf) (gid : Nat) (line : W64) : (s.lineArrives gid line).mems.Wf := by
  simp only [State.lineArrives]; (repeat' split) <;> simp [h]

/-! ### Integer: what keeps the form -/

@[simp] theorem laneOpPred_keeps (q : Nat) (f : Ctx → Nat → LaneOut) : KeepsMems (laneOpPred q f) := by
  intro c h
  simp [laneOpPred, h]

/-! ### Control: what keeps the form -/

theorem Ctx.wf_transfer (c : Ctx) (computed : Bool) (target : Nat → W64) {r : Res} (h : r.s.mems.Wf) :
    ∀ q, c.transfer computed target r = .ok q → q.s.mems.Wf := by
  unfold Ctx.transfer
  split <;> simp [h]

theorem Ctx.wf_link {c : Ctx} (h : c.s.mems.Wf) : c.link.s.mems.Wf := by simp [Ctx.link, h]

@[simp] theorem braIssue_keeps (x : BForm) : KeepsMems (braIssue x) := fun c h => c.wf_transfer _ _ h

@[simp] theorem callIssue_keeps (x : BForm) : KeepsMems (callIssue x) := fun c h => c.wf_transfer _ _ (Ctx.wf_link h)

@[simp] theorem brxIssue_keeps : KeepsMems brxIssue := fun c h => c.wf_transfer _ _ h

@[simp] theorem callxIssue_keeps : KeepsMems callxIssue := fun c h => c.wf_transfer _ _ (Ctx.wf_link h)

@[simp] theorem exitIssue_keeps : KeepsMems exitIssue := by
  intro c h
  unfold exitIssue; split <;> simp [h]

@[simp] theorem cvdeclIssue_keeps (x : XForm) : KeepsMems (cvdeclIssue x) := by
  intro c h
  simp only [cvdeclIssue]; (repeat' split) <;> simp [h]

@[simp] theorem mmasIssue_keeps (x : XForm) : KeepsMems (mmasIssue x) := by
  intro c h
  simp only [mmasIssue]; (repeat' split) <;> simp [h]

@[simp] theorem setmeetIssue_keeps (x : BForm) : KeepsMems (setmeetIssue x) := by
  intro c h
  simp [setmeetIssue, h]

@[simp] theorem setprioIssue_keeps : KeepsMems setprioIssue := by
  intro c h
  simp [setprioIssue, h]

@[simp] theorem yieldIssue_keeps : KeepsMems yieldIssue := by
  intro c h
  simp [yieldIssue, h]

@[simp] theorem regroupIssue_keeps (x : XForm) : KeepsMems (regroupIssue x) := by
  intro c h
  simp [regroupIssue, h]

@[simp] theorem switchptIssue_keeps (x : XForm) : KeepsMems (switchptIssue x) := by
  intro c h
  unfold switchptIssue; (repeat' split) <;> simp [h]

@[simp] theorem backoffIssue_keeps : KeepsMems backoffIssue := by
  intro c h
  simp [backoffIssue, h]

@[simp] theorem sleepIssue_keeps : KeepsMems sleepIssue := by
  intro c h
  simp [sleepIssue, h]

@[simp] theorem softTrap_keeps (finfo : W32) : KeepsMems (softTrap finfo) := by
  intro c h
  unfold softTrap; split <;> simp [h]

@[simp] theorem bkptIssue_keeps (x : XForm) : KeepsMems (bkptIssue x) := by
  intro c h
  unfold bkptIssue; split <;> simp [h]

/-! ### System: what keeps the form -/

@[simp] theorem mfsrIssue_keeps (x : XForm) : KeepsMems (mfsrIssue x) := by
  intro c h
  simp only [mfsrIssue]; (repeat' split) <;> simp [h]

@[simp] theorem mtsrIssue_keeps (x : XForm) : KeepsMems (mtsrIssue x) := by
  intro c h
  simp only [mtsrIssue]; (repeat' split) <;> simp [h]

@[simp] theorem eretIssue_keeps : KeepsMems eretIssue := by
  intro c h
  unfold eretIssue; (repeat' split) <;> simp [h]

theorem Ctx.wf_onEntry {c : Ctx} (h : c.s.mems.Wf) {f : MemOp → State} (hf : ∀ o, (f o).mems.Wf) :
    ∀ r, c.onEntry f = .ok r → r.s.mems.Wf := by
  unfold Ctx.onEntry
  (repeat' split) <;> simp [h, hf]

@[simp] theorem opreplayIssue_keeps : KeepsMems opreplayIssue :=
  fun c h => Ctx.wf_onEntry h fun o => by
    dsimp only
    split <;> simp [h]

@[simp] theorem opdropIssue_keeps : KeepsMems opdropIssue := fun c h => Ctx.wf_onEntry h fun o => by simp [h]

@[simp] theorem haltIssue_keeps (x : XForm) : KeepsMems (haltIssue x) := by
  intro c h
  unfold haltIssue; (repeat' split) <;> simp [h]

@[simp] theorem idleIssue_keeps : KeepsMems idleIssue := by
  intro c h
  unfold idleIssue; split <;> simp [h]

@[simp] theorem State.wf_takeDeferred {s : State} (h : s.mems.Wf) (gid : Nat) : (s.takeDeferred gid).mems.Wf := by
  unfold State.takeDeferred; (repeat' split) <;> simp [h]

/-! ### Engine: what keeps the form -/

@[simp] theorem State.wf_cmdPause {s : State} (h : s.mems.Wf) (gid slot : Nat) (f : LaneFault) : (s.cmdPause gid slot f).mems.Wf := by
  unfold State.cmdPause; (repeat' split) <;> simp [h]

theorem State.wf_cmdReadBy (path core : Nat) {s : State} (h : s.mems.Wf) (w : Workgroup) (asid : Nat) (scr : Bool) (addr n : Nat) :
    ∀ r, State.cmdReadBy path core s w asid scr addr n = .ok r → r.1.mems.Wf := by
  unfold State.cmdReadBy
  split
  · split
    · simp
    · split
      · simp
      · split <;> simp [h]
  · split
    · simp
    · split
      · simp
      · rename_i hr
        have ht := State.wf_pathRead h _ _ _ _ _ _ hr
        split <;> simp [ht]

theorem State.wf_cmdRead {s : State} (h : s.mems.Wf) (w : Workgroup) (asid : Nat) (scr : Bool) (addr n : Nat) :
    ∀ r, s.cmdRead w asid scr addr n = .ok r → r.1.mems.Wf :=
  State.wf_cmdReadBy 0 0 h w asid scr addr n

theorem State.wf_cmdWrite {s : State} (h : s.mems.Wf) (w : Workgroup) (asid : Nat) (scr : Bool) (addr : Nat) (bs : List Byte) :
    ∀ r, s.cmdWrite w asid scr addr bs = .ok r → r.1.mems.Wf := by
  unfold State.cmdWrite
  dsimp only
  split
  · split
    · simp
    · split <;> simp [h]
  · split
    · simp
    · split
      · simp
      · rename_i r hr
        simpa using State.wf_engineWriteLr h _ _ _ r hr

/-- A way to read keeps the memories in form. -/
def Reader.Keeps (rd : Reader) : Prop := ∀ s a n, s.mems.Wf → ∀ r, rd s a n = .ok r → r.1.mems.Wf

/-- A way to write keeps the memories in form. -/
def Writer.Keeps (wr : Writer) : Prop := ∀ s a bs, s.mems.Wf → ∀ r, wr s a bs = .ok r → r.1.mems.Wf

theorem Moving.wf_piece {rd : Reader} {wr : Writer} (hrd : rd.Keeps) (hwr : wr.Keeps) (dst src n : Nat) {m : Moving} (h : m.s.mems.Wf) :
    (m.piece rd wr dst src n).s.mems.Wf := by
  unfold Moving.piece
  split
  · exact h
  · extract_lets d k
    split
    · exact h
    · rename_i hr
      have ht := hrd _ _ _ h _ hr
      split
      · exact ht
      · rename_i hw
        exact hwr _ _ _ ht _ hw

theorem repeatN_keeps {α : Type} {motive : α → Prop} {f : α → α} (hf : ∀ x, motive x → motive (f x)) (n : Nat) {x : α} (h : motive x) :
    motive (repeatN f n x) := by
  induction n generalizing x with
  | zero => exact h
  | succ n ih => exact ih (hf x h)

theorem Moving.wf_move {rd : Reader} {wr : Writer} {at' : State → Nat → Except CmdStop (State × Nat × Nat × Nat)}
    (hrd : rd.Keeps) (hwr : wr.Keeps) (hat : ∀ s r, s.mems.Wf → ∀ q, at' s r = .ok q → q.1.mems.Wf)
    {m : Moving} (h : m.s.mems.Wf) (r : Nat) :
    (m.move rd wr at' r).s.mems.Wf := by
  unfold Moving.move
  split
  · exact h
  · split
    · exact h
    · rename_i s dst src n hs
      have hm : (repeatN (Moving.piece rd wr dst src n) (n / 64 + 2) { m with s := s }).s.mems.Wf :=
        repeatN_keeps (motive := fun m : Moving => m.s.mems.Wf) (fun _ hx => Moving.wf_piece hrd hwr dst src n hx) _ (hat _ _ h _ hs)
      dsimp only
      split <;> exact hm

theorem Moving.wf_foldl {α : Type} {f : Moving → α → Moving} (hf : ∀ m a, m.s.mems.Wf → (f m a).s.mems.Wf) (l : List α) {m : Moving}
    (h : m.s.mems.Wf) : (l.foldl f m).s.mems.Wf := by
  induction l generalizing m with
  | nil => exact h
  | cons a l ih => exact ih (hf m a h)

@[simp] theorem State.wf_endMove (gid slot : Nat) {m : Moving} (h : m.s.mems.Wf) : (State.endMove gid slot m).mems.Wf := by
  unfold State.endMove
  dsimp only
  split <;> simp [h]

@[simp] theorem State.wf_runCopy {s : State} (h : s.mems.Wf) (w : Workgroup) (asid gid slot : Nat) (k : CmdSlot) (x : EForm) :
    (s.runCopy w asid gid slot k x).mems.Wf :=
  State.wf_endMove gid slot (Moving.wf_foldl (fun _ r hm => Moving.wf_move
    (fun _ _ _ ht => State.wf_cmdRead ht _ _ _ _ _) (fun _ _ _ ht => State.wf_cmdWrite ht _ _ _ _ _)
    (fun t r ht => by simp [ht]) hm r) _ h)

@[simp] theorem State.wf_runGather {s : State} (h : s.mems.Wf) (w : Workgroup) (asid gid slot : Nat) (k : CmdSlot) (x : EForm)
    (scatter : Bool) : (s.runGather w asid gid slot k x scatter).mems.Wf := by
  refine State.wf_endMove gid slot (Moving.wf_foldl (fun _ r hm => Moving.wf_move
    (fun _ _ _ ht => State.wf_cmdReadBy _ _ ht _ _ _ _ _) (fun _ _ _ ht => State.wf_cmdWrite ht _ _ _ _ _) (fun t r ht => ?_) hm r) _ h)
  split
  · simp
  · rename_i hr
    have hu := State.wf_cmdReadBy _ _ ht _ _ _ _ _ _ hr
    split <;> simp [hu]

@[simp] theorem State.wf_forwardLine {s : State} (h : s.mems.Wf) (p : TrackedPage) (old new : Frame) (i : Nat) :
    (s.forwardLine p old new i).mems.Wf := by
  simp only [State.forwardLine]; (repeat' split) <;> simp [h]

@[simp] theorem State.wf_fillForward {s : State} (h : s.mems.Wf) (part fset asid page : Nat) :
    (s.fillForward part fset asid page).mems.Wf := by
  unfold State.fillForward
  split
  · exact h
  · split
    · exact h
    · split
      · exact h
      · simp only [State.mems_freeFrame, State.mems_modPage]
        exact foldl_wf (fun t i ht => by simp [ht]) _ h

@[simp] theorem Ctx.wf_submit (c : Ctx) (x : EForm) (writeTag : Bool) (h : c.s.mems.Wf) : (Ctx.submit c x writeTag).2.2.2.mems.Wf := by
  simp [Ctx.submit, h]

@[simp] theorem cmdIssue_keeps (x : EForm) : KeepsMems (cmdIssue x) := by
  intro c h
  unfold cmdIssue; split <;> simp [h]

@[simp] theorem publishIssue_keeps (x : EForm) : KeepsMems (publishIssue x) := by
  intro c h
  unfold publishIssue; split <;> simp [h]

@[simp] theorem cpywIssue_keeps (x : EForm) : KeepsMems (cpywIssue x) := by
  intro c h
  unfold cpywIssue; split <;> simp [h]

@[simp] theorem cwaitIssue_keeps (x : EForm) : KeepsMems (cwaitIssue x) := by
  intro c h
  unfold cwaitIssue; split <;> simp [h]

@[simp] theorem estatIssue_keeps (x : EForm) : KeepsMems (estatIssue x) := by
  intro c h
  unfold estatIssue; split <;> simp [h]

/-! ### Collective: what keeps the form -/

@[simp] theorem State.wf_cmdStopped {s : State} (h : s.mems.Wf) (gid slot : Nat) (e : CmdStop) : (s.cmdStopped gid slot e).mems.Wf := by
  cases e <;> simp [State.cmdStopped, h]

@[simp] theorem State.wf_collStopped {s : State} (h : s.mems.Wf) (x : CollCtx) (e : CmdStop) : (s.collStopped x e).mems.Wf := by
  cases e <;> simp [State.collStopped, h]

@[simp] theorem State.wf_collStart {s : State} (h : s.mems.Wf) (gid slot : Nat) : (s.collStart gid slot).mems.Wf := by
  unfold State.collStart
  split
  · split
    · split
      · exact h
      · extract_lets asid stop
        have hstop : ∀ e, (stop e).mems.Wf := State.wf_cmdStopped h gid slot
        clear_value stop
        split
        · split
          · exact hstop _
          · split
            · exact hstop _
            · simp [h]
        · split
          · exact hstop _
          · split
            · exact hstop _
            · split
              · simp [h]
              · rename_i hr
                have ht := State.wf_cmdRead h _ _ _ _ _ _ hr
                split
                · exact hstop _
                · simpa using ht
        · split
          · exact hstop _
          · split
            · exact hstop _
            · rename_i hr
              have ht := State.wf_cmdRead h _ _ _ _ _ _ hr
              extract_lets nn
              split
              · exact hstop _
              · split
                · exact hstop _
                · extract_lets k' x u
                  have hu : u.mems.Wf := by simpa [u] using ht
                  split
                  · simp [hu]
                  · rename_i hr'
                    have hv := State.wf_cmdRead hu _ _ _ _ _ _ hr'
                    dsimp only
                    split
                    · exact hstop _
                    · simpa using hv
        · exact h
    · exact h
  · exact h

@[simp] theorem State.wf_putResult {s : State} (h : s.mems.Wf) (x : CollCtx) (dst : Nat) (bs : List Byte) :
    (s.putResult x dst bs).mems.Wf :=
  State.wf_endMove _ _ (Moving.wf_move (fun t a n ht => by simp [ht]) (fun _ _ _ ht => State.wf_cmdWrite ht _ _ _ _ _)
    (fun t r ht => by simp [ht]) h 0)

@[simp] theorem State.wf_keepResult {s : State} (h : s.mems.Wf) (x : CollCtx) (dst : Nat) (bs : List Byte) :
    (s.keepResult x dst bs).mems.Wf := by
  simp [State.keepResult, h]

@[simp] theorem State.wf_runMldred {s : State} (h : s.mems.Wf) (x : CollCtx) (r : Round) (f : EForm) : (s.runMldred x r f).mems.Wf := by
  unfold State.runMldred; split <;> simp [h]

@[simp] theorem State.wf_runColl {s : State} (h : s.mems.Wf) (x : CollCtx) (r : Round) (f : EForm) : (s.runColl x r f).mems.Wf := by
  unfold State.runColl
  extract_lets cmd op e acc red asid b
  clear_value op
  split
  · simp [h]
  · rename_i t bs hr
    have ht : t.mems.Wf := State.wf_cmdRead h _ _ _ _ _ _ hr
    split
    · split
      · simp [ht]
      · extract_lets needs
        split
        split
        · simp [ht]
        · rename_i u own hr
          have hu : u.mems.Wf := by
            split at hr
            · exact State.wf_cmdRead ht _ _ _ _ _ _ hr
            · cases hr; exact ht
          split
          · simp [hu]
          · split <;> simp [hu]
    · simp [ht]

theorem State.wf_haloSends {s : State} (h : s.mems.Wf) (x : CollCtx) (es : List HaloEnt) : (s.haloSends x es).s.mems.Wf := by
  refine Moving.wf_foldl (fun m p hm => Moving.wf_move (fun _ _ _ ht => State.wf_cmdRead ht _ _ _ _ _) (fun t a bs ht => ?_)
    (fun t r ht => by simp [ht]) hm _) _ h
  dsimp only
  (repeat' split) <;> simp [ht]

@[simp] theorem State.wf_runHalo {s : State} (h : s.mems.Wf) (x : CollCtx) (r : Round) : (s.runHalo x r).mems.Wf := by
  unfold State.runHalo
  split
  · (repeat' split) <;> simp [h]
  · extract_lets n
    split
    · simp [h]
    · rename_i t bs hr
      have ht : t.mems.Wf := State.wf_cmdRead h _ _ _ _ _ _ hr
      extract_lets m
      have hm : m.s.mems.Wf := State.wf_haloSends ht _ _
      clear_value m
      split
      · simp [hm]
      · split <;> simp [hm]
      · simp [hm]

@[simp] theorem State.wf_runCollective {s : State} (h : s.mems.Wf) (x : CollCtx) (r : Round) : (s.runCollective x r).mems.Wf := by
  simp only [State.runCollective]; (repeat' split) <;> simp [h]

theorem State.mems_of_map_collTell {s t : State} {x : CollCtx} {o : Option ArrivalMsg} (h : o.map (s.collTell x) = some t) :
    t.mems = s.mems := by
  cases o with
  | none => cases h
  | some a => rw [← Option.some.inj h]; simp

@[simp] theorem State.wf_runCommand {s : State} (h : s.mems.Wf) (gid slot : Nat) : (s.runCommand gid slot).mems.Wf := by
  unfold State.runCommand
  split
  · split
    · dsimp only
      split
      · exact h
      split
      · simp [h]
      split
      · exact h
      split
      · split <;> simp [h]
      split
      · split
        · simp [h]
        · split
          · split
            · rename_i t ht
              have hw : t.mems.Wf := by
                split at ht
                · cases ht
                · rw [State.mems_of_map_collTell ht]; exact h
              (repeat' split) <;> simp [h, hw]
            · split <;> simp [h]
          · simp [h]
      · (repeat' split) <;> simp [h]
    · exact h
  · exact h

@[simp] theorem collIssue_keeps (x : EForm) : KeepsMems (collIssue x) := by
  intro c h
  unfold collIssue; split <;> simp [h]

@[simp] theorem State.wf_sendAcked {s : State} (h : s.mems.Wf) (part group num rank : Nat) (refused : Bool) :
    (s.sendAcked part group num rank refused).mems.Wf := by
  unfold State.sendAcked
  extract_lets mine
  split
  · exact h
  · split
    · simp [h]
    · obtain ⟨hhbm, hseals, hhost, hpeer, howners⟩ := h
      refine ⟨hhbm, hseals, hhost, ?_, howners⟩
      exact List.foldlRecOn (motive := fun m : Cells 8 => Cells.wf m = true) _ _ hpeer fun m hm e _ => Cells.wf_setBytes _ _ _ hm

theorem State.wf_peerStore {s : State} (h : s.mems.Wf) (asid va : Nat) (bs : List Byte) :
    ∀ r, s.peerStore asid va bs = .ok r → r.mems.Wf := by
  intro r hr
  obtain ⟨q, hq, rfl⟩ := exists_of_map_eq_ok hr
  simpa using State.wf_engineWriteLr h _ _ _ _ hq

theorem State.wf_peerPerform {s : State} (h : s.mems.Wf) (asid va : Nat) (op : PeerOp) :
    ∀ r, s.peerPerform asid va op = some r → r.1.mems.Wf := by
  unfold State.peerPerform
  extract_lets rmw
  have hrmw : ∀ n f r, rmw n f = some r → r.1.mems.Wf := by
    intro n f
    simp only [rmw]
    split
    · rename_i hr
      have ht := State.wf_engineReadAll h _ _ _ _ hr
      split
      · rename_i hs
        simpa using State.wf_peerStore ht _ _ _ _ hs
      · simp
    · simp
  clear_value rmw
  split
  · split
    · rename_i hr
      simpa using State.wf_engineReadAll h _ _ _ _ hr
    · simp
  · split
    · rename_i hs
      simpa using State.wf_peerStore h _ _ _ _ hs
    · simp
  · exact hrmw _ _
  · exact hrmw _ _

@[simp] theorem State.wf_peerServe {s : State} (h : s.mems.Wf) (r : PeerRequest) : (s.peerServe r).mems.Wf := by
  unfold State.peerServe
  dsimp only
  split
  · exact h
  · split
    · simp [h]
    · split
      · exact h
      · split
        · simp [h]
        · split
          · rename_i hr
            simpa using State.wf_peerPerform h _ _ _ _ hr
          · simp [h]

@[simp] theorem State.wf_linkLost {s : State} (h : s.mems.Wf) (port : Nat) : (s.linkLost port).mems.Wf := by
  unfold State.linkLost
  extract_lets t down
  have ht : t.mems.Wf := by simp [t, h]
  have hdown : ∀ u : State, u.mems.Wf → (down u).mems.Wf := fun u hu => by simp [down, hu]
  refine hdown _ (foldl_wf (fun u o hu => ?_) _ ht)
  split
  · exact hu
  · refine foldl_wf (fun v l hv => ?_) _ hu
    split <;> simp [hv]

/-! ### Directory: what keeps the form -/

@[simp] theorem State.wf_rdcRequest {s : State} (h : s.mems.Wf) (die asid line : Nat) (r : DirReq) :
    (s.rdcRequest die asid line r).mems.Wf := by
  unfold State.rdcRequest; (repeat' split) <;> simp [h]

/-! ### Traversal: what keeps the form -/

@[simp] theorem travIssue_keeps (addr : Ctx → Nat → W64) (srcs : Ctx → Nat → List W32) (view : Bool) :
    KeepsMems (travIssue addr srcs view) := by
  intro c h
  simp [travIssue, h]

@[simp] theorem State.wf_travDeliver {s : State} (h : s.mems.Wf) (o : MemOp) (lane : Nat) (ws : List W32) (tr : Trav) :
    (s.travDeliver o lane ws tr).mems.Wf := by
  simp [State.travDeliver, h]

@[simp] theorem State.wf_travStopped {s : State} (h : s.mems.Wf) (o : MemOp) (lane : Nat) (e : TravStop) :
    (s.travStopped o lane e).mems.Wf := by
  unfold State.travStopped; split <;> simp [h]

@[simp] theorem State.wf_travGo {s : State} (h : s.mems.Wf) (id lane n : Nat) : (s.travGo id lane n).mems.Wf := by
  simp only [State.travGo]; (repeat' split) <;> simp [h]

@[simp] theorem State.wf_travComplete {s : State} (h : s.mems.Wf) (id lane : Nat) : (s.travComplete id lane).mems.Wf := by
  simp [State.travComplete, h]

@[simp] theorem rngkeyLanes_keeps : KeepsMems rngkeyLanes := by
  intro c h
  simp [rngkeyLanes, h]

@[simp] theorem rngLanes_keeps : KeepsMems rngLanes := by
  intro c h
  simp [rngLanes, h]

/-! ### Issue: what keeps the form -/

@[simp] theorem State.wf_enterLine {s : State} (h : s.mems.Wf) (l : LineData) : (s.enterLine l).mems.Wf := by
  refine foldl_wf (fun t p ht => ?_) _ h
  (repeat' split) <;> simp [ht]

@[simp] theorem State.wf_checkPair {s : State} (h : s.mems.Wf) (l : LineData) (k : Nat) (i j : Option Instr) :
    (s.checkPair l k i j).mems.Wf := by
  refine foldl_wf (fun t p ht => ?_) _ h
  extract_lets f
  clear_value f
  cases f <;> simp [ht]

@[simp] theorem State.wf_prepare {s : State} (h : s.mems.Wf) (core ipart : Nat) (c : Cand) : (s.prepare core ipart c).s.mems.Wf := by
  unfold State.prepare
  extract_lets acc t u
  have ht : t.mems.Wf := by simp [t, h]
  split
  · have hu : u.mems.Wf := foldl_wf (fun v p hv => by simp [hv]) _ ht
    simp [hu]
  · rename_i f _ _
    have := foldl_wf (fun (u : State) (p : Nat × W64) hu => State.wf_fetchFault hu p.1 p.2 c.pc f) c.parts ht
    simp [this]
  · dsimp only
    split <;> simp [acc, h]

/-! ### Dispatcher: what keeps the form -/

@[simp] theorem State.wf_considerLaunch {s : State} (h : s.mems.Wf) (vf id : Nat) (cores : List Nat) :
    (s.considerLaunch vf id cores).mems.Wf := by
  unfold State.considerLaunch; (repeat' split) <;> simp [h]

@[simp] theorem State.wf_endLaunch {s : State} (h : s.mems.Wf) (lid : Nat) : (s.endLaunch lid).mems.Wf := by
  simp only [State.endLaunch]; (repeat' split) <;> simp [h]

@[simp] theorem State.wf_retireWg {s : State} (h : s.mems.Wf) (wid : Nat) : (s.retireWg wid).mems.Wf := by
  unfold State.retireWg; (repeat' split) <;> simp [h]

@[simp] theorem State.wf_retireGroup {s : State} (h : s.mems.Wf) (gid : Nat) : (s.retireGroup gid).mems.Wf := by
  unfold State.retireGroup; (repeat' split) <;> simp [h]

/-! ### Host: what keeps the form -/

@[simp] theorem State.wf_refuse {s : State} (h : s.mems.Wf) (status : Nat) : (s.refuse status).s.mems.Wf := by simp [State.refuse, h]
@[simp] theorem State.wf_ok {s : State} (h : s.mems.Wf) (result : W64) : (s.ok result).s.mems.Wf := by simp [State.ok, h]
/-- The work of a command keeps the memories in form. -/
def RunKeeps (run : State → CmdEnd) : Prop := ∀ s, s.mems.Wf → (run s).s.mems.Wf

@[simp] theorem CmdEnd.wf_complete {r : CmdEnd} (h : r.s.mems.Wf) (hd : CmdHead) : (r.complete hd).mems.Wf := State.wf_complete h _ _ _

theorem State.wf_command {s : State} (h : s.mems.Wf) (hd : CmdHead) (i : Instr) {run : State → CmdEnd} (hrun : RunKeeps run) :
    (s.command hd i run).mems.Wf := by
  unfold State.command
  split
  · exact h
  · exact CmdEnd.wf_complete (hrun _ (by simp [h])) hd

@[simp] theorem State.wf_evictOver {s : State} (h : s.mems.Wf) (rs : List (Nat × Nat × Nat)) : (s.evictOver rs).mems.Wf :=
  foldl_wf (fun t r ht => by simp [ht]) _ h

theorem State.wf_commandOver {s : State} (h : s.mems.Wf) (hd : CmdHead) (i : Instr) (rs : State → List (Nat × Nat × Nat))
    {run : State → CmdEnd} (hrun : RunKeeps run) : (s.commandOver hd i rs run).mems.Wf := by
  unfold State.commandOver
  split
  · exact h
  · extract_lets t lease u
    have ht : t.mems.Wf := by simp [t, h]
    split
    · exact CmdEnd.wf_complete (hrun _ ht) hd
    · split
      · exact CmdEnd.wf_complete (hrun _ (by simp [ht])) hd
      · simp [u, ht]

theorem State.wf_deferred {s : State} (h : s.mems.Wf) (hd : CmdHead) (i : Instr) {run : State → Except Nat State}
    (hrun : ∀ t, t.mems.Wf → ∀ r, run t = .ok r → r.mems.Wf) : (s.deferred hd i run).mems.Wf := by
  unfold State.deferred
  split
  · exact h
  · dsimp only
    split
    · rename_i hr
      exact hrun _ (by simp [h]) _ hr
    · simp [h]

@[simp] theorem State.wf_refuseBad {s : State} (h : s.mems.Wf) : s.refuseBad.mems.Wf := by unfold State.refuseBad; split <;> simp [h]
@[simp] theorem State.wf_copyRecord {s : State} (h : s.mems.Wf) (vf level : Nat) : (s.copyRecord vf level).mems.Wf := by
  unfold State.copyRecord; split <;> simp [h]

@[simp] theorem State.wf_copyLevel (vf level n : Nat) {s : State} (h : s.mems.Wf) : (State.copyLevel vf level n s).1.mems.Wf := by
  induction n generalizing s with
  | zero => exact h
  | succ n ih =>
    unfold State.copyLevel
    split
    · exact ih (by simp [h])
    · exact h

@[simp] theorem State.wf_copyRecords (vf : Nat) (l : List (Nat × Nat)) {s : State} (h : s.mems.Wf) :
    (State.copyRecords vf l s).mems.Wf := by
  induction l generalizing s with
  | nil => simp [State.copyRecords, h]
  | cons p rest ih =>
    have hp := State.wf_copyLevel vf p.1 p.2 h
    unfold State.copyRecords
    split
    · rename_i hr
      rw [hr] at hp
      exact ih hp
    · rename_i hr
      rw [hr] at hp
      simpa using hp

@[simp] theorem State.wf_fillQueues {s : State} (h : s.mems.Wf) : s.fillQueues.mems.Wf :=
  foldl_wf (fun t f ht => by simp [ht]) _ h

@[simp] theorem State.wf_launchDoorbell {s : State} (h : s.mems.Wf) (vf level : Nat) (v : W32) :
    (s.launchDoorbell vf level v).mems.Wf := by
  simp only [State.launchDoorbell]; (repeat' split) <;> simp [h]

@[simp] theorem State.wf_aperture {s : State} (h : s.mems.Wf) (fn off : Nat) (write : Bool) (data : List Byte) :
    (s.aperture fn off write data).mems.Wf := by
  unfold State.aperture
  split
  · exact h
  · extract_lets n va own waits refused
    have hr : refused.mems.Wf := by simp [refused, h]
    split
    · exact h
    · split
      · exact hr
      · split
        · split
          · rename_i ht
            simpa using State.wf_engineWriteLr h _ _ _ _ ht
          · exact hr
        · split
          · rename_i ht
            have := State.wf_engineReadAll h _ _ _ _ ht
            split
            · exact hr
            · simpa using this
          · exact hr

theorem State.wf_access {s : State} (h : s.mems.Wf) (fn : Nat) {f : State → State} (hf : ∀ t, t.mems.Wf → (f t).mems.Wf) :
    (s.access fn f).mems.Wf := by
  unfold State.access
  split
  · exact hf _ (by simp [h])
  · exact h

/-! ### Slots: what keeps the form -/

@[simp] theorem State.wf_saveQuad {s : State} (h : s.mems.Wf) (q : Nat) : (s.saveQuad q).mems.Wf := by
  have := foldl_wf (fun t (g : Group) ht => State.wf_retireGroup ht g.gid) (s.stopGroups q) h
  simp [State.saveQuad, this]

@[simp] theorem State.wf_settleTables {s : State} (h : s.mems.Wf) : s.settleTables.mems.Wf :=
  foldl_wf (fun t x ht => by simp [ht]) _ (by simp [h])

@[simp] theorem State.wf_saveDone {s : State} (h : s.mems.Wf) (q : Nat) : (s.saveDone q).mems.Wf := by
  simp only [State.saveDone]; (repeat' split) <;> simp [h]

@[simp] theorem State.wf_tearDown {s : State} (h : s.mems.Wf) (p : Nat) : (s.tearDown p).mems.Wf := by
  unfold State.tearDown
  extract_lets asids t
  have ht : t.mems.Wf := by simp [t, h]
  obtain ⟨hhbm, hseals, hhost, hpeer, howners⟩ := ht
  exact ⟨hhbm, hseals, hhost, hpeer, Cells.wf_filter _ _ howners⟩

@[simp] theorem State.wf_runDeferred {s : State} (h : s.mems.Wf) (x : Deferred) : (s.runDeferred x).mems.Wf := by
  unfold State.runDeferred; split <;> simp [h]

@[simp] theorem State.wf_deferredAt {s : State} (h : s.mems.Wf) (b : Nat) : (s.deferredAt b).mems.Wf :=
  foldl_wf (fun t x ht => by simp [ht]) _ (by simp [h])

@[simp] theorem State.wf_boundary {s : State} (h : s.mems.Wf) : s.boundary.mems.Wf := by simp only [State.boundary]; split <;> simp [h]
@[simp] theorem State.wf_rotateDone {s : State} (h : s.mems.Wf) (p : Nat) : (s.rotateDone p).mems.Wf := by
  unfold State.rotateDone
  split
  · exact h
  · split
    · exact h
    · extract_lets asids t g u v w
      have ht : t.mems.Wf := foldl_wf (fun x a hx => by simp [hx]) _ h
      have hv : v.mems.Wf := by simp [v, u, ht]
      split <;> simp [w, hv]

/-! ### Tuinko: what keeps the form -/

theorem State.wf_takeTable {s : State} (h : s.mems.Wf) (part level : Nat) : ∀ r, s.takeTable part level = some r → r.2.mems.Wf := by
  intro r hr
  obtain ⟨a, -, rfl⟩ := Option.map_eq_some_iff.1 hr
  simp [h]

/-- A fold of steps that may find no frame keeps the form where it ends. -/
theorem foldl_bind_wf {α : Type} {f : State → α → Option State} (hf : ∀ t a, t.mems.Wf → ∀ u, f t a = some u → u.mems.Wf) (l : List α)
    {s : State} (h : s.mems.Wf) : ∀ r, l.foldl (fun r a => r.bind (fun s => f s a)) (some s) = some r → r.mems.Wf := by
  refine List.foldlRecOn (motive := fun o : Option State => ∀ r, o = some r → r.mems.Wf) _ _ (by simp [h]) fun o ho a _ r hr => ?_
  obtain ⟨t, ht, hr⟩ := Option.bind_eq_some_iff.1 hr
  exact hf t a (ho t ht) r hr

theorem State.wf_path2 {s : State} (h : s.mems.Wf) (part level a : Nat) : ∀ r, s.path2 part level a = some r → r.mems.Wf := by
  refine foldl_bind_wf (fun t l ht u hu => ?_) _ h
  obtain ⟨p, -, hu⟩ := Option.bind_eq_some_iff.1 hu
  dsimp only at hu
  split at hu
  · cases hu; exact ht
  · obtain ⟨q, hq, rfl⟩ := Option.map_eq_some_iff.1 hu
    simp [State.wf_takeTable ht _ _ q hq]

theorem State.wf_map2 {s : State} (h : s.mems.Wf) (part level a : Nat) (w : W64) : ∀ r, s.map2 part level a w = some r → r.mems.Wf := by
  intro r hr
  obtain ⟨t, ht, rfl⟩ := Option.map_eq_some_iff.1 hr
  simp [State.wf_path2 h _ _ _ t ht]

theorem State.wf_mapTable {s : State} (h : s.mems.Wf) (part gpa hpa n : Nat) : ∀ r, s.mapTable part gpa hpa n = some r → r.mems.Wf :=
  foldl_bind_wf (fun _ _ ht => State.wf_map2 ht _ _ _ _) _ h

theorem State.wf_path1 {s : State} (h : s.mems.Wf) (asid level a : Nat) : ∀ r, s.path1 asid level a = some r → r.mems.Wf := by
  refine foldl_bind_wf (fun t l ht u hu => ?_) _ h
  obtain ⟨c, -, hu⟩ := Option.bind_eq_some_iff.1 hu
  dsimp only at hu
  split at hu
  · cases hu; exact ht
  · obtain ⟨q, hq, hu⟩ := Option.bind_eq_some_iff.1 hu
    obtain ⟨v, hv, rfl⟩ := Option.map_eq_some_iff.1 hu
    simp [State.wf_mapTable (State.wf_takeTable ht _ _ q hq) _ _ _ _ v hv]

theorem State.wf_map1 {s : State} (h : s.mems.Wf) (asid level a : Nat) (w : W64) : ∀ r, s.map1 asid level a w = some r → r.mems.Wf := by
  intro r hr
  obtain ⟨t, ht, rfl⟩ := Option.map_eq_some_iff.1 hr
  simp [State.wf_path1 h _ _ _ t ht]

@[simp] theorem State.wf_freeTables {s : State} (h : s.mems.Wf) (c : AsidCtx) : (s.freeTables c).mems.Wf := by
  refine foldl_wf (fun t g ht => ?_) _ h
  split
  · dsimp only
    split <;> simp [ht]
  · exact ht

theorem State.wf_partCreate {s : State} (h : s.mems.Wf) (part parent area frames : Nat) :
    (s.partCreate part parent area frames).s.mems.Wf := by
  unfold State.partCreate
  dsimp only
  split
  · exact h
  iterate 6
    split
    · exact h
  split
  · exact h
  · rename_i hr
    have := State.wf_takeTable (State.wf_setOwners h _ _ _) _ _ _ hr
    simpa [State.ok] using this

@[simp] theorem State.wf_replaceRotation {s : State} (h : s.mems.Wf) (p : Nat) : (s.replaceRotation p).mems.Wf := by
  refine foldl_wf (fun t d ht => ?_) _ h
  split
  · split <;> simp [ht]
  · exact ht

theorem State.wf_partDelete {s : State} (h : s.mems.Wf) (hd : CmdHead) (p : Nat) : ∀ r, s.partDelete hd p = .ok r → r.mems.Wf := by
  simp only [State.partDelete]; (repeat' split) <;> simp [h]

@[simp] theorem State.wf_acceptTable {s : State} (h : s.mems.Wf) (hd : CmdHead) (rows : List Row) (kids : List (Nat × Nat)) :
    (s.acceptTable hd rows kids).mems.Wf := by
  simp only [State.acceptTable]; (repeat' split) <;> simp [h]

theorem State.wf_slotWrite {s : State} (h : s.mems.Wf) (hd : CmdHead) (table n : Nat) :
    ∀ r, s.slotWrite hd table n = .ok r → r.mems.Wf := by
  simp only [State.slotWrite]; (repeat' split) <;> simp [h]

theorem State.wf_partMode {s : State} (h : s.mems.Wf) (hd : CmdHead) (table n : Nat) (kids : List (Nat × Nat)) :
    ∀ r, s.partMode hd table n kids = .ok r → r.mems.Wf := by
  simp only [State.partMode]; (repeat' split) <;> simp [h]

@[simp] theorem State.wf_vfBind {s : State} (h : s.mems.Wf) (vf part ring log : Nat) : (s.vfBind vf part ring log).s.mems.Wf := by
  unfold State.vfBind; (repeat' split) <;> simp [h]

@[simp] theorem State.wf_vfUnbind {s : State} (h : s.mems.Wf) (vf : Nat) : (s.vfUnbind vf).s.mems.Wf := by
  unfold State.vfUnbind; (repeat' split) <;> simp [h]

theorem State.wf_asidCreate {s : State} (h : s.mems.Wf) (asid vf : Nat) (root len : W64) : (s.asidCreate asid vf root len).s.mems.Wf := by
  unfold State.asidCreate
  extract_lets r
  split
  · exact h
  · split
    · exact h
    · split
      · exact h
      · rename_i p _ _
        extract_lets made table
        have hm : ∀ t, made = some t → t.mems.Wf := by
          intro t ht
          simp only [made] at ht
          split at ht
          · cases ht; exact h
          · obtain ⟨q, hq, ht⟩ := Option.bind_eq_some_iff.1 ht
            exact State.wf_mapTable (State.wf_takeTable h _ _ q hq) _ _ _ _ t ht
        clear_value made
        split
        · exact h
        · simp [State.ok, hm _ rfl]

@[simp] theorem State.wf_leaveGpa {s : State} (h : s.mems.Wf) (part gpa : Nat) : (s.leaveGpa part gpa).mems.Wf :=
  foldl_wf (fun t r ht => by simp [ht]) _ h

@[simp] theorem State.wf_endChain {s : State} (h : s.mems.Wf) (p : TrackedPage) : (s.endChain p).mems.Wf := by
  simp only [State.endChain]; (repeat' split) <;> simp [h]

@[simp] theorem State.wf_removeLeaves {s : State} (h : s.mems.Wf) (asid : Nat) (p : Pte → Bool) : (s.removeLeaves asid p).mems.Wf := by
  unfold State.removeLeaves
  split
  · exact h
  · extract_lets mine gone inGone t u v w
    have ht : t.mems.Wf := foldl_wf (fun x a hx => by simp [hx]) _ h
    have hu : u.mems.Wf := foldl_wf (fun x g hx => by simp [hx]) _ ht
    simp [w, v, hu]

theorem State.wf_asidDelete {s : State} (h : s.mems.Wf) (asid : Nat) : (s.asidDelete asid).s.mems.Wf := by
  unfold State.asidDelete
  split
  · exact h
  · split
    · exact h
    · extract_lets t u shared v
      have hu : u.mems.Wf := foldl_wf (fun x g hx => by simp [hx]) _ (by simp [t, h])
      have hv : v.mems.Wf := by
        simp only [v]
        split
        · exact hu
        · split <;> simp [hu]
      simp [State.ok, hv]

@[simp] theorem State.wf_regionSet {s : State} (h : s.mems.Wf) (asid region : Nat) (entry : W32) :
    (s.regionSet asid region entry).s.mems.Wf := by
  unfold State.regionSet; split <;> simp [h]

@[simp] theorem State.wf_leaseSet {s : State} (h : s.mems.Wf) (asid : Nat) (len : W64) : (s.leaseSet asid len).s.mems.Wf := by
  unfold State.leaseSet; split <;> simp [h]

theorem State.wf_mapPages {s : State} (h : s.mems.Wf) (asid size attrs count va gpa : Nat) :
    (s.mapPages asid size attrs count va gpa).s.mems.Wf := by
  unfold State.mapPages
  extract_lets unit trk n pages
  split
  · exact h
  · split
    · exact h
    · split
      · exact h
      · split
        · exact h
        · split
          · exact h
          · rename_i hr
            have := foldl_bind_wf (fun _ _ ht => State.wf_map1 ht _ _ _ _) _ h _ hr
            simp [State.ok, this]

@[simp] theorem State.wf_unmapPages {s : State} (h : s.mems.Wf) (asid size count va : Nat) :
    (s.unmapPages asid size count va).s.mems.Wf := by
  simp only [State.unmapPages]; (repeat' split) <;> simp [h]

theorem State.wf_frameGrant {s : State} (h : s.mems.Wf) (part dest fset attrs count hpa gpa : Nat) :
    (s.frameGrant part dest fset attrs count hpa gpa).s.mems.Wf := by
  unfold State.frameGrant
  extract_lets old host n t
  split
  · exact h
  · split
    · exact h
    · iterate 5
        split
        · exact h
      have ht : t.mems.Wf := by simp [t, h]
      split
      · simp [State.ok, ht]
      · split
        · exact h
        · rename_i hr
          have := foldl_bind_wf (fun _ _ hx => State.wf_map2 hx _ _ _ _) _ ht _ hr
          simp [State.ok, this]

@[simp] theorem State.wf_frameRevoke {s : State} (h : s.mems.Wf) (part count hpa : Nat) : (s.frameRevoke part count hpa).s.mems.Wf := by
  simp only [State.frameRevoke]; (repeat' split) <;> simp [h]

@[simp] theorem State.wf_firmwareWrite {s : State} (h : s.mems.Wf) (asid va : Nat) (bs : List Byte) :
    (s.firmwareWrite asid va bs).mems.Wf := by
  unfold State.firmwareWrite; split <;> simp [h]

theorem State.wf_codeLoad {s : State} (h : s.mems.Wf) (hd : CmdHead) (asid : BitVec 16) (source len dest : Nat) :
    (s.codeLoad hd asid source len dest).s.mems.Wf := by
  unfold State.codeLoad
  extract_lets d
  split
  · exact h
  · split
    · exact h
    · split
      · exact h
      · split
        · exact h
        · split
          · exact h
          · split
            · exact h
            · exact foldl_wf (fun t p ht => by simp [ht]) _ h

@[simp] theorem State.wf_codeUnload {s : State} (h : s.mems.Wf) (hd : CmdHead) (asid : BitVec 16) (kobj : W64) :
    (s.codeUnload hd asid kobj).s.mems.Wf := by
  simp only [State.codeUnload]; (repeat' split) <;> simp [h]

@[simp] theorem State.wf_lqCreate {s : State} (h : s.mems.Wf) (vf : Nat) (base log cring clog : Nat) :
    (s.lqCreate vf base log cring clog).s.mems.Wf := by
  unfold State.lqCreate; (repeat' split) <;> simp [h]

@[simp] theorem State.wf_lqDelete {s : State} (h : s.mems.Wf) (vf : Nat) : (s.lqDelete vf).s.mems.Wf := by
  unfold State.lqDelete; (repeat' split) <;> simp [h]

@[simp] theorem State.wf_fsetCreate {s : State} (h : s.mems.Wf) (part fset nr : Nat) (wstep : W32) (addr : Nat) :
    (s.fsetCreate part fset nr wstep addr).s.mems.Wf := by
  simp only [State.fsetCreate]; (repeat' split) <;> simp [h]

@[simp] theorem State.wf_fsetDelete {s : State} (h : s.mems.Wf) (part fset : Nat) : (s.fsetDelete part fset).s.mems.Wf := by
  unfold State.fsetDelete; (repeat' split) <;> simp [h]

theorem State.wf_keyRotate {s : State} (h : s.mems.Wf) (hd : CmdHead) (p : Nat) : ∀ r, s.keyRotate hd p = .ok r → r.mems.Wf := by
  simp only [State.keyRotate]; (repeat' split) <;> simp [h]

@[simp] theorem State.wf_fqReplay {s : State} (h : s.mems.Wf) (fn : Nat) (fid : W32) : (s.fqReplay fn fid).s.mems.Wf := by
  unfold State.fqReplay; (repeat' split) <;> simp [h]

@[simp] theorem State.wf_fqDrop {s : State} (h : s.mems.Wf) (fn : Nat) (fid : W32) : (s.fqDrop fn fid).s.mems.Wf := by
  unfold State.fqDrop; (repeat' split) <;> simp [h]

@[simp] theorem State.wf_fqTrap {s : State} (h : s.mems.Wf) (fn : Nat) (fid : W32) : (s.fqTrap fn fid).s.mems.Wf := by
  simp only [State.fqTrap]; (repeat' split) <;> simp [h]

@[simp] theorem State.wf_collJoin {s : State} (h : s.mems.Wf) (part group rank members timeout wasid wbase wlen : Nat) :
    (s.collJoin part group rank members timeout wasid wbase wlen).s.mems.Wf := by
  unfold State.collJoin; (repeat' split) <;> simp [h]

@[simp] theorem State.wf_collLeave {s : State} (h : s.mems.Wf) (part group : Nat) : (s.collLeave part group).s.mems.Wf := by
  unfold State.collLeave; (repeat' split) <;> simp [h]

theorem State.wf_finishCommand {s : State} (h : s.mems.Wf) (i : Instr) : (s.finishCommand i).s.mems.Wf := by
  unfold State.finishCommand
  split
  · exact State.wf_asidDelete h _
  · exact State.wf_regionSet h _ _ _
  · exact State.wf_unmapPages h _ _ _ _
  · exact h

@[simp] theorem State.wf_endWait {s : State} (h : s.mems.Wf) : s.endWait.mems.Wf := by
  unfold State.endWait
  split
  · split
    · exact CmdEnd.wf_complete (State.wf_finishCommand (by simpa using h) _) _
    · exact h
  · exact h

/-! ### Health: what keeps the form -/

theorem State.wf_healthCmd {s : State} (h : s.mems.Wf) (hd : CmdHead) (addr : Nat) : (s.healthCmd hd addr).s.mems.Wf :=
  have ht : s.tickFree.mems.Wf := by simpa using h
  State.wf_hostWrite ht addr _

theorem State.wf_attestCmd {s : State} (h : s.mems.Wf) (hd : CmdHead) (nonce : List Byte) (addr : Nat) :
    (s.attestCmd hd nonce addr).s.mems.Wf :=
  have ht : s.tickFree.mems.Wf := by simpa using h
  State.wf_hostWrite ht addr _

theorem State.wf_manage {s : State} (h : s.mems.Wf) (b : MctpBus) {f : State → State} (hf : (f s).mems.Wf) : (s.manage b f).mems.Wf := by
  unfold State.manage
  (repeat' split) <;> simp [h, hf]

@[simp] theorem State.wf_spdm {s : State} (h : s.mems.Wf) (kind : Nat) (body : List Byte) : (s.spdm kind body).mems.Wf :=
  State.wf_manage h _ (by simp [h])

/-! ### Resets: what keeps the form -/

@[simp] theorem State.wf_endVfWork {s : State} (h : s.mems.Wf) (vf : Nat) : (s.endVfWork vf).mems.Wf := by
  unfold State.endVfWork
  extract_lets gids t u v w x
  have hu : u.mems.Wf := by simp [u, t, h]
  have hv : v.mems.Wf := foldl_wf (fun y o hy => foldl_wf (fun z l hz => by simp [hz]) _ hy) _ hu
  exact foldl_wf (fun y e hy => by simp [hy]) _ (by simp [x, w, hv])

@[simp] theorem State.wf_flr {s : State} (h : s.mems.Wf) (vf : Nat) : (s.flr vf).mems.Wf := by unfold State.flr; split <;> simp [h]
@[simp] theorem State.wf_endAll {s : State} (h : s.mems.Wf) : s.endAll.mems.Wf := by
  obtain ⟨hhbm, hseals, hhost, hpeer, -⟩ := h
  exact ⟨hhbm, hseals, hhost, hpeer, rfl⟩

@[simp] theorem State.wf_pfReset {s : State} (h : s.mems.Wf) : s.pfReset.mems.Wf := by
  have := foldl_wf (fun t hd ht => State.wf_complete ht hd stAborted 0) s.accepted h
  simpa [State.pfReset] using State.wf_endAll this

@[simp] theorem State.wf_coldReset {s : State} (h : s.mems.Wf) (r : BootResults) : (s.coldReset r).mems.Wf := by
  obtain ⟨hhbm, -, hhost, hpeer, -⟩ := h
  exact ⟨hhbm, Cells.wf_setAll _ _ rfl, hhost, hpeer, rfl⟩

@[simp] theorem State.wf_warmReset {s : State} (h : s.mems.Wf) (r : BootResults) : (s.warmReset r).mems.Wf := by
  unfold State.warmReset; split <;> simp [h]

@[simp] theorem State.wf_storeError {s : State} (h : s.mems.Wf) (op lane : Nat) : (s.storeError op lane).mems.Wf := by
  simp only [State.storeError]; (repeat' split) <;> simp [h]

@[simp] theorem State.wf_tagError {s : State} (h : s.mems.Wf) (die set : Nat) : (s.tagError die set).mems.Wf := by
  unfold State.tagError
  simp only [State.mems_linesLost]
  refine foldl_wf (fun t x ht => ?_) _ h
  split <;> simp [ht]

@[simp] theorem State.wf_softError {s : State} (h : s.mems.Wf) (e : SoftError) : (s.softError e).mems.Wf := by
  unfold State.softError; (repeat' split) <;> simp [h]

/-! ## Outcomes of instructions, events and turns -/

/-- Where an outcome is a next state, its memories are in form. -/
def NextWf (o : Host.Outcome State Fault Refusal) : Prop := ∀ t, o = .next t → t.mems.Wf

theorem NextWf.next {s : State} (h : s.mems.Wf) : NextWf (.next s) := by
  rintro _ ⟨⟩
  exact h

theorem NextWf.fault (r : Fault) : NextWf (.fault r) := by rintro _ ⟨⟩
theorem NextWf.refused (r : Refusal) : NextWf (.refused r) := by rintro _ ⟨⟩

theorem NextWf.done {s : State} (h : s.mems.Wf) (r : State) : NextWf (done r s) := .next h

theorem NextWf.andThen {o : Host.Outcome State Fault Refusal} (ho : NextWf o) {f : State → Host.Outcome State Fault Refusal}
    (hf : ∀ t, t.mems.Wf → NextWf (f t)) : NextWf (Machine.andThen o f) := by
  cases o with
  | next t => exact hf t (ho t rfl)
  | fault r => exact .fault r
  | refused r => exact .refused r

/-- An instruction or event of the table keeps the memories in form. -/
def ExecKeeps (i : Instr) : Prop := ∀ s : State, s.mems.Wf → NextWf (exec i s)

theorem ExecKeeps.of_done {i : Instr} {f : State → State} (hexec : ∀ s, exec i s = done s (f s))
    (hf : ∀ s, s.mems.Wf → (f s).mems.Wf) : ExecKeeps i := by
  intro s h
  rw [hexec]
  exact .done (hf s h) s

theorem ExecKeeps.of_word {i : Instr} {f : Ctx → Except TrapInfo Res} (hexec : ∀ s, exec i s = done s (issueWord i f s))
    (hf : KeepsMems f) : ExecKeeps i :=
  of_done hexec (fun _ h => hf.wf_issueWord i h)

theorem ExecKeeps.of_command {i : Instr} {hd : CmdHead} {run : State → CmdEnd}
    (hexec : ∀ s, exec i s = done s (s.command hd i run)) (hrun : RunKeeps run) : ExecKeeps i :=
  of_done hexec (fun _ h => State.wf_command h hd i hrun)

theorem ExecKeeps.of_commandOver {i : Instr} {hd : CmdHead} {rs : State → List (Nat × Nat × Nat)} {run : State → CmdEnd}
    (hexec : ∀ s, exec i s = done s (s.commandOver hd i rs run)) (hrun : RunKeeps run) : ExecKeeps i :=
  of_done hexec (fun _ h => State.wf_commandOver h hd i rs hrun)

theorem ExecKeeps.of_deferred {i : Instr} {hd : CmdHead} {run : State → Except Nat State}
    (hexec : ∀ s, exec i s = done s (s.deferred hd i run)) (hrun : ∀ t, t.mems.Wf → ∀ r, run t = .ok r → r.mems.Wf) : ExecKeeps i :=
  of_done hexec (fun _ h => State.wf_deferred h hd i hrun)

theorem ExecKeeps.of_access {i : Instr} {fn : Nat} {f : State → State} (hexec : ∀ s, exec i s = done s (s.access fn f))
    (hf : ∀ t, t.mems.Wf → (f t).mems.Wf) : ExecKeeps i :=
  of_done hexec (fun _ h => State.wf_access h fn hf)

theorem ExecKeeps.of_manage {i : Instr} {b : MctpBus} {f : State → State} (hexec : ∀ s, exec i s = done s (s.manage b f))
    (hf : ∀ t, t.mems.Wf → (f t).mems.Wf) : ExecKeeps i :=
  of_done hexec (fun _ h => State.wf_manage h b (hf _ h))

/-- Every instruction and event of the table keeps the memories in form. -/
theorem exec_keeps (i : Instr) : ExecKeeps i := by
  cases i with
  | ill rest | ill3ff rest | unassignedOpcode op rest => exact .of_done (fun _ => rfl) (fun _ h => State.wf_illegalWord h)
  | iadd x | isub x | imul x | imulh x | imad x | imadw x | iabs x | imin x | imax x | shl x | shr x | sar x | rot x | logic x | bfe x
  | bfi x | popc x | clz x | ctz x | brev x | prmt x | icmp x | iset x | sel x | plog x | mov x | movi x | lea x | icvt x | shfl x
  | ballot x | vote x | readlane x | clock x | fadd x | fsub x | fmul x | ffma x | fmin x | fmax x | fminnm x | fmaxnm x | fcmp x
  | fset x | fclass x | fsgn x | fdiv x | fsqrt x | frcpe x | frsqe x | frnd x | fldexp x | fgetexp x | fcvt x | f2i x | i2f x | dot2 x
  | dot4 x | hfma2 x | fsat x | rngf x => exact .of_word (fun _ => rfl) (laneOp_keeps _)
  | nop x | iaddc x | bra x | brx x | call x | callx x | ret x | exit x | setmeet x | setprio x | yield x | regroup x | switchpt x
  | cvdecl x | backoff x | sleep x | trap x | bkpt x | ld x | st x | lds x | sts x | ldq x | stq x | ldv x | pref x | atom x | cas x
  | red x | fence x | fencex x | drop x | promote x | cctl x | bar x | bara x | barw x | cbar x | sstep x | qdecl x | qpush x | qpop x
  | qtry x | dqpush x | dqpop x | dqsteal x | launch x | twait x | migrate x | priowg x | cpy x | cpyw x | gath x | scat x | publish x
  | vhold x | vrel x | coll x | mldred x | cwait x | halo x | estat x | tshape x | tld x | tst x | tzero x | tmovv x | tmovt x | mma x
  | mmas x | gmma x | tcvt x | mxscl x | mxsclFill x | tadd x | tscale x | tred x | trace x | tresume x | hitget x | bvhchk x
  | rngkey x | rng x | mfsr x | mtsr x | eret x | opreplay x | opdrop x | halt x | idle x | syscall x =>
    exact .of_word (fun _ => rfl) (by simp)
  | deferredTrap gid | loadReturn op lane | storeApply op lane | storeAck ack | atomicUnitChain op addr | dequeChain op addr
  | getm die asid line | recallLine asid line | rdcForward die asid line | puts die asid line | pute die asid line | putm die asid line
  | puto die asid line | leaseExpiry core asid line | fetchLineArrival gid line | oplogReplay op | publishCut gid slot
  | fillForwardComplete part fset asid page | engineCommandDone gid slot | meetRelease gid addr | backoffExpiry gid lane
  | sleepExpiry gid lane | flockBinRelease wid addr | passedOverGuard gid | partitionStarvation core ipart | qpushProceed cid q
  | qpopProceed cid q | cvdeclWrite gid tok | launchEntryGrant op lane | twaitComplete gid tok | migrateLand gid
  | cwaitComplete gid tok | idleWake gid lane | groupRetire gid | launchAdmit vf id cores | switchRendezvous wid | contextPromote core
  | contextAgeing core | matrixGrant quad | matrixPassComplete quad | traversalComplete op lane | issueStop quad
  | quiescenceComplete quad | contextSaveComplete quad | slotBoundary | overrun quad | slackDonation quad | workgroupResume wid core
  | keyRotateComplete part | collectiveTimeout part group kind round off | functionLevelResetDone vf | overrunDelayEnd quad
  | softError e | timeSyncLoss die | thermalThrottle die temp | throttlingEnd die temp | coldReset b | warmReset b
  | functionLevelReset vf | pfReset | configRequest fn access | vendorResetMessage b | getVersion | getCapabilities
  | negotiateAlgorithms asym hash | getDigests | challenge nonce | peerRequest r | linkReplayFailure port
  | collAnnounce part group rank members leave | haloSendAck part group round rank refused | haloReport part group round rank
  | scrubPass hbm unit | ualinkLinkUp port | getCertificate offset length =>
    exact .of_done (fun _ => rfl) (fun _ h => by simp [h])
  | fenceComplete gid hold | gets die asid line | homeReadMiss asid line | translationWalk op lane | replayEntry op
  | barrierPhaseComplete wid bar | cbarPhaseComplete cid bar | sstepRelease lid | roundClosure part group kind round off
  | getMeasurements block nonce | memberArrival a =>
    exact .of_done (fun _ => rfl) (fun _ h => by (repeat' split) <;> simp [h])
  | thermalShutdown =>
    refine fun _ h => .next ?_
    split <;> simp [h]
  | partCreate hd part parent area frames => exact .of_command (fun _ => rfl) (fun _ h => State.wf_partCreate h _ _ _ _)
  | vfBind hd vf part ring log => exact .of_command (fun _ => rfl) (fun _ h => State.wf_vfBind h _ _ _ _)
  | vfUnbind hd vf => exact .of_command (fun _ => rfl) (fun _ h => State.wf_vfUnbind h _)
  | asidCreate hd asid vf root len => exact .of_command (fun _ => rfl) (fun _ h => State.wf_asidCreate h _ _ _ _)
  | leaseSet hd asid len => exact .of_command (fun _ => rfl) (fun _ h => State.wf_leaseSet h _ _)
  | map hd asid size attrs count va gpa => exact .of_command (fun _ => rfl) (fun _ h => State.wf_mapPages h _ _ _ _ _ _)
  | frameGrant hd part dest fset attrs count hpa gpa => exact .of_command (fun _ => rfl) (fun _ h => State.wf_frameGrant h _ _ _ _ _ _ _)
  | frameRevoke hd part count hpa => exact .of_command (fun _ => rfl) (fun _ h => State.wf_frameRevoke h _ _ _)
  | codeLoad hd asid source length dest => exact .of_command (fun _ => rfl) (fun _ h => State.wf_codeLoad h _ _ _ _ _)
  | codeUnload hd asid kobj => exact .of_command (fun _ => rfl) (fun _ h => State.wf_codeUnload h _ _ _)
  | lqCreate hd base log cring clog => exact .of_command (fun _ => rfl) (fun _ h => State.wf_lqCreate h _ _ _ _ _)
  | lqDelete hd => exact .of_command (fun _ => rfl) (fun _ h => State.wf_lqDelete h _)
  | fsetCreate hd part fset nr wstep ranges => exact .of_command (fun _ => rfl) (fun _ h => State.wf_fsetCreate h _ _ _ _ _)
  | fsetDelete hd part fset => exact .of_command (fun _ => rfl) (fun _ h => State.wf_fsetDelete h _ _)
  | fqServiceReplay hd fid => exact .of_command (fun _ => rfl) (fun _ h => State.wf_fqReplay h _ _)
  | fqServiceDrop hd fid => exact .of_command (fun _ => rfl) (fun _ h => State.wf_fqDrop h _ _)
  | fqServiceTrap hd fid => exact .of_command (fun _ => rfl) (fun _ h => State.wf_fqTrap h _ _)
  | collJoin hd part group rank members timeout wasid wbase wlen =>
    exact .of_command (fun _ => rfl) (fun _ h => State.wf_collJoin h _ _ _ _ _ _ _ _)
  | collLeave hd part group => exact .of_command (fun _ => rfl) (fun _ h => State.wf_collLeave h _ _)
  | attest hd nonce report => exact .of_command (fun _ => rfl) (fun _ h => State.wf_attestCmd h _ _ _)
  | health hd report => exact .of_command (fun _ => rfl) (fun _ h => State.wf_healthCmd h _ _)
  | asidDelete hd asid => exact .of_commandOver (fun _ => rfl) (fun _ h => State.wf_asidDelete h _)
  | regionSet hd asid region entry => exact .of_commandOver (fun _ => rfl) (fun _ h => State.wf_regionSet h _ _ _)
  | unmap hd asid size count va => exact .of_commandOver (fun _ => rfl) (fun _ h => State.wf_unmapPages h _ _ _ _)
  | partDelete hd part => exact .of_deferred (fun _ => rfl) (fun _ h => State.wf_partDelete h _ _)
  | partMode hd table nrows children => exact .of_deferred (fun _ => rfl) (fun _ h => State.wf_partMode h _ _ _ _)
  | slotWrite hd table nrows => exact .of_deferred (fun _ => rfl) (fun _ h => State.wf_slotWrite h _ _ _)
  | keyRotate hd part => exact .of_deferred (fun _ => rfl) (fun _ h => State.wf_keyRotate h _ _)
  | cqdb fn value | lqdb fn level value | cpci fn value | fqci fn value | apsync fn | fstat fn value | registerWrite fn off value
  | apertureAccess fn off write data => exact .of_access (fun _ => rfl) (fun _ h => by simp [h])
  | mctpControl bus body | mctpUnsupported bus type | healthVdm bus => exact .of_manage (fun _ => rfl) (fun _ h => by simp [h])

theorem runWord_nextWf {s : State} (h : s.mems.Wf) (i : Option Instr) : NextWf (runWord i s) := by
  cases i with
  | some i => exact exec_keeps i s h
  | none => exact .next (State.wf_illegalWord h)

theorem State.runIssue_nextWf {s : State} (h : s.mems.Wf) (core ipart : Nat) (c : Cand) : NextWf (s.runIssue core ipart c) := by
  have hp : (s.prepare core ipart c).s.mems.Wf := State.wf_prepare h core ipart c
  simp only [State.runIssue]
  split
  · exact .next hp
  · refine (runWord_nextWf hp _).andThen fun t ht => ?_
    split
    · exact (runWord_nextWf (by simpa using ht) _).andThen fun u hu => .next (by simpa using hu)
    · exact .next (by simpa using ht)

theorem State.issueAt_nextWf {s : State} (h : s.mems.Wf) (core ipart : Nat) : NextWf (s.issueAt core ipart) := by
  simp only [State.issueAt]
  split
  · exact State.runIssue_nextWf (by simpa using h) _ _ _
  · exact .next h

theorem State.wf_chore {s : State} (h : s.mems.Wf) : ∀ t, s.chore = some t → t.mems.Wf := by
  unfold State.chore
  (repeat' split) <;> rintro _ ⟨⟩ <;> simp [h]

@[simp] theorem State.wf_endCycle {s : State} (h : s.mems.Wf) : s.endCycle.mems.Wf := by
  simp only [State.endCycle, State.mems_startLines, State.mems_seatGroups, State.mems_fitTiers, State.mems_settleRounds]
  refine foldl_wf (fun t i ht => ?_) _ h
  split
  · exact exec_keeps i t ht _ ‹_›
  · exact ht

@[simp] theorem State.wf_advance {s : State} (h : s.mems.Wf) (cycles ns : Nat) : (s.advance cycles ns).mems.Wf := by
  unfold State.advance
  (repeat' split) <;> simp [h]

theorem State.takeTurn_nextWf (t : Turn) {s : State} (h : s.mems.Wf) : NextWf (State.takeTurn t s) := by
  cases t with
  | event i => exact exec_keeps i s h
  | issue core ipart => exact State.issueAt_nextWf (by simpa using h) core ipart
  | advance cycles ns => exact .next (by simp [h])
  | rdcEvict die asid line => exact .done (by simp [h]) s
  | homeEvict asid line => exact .done (by split <;> simp [h]) s
  | l1Evict core asid line => exact .done (by simp [h]) s
  | pathFill path core asid line => exact .done (by simp [h]) s
  | travStep op lane => exact .done (by simp [h]) s
  | travRead op lane addr => exact .done (by simp [h]) s
  | hostWrite addr data => exact .next (by simp [h])
  | bindTo bus => exact .next (by simp [h])
  | launchRead vf n => exact .next (by simp [h])
  | firmLaunch vf level r => exact .next (by simp [h])
  | peerWrite addr data => exact .next (by simp [h])
  | peerState key rank len refuses => exact .next (by simp [h])

theorem State.proceed_nextWf {s : State} (h : s.mems.Wf) : NextWf s.proceed := by
  simp only [State.proceed]
  split
  · exact .done (State.wf_chore h _ ‹_›) s
  · split
    · exact exec_keeps _ s h
    · split
      · exact State.runIssue_nextWf (by simpa using h) _ _ _
      · exact .next (by simp [h])

theorem step_nextWf {s : State} (h : s.mems.Wf) : NextWf (step s) := by
  unfold step
  split
  · split
    · exact State.proceed_nextWf h
    · exact .fault _
  · split
    · exact State.takeTurn_nextWf _ (by simpa using h)
    · exact .fault _

/-! ## The state at reset -/

theorem Fuses.mxcap_unharvested : ∀ q ∈ Fuses.unharvested.mxcap, q.length = 5 ∧ ∀ n ∈ q, n = 8 ∨ n = 16 ∨ n = 24 ∨ n = 32 := by
  intro q hq
  rw [List.eq_of_mem_replicate hq]
  decide

theorem State.reset_cycle (c : Nat) : State.reset.cycle c = 0 := by
  have hcores : State.reset.cores = (List.range 256).map Core.reset := rfl
  unfold State.cycle
  split
  next k hk =>
    rw [hcores] at hk
    obtain ⟨i, -, rfl⟩ := List.mem_map.1 (List.mem_of_getElem? hk)
    rfl
  next => rfl

theorem State.reset_time (d : Nat) : State.reset.time d = 0 := by
  have hdies : State.reset.dies = List.replicate 4 Die.reset := rfl
  unfold State.time
  split
  next k hk =>
    rw [hdies] at hk
    rw [List.eq_of_mem_replicate (List.mem_of_getElem? hk)]
    rfl
  next => rfl

end Sys2Proof.Machine

/-! ## The obligations -/

open Sys2Proof.Machine

/-- Settles O6: the invariant speaks of the memories alone, and every turn, event and issue that has a next state keeps them in form. -/
theorem memoryKeepsCanonicalForm : Obligations.MemoryKeepsCanonicalForm := by
  intro s t hs ht
  exact (State.memWf_iff_mems t).2 (step_nextWf ((State.memWf_iff_mems s).1 hs) t ht)

/-- Settles O7: lists and memories are empty by definition; the fuses, cores and dies are copies of one reset value each. -/
theorem resetState : Obligations.ResetState :=
  ⟨⟨rfl, Fuses.mxcap_unharvested⟩, State.reset_wf, rfl, rfl, rfl, rfl, rfl, rfl, rfl,
    fun c _ => State.reset_cycle c, fun d _ => State.reset_time d⟩

end

section
/-! # Decoding and encoding agree (O3), and eight words written out (O4)

A word is its opcode and the fields of its format. Writing the fields of a form and reading them again gives the form; reading
the fields of a word whose reserved bits are zero and writing them again gives the word. The table of opcodes is then walked once in
each direction. -/

namespace Sys2Proof

/-! ## The formats -/

/-- The opcode of a word (R21). -/
def opcodeOf (w : Word96) : BitVec 10 := w.extractLsb' 86 10

/-- The fields of a word in the format of a form (R21). -/
def Form.reread (w : Word96) : Form → Form
  | .x _ => .x (.ofWord w)
  | .i _ => .i (.ofWord w)
  | .m _ => .m (.ofWord w)
  | .b _ => .b (.ofWord w)
  | .e _ => .e (.ofWord w)

theorem opcodeOf_append (op : BitVec 10) (rest : BitVec 86) : opcodeOf (op ++ rest) = op :=
  BitVec.extractLsb'_append_eq_left

theorem append_opcodeOf (w : Word96) : opcodeOf w ++ w.extractLsb' 0 86 = w := BitVec.extractLsb'_append_extractLsb'

theorem opcodeOf_toWord (op : BitVec 10) (f : Form) : opcodeOf (f.toWord op) = op := by
  unfold opcodeOf
  cases f <;> unfold Form.toWord <;> repeat rw [BitVec.extractLsb'_append_eq_of_le (by decide)]
  all_goals exact BitVec.extractLsb'_eq_self

/-- Fields written in a format and read again are the same fields. -/
theorem Form.reread_toWord (op : BitVec 10) (f : Form) : f.reread (f.toWord op) = f := by
  cases f with
  | x f | i f | m f | b f | e f =>
    cases f
    simp only [Form.reread, XForm.ofWord, IForm.ofWord, MForm.ofWord, BForm.ofWord, EForm.ofWord, Form.toWord, Form.x.injEq,
      Form.i.injEq, Form.m.injEq, Form.b.injEq, Form.e.injEq, XForm.mk.injEq, IForm.mk.injEq, MForm.mk.injEq, BForm.mk.injEq,
      EForm.mk.injEq]
    and_intros <;> repeat rw [BitVec.extractLsb'_append_eq_of_le (by decide)]
    all_goals exact BitVec.extractLsb'_append_eq_right

/-- Fields read from a word whose reserved bits are zero, and written again, are the word. -/
theorem Form.toWord_reread {w : Word96} {f : Form} (h : f.reservedOk w = true) : (f.reread w).toWord (opcodeOf w) = w := by
  cases f <;> simp only [Form.reservedOk, Bool.and_eq_true, beq_iff_eq] at h <;>
    simp only [Form.reread, Form.toWord, XForm.ofWord, IForm.ofWord, MForm.ofWord, BForm.ofWord, EForm.ofWord, opcodeOf]
  on_goal 1 => rw [show 0#1 = w.extractLsb' 25 1 from h.symm]
  on_goal 2 => rw [show 0#22 = w.extractLsb' 0 22 from h.symm]
  on_goal 4 => rw [show 0#1 = w.extractLsb' 72 1 from h.1.symm, show 0#21 = w.extractLsb' 24 21 from h.2.symm]
  on_goal 5 => rw [show 0#1 = w.extractLsb' 72 1 from h.1.symm, show 0#21 = w.extractLsb' 24 21 from h.2.symm]
  all_goals
    repeat rw [BitVec.extractLsb'_append_extractLsb'_eq_extractLsb' (by rfl)]
    exact BitVec.extractLsb'_eq_self

theorem Form.reservedOk_toWord (op : BitVec 10) (f : Form) : f.reservedOk (f.toWord op) = true := by
  cases f <;> simp only [Form.reservedOk, Bool.and_eq_true, beq_iff_eq] <;> unfold Form.toWord <;> and_intros <;>
    repeat rw [BitVec.extractLsb'_append_eq_of_le (by decide)]
  all_goals exact BitVec.extractLsb'_append_eq_right

/-! ## The table of opcodes -/

/-- What a word's opcode selects: an instruction of a format with that opcode, its fields those of the word; or one of the words
that raise Illegal instruction. -/
theorem instrOfWord_cases (w : Word96) :
    (∃ f, (instrOfWord w).form = some ((opcodeOf w).toNat, f) ∧ f.reread w = f ∧
      Instr.wellFormed.assignedOp (opcodeOf w).toNat = true) ∨
    (opcodeOf w).toNat = 0x000 ∧ instrOfWord w = .ill (w.extractLsb' 0 86) ∨
    (opcodeOf w).toNat = 0x3FF ∧ instrOfWord w = .ill3ff (w.extractLsb' 0 86) ∨
    instrOfWord w = .unassignedOpcode (opcodeOf w) (w.extractLsb' 0 86) := by
  unfold instrOfWord opcodeOf
  generalize (BitVec.extractLsb' 86 10 w).toNat = op
  split
  case h_1 => exact .inr (.inl ⟨rfl, rfl⟩)
  case h_2 => exact .inr (.inr (.inl ⟨rfl, rfl⟩))
  case h_154 => exact .inr (.inr (.inr rfl))
  -- opcode 0x211, which the two readings of MXSCL share
  case h_153 => split <;> exact .inl ⟨_, rfl, rfl, rfl⟩
  all_goals exact .inl ⟨_, rfl, rfl, rfl⟩

/-- Bit 8 of IMM is bit 8 of the word (R21). -/
theorem XForm.ofWord_imm_bit8 (w : Word96) : (XForm.ofWord w).imm.getLsbD 8 = w.getLsbD 8 := by
  simp [XForm.ofWord]

/-- A well-formed instruction is what its opcode selects in a word with its fields. -/
theorem instrOfWord_eq_of_form {i : Instr} {w : Word96} {op : Nat} {f : Form} (hf : i.form = some (op, f))
    (hi : i.wellFormed = true) (hop : opcodeOf w = BitVec.ofNat 10 op) (hw : f.reread w = f) : instrOfWord w = i := by
  unfold opcodeOf at hop
  cases i
  case mxscl x =>
    cases hf
    injection hw with hw
    have hbit : w.getLsbD 8 = false := by
      rw [← XForm.ofWord_imm_bit8, hw]
      simpa using (Bool.and_eq_true_iff.1 hi).2
    unfold instrOfWord
    rw [hop, hw, hbit]
    rfl
  case mxsclFill x =>
    cases hf
    injection hw with hw
    have hbit : w.getLsbD 8 = true := by
      rw [← XForm.ofWord_imm_bit8, hw]
      exact (Bool.and_eq_true_iff.1 hi).2
    unfold instrOfWord
    rw [hop, hw, hbit]
    rfl
  all_goals cases hf
  all_goals
    injection hw with hw
    unfold instrOfWord
    rw [hop, hw]
    rfl

/-- The words of opcode 0 (R54). -/
theorem instrOfWord_ill (rest : BitVec 86) : instrOfWord (0x000#10 ++ rest) = .ill rest := by
  unfold instrOfWord
  rw [show BitVec.extractLsb' 86 10 (0x000#10 ++ rest) = 0x000#10 from opcodeOf_append _ _]
  exact congrArg Instr.ill BitVec.extractLsb'_append_eq_right

/-- The words of the opcode all ones (R54). -/
theorem instrOfWord_ill3ff (rest : BitVec 86) : instrOfWord (0x3FF#10 ++ rest) = .ill3ff rest := by
  unfold instrOfWord
  rw [show BitVec.extractLsb' 86 10 (0x3FF#10 ++ rest) = 0x3FF#10 from opcodeOf_append _ _]
  exact congrArg Instr.ill3ff BitVec.extractLsb'_append_eq_right

/-- The words of an opcode that is not assigned (R64). -/
theorem instrOfWord_unassigned {op : BitVec 10} (h : Instr.wellFormed.assignedOp op.toNat = false) (rest : BitVec 86) :
    instrOfWord (op ++ rest) = .unassignedOpcode op rest := by
  have hrest : (op ++ rest).extractLsb' 0 86 = rest := BitVec.extractLsb'_append_eq_right
  have hw := instrOfWord_cases (op ++ rest)
  rw [opcodeOf_append, hrest, h] at hw
  obtain ⟨_, _, _, hop⟩ | ⟨hop, _⟩ | ⟨hop, _⟩ | hi := hw
  · cases hop
  · rw [hop] at h
    cases h
  · rw [hop] at h
    cases h
  · exact hi

/-! ## Both directions -/

/-- What decoding asks: the opcode's instruction, with the reserved bits of its format zero, well formed. -/
theorem decode_eq_ok_iff {w : Word96} {i : Instr} :
    decode w = .ok i ↔ instrOfWord w = i ∧ (∀ op f, i.form = some (op, f) → f.reservedOk w = true) ∧ i.wellFormed = true := by
  unfold decode
  generalize instrOfWord w = j
  constructor
  · intro h
    dsimp only at h
    split_ifs at h with hbit hfield
    cases h
    exact ⟨rfl, fun op f hf => by simpa [hf] using hbit, by simpa using hfield⟩
  · rintro ⟨rfl, hbit, hfield⟩
    cases hf : j.form with
    | none => simp [hf, hfield]
    | some p => simp [hf, hbit p.1 p.2 hf, hfield]

/-- The instructions of no format that are words. -/
theorem encode_of_form_none {i : Instr} {w : Word96} (hf : i.form = none) (h : encode i = some w) :
    (∃ rest, i = .ill rest ∧ w = 0x000#10 ++ rest) ∨ (∃ rest, i = .ill3ff rest ∧ w = 0x3FF#10 ++ rest) ∨
      ∃ op rest, i = .unassignedOpcode op rest ∧ w = op ++ rest := by
  cases i
  case ill rest => exact .inl ⟨rest, rfl, (Option.some.inj h).symm⟩
  case ill3ff rest => exact .inr (.inl ⟨rest, rfl, (Option.some.inj h).symm⟩)
  case unassignedOpcode op rest => exact .inr (.inr ⟨op, rest, rfl, (Option.some.inj h).symm⟩)
  all_goals cases hf <;> cases h

theorem decode_encode {i : Instr} {w : Word96} (hi : i.wellFormed = true) (h : encode i = some w) : decode w = .ok i := by
  cases hf : i.form with
  | some p =>
    obtain ⟨op, f⟩ := p
    obtain rfl : f.toWord (BitVec.ofNat 10 op) = w := by simpa [encode, hf] using h
    refine decode_eq_ok_iff.2
      ⟨instrOfWord_eq_of_form hf hi (opcodeOf_toWord _ f) (Form.reread_toWord _ f), fun op' f' hf' => ?_, hi⟩
    rw [hf] at hf'
    cases hf'
    exact Form.reservedOk_toWord _ f
  | none =>
    refine decode_eq_ok_iff.2 ⟨?_, fun op f hf' => by simp [hf] at hf', hi⟩
    obtain ⟨rest, rfl, rfl⟩ | ⟨rest, rfl, rfl⟩ | ⟨op, rest, rfl, rfl⟩ := encode_of_form_none hf h
    · exact instrOfWord_ill rest
    · exact instrOfWord_ill3ff rest
    · have hop : Instr.wellFormed.assignedOp op.toNat = false := by simpa using (Bool.and_eq_true_iff.1 hi).2
      exact instrOfWord_unassigned hop rest

theorem encode_instrOfWord {w : Word96} (h : ∀ op f, (instrOfWord w).form = some (op, f) → f.reservedOk w = true) :
    encode (instrOfWord w) = some w := by
  obtain ⟨f, hf, hw, -⟩ | ⟨hop, hi⟩ | ⟨hop, hi⟩ | hi := instrOfWord_cases w
  · have hword : f.toWord (opcodeOf w) = w := by simpa only [hw] using Form.toWord_reread (h _ _ hf)
    simp [encode, hf, hword]
  · rw [hi]
    exact congrArg some ((BitVec.eq_of_toNat_eq hop : opcodeOf w = 0x000#10) ▸ append_opcodeOf w)
  · rw [hi]
    exact congrArg some ((BitVec.eq_of_toNat_eq hop : opcodeOf w = 0x3FF#10) ▸ append_opcodeOf w)
  · rw [hi]
    exact congrArg some (append_opcodeOf w)

end Sys2Proof

open Sys2Proof

/-- Settles O3: the table of opcodes is read in one direction by its rows, in the other by the opcode of the word. -/
theorem encodingRoundTrip : Obligations.EncodingRoundTrip := by
  refine ⟨fun i w hi h => decode_encode hi h, fun i w h => ?_⟩
  obtain ⟨rfl, hres, hwf⟩ := decode_eq_ok_iff.1 h
  exact ⟨hwf, encode_instrOfWord hres⟩

/-- Settles O4: each word is the encoding of its instruction. -/
theorem writtenWordsDecode : Obligations.WrittenWordsDecode :=
  ⟨decode_encode rfl rfl, decode_encode rfl rfl, decode_encode rfl rfl, decode_encode rfl rfl, decode_encode rfl rfl,
    decode_encode rfl rfl, decode_encode rfl rfl, decode_encode rfl rfl⟩

end

section
/-! # What completion adds to an effect (O8) -/

namespace Sys2Proof.Machine

/-! ## Addresses in sequence -/

/-- An address is its line base and its offset in the line (R15). -/
theorem lineBase_add_offset (a : W64) : lineBase a + (a &&& 63#64) = a := by
  unfold lineBase
  rw [BitVec.add_eq_or_of_and_eq_zero]
  · ext i hi
    simp only [BitVec.getElem_or, BitVec.getElem_and, BitVec.getElem_not]
    cases a[i] <;> simp
  · ext i hi
    simp only [BitVec.getElem_and, BitVec.getElem_not, BitVec.getElem_zero]
    cases a[i] <;> simp

/-- The last slot of a line is at byte 52 (R15). -/
theorem slotOf_eq_four_iff (a : W64) : slotOf a = some 4 ↔ a &&& 63#64 = 52#64 := by
  rw [← BitVec.toNat_inj]
  unfold slotOf
  split <;> simp_all

/-- The address in sequence is the next slot, or slot 0 of the next line (R16). -/
theorem nextPc_eq (a : W64) : nextPc a = if slotOf a = some 4 then lineBase a + 68 else a + 12 := by
  unfold nextPc
  simp only [slotOf_eq_four_iff]
  split
  next h =>
    have ha := lineBase_add_offset a
    rw [h] at ha
    calc a + 16#64 = lineBase a + 52#64 + 16#64 := by rw [ha]
      _ = lineBase a + 68 := BitVec.add_assoc ..
  next => rfl

/-! ## The threads of the path -/

/-- The group that an update makes of a group looked up. -/
theorem State.group_mod_self {s : State} {k : Nat} {g : Group} {f : Group → Group} (h : s.group? k = some g) (hf : (f g).gid = g.gid) :
    (s.modGroup k f).group? k = some (f g) := by
  rw [State.group_mod, if_pos rfl, h, Option.map_some, ← State.gid_of_group h, ← hf]

theorem Group.modThreads_getElem? (g : Group) (p : Nat → Bool) (f : Nat → Thread → Thread) (h : Nat) :
    (g.modThreads p f).threads[h]? = (g.threads[h]?).map (fun x => if p h then f h x else x) := by
  simp [Group.modThreads, List.getElem?_mapIdx]

@[simp] theorem Group.modThreads_length (g : Group) (p : Nat → Bool) (f : Nat → Thread → Thread) :
    (g.modThreads p f).threads.length = g.threads.length := by
  simp [Group.modThreads]

/-- The group after completion: the threads of the path have moved on. -/
theorem Ctx.completes_group {c : Ctx} {r : Res} {g : Group} (h : r.s.group? c.g.gid = some g) :
    (c.completes r).group? c.g.gid = some (g.modThreads (laneIn c.part.mask) (c.advance r)) :=
  State.group_mod_self h rfl

theorem Ctx.completes_onlyGroup (c : Ctx) (r : Res) : r.s.onlyGroup (c.completes r) c.g.gid :=
  ⟨State.mod_only _ _ _, fun k hk => by simp only [Ctx.completes, State.group_mod, if_neg hk]⟩

@[simp] theorem Ctx.advance_exited (c : Ctx) (r : Res) (h : Nat) {x : Thread} (he : x.exited = true) : c.advance r h x = x := by
  simp [Ctx.advance, he]

/-- A live thread of the path moves on: to its target if it has one, else in sequence. -/
theorem Ctx.advance_live (c : Ctx) (r : Res) (h : Nat) {x : Thread} (he : x.exited = false) :
    c.advance r h x = { x with
      pc := ((r.pcs.find? (fun p => p.1 == h)).map (·.2)).getD (nextPc c.pc)
      latches := c.newLatches r h x.latches
      lastLine := some (lineBase c.pc)
      arrival := if (r.pcs.find? (fun p => p.1 == h)).isSome then .transfer c.pc else .sequence
      lastIssue := c.s.tick } := by
  simp only [Ctx.advance, he, Bool.false_eq_true, if_false]
  cases r.pcs.find? (fun p => p.1 == h) <;> rfl

end Sys2Proof.Machine

open Sys2Proof Sys2Proof.Machine

/-- Settles O8: a live thread of the path has its new counter, latches, line and recency, every other thread is as it was. -/
theorem issuedPathMovesOn : Obligations.IssuedPathMovesOn := by
  intro s i c r _
  refine ⟨c.completes_onlyGroup r, fun g hg => ⟨_, Ctx.completes_group hg, rfl, Group.modThreads_length _ _ _, ?_⟩⟩
  intro h x y hx hy
  rw [Group.modThreads_getElem?, hx, Option.map_some, Option.some.injEq] at hy
  subst hy
  constructor
  · rintro (hm | he)
    · simp [hm]
    · simp [he]
  · intro hm he
    rw [if_pos hm, c.advance_live r h he]
    refine ⟨rfl, fun a ha => by simp [ha], fun hn => by simp [hn, nextPc_eq], ?_⟩
    unfold Ctx.newLatches
    and_intros
    · intro hc; simp [hc]
    · intro hc hl h2
      rcases h2 with h2 | h2 <;> simp [hc, hl, h2]
    · intro hc hl h2 h3; simp [hc, hl, h2, h3, Latches.keepFirst]
    · intro hc hl h2; simp [hc, hl, h2]
    · intro hc hl h2; simp [hc, hl, h2]

end

section
/-! # Where lane results land (O9) -/

namespace Sys2Proof.Machine

/-! ## Parity marks after a write -/

/-- The indices of the writes of one lane (R29). -/
theorem vWrites_all_ne (wide : Bool) (h n : Nat) (v : W64) (m : Nat) :
    (vWrites wide h n v).all (fun p => p.1 != m) = true ↔ h * 256 + n ≠ m ∧ (wide = true → h * 256 + n + 1 ≠ m) := by
  cases wide <;> simp [vWrites]

/-- A v register written has lost its parity error (R256). -/
theorem mem_badV_writeDest (g : Group) (wide : Bool) (d : Nat) (l : List Nat) (v : Nat → W64) (m : Nat)
    (hw : wide = true → d ≠ 0xFF) :
    m ∈ (g.writeDest wide d (l.map (fun k => (k, v k)))).badV ↔
      m ∈ g.badV ∧ ¬(m / 256 ∈ l ∧ (d = m % 256 ∨ wide = true ∧ d + 1 = m % 256)) := by
  unfold Group.writeDest
  split
  next hd =>
    simp only [Group.setVregs, List.mem_filter, List.all_flatMap, List.all_map]
    rw [List.all_eq_true]
    simp only [Function.comp_apply, vWrites_all_ne]
    refine and_congr_right fun _ => ⟨fun hall ⟨hl, hm⟩ => ?_, fun hnot k hk => ⟨fun hm => ?_, fun hwide hm => ?_⟩⟩
    · obtain ⟨hlow, hhigh⟩ := hall _ hl
      rcases hm with hm | ⟨hwide, hm⟩
      · omega
      · have := hhigh hwide
        omega
    · exact hnot ⟨by rwa [show m / 256 = k by omega], by omega⟩
    · have := hw hwide
      exact hnot ⟨by rwa [show m / 256 = k by omega], .inr ⟨hwide, by omega⟩⟩
  next hd =>
    have hbad : ∀ g' : Group, g'.badV = g.badV → (m ∈ g'.badV ↔
        m ∈ g.badV ∧ ¬(m / 256 ∈ l ∧ (d = m % 256 ∨ wide = true ∧ d + 1 = m % 256))) :=
      fun g' h => h ▸ (and_iff_left (by omega)).symm
    split_ifs
    · cases l <;> exact hbad _ rfl
    · exact hbad _ rfl
    · exact hbad _ rfl

/-- An s register written has lost its parity error (R256). -/
theorem mem_badS_writeDest (g : Group) (wide : Bool) (d : Nat) (l : List Nat) (v : Nat → W64) (m : Nat) (hm : m < 64) :
    m ∈ (g.writeDest wide d (l.map (fun k => (k, v k)))).badS ↔ m ∈ g.badS ∧ ¬(l ≠ [] ∧ d = 0x100 + m) := by
  unfold Group.writeDest
  split_ifs with hv hs hp
  · simp only [Group.setVregs]
    refine (and_iff_left ?_).symm
    omega
  · cases l with
    | nil => simp
    | cons k t =>
      simp [Group.setSreg]
      omega
  · exact (and_iff_left (by omega)).symm
  · exact (and_iff_left (by omega)).symm

theorem writeDest_nil (g : Group) (wide : Bool) (d : Nat) :
    (g.writeDest wide d []).vregs = g.vregs ∧ (g.writeDest wide d []).sregs = g.sregs := by
  unfold Group.writeDest
  split_ifs <;> exact ⟨rfl, rfl⟩

/-! ## The value that D takes -/

theorem and_ones_eq_setWidth (x : W64) : x &&& 0xFFFFFFFF = (x.setWidth 32).setWidth 64 := by
  apply BitVec.eq_of_toNat_eq
  rw [BitVec.toNat_and, show (0xFFFFFFFF : W64).toNat = 2 ^ 32 - 1 from rfl, Nat.and_two_pow_sub_one_eq_mod]
  simp only [BitVec.toNat_setWidth]
  omega

/-- A register takes 32 bits, or 64 as a pair or an s register of a 64-bit type (R29, R33). -/
theorem Ctx.fit_reg {c : Ctx} (h : ¬(0x144 ≤ c.fieldCode 0 ∧ c.fieldCode 0 < 0x14C)) (x : W64) :
    c.fit x = if c.dWide then x else (x.setWidth 32).setWidth 64 := by
  simp only [Ctx.fit, if_neg h, and_ones_eq_setWidth]

/-- A predicate takes bit 0 (R29). -/
theorem Ctx.fit_bit0 (c : Ctx) (x : W64) : (c.fit x).getLsbD 0 = x.getLsbD 0 := by
  simp only [Ctx.fit]
  split_ifs <;> simp

/-! ## The group after the writes of an instruction -/

/-- The result of a lane: that of the first active lane for a scalar instruction (R33). -/
def Ctx.laneOut (c : Ctx) (f : Nat → LaneOut) (h : Nat) : LaneOut := if c.i.scalar then f ((c.act.head?).getD 0) else f h

/-- The value that a register takes from the result of a lane (R29). -/
def Ctx.dValue (c : Ctx) (f : Nat → LaneOut) (h : Nat) : W64 :=
  if c.dWide then (c.laneOut f h).val else ((c.laneOut f h).val.setWidth 32).setWidth 64

/-- The group with D written, its flags still to be recorded. -/
def Ctx.wrote (c : Ctx) (f : Nat → LaneOut) : Group :=
  if c.noWrite then c.g
  else c.g.writeDest c.dWide (c.fieldCode 0) (c.act.map (fun h => (h, c.fit (c.laneOut f h).val)))

theorem Ctx.write_outs (c : Ctx) (f : Nat → LaneOut) :
    c.write (c.outs f) c.g = (c.wrote f).orFpstat (c.act.map (fun h => (h, c.laneOut f h))) := by
  simp only [Ctx.write, Ctx.outs_eq, List.map_map]
  rfl

/-- What D's write leaves of a group, and what recording flags leaves. -/
theorem Ctx.wrote_frame (c : Ctx) (f : Nat → LaneOut) :
    { c.wrote f with vregs := c.g.vregs, sregs := c.g.sregs, threads := c.g.threads, badV := c.g.badV, badS := c.g.badS } = c.g := by
  unfold Ctx.wrote
  split
  · rfl
  · exact writeDest_frame ..

/-- A thread with flags recorded (R127). -/
def Thread.addFlags (x : Thread) (w : Flags) : Thread := { x with fpstat := x.fpstat ||| w }

@[simp] theorem Thread.addFlags_fpstat (x : Thread) (w : Flags) : (x.addFlags w).fpstat = x.fpstat ||| w := rfl
@[simp] theorem Thread.addFlags_pred (x : Thread) (w : Flags) (q : Nat) : (x.addFlags w).pred q = x.pred q := rfl

@[simp] theorem Thread.setPred_fpstat (x : Thread) (n : Nat) (b : Bool) : (x.setPred n b).fpstat = x.fpstat := by
  unfold Thread.setPred; split <;> rfl

/-- The thread of a lane as the write leaves it: a predicate of an active lane is set, and its flags are recorded. -/
def Ctx.laneWrote (c : Ctx) (f : Nat → LaneOut) (h : Nat) (x : Thread) : Thread :=
  if h ∈ c.act then
    (if c.noWrite = false ∧ 0x144 ≤ c.fieldCode 0 ∧ c.fieldCode 0 < 0x14C
      then x.setPred (c.fieldCode 0 - 0x144) ((c.laneOut f h).val.getLsbD 0) else x).addFlags (c.laneOut f h).flags
  else x

theorem Ctx.write_thread (c : Ctx) (f : Nat → LaneOut) (h : Nat) :
    ((c.wrote f).orFpstat (c.act.map (fun h => (h, c.laneOut f h)))).threads[h]? =
      (c.g.threads[h]?).map (c.laneWrote f h) := by
  rw [orFpstat_thread]
  unfold Ctx.wrote Ctx.laneWrote
  by_cases hact : h ∈ c.act
  · cases hw : c.noWrite
    · simp only [hact, true_and, if_true, Bool.false_eq_true, if_false, writeDest_thread, Ctx.fit_bit0]
      cases c.g.threads[h]? <;> simp only [Option.map_none, Option.map_some, ite_self]
      split_ifs <;> rfl
    · simp only [hact, if_true, Bool.true_eq_false, false_and, if_false]
      rfl
  · cases hw : c.noWrite <;> simp [hact, writeDest_thread]

/-- The group in which the results have landed. -/
def Ctx.landed (c : Ctx) (f : Nat → LaneOut) : Group :=
  ((c.wrote f).orFpstat (c.act.map (fun h => (h, c.laneOut f h)))).modThreads (laneIn c.part.mask)
    (c.advance { s := c.s.modGroup c.g.gid (c.write (c.outs f)), vals := c.latchVals (c.outs f) })

theorem Ctx.lands_group {c : Ctx} {f : Nat → LaneOut} (h : c.s.group? c.g.gid = some c.g) :
    (c.lands f).group? c.g.gid = some (c.landed f) := by
  have hgid : (c.write (c.outs f) c.g).gid = c.g.gid := by
    rw [c.write_outs]
    have hframe := congrArg Group.gid (c.wrote_frame f)
    exact hframe
  rw [Ctx.landed, ← c.write_outs f]
  exact Ctx.completes_group (State.group_mod_self h hgid)

theorem Ctx.landed_thread (c : Ctx) (f : Nat → LaneOut) (h : Nat) :
    (c.landed f).threads[h]? = (c.g.threads[h]?).map (fun x =>
      if laneIn c.part.mask h then c.advance { s := c.s.modGroup c.g.gid (c.write (c.outs f)), vals := c.latchVals (c.outs f) } h
        (c.laneWrote f h x) else c.laneWrote f h x) := by
  rw [Ctx.landed, Group.modThreads_getElem?, c.write_thread, Option.map_map]
  rfl

theorem Ctx.lands_onlyGroup (c : Ctx) (f : Nat → LaneOut) : c.s.onlyGroup (c.lands f) c.g.gid := by
  obtain ⟨_, hother⟩ := c.completes_onlyGroup { s := c.s.modGroup c.g.gid (c.write (c.outs f)), vals := c.latchVals (c.outs f) }
  exact ⟨rfl, fun k hk => (hother k hk).trans (by simp only [State.group_mod, if_neg hk])⟩

/-- An active lane is a lane of the path, below the group's width, whose thread has not exited (R28). -/
theorem Ctx.mem_act {c : Ctx} {h : Nat} (hm : h ∈ c.act) :
    laneIn c.part.mask h = true ∧ h < c.g.width ∧ ∀ x, c.g.threads[h]? = some x → x.exited = false := by
  simp only [Ctx.act, Ctx.path, lanesOf, List.mem_filter, List.mem_range] at hm
  obtain ⟨⟨hw, hl⟩, hx⟩ := hm
  refine ⟨hl, hw, fun x he => ?_⟩
  rw [he] at hx
  simp at hx
  exact hx.2

/-- A scalar instruction executes once for its path (R33). -/
theorem Instr.once_of_scalar {i : Instr} (h : i.scalar = true) : i.once = true := by
  unfold Instr.scalar at h
  unfold Instr.once
  split <;> simp_all

/-- The latch result of a lane (R33, R35). -/
theorem Ctx.latchVals_find (c : Ctx) (f : Nat → LaneOut) (h : Nat) :
    ((c.latchVals (c.outs f)).find? (fun p => p.1 == h)).map (·.2) =
      if c.i.once = true then if h ∈ c.path ∧ c.act ≠ [] then some (c.fit (f ((c.act.head?).getD 0)).val) else none
      else if h ∈ c.act then some (c.fit (f h).val) else none := by
  have hlane (l : List Nat) (v : Nat → W64) :
      ((l.map (fun k => (k, v k))).find? (fun p => p.1 == h)).map (·.2) = if h ∈ l then some (v h) else none := by
    rw [find_lane]
    split <;> rfl
  unfold Ctx.latchVals
  rw [c.outs_eq]
  cases honce : c.i.once with
  | true =>
    cases hact : c.act with
    | nil => simp
    | cons a t =>
      simp only [if_true, List.map_cons, List.head?_cons, Option.getD_some, ite_self, ne_eq, reduceCtorEq, not_false_eq_true, and_true]
      exact hlane c.path (fun _ => c.fit (f a).val)
  | false =>
    have hs : c.i.scalar = false := by
      cases h : c.i.scalar with
      | false => rfl
      | true => rw [Instr.once_of_scalar h] at honce; cases honce
    simp only [hs, Bool.false_eq_true, if_false, List.map_map]
    exact hlane c.act (fun k => c.fit (f k).val)

/-! ### Registers -/

theorem Ctx.mem_badV_wrote (c : Ctx) (f : Nat → LaneOut) (hpair : c.dWide = true → c.fieldCode 0 ≠ 0xFF) (m : Nat) :
    m ∈ (c.wrote f).badV ↔ m ∈ c.g.badV ∧
      ¬((m / 256 ∈ c.act ∧ c.noWrite = false) ∧ (c.fieldCode 0 = m % 256 ∨ c.dWide = true ∧ c.fieldCode 0 + 1 = m % 256)) := by
  unfold Ctx.wrote
  cases c.noWrite with
  | true => simp
  | false => simp [mem_badV_writeDest _ _ _ _ _ _ hpair]

theorem Ctx.mem_badS_wrote (c : Ctx) (f : Nat → LaneOut) {m : Nat} (hm : m < 64) :
    m ∈ (c.wrote f).badS ↔ m ∈ c.g.badS ∧ ¬(c.act ≠ [] ∧ c.noWrite = false ∧ c.fieldCode 0 = 0x100 + m) := by
  unfold Ctx.wrote
  cases c.noWrite with
  | true => simp
  | false => simp [mem_badS_writeDest _ _ _ _ _ _ hm]

theorem Ctx.wrote_vreg (c : Ctx) (f : Nat → LaneOut) (hpair : c.dWide = true → c.fieldCode 0 ≠ 0xFF) (h : Nat) {n : Nat}
    (hn : n < 256) :
    (c.wrote f).vreg h n =
      if (h ∈ c.act ∧ c.noWrite = false) ∧ c.fieldCode 0 = n then (c.dValue f h).setWidth 32
      else if (h ∈ c.act ∧ c.noWrite = false) ∧ c.dWide = true ∧ c.fieldCode 0 + 1 = n then (c.dValue f h >>> 32).setWidth 32
      else c.g.vreg h n := by
  unfold Ctx.wrote
  cases c.noWrite with
  | true => simp
  | false =>
    simp only [Bool.false_eq_true, if_false, and_true, writeDest_vreg _ _ _ _ _ _ _ hn hpair]
    by_cases hd : c.fieldCode 0 < 256
    · rw [Ctx.fit_reg (by omega)]
      simp only [hd, and_true]
      rfl
    · simp only [show ¬c.fieldCode 0 = n by omega, show ¬c.fieldCode 0 + 1 = n by omega, and_false, false_and, if_false]

theorem Ctx.wrote_sreg (c : Ctx) (f : Nat → LaneOut) {h n : Nat} (hn : n < 64) (hh : c.act.head? = some h) :
    (c.wrote f).sreg n = if c.noWrite = false ∧ c.fieldCode 0 = 0x100 + n then c.dValue f h else c.g.sreg n := by
  unfold Ctx.wrote
  cases c.noWrite with
  | true => simp
  | false =>
    simp only [Bool.false_eq_true, if_false, true_and, writeDest_sreg _ _ _ _ _ _ _ hn hh]
    split
    next hd => rw [Ctx.fit_reg (by omega)]; rfl
    next => rfl

theorem Ctx.wrote_nil {c : Ctx} (h : c.act = []) (f : Nat → LaneOut) :
    (c.wrote f).vregs = c.g.vregs ∧ (c.wrote f).sregs = c.g.sregs := by
  unfold Ctx.wrote
  rw [h]
  split
  · exact ⟨rfl, rfl⟩
  · exact writeDest_nil ..

/-- Landed results touch registers with their parity marks, and threads, only. -/
theorem Ctx.landed_frame (c : Ctx) (f : Nat → LaneOut) :
    { c.landed f with vregs := c.g.vregs, sregs := c.g.sregs, threads := c.g.threads, badV := c.g.badV, badS := c.g.badS } = c.g := by
  refine Eq.trans ?_ (c.wrote_frame f)
  unfold Ctx.landed
  generalize c.wrote f = g
  rfl

/-! ### Threads -/

theorem Ctx.laneWrote_idle {c : Ctx} {h : Nat} (hm : h ∉ c.act) (f : Nat → LaneOut) (x : Thread) : c.laneWrote f h x = x :=
  if_neg hm

/-- The write of a lane touches predicates and FPSTAT of its thread only. -/
theorem Ctx.laneWrote_frame (c : Ctx) (f : Nat → LaneOut) (h : Nat) (x : Thread) :
    { c.laneWrote f h x with preds := x.preds, fpstat := x.fpstat } = x := by
  unfold Ctx.laneWrote
  split_ifs
  · unfold Thread.setPred; split <;> rfl
  · rfl
  · rfl

theorem Ctx.laneWrote_exited (c : Ctx) (f : Nat → LaneOut) (h : Nat) (x : Thread) : (c.laneWrote f h x).exited = x.exited := by
  have hframe := congrArg Thread.exited (c.laneWrote_frame f h x)
  exact hframe

theorem Ctx.laneWrote_latches (c : Ctx) (f : Nat → LaneOut) (h : Nat) (x : Thread) :
    (c.laneWrote f h x).latches = x.latches := by
  have hframe := congrArg Thread.latches (c.laneWrote_frame f h x)
  exact hframe

theorem Ctx.laneWrote_fpstat (c : Ctx) (f : Nat → LaneOut) (h : Nat) (x : Thread) :
    (c.laneWrote f h x).fpstat = if h ∈ c.act then x.fpstat ||| (c.laneOut f h).flags else x.fpstat := by
  unfold Ctx.laneWrote
  split_ifs <;> simp

theorem Ctx.laneWrote_pred (c : Ctx) (f : Nat → LaneOut) (h : Nat) (x : Thread) {q : Nat} (hq : q < 7) :
    (c.laneWrote f h x).pred q =
      if (h ∈ c.act ∧ c.noWrite = false) ∧ c.fieldCode 0 = 0x144 + q then (c.dValue f h).getLsbD 0 else x.pred q := by
  have hbit : (c.dValue f h).getLsbD 0 = (c.laneOut f h).val.getLsbD 0 := by
    unfold Ctx.dValue
    split <;> simp
  rw [hbit]
  unfold Ctx.laneWrote
  split_ifs with hact hd ho ho ho
  · rw [Thread.addFlags_pred, setPred_pred _ _ _ _ hq (by omega), if_pos (by omega)]
  · rw [Thread.addFlags_pred, setPred_pred _ _ _ _ hq (by omega), if_neg (fun e => ho ⟨⟨hact, hd.1⟩, by omega⟩)]
  · exact absurd ⟨ho.1.2, by omega, by omega⟩ hd
  · rw [Thread.addFlags_pred]
  · exact absurd ho.1.1 hact
  · rfl

theorem Thread.pred_of_preds {x y : Thread} (h : x.preds = y.preds) (q : Nat) : x.pred q = y.pred q := by
  rw [Thread.pred, h, Thread.pred]

theorem Ctx.advance_preds (c : Ctx) (r : Res) (h : Nat) (x : Thread) : (c.advance r h x).preds = x.preds := by
  unfold Ctx.advance; split <;> rfl

theorem Ctx.advance_fpstat (c : Ctx) (r : Res) (h : Nat) (x : Thread) : (c.advance r h x).fpstat = x.fpstat := by
  unfold Ctx.advance; split <;> rfl

theorem Ctx.advance_latches (c : Ctx) (r : Res) (h : Nat) {x : Thread} (he : x.exited = false) :
    (c.advance r h x).latches = c.newLatches r h x.latches := by
  rw [c.advance_live r h he]

/-- The latches of a thread of the path after a word with a result that is not of the long class (R33, R35). -/
theorem Ctx.newLatches_lands (c : Ctx) (f : Nat → LaneOut) {h : Nat} (hlong : c.sh.long = false) (hres : c.sh.result = true)
    (hpath : h ∈ c.path) (l : Latches) :
    let l' := c.newLatches { s := c.s.modGroup c.g.gid (c.write (c.outs f)), vals := c.latchVals (c.outs f) } h l
    (h ∈ c.act ∨ c.i.once = true ∧ c.act ≠ [] →
      l' = l.push (some (c.fit (if c.i.once then f ((c.act.head?).getD 0) else f h).val))) ∧
    (h ∉ c.act → c.i.once = false ∨ c.act = [] → l' = l.push none) := by
  simp only [Ctx.newLatches, hlong, hres, Bool.false_eq_true, if_false, if_true, c.latchVals_find f h, hpath, true_and]
  cases honce : c.i.once with
  | true =>
    refine ⟨fun hin => ?_, fun _ hno => ?_⟩
    · have hne : c.act ≠ [] := hin.elim List.ne_nil_of_mem And.right
      simp [hne]
    · have hnil : c.act = [] := hno.resolve_left (fun e => Bool.false_ne_true e.symm)
      simp [hnil]
  | false =>
    refine ⟨fun hin => ?_, fun hout _ => ?_⟩
    · have hact : h ∈ c.act := hin.resolve_right (fun e => Bool.false_ne_true e.1)
      simp [hact]
    · simp [hout]

/-- A live thread of the path of which only predicates and FPSTAT had been written moves on in sequence (R15, R16). -/
theorem Ctx.advance_movesOn {c : Ctx} {r : Res} {h : Nat} {x y : Thread} (hr : r.pcs = [])
    (hy : { y with preds := x.preds, fpstat := x.fpstat } = x) (he : y.exited = false) : c.movesOn x (c.advance r h y) := by
  rw [c.advance_live r h he, hr]
  unfold Ctx.movesOn
  rw [← hy]
  rfl

end Sys2Proof.Machine

open Sys2Proof Sys2Proof.Machine

/-- Settles O9: the group is the one that the write leaves, its path moved on; each clause reads one part of it. -/
theorem laneResultsLand : Obligations.LaneResultsLand := by
  intro s i c f hi hpair
  obtain ⟨rfl, rfl, hg, hgid, -⟩ := State.issues_ctx hi
  rw [← hgid] at hg
  refine ⟨c.lands_onlyGroup f, _, Ctx.lands_group hg, c.landed_frame f, c.mem_badV_wrote f hpair, fun m hm => c.mem_badS_wrote f hm,
    fun h n hn => ?_, fun n hn h hh => ?_, fun hact => Ctx.wrote_nil hact f, fun h hm => ?_, fun h x y hwidth hm hx hy => ?_⟩
  · change (_ → (c.wrote f).vreg h n = _) ∧ (_ → (c.wrote f).vreg h n = _) ∧ (_ → (c.wrote f).vreg h n = _)
    rw [c.wrote_vreg f hpair h hn]
    refine ⟨fun hw => if_pos hw, fun ⟨hw, hwide, hd⟩ => ?_, fun hw => ?_⟩
    · rw [if_neg (by omega), if_pos ⟨hw, hwide, hd⟩]
      rfl
    · rw [if_neg (fun e => hw ⟨e.1, .inl e.2⟩), if_neg (fun e => hw ⟨e.1, .inr e.2⟩)]
  · change (_ → (c.wrote f).sreg n = _) ∧ (_ → (c.wrote f).sreg n = _)
    rw [c.wrote_sreg f hn hh]
    exact ⟨fun hw => if_pos hw, fun hw => if_neg hw⟩
  · have hact : h ∉ c.act := fun ha => by rw [(Ctx.mem_act ha).1] at hm; cases hm
    rw [c.landed_thread]
    simp [hm, Ctx.laneWrote_idle hact]
  · rw [c.landed_thread, hx, Option.map_some, if_pos hm, Option.some.injEq] at hy
    subst hy
    refine ⟨fun he => ?_, fun he => ?_⟩
    · have hact : h ∉ c.act := fun ha => by rw [(Ctx.mem_act ha).2.2 x hx] at he; cases he
      rw [Ctx.laneWrote_idle hact, Ctx.advance_exited _ _ _ he]
    · have hlive : (c.laneWrote f h x).exited = false := (c.laneWrote_exited f h x).trans he
      have hpath : h ∈ c.path := by simp [Ctx.path, lanesOf, hwidth, hm]
      refine ⟨Ctx.advance_movesOn rfl (c.laneWrote_frame f h x) hlive, ?_, fun q hq => ?_, fun hlong hres => ?_⟩
      · rw [c.advance_fpstat]
        exact c.laneWrote_fpstat f h x
      · rw [Thread.pred_of_preds (c.advance_preds _ h _) q, c.laneWrote_pred f h x hq]
        exact ⟨fun hw => if_pos hw, fun hw => if_neg hw⟩
      · rw [c.advance_latches _ h hlive, c.laneWrote_latches]
        exact c.newLatches_lands f hlong hres hpath x.latches

end

section
/-! # TRAP, SYSCALL and BKPT (O23) -/

namespace Sys2Proof.Machine

/-- An effect that leaves the group's single step alone moves the path on (R427). -/
theorem State.finish_of_issues {s : State} {i : Instr} {c : Ctx} {r : Res} (h : s.issues i = some c) (hk : r.keep = false)
    (hg : (r.s.group? c.g.gid).map Group.stepPath = (s.group? c.g.gid).map Group.stepPath) : c.finish r = c.completes r := by
  obtain ⟨-, -, hgrp, hgid, -⟩ := State.issues_ctx h
  obtain ⟨-, -, -, -, -, hstep⟩ := State.issues_iff h
  refine Ctx.finish_of hk fun g' hg' => ?_
  rw [← hgid] at hgrp
  cases hr : r.s.group? c.g.gid with
  | none => simp [Ctx.completes, State.group_mod, hr] at hg'
  | some g =>
    rw [Ctx.completes_group hr, Option.some.injEq] at hg'
    rw [hr, hgrp, Option.map_some, Option.map_some, hstep, Option.some.injEq] at hg
    rw [← hg']
    exact hg

/-- A word that only moves on. -/
theorem issueWord_of_idle {s : State} {i : Instr} {c : Ctx} {sem : Ctx → Except TrapInfo Res} (h : s.issues i = some c)
    (hsem : sem c = .ok { s := c.s }) : done s (issueWord i sem s) = .next (c.completes { s := s }) := by
  obtain ⟨rfl, -⟩ := State.issues_ctx h
  rw [issueWord_of sem h, hsem, done_eq]
  exact congrArg (fun t => Host.Outcome.next (State.fused t c.s)) (State.finish_of_issues h rfl rfl)

/-- A word that traps. -/
theorem issueWord_of_error {s : State} {i : Instr} {c : Ctx} {sem : Ctx → Except TrapInfo Res} {t : TrapInfo}
    (h : s.issues i = some c) (hsem : sem c = .error t) : done s (issueWord i sem s) = .next ((c.traps t).fused s) := by
  rw [issueWord_of sem h, hsem, done_eq]

/-- A word that moves on without an active lane, and traps with one. -/
theorem issueWord_of_trap {s : State} {i : Instr} {c : Ctx} {sem : Ctx → Except TrapInfo Res} {t : TrapInfo}
    (h : s.issues i = some c) (hsem : sem c = if c.act = [] then .ok { s := c.s } else .error t) :
    done s (issueWord i sem s) = .next (if c.act = [] then c.completes { s := s } else (c.traps t).fused s) := by
  split_ifs at hsem ⊢
  · exact issueWord_of_idle h hsem
  · exact issueWord_of_error h hsem

end Sys2Proof.Machine

open Sys2Proof Sys2Proof.Machine

/-- Settles O23: the three words differ in the trap they build, and SYSCALL in its class. -/
theorem softwareTraps : Obligations.SoftwareTraps := by
  intro x
  refine ⟨fun s c h => issueWord_of_trap h ?_, fun s c h => issueWord_of_trap h ?_, fun s c h => issueWord_of_trap h rfl⟩
  all_goals
    obtain ⟨-, -, -, -, hsh, -⟩ := State.issues_ctx h
    have hlong := congrArg Shape.long (Option.some.inj hsh)
    simp only [softTrap, ← hlong]
    rfl

end

section
/-! # Loads, stores and atomics (O31): the entry of a saved group

`AccessesIssue` says that an access takes a log entry which no operation of its partition's log holds. A saved group's operations keep their
core and entry in its image, and its entries are free to the groups that issue there meanwhile (R369, R412): `State.freeEntries` leaves
them out. So a load beside a saved group that has a logged load takes the very entry which that one names. -/

namespace Sys2Proof.Machine

/-- LD v4, [v8 + v12], of 4 bytes. -/
def plainLoad : Instr := .ld ⟨0, 7, 4, 0, 8, 12, 511, 0, 0, 0, 0, 0⟩

/-- A logged load of group 6, which issued on core 0 and holds entry 0 of its partition's operand log. -/
def savedLoad : MemOp where
  id := 0
  gid := 6
  core := 0
  ipart := 0
  entry := 0
  pc := 0x10004
  instr := plainLoad
  asid := 1
  scratch := false
  path := 1
  noAlloc := false
  lanes := [⟨0, 0x30000, 0, 0, 0, [], .logged ⟨8, 0, false, false, 0x30000, 0, none, 0⟩⟩]
  fid := none
  log := .reported
  since := 0
  agg := 0
  joint := false
  undo := []

/-- A loaded program whose group issues on core 0, and beside it a workgroup that is saved (R412, R414) with its one group, group 6, and
that group's logged load. -/
def State.besideSaved : State :=
  { State.reset.loadedWith 8 0 with
    issue := { Issue.idle with core := 0, parts := [⟨4, 0xFF, 0⟩], pc := 0x10004, igsize := 8 }
    wgs := [loadWg, { loadWg with wid := 5, core := none }]
    groups := [loadGroup 8, { loadGroup 8 with gid := 6, wid := 5 }]
    ops := [savedLoad] }

theorem besideSaved_issues : (State.besideSaved.issues plainLoad).isSome = true := by decide +kernel

/-- The context in which the load issues there. -/
def besideSavedCtx : Ctx := (State.besideSaved.issues plainLoad).get besideSaved_issues

/-- The log entry of the operation that an outcome lists last. -/
def lastEntry : Host.Outcome State Fault Refusal → Option Nat
  | .next t => t.ops.getLast?.map MemOp.entry
  | _ => none

/-- The load takes entry 0. -/
theorem besideSaved_takes_zero : lastEntry (exec plainLoad State.besideSaved) = some 0 := by decide +kernel

end Sys2Proof.Machine

open Sys2Proof Sys2Proof.Machine

/-- Refutes O31: a load beside a saved group takes log entry 0, which the saved group's logged load, of the same core and partition,
names too. -/
theorem not_memoryAccessesIssue : ¬ Obligations.MemoryAccessesIssue := by
  intro ⟨haccess, _⟩
  have hload := (haccess _ plainLoad (List.mem_cons_self ..) State.besideSaved besideSavedCtx (Option.some_get _).symm
    (by decide +kernel)).2 (by decide +kernel)
  obtain ⟨t, r, ht, hops, _, hfree, _⟩ := hload
  have hlast := besideSaved_takes_zero
  rw [ht] at hlast
  have hentry : r.1 = 0 := by simpa [lastEntry, hops] using hlast
  exact hfree savedLoad (List.mem_cons_self ..) (by decide +kernel) (by decide +kernel) hentry.symm

end

section
/-! # The checks of a line and of a word (O2) -/

namespace Sys2Proof.Machine

/-! ## A line that is entered -/

/-- The live threads of a path that enter the line they stand in. -/
def Group.entering (g : Group) (mask : W64) : List Thread :=
  (lanesOf mask g.width).filterMap (fun h => (g.threads[h]?).filter (fun t => !t.exited && t.enters))

theorem Thread.enters_iff (x : Thread) : x.enters = true ↔ x.lastLine ≠ some (lineBase x.pc) ∨ x.arrival ≠ .sequence := by
  simp [Thread.enters]

theorem Group.mem_entering_iff {g : Group} {mask : W64} {x : Thread} :
    x ∈ g.entering mask ↔ ∃ h, h < g.width ∧ laneIn mask h = true ∧ g.threads[h]? = some x ∧ x.exited = false ∧
      (x.lastLine ≠ some (lineBase x.pc) ∨ x.arrival ≠ .sequence) := by
  simp only [Group.entering, List.mem_filterMap, lanesOf, List.mem_filter, List.mem_range, Option.filter_eq_some_iff, Bool.and_eq_true,
    Bool.not_eq_true', Thread.enters_iff, and_assoc]

/-- Illegal target of a thread that a taken transfer brought (R18). -/
def Thread.targetFault (mask pc : W64) (t : Thread) : Option TrapInfo :=
  match t.arrival with
  | .transfer src => some { cause := 0x05, epc := src, faddr := pc, path := mask }
  | _ => none

theorem Thread.targetFault_eq_some_iff {mask pc : W64} {t : Thread} {f : TrapInfo} :
    t.targetFault mask pc = some f ↔ ∃ src, t.arrival = .transfer src ∧ f = { cause := 0x05, epc := src, faddr := pc, path := mask } := by
  unfold Thread.targetFault
  cases t.arrival <;> simp [eq_comm]

/-- The checks of a line at a slot, in order (R18). -/
theorem State.lineFault_eq (s : State) (g : Group) (mask : W64) {pc : W64} (l : LineData) {k : Nat} (hk : slotOf pc = some k) :
    s.lineFault g mask pc l =
      if g.entering mask = [] then none
      else if s.parityBad g.asid.toNat (lineBase pc).toNat l = true then
        some { cause := 0x06, epc := pc, faddr := lineBase pc, path := mask }
      else if lineReserved l = true then some { cause := 0x01, epc := lineBase pc + 4, finfo := 1, path := mask }
      else if lineTgt l k = true then none
      else (g.entering mask).findSome? (Thread.targetFault mask pc) := by
  unfold State.lineFault
  rw [hk]
  rfl

/-- Transfers from one address raise Illegal target there. -/
theorem findSome_targetFault {ts : List Thread} {mask pc src : W64} (hx : ∃ x ∈ ts, x.arrival = .transfer src)
    (hone : ∀ x ∈ ts, ∀ a, x.arrival = .transfer a → a = src) :
    ts.findSome? (Thread.targetFault mask pc) = some { cause := 0x05, epc := src, faddr := pc, path := mask } := by
  obtain ⟨x, hx, hsrc⟩ := hx
  have hsome : (ts.findSome? (Thread.targetFault mask pc)).isSome = true :=
    List.findSome?_isSome_iff.2 ⟨x, hx, by rw [Thread.targetFault_eq_some_iff.2 ⟨src, hsrc, rfl⟩]; rfl⟩
  obtain ⟨f, hf⟩ := Option.isSome_iff_exists.1 hsome
  obtain ⟨y, hy, hyf⟩ := List.exists_of_findSome?_eq_some hf
  obtain ⟨a, ha, rfl⟩ := Thread.targetFault_eq_some_iff.1 hyf
  rw [hf, hone y hy a ha]

theorem findSome_targetFault_none {ts : List Thread} {mask pc : W64} (h : ∀ x ∈ ts, ∀ a, x.arrival ≠ .transfer a) :
    ts.findSome? (Thread.targetFault mask pc) = none := by
  refine List.findSome?_eq_none_iff.2 fun x hx => Option.eq_none_iff_forall_ne_some.2 fun f hf => ?_
  obtain ⟨a, ha, -⟩ := Thread.targetFault_eq_some_iff.1 hf
  exact h x hx a ha

/-- The entry of a path whose line fails a check: it traps and leaves the issue (R18, R207). -/
theorem State.enterLine_of_fault {s : State} {l : LineData} {p : Part} {g : Group} {t : TrapInfo} (hp : s.issue.parts = [p])
    (hg : s.group? p.gid = some g) (hf : s.lineFault g p.mask s.issue.pc l = some t) :
    s.enterLine l = (s.takeTrap p.gid t).dropPart p.gid := by
  simp only [State.enterLine, hp, List.foldl_cons, List.foldl_nil, hg, hf]

/-- The entry of a path whose line passes: its threads have entered. -/
theorem State.enterLine_of_none {s : State} {l : LineData} {p : Part} {g : Group} (hp : s.issue.parts = [p])
    (hg : s.group? p.gid = some g) (hf : s.lineFault g p.mask s.issue.pc l = none) :
    s.enterLine l = s.modGroup p.gid (fun g => g.modThreads (laneIn p.mask) (fun _ t => t.enter)) := by
  simp only [State.enterLine, hp, List.foldl_cons, List.foldl_nil, hg, hf]

theorem Thread.losesLatches_iff (x : Thread) :
    x.losesLatches = true ↔ x.lastLine ≠ some (lineBase x.pc) ∨ x.arrival ≠ .sequence ∧ x.arrival ≠ .resume := by
  simp [Thread.losesLatches]

theorem State.modGroup_onlyGroup (s : State) (gid : Nat) (f : Group → Group) : s.onlyGroup (s.modGroup gid f) gid :=
  ⟨State.mod_only _ _ _, fun k hk => by rw [State.group_mod, if_neg hk]⟩

/-! ## A word before its effect -/

/-- A word with an encoding is executed for every part of the issue. -/
theorem exec_word {i : Instr} {op : Nat} {f : Form} (h : i.form = some (op, f)) :
    ∃ sem, ∀ s, exec i s = done s (issueWord i sem s) := by
  cases i
  all_goals cases h <;> exact ⟨_, fun s => rfl⟩

theorem mkCtx_form {s : State} {i : Instr} {p : Part} {c : Ctx} (h : mkCtx s i p = some c) : ∃ op f, i.form = some (op, f) := by
  simp only [mkCtx, Option.bind_eq_bind, Option.bind_eq_some_iff] at h
  obtain ⟨_, _, _, _, _, _, _, _, _, _, _, _, ⟨op, f⟩, hf, _⟩ := h
  exact ⟨op, f, hf⟩

/-- A word whose decoding faults traps and has no effect (R45). -/
theorem issueWord_of_decodeFault {s : State} {i : Instr} {p : Part} {c : Ctx} {t : TrapInfo} (sem : Ctx → Except TrapInfo Res)
    (hp : s.issue.parts = [p]) (hc : mkCtx s i p = some c) (ht : c.decodeFault = some t) :
    issueWord i sem s = (s.takeTrap p.gid t).dropPart p.gid := by
  simp only [issueWord, hp, List.foldl_cons, List.foldl_nil, issuePart, hc, ht]

theorem exec_of_decodeFault {s : State} {i : Instr} {p : Part} {c : Ctx} {t : TrapInfo} (hp : s.issue.parts = [p])
    (hc : mkCtx s i p = some c) (ht : c.decodeFault = some t) :
    exec i s = .next (((s.takeTrap p.gid t).dropPart p.gid).fused s) := by
  obtain ⟨op, f, hf⟩ := mkCtx_form hc
  obtain ⟨sem, hsem⟩ := exec_word hf
  rw [hsem, issueWord_of_decodeFault sem hp hc ht, done_eq]

/-- The lanes of the mask of a list, in a mask that is built up from m. -/
theorem getLsbD_foldl_or (l : List Nat) (m : W64) {h : Nat} (hh : h < 64) :
    (l.foldl (fun m h => m ||| ((1 : W64) <<< h)) m).getLsbD h = true ↔ m.getLsbD h = true ∨ h ∈ l := by
  induction l generalizing m with
  | nil => simp
  | cons k l ih =>
    have hbit : ((1 : W64) <<< k).getLsbD h = true ↔ h = k := by
      rw [show (1 : W64) <<< k = BitVec.twoPow 64 k from (BitVec.twoPow_eq 64 k).symm, BitVec.getLsbD_twoPow]
      simp only [Bool.and_eq_true, decide_eq_true_eq]
      omega
    rw [List.foldl_cons, ih, BitVec.getLsbD_or, Bool.or_eq_true, hbit, List.mem_cons, or_assoc]

theorem getLsbD_maskOf (l : List Nat) {h : Nat} (hh : h < 64) : (maskOf l).getLsbD h = true ↔ h ∈ l :=
  (getLsbD_foldl_or l 0 hh).trans (by simp)

/-- The first field that reads a cleared latch names the fault; every lane that reads one is in its mask (R37, R421). -/
theorem Ctx.stale_of_first {c : Ctx} {k : Nat} (hk : k ∈ [1, 2, 3]) (hne : c.staleLanes k ≠ [])
    (hfirst : ∀ j, 1 ≤ j → j < k → c.staleLanes j = []) :
    c.stale = some (c.fieldCode k - 0x140, k, maskOf ([1, 2, 3].flatMap c.staleLanes)) := by
  have hfind : [1, 2, 3].find? (fun k => c.staleLanes k != []) = some k := by
    simp only [List.mem_cons, List.not_mem_nil, or_false] at hk
    obtain rfl | rfl | rfl := hk
    · simp [hne]
    · simp [hfirst 1, hne]
    · simp [hfirst 1, hfirst 2, hne]
  simp only [Ctx.stale, hfind]

theorem Ctx.stale_eq_none {c : Ctx} (h : ∀ k ∈ [1, 2, 3], c.staleLanes k = []) : c.stale = none := by
  have hfind : [1, 2, 3].find? (fun k => c.staleLanes k != []) = none :=
    List.find?_eq_none.2 fun k hk => by simp [h k hk]
  simp only [Ctx.stale, hfind]

theorem mem_staleLanes_iff {c : Ctx} {h : Nat} :
    h ∈ [1, 2, 3].flatMap c.staleLanes ↔ ∃ j, 1 ≤ j ∧ j ≤ 3 ∧ h ∈ c.staleLanes j := by
  have hrange (j : Nat) : j ∈ [1, 2, 3] ↔ 1 ≤ j ∧ j ≤ 3 := by
    simp only [List.mem_cons, List.not_mem_nil, or_false]
    omega
  simp only [List.mem_flatMap, hrange, and_assoc]

/-- NOP moves on and does nothing else (R54). -/
theorem nop_completesAs (x : XForm) : (Instr.nop x).completesAs (fun c => { s := c.s }) := by
  intro s c h
  obtain ⟨rfl, -⟩ := State.issues_ctx h
  exact issueWord_of_idle (sem := noEffect) h rfl

/-- The trap of a word that is no instruction, for the one part of an issue. -/
theorem illegalWord_of_part {s : State} {p : Part} (hp : s.issue.parts = [p]) :
    illegalWord s = (s.takeTrap p.gid { cause := 0x01, epc := s.issue.pc, path := p.mask }).dropPart p.gid := by
  simp only [illegalWord, hp, List.foldl_cons, List.foldl_nil]

end Sys2Proof.Machine

open Sys2Proof Sys2Proof.Machine

/-- R18: each check is one branch of `State.lineFault_eq`. -/
theorem lineEntry : Statements.LineEntry := by
  intro s l p g k hp hg hk base enters mine fault bad goes
  have hmine (x : Thread) : mine x ↔ x ∈ g.entering p.mask := Group.mem_entering_iff.symm
  have hline := s.lineFault_eq g p.mask l hk
  have hfault {t : TrapInfo} (h : s.lineFault g p.mask s.issue.pc l = some t) : fault t := State.enterLine_of_fault hp hg h
  have hgoes (h : s.lineFault g p.mask s.issue.pc l = none) : goes := by
    have henter := State.enterLine_of_none hp hg h
    refine ⟨henter ▸ State.modGroup_onlyGroup .., g.modThreads (laneIn p.mask) (fun _ t => t.enter),
      by rw [henter]; exact State.group_mod_self hg rfl, rfl, fun h x y hx hy => ?_⟩
    rw [Group.modThreads_getElem?, hx, Option.map_some, Option.some.injEq] at hy
    rw [← hy]
    cases hm : laneIn p.mask h <;> cases he : x.exited <;> simp [Thread.enter, he, Thread.losesLatches_iff]
  refine ⟨fun hsome => ?_, fun hno => hgoes ?_⟩
  · have hne : g.entering p.mask ≠ [] := hsome.elim fun x hx => List.ne_nil_of_mem ((hmine x).1 hx)
    rw [if_neg hne] at hline
    refine ⟨fun hbad => hfault ?_, fun hbad hres => hfault ?_, fun hbad hres htgt src hx hone => hfault ?_,
      fun hbad hres htgt => hgoes ?_⟩
    · rw [hline, if_pos hbad]
    · rw [hline, if_neg hbad, if_pos hres]
    · rw [hline, if_neg hbad, if_neg (by simp [hres]), if_neg (by simp [htgt])]
      exact findSome_targetFault (hx.imp fun x h => ⟨(hmine x).1 h.1, h.2⟩) (fun x h a => hone x a ((hmine x).2 h))
    · rw [hline, if_neg hbad, if_neg (by simp [hres])]
      split
      next => rfl
      next hclear => exact findSome_targetFault_none fun x h a => htgt.resolve_left hclear x a ((hmine x).2 h)
  · have hnil : g.entering p.mask = [] := List.eq_nil_iff_forall_not_mem.2 fun x hx => hno x ((hmine x).2 hx)
    rw [hline, if_pos hnil]

/-- R45, R54, R64: the checks of a word are the branches of `Ctx.decodeFault`. -/
theorem decodeFaults : Statements.DecodeFaults := by
  refine ⟨fun s i p c t hp hc ht => exec_of_decodeFault hp hc ht, fun c => ?_, nop_completesAs, fun s p r op hp i hi => ?_⟩
  · intro sound
    have hsound : sound ↔ (c.i.wellFormed && c.i.modOk c.code.modsel c.g.width) = true := (Bool.and_eq_true ..).symm.to_iff
    refine ⟨fun h => ?_, fun h k hk => ?_, fun h hop k hk hne hfirst => ?_, fun h hop hnone => ?_⟩
    all_goals
      rw [hsound] at h
      simp only [Ctx.decodeFault, h, Bool.not_false, Bool.not_true, Bool.false_eq_true, if_true, if_false]
    · simp only [hk]
    · refine ⟨_, ?_, fun h hh => (getLsbD_maskOf _ hh).trans mem_staleLanes_iff⟩
      simp only [hop, Ctx.stale_of_first hk hne hfirst]
    · simp only [hop, Ctx.stale_eq_none hnone]
  · have hill : exec i s = done s (illegalWord s) := by
      simp only [List.mem_cons, List.not_mem_nil, or_false] at hi
      obtain rfl | rfl | rfl := hi <;> rfl
    rw [hill, illegalWord_of_part hp, done_eq]

/-- Settles O2: the checks of a line, then those of a word. -/
theorem lineAndWordChecks : Obligations.LineAndWordChecks := ⟨lineEntry, decodeFaults⟩

end

section
/-! # What a step runs (O1) -/

namespace Sys2Proof.Machine

/-! ## What traps and the checks of a line leave of the issue -/

/-- The issue of a state, and its count of events. -/
def State.issuing (s : State) : Issue × Nat := (s.issue, s.tick)

/-- One issue that goes on: its core, its address and its slot stand, and time has not gone back. Parts may leave it. -/
def State.sameIssue (s t : State) : Prop :=
  t.issue.core = s.issue.core ∧ t.issue.pc = s.issue.pc ∧ t.issue.second = s.issue.second ∧ s.tick ≤ t.tick

theorem State.sameIssue_refl (s : State) : s.sameIssue s := ⟨rfl, rfl, rfl, le_rfl⟩

theorem State.sameIssue.trans {s t u : State} (h : s.sameIssue t) (k : t.sameIssue u) : s.sameIssue u := by
  obtain ⟨hcore, hpc, hsecond, htick⟩ := h
  obtain ⟨kcore, kpc, ksecond, ktick⟩ := k
  exact ⟨kcore.trans hcore, kpc.trans hpc, ksecond.trans hsecond, htick.trans ktick⟩

theorem State.sameIssue_of_issuing {s t : State} (h : t.issuing = s.issuing) : s.sameIssue t := by
  obtain ⟨hissue, htick⟩ := Prod.mk.inj h
  exact ⟨by rw [hissue], by rw [hissue], by rw [hissue], htick.ge⟩

theorem foldl_issuing {α : Type} {f : State → α → State} (hf : ∀ s a, (f s a).issuing = s.issuing) (l : List α) (s : State) :
    (l.foldl f s).issuing = s.issuing := by
  induction l generalizing s with
  | nil => rfl
  | cons a l ih => rw [List.foldl_cons, ih, hf]

theorem foldl_sameIssue {α : Type} {f : State → α → State} (hf : ∀ (s : State) a, s.sameIssue (f s a)) (l : List α) (s : State) :
    s.sameIssue (l.foldl f s) := by
  induction l generalizing s with
  | nil => exact s.sameIssue_refl
  | cons a l ih => exact (hf s a).trans (ih _)

@[simp] theorem State.issuing_modGroup (s : State) (k : Nat) (f : Group → Group) : (s.modGroup k f).issuing = s.issuing := by
  simp [State.issuing]

@[simp] theorem State.issuing_modFunc (s : State) (k : Nat) (f : Func → Func) : (s.modFunc k f).issuing = s.issuing := by
  simp [State.issuing]

@[simp] theorem State.issuing_signal (s : State) (fn v : Nat) : (s.signal fn v).issuing = s.issuing := by simp [State.issuing]

@[simp] theorem State.issuing_dissolve (s : State) (gid : Nat) : (s.dissolve gid).issuing = s.issuing := by
  simp [State.issuing, State.dissolve]

@[simp] theorem State.issuing_postOne (s : State) (fn : Nat) : (s.postOne fn).issuing = s.issuing := by
  unfold State.postOne
  (repeat' split) <;> simp [State.issuing]

@[simp] theorem State.issuing_makeRecord (s : State) (fn : Nat) (r : FaultRec) (ref : Option FidRef) :
    (s.makeRecord fn r ref).1.issuing = s.issuing := by
  have hpost (s : State) : (s.postHeld fn).issuing = s.issuing := by
    unfold State.postHeld
    split
    · rfl
    · exact foldl_issuing (fun s _ => s.issuing_postOne fn) ..
  unfold State.makeRecord
  split <;> simp [hpost]

theorem State.issuing_dropLogged (s : State) (vf : Nat) (o : MemOp) : (s.dropLogged vf o).issuing = s.issuing := by
  have hpend : ((o.lanes.filter LaneReq.isLogged).foldl (fun s l => s.clearPendLane o.gid o.id l.lane) s).issuing = s.issuing :=
    foldl_issuing (fun s l => s.issuing_modGroup o.gid _) ..
  rw [← hpend]
  unfold State.dropLogged
  split <;> simp [State.issuing, State.closeFid]

theorem State.issuing_endWorkgroup (s : State) (g : Group) (cause : Nat) (epc : W64) (haltCode : W32) :
    (s.endWorkgroup g cause epc haltCode).issuing = s.issuing := by
  unfold State.endWorkgroup
  split
  · rfl
  split
  · rfl
  next w _ _ la _ =>
    have hmod (s : State) : ((s.modWg w.wid (fun w => { w with ended := true })).modLaunch la.lid
        (fun l => { l with status := 1 })).issuing = s.issuing := by simp [State.issuing]
    rw [State.issuing_makeRecord, hmod, foldl_issuing (fun s gid => s.issuing_dissolve gid), State.issuing_modFunc,
      foldl_issuing (fun s o => s.issuing_dropLogged la.vf o)]
    rfl

/-- A trap counts one event, or none where it ends its workgroup. -/
theorem State.sameIssue_takeTrap (s : State) (gid : Nat) (t : TrapInfo) : s.sameIssue (s.takeTrap gid t) := by
  unfold State.takeTrap
  split
  · exact s.sameIssue_refl
  split
  · exact s.sameIssue_refl
  next la _ =>
    have hrecord : (if t.cause = 0x14 then (s.dissolve gid).machineRecord else s.dissolve gid).issuing = s.issuing := by
      split <;> rfl
    dsimp only
    split
    · exact State.sameIssue_of_issuing ((State.issuing_endWorkgroup ..).trans hrecord)
    · exact (State.sameIssue_of_issuing hrecord).trans ⟨rfl, rfl, rfl, Nat.le_succ _⟩

/-- A group that traps leaves the issue. -/
theorem State.sameIssue_trapped (s : State) (gid : Nat) (t : TrapInfo) : s.sameIssue ((s.takeTrap gid t).dropPart gid) :=
  (s.sameIssue_takeTrap gid t).trans ⟨rfl, rfl, rfl, le_rfl⟩

theorem State.sameIssue_enterLine (s : State) (l : LineData) : s.sameIssue (s.enterLine l) := by
  refine foldl_sameIssue (fun s p => ?_) ..
  split
  · exact s.sameIssue_refl
  split
  · exact s.sameIssue_trapped ..
  · exact State.sameIssue_of_issuing rfl

theorem State.sameIssue_checkPair (s : State) (l : LineData) (k : Nat) (i j : Option Instr) : s.sameIssue (s.checkPair l k i j) := by
  refine foldl_sameIssue (fun s p => ?_) ..
  dsimp only
  split
  · exact s.sameIssue_trapped ..
  · exact s.sameIssue_refl

/-! ## The words of an issue -/

theorem formsPair_iff (l : LineData) (k : Nat) :
    formsPair l k = true ↔ linePair l k = true ∧ (k = 0 ∨ linePair l (k - 1) = false) := by
  simp [formsPair, or_iff_not_imp_left]

theorem toOption_eq_none {w : Word96} (h : ∀ i, decode w ≠ .ok i) : (decode w).toOption = none := by
  cases hd : decode w with
  | ok i => exact absurd hd (h i)
  | error r => rfl

/-! ## The preparation of an issue -/

/-- The state in which an issue has begun and its line is read. -/
def State.begun (u : State) (core : Nat) (c : Cand) : State := { u with tick := u.tick + 1, issue := u.issueOf core c }

/-- The state in which an issue has entered its line: recency counted, the checks of the line made. -/
def State.entered (u : State) (core ipart : Nat) (c : Cand) (l : LineData) : State :=
  ({ u.account core ipart c with tick := u.tick + 1, issue := u.issueOf core c } : State).enterLine l

/-- The state before the first word of a pair: the pair's checks made, the latches kept for its second word. -/
def State.pairReady (s : State) (l : LineData) (k : Nat) : State :=
  let t := s.checkPair l k (decode (lineSlot l k)).toOption (decode (lineSlot l (k + 1))).toOption
  { t with issue := { t.issue with before := t.latchesBefore } }

theorem State.sameIssue_pairReady (s : State) (l : LineData) (k : Nat) : s.sameIssue (s.pairReady l k) :=
  (s.sameIssue_checkPair l k _ _).trans ⟨rfl, rfl, rfl, le_rfl⟩

/-- The line of a candidate whose first group is g. -/
theorem State.candLine_of_head {s : State} {c : Cand} {gid : Nat} {mask : W64} {g : Group} {l : LineData} {k : Nat}
    (hhead : c.parts.head? = some (gid, mask)) (hg : s.group? gid = some g)
    (hline : s.codeLine g.asid.toNat (lineBase c.pc).toNat = .ok l) (hk : slotOf c.pc = some k) :
    s.candLine c = some (.ok l, k) := by
  simp only [State.candLine, hhead, Option.bind_some, hg, hk, hline]

theorem State.candLine_of_noSlot (s : State) {c : Cand} (hk : slotOf c.pc = none) : s.candLine c = none := by
  simp [State.candLine, hk]

section
variable {u : State} {core ipart : Nat} {c : Cand} {l : LineData} {k : Nat}
  (hline : (u.begun core c).candLine c = some (.ok l, k))
include hline

theorem State.prepare_single (hpair : formsPair l k = false) :
    u.prepare core ipart c = ⟨u.entered core ipart c l, (decode (lineSlot l k)).toOption, none, false⟩ := by
  rw [State.begun] at hline
  simp only [State.prepare, hline, hpair, Bool.false_eq_true, if_false]
  rfl

theorem State.prepare_pair (hpair : formsPair l k = true) :
    u.prepare core ipart c = ⟨(u.entered core ipart c l).pairReady l k, (decode (lineSlot l k)).toOption,
      some (decode (lineSlot l (k + 1))).toOption, false⟩ := by
  rw [State.begun] at hline
  simp only [State.prepare, hline, hpair, if_true]
  rfl

/-- An issue stands at its candidate when its first word executes. -/
theorem State.sameIssue_prepare :
    (u.begun core c).sameIssue (u.prepare core ipart c).s := by
  have hentered : (u.begun core c).sameIssue (u.entered core ipart c l) :=
    State.sameIssue_enterLine { u.account core ipart c with tick := u.tick + 1, issue := u.issueOf core c } l
  cases hpair : formsPair l k with
  | false => rw [State.prepare_single hline hpair]; exact hentered
  | true => rw [State.prepare_pair hline hpair]; exact hentered.trans (State.sameIssue_pairReady ..)

/-- A word by itself (R19): it is executed, or it raises Illegal instruction. -/
theorem State.runIssue_single (hpair : formsPair l k = false) {v : State}
    (hrun : runWord (decode (lineSlot l k)).toOption (u.prepare core ipart c).s = .next v) :
    u.runIssue core ipart c = .next (v.endIssue (decode (lineSlot l k)).toOption.toList) := by
  rw [State.prepare_single hline hpair] at hrun
  simp only [State.runIssue, State.prepare_single hline hpair, Bool.false_eq_true, if_false, hrun, andThen]
  cases (decode (lineSlot l k)).toOption <;> rfl

/-- The second word of a pair whose first has executed (R19). -/
theorem State.runIssue_pair (hpair : formsPair l k = true) {i : Instr} (hi : decode (lineSlot l k) = .ok i) {v w : State}
    (hv : exec i (u.prepare core ipart c).s = .next v)
    (hrun : runWord (decode (lineSlot l (k + 1))).toOption (v.secondSlot i) = .next w) :
    u.runIssue core ipart c = .next (w.endIssue (i :: (decode (lineSlot l (k + 1))).toOption.toList)) := by
  rw [State.prepare_pair hline hpair] at hv
  have hfirst : runWord (some i) ((u.entered core ipart c l).pairReady l k) = .next v := hv
  have htoOption : (decode (lineSlot l k)).toOption = some i := by rw [hi]; rfl
  simp only [State.runIssue, State.prepare_pair hline hpair, Bool.false_eq_true, if_false, htoOption, hfirst, andThen, hrun]

end

/-! ## A step that issues -/

/-- A turn that lets a free partition issue. -/
theorem step_of_issueTurn {s u : State} {core ipart : Nat} {rest : List Turn} {c : Cand} (hpow : s.powered = true)
    (hturns : s.turns = .issue core ipart :: rest) (hu : ({ s with turns := rest } : State).tidyFormed = u)
    (hfree : u.partFree core ipart = true) (hchoose : u.chooseIssue core ipart = some c) :
    step s = (u.served core ipart c).runIssue core ipart c := by
  have hstep : step s = ({ s with turns := rest } : State).tidyFormed.issueAt core ipart := by
    unfold step
    rw [hturns]
    exact if_pos (by rw [hpow]; rfl)
  rw [hstep, hu]
  simp only [State.issueAt, hfree, if_true, hchoose]

/-- Without a turn, and with no work of firmware, an event that is due happens. -/
theorem step_of_due {s : State} {i : Instr} (hpow : s.powered = true) (hturns : s.turns = []) (hchore : s.chore = none)
    (hdue : s.due = some i) : step s = exec i s := by
  simp only [step, hturns, hpow, if_true, State.proceed, hchore, hdue]

/-- Without a turn, and with nothing due, a partition issues. -/
theorem step_of_nextIssue {s : State} {core ipart : Nat} {c : Cand} (hpow : s.powered = true) (hturns : s.turns = [])
    (hchore : s.chore = none) (hdue : s.due = none) (hnext : s.tidyFormed.nextIssue = some (core, ipart, c)) :
    step s = (s.tidyFormed.served core ipart c).runIssue core ipart c := by
  simp only [step, hturns, hpow, if_true, State.proceed, hchore, hdue, hnext]

/-- An issue at an address that is no instruction address traps every part (R15). -/
theorem State.runIssue_of_noSlot (u : State) (core ipart : Nat) {c : Cand} (hk : slotOf c.pc = none) :
    u.runIssue core ipart c = .next { c.parts.foldl (fun t q =>
      t.takeTrap q.1 { cause := 0x05, epc := c.pc, faddr := c.pc, path := q.2 })
      { u with tick := u.tick + 1, issue := u.issueOf core c } with issue := Issue.idle } := by
  simp only [State.runIssue, State.prepare, State.candLine_of_noSlot _ hk, if_true]

end Sys2Proof.Machine

open Sys2Proof Sys2Proof.Machine

/-- Settles O1: a step takes its turn, and an issue runs what its preparation found. -/
theorem stepRunsTheDecodedInstruction : Obligations.StepRunsTheDecodedInstruction := by
  refine ⟨fun s core ipart rest c hpow hturns => step_of_issueTurn hpow hturns rfl, fun s i => step_of_due,
    fun s core ipart c => step_of_nextIssue, fun u core ipart c gid mask g hhead hg =>
      ⟨u.runIssue_of_noSlot core ipart, fun l k hcode hk => ?_⟩⟩
  have hline : (u.begun core c).candLine c = some (.ok l, k) :=
    State.candLine_of_head hhead hg hcode hk
  obtain ⟨hcore, hpc, hsecond, htick⟩ := State.sameIssue_prepare (ipart := ipart) hline
  refine ⟨hcore, hpc, hsecond, htick, ?_⟩
  intro word pair
  have hforms : formsPair l k = true ↔ pair := formsPair_iff l k
  refine ⟨fun hpair => ?_, fun hpair i hi v hv => ?_⟩
  · have hrun (v : State) := State.runIssue_single (ipart := ipart) hline (Bool.eq_false_iff.2 (hforms.not.2 hpair)) (v := v)
    refine ⟨fun i hi v hv => ?_, fun hno => ?_⟩
    · rw [hi] at hrun
      exact hrun v hv
    · rw [toOption_eq_none hno] at hrun
      exact hrun _ rfl
  · have hrun (w : State) := State.runIssue_pair hline (hforms.2 hpair) hi hv (w := w)
    refine ⟨fun j hj w hw => ?_, fun hno => ?_⟩
    · rw [hj] at hrun
      exact hrun w hw
    · rw [toOption_eq_none hno] at hrun
      exact hrun _ rfl

end

section
/-! # Elementwise integer arithmetic (O10) -/

namespace Sys2Proof.Machine

/-- An element below its width's bound is kept whole. -/
theorem elemNat_ofElems_of_lt {t i : Nat} {f : Nat → Nat} (hi : i < elemN t) (hf : f i < 2 ^ elemW t) :
    elemNat t i (ofElems t f) = f i := by
  rw [elemNat_ofElems t f i hi, Nat.mod_eq_of_lt hf]

/-- The saturation of R74, chosen by SAT, is the clamp to the type's range. -/
theorem saturated_eq (t : Nat) (sat : BitVec 1) (v : Int) :
    (if sat = 1 then satInt v (loT t) (hiT t) else v) = if sat = 1 then max (loT t) (min (hiT t) v) else v := by
  rw [satInt_eq (loT_le_hiT t)]

/-- Integer lanes give the exact result of each element, saturated under SAT, modulo the width (R74). -/
theorem elementsAre_intArith (x : XForm) (op : Int → Int → Int → Int) (c : Ctx) :
    elementsAre x.t x.sat (intArith x op c)
      (fun h i => op (c.elem x.t 1 h i) (c.elem x.t 2 h i) (c.elem x.t 3 h i)) := by
  refine fun h => ⟨rfl, fun i hi => ?_⟩
  simp only [intArith, pure1, Ctx.elem]
  rw [elemNat_ofElems_of_lt hi (intMod_lt _ _), intMod_cast, saturated_eq]

/-- A word whose meaning is elementwise integer arithmetic delivers it. -/
theorem delivers_intArith {i : Instr} (x : XForm) (op : Int → Int → Int → Int)
    (he : ∀ s : State, exec i s = done s (issueWord i (laneOp (intArith x op)) s)) :
    i.delivers (fun c f => elementsAre x.t x.sat f
      (fun h i => op (c.elem x.t 1 h i) (c.elem x.t 2 h i) (c.elem x.t 3 h i))) :=
  delivers_of _ he (fun _ _ => rfl) fun _ c _ => elementsAre_intArith x op c

end Sys2Proof.Machine

open Sys2Proof Sys2Proof.Machine

/-- Settles O10: the seven words differ in the operation on integers alone; IABS takes the absolute value. -/
theorem integerElementArithmetic : Obligations.IntegerElementArithmetic := fun x =>
  have habs (a : Int) : (a.natAbs : Int) = max a (-a) := by rw [← Int.abs_eq_natAbs, abs_eq_max_neg]
  ⟨delivers_intArith x (fun a b _ => a + b) fun _ => rfl, delivers_intArith x (fun a b _ => a - b) fun _ => rfl,
    delivers_intArith x (fun a b _ => a * b) fun _ => rfl, delivers_intArith x (fun a b c => a * b + c) fun _ => rfl,
    delivers_intArith x (fun a b _ => min a b) fun _ => rfl, delivers_intArith x (fun a b _ => max a b) fun _ => rfl,
    delivers_intArith x (fun a _ _ => max a (-a)) fun _ => by simp only [← habs]; rfl⟩

end

section
/-! # Wide and converting integers, shifts and rotates (O11) -/

namespace Sys2Proof.Machine

/-! ## Values and types -/

/-- An integer modulo the width of a type, as a value. -/
theorem toNat_ofNat_intMod (t : Nat) (v : Int) :
    ((BitVec.ofNat 64 (intMod (elemW t) v)).toNat : Int) = v % 2 ^ elemW t := by
  rw [toNat_ofNat_of_lt (elemW_le t) (intMod_lt _ v), intMod_cast]

/-- Sign extension of a whole value is its integer. -/
theorem sext_toNat (v : W64) : sext 64 v.toNat = v.toInt := by
  have hv := v.isLt
  rw [sext, BitVec.toInt_eq_toNat_cond, Nat.mod_eq_of_lt hv]
  congr 1
  exact propext (by omega)

/-- A number of w bits stands for an integer from −2^(w−1) to below 2^(w−1). -/
theorem sext_bounds {w : Nat} (hw : 0 < w) (a : Nat) : -2 ^ (w - 1) ≤ sext w a ∧ sext w a < 2 ^ (w - 1) := by
  have hhalf : 2 ^ w = 2 * 2 ^ (w - 1) := by rw [← Nat.pow_succ']; congr 1; omega
  have hlt : a % 2 ^ w < 2 ^ w := Nat.mod_lt _ (by positivity)
  have hcast : (2 : Int) ^ (w - 1) = ((2 ^ (w - 1) : Nat) : Int) := by norm_cast
  rw [sext, hcast]
  split_ifs <;> omega

/-- Elements are numbers of their width. -/
theorem elemNat_lt (t i : Nat) (v : W64) : elemNat t i v < 2 ^ elemW t := Nat.mod_lt _ (by positivity)

/-! ## Shifts and rotates of one element (R78) -/

/-- A shift by the width or more leaves the sign only. -/
theorem sext_ediv_width {w : Nat} (hw : 0 < w) (a : Nat) : sext w a / (2 ^ w : Nat) = if sext w a < 0 then -1 else 0 := by
  obtain ⟨hlo, hhi⟩ := sext_bounds hw a
  have hle : (2 : Int) ^ (w - 1) ≤ (2 ^ w : Nat) := by exact_mod_cast Nat.pow_le_pow_right (by norm_num) (Nat.sub_le w 1)
  split_ifs with hneg
  · rw [Int.ediv_eq_iff_of_pos (by positivity)]
    omega
  · exact Int.ediv_eq_zero_of_lt (by omega) (by omega)

theorem shlElem_lt (w a n : Nat) : shlElem w a n < 2 ^ w := by
  unfold shlElem
  split_ifs
  · positivity
  · exact Nat.mod_lt _ (by positivity)

theorem shrElem_lt {w a : Nat} (ha : a < 2 ^ w) (n : Nat) : shrElem w a n < 2 ^ w := by
  unfold shrElem
  split_ifs
  · positivity
  · exact (Nat.div_le_self a _).trans_lt ha

/-- SAR divides by a power of two, rounded down; the sign fills from the width on. -/
theorem sarElem_cast {w : Nat} (hw : 0 < w) (a n : Nat) :
    (sarElem w a n : Int) = (if w ≤ n then (if sext w a < 0 then -1 else 0) else (sext w a).fdiv (2 ^ n)) % 2 ^ w := by
  rw [sarElem, intMod_cast]
  congr 1
  by_cases hn : w ≤ n
  · rw [if_pos hn, Nat.min_eq_right hn, sext_ediv_width hw]
  · rw [if_neg hn, Nat.min_eq_left (by omega), Int.fdiv_eq_ediv_of_nonneg _ (by positivity)]
    norm_cast

/-- Bit k of a rotate is the bit that stands n places below it, modulo the width. -/
theorem testBit_rotElem {w a k : Nat} (ha : a < 2 ^ w) (hk : k < w) (n : Nat) :
    (rotElem w a n).testBit k = a.testBit ((k + w - n % w) % w) := by
  have hr : n % w < w := Nat.mod_lt _ (by omega)
  rw [rotElem]
  generalize n % w = r at hr
  have hlow : a / 2 ^ (w - r) < 2 ^ r := by
    rw [Nat.div_lt_iff_lt_mul (by positivity), ← Nat.pow_add]
    rwa [show r + (w - r) = w by omega]
  rw [Nat.testBit_mod_two_pow, decide_eq_true hk, Bool.true_and, Nat.mul_comm, Nat.testBit_two_pow_mul_add _ hlow,
    Nat.testBit_div_two_pow]
  split_ifs with hkr
  · rw [Nat.mod_eq_of_lt (by omega)]
    congr 1
    omega
  · rw [show k + w - r = k - r + w by omega, Nat.add_mod_right, Nat.mod_eq_of_lt (by omega)]

/-- The count of a shift for element i (R71, R78). -/
def Ctx.shiftCount (c : Ctx) (x : XForm) (h i : Nat) : Nat :=
  if wideT x.t.toNat then (c.val 2 h).toNat % 2 ^ 32 else elemNat x.t.toNat i (c.val 2 h)

/-- An element of a shift, when the shift of one element keeps to the width. -/
theorem elemNat_intShift (x : XForm) {op : Nat → Nat → Nat → Nat} (hop : ∀ w a n, a < 2 ^ w → op w a n < 2 ^ w) (c : Ctx)
    (h : Nat) {i : Nat} (hi : i < elemN x.t.toNat) :
    elemNat x.t.toNat i (intShift x op c h).val =
      op (elemW x.t.toNat) (elemNat x.t.toNat i (c.val 1 h)) (c.shiftCount x h i) :=
  elemNat_ofElems_of_lt hi (hop _ _ _ (elemNat_lt _ _ _))

/-! ## Wide and converting arithmetic (R75 to R77, R89, R90) -/

/-- A word whose effect is on its own group, single step aside, has that effect and moves on. -/
theorem issueWord_of_modGroup {s : State} {i : Instr} {c : Ctx} {sem : Ctx → Except TrapInfo Res} {f : Group → Group}
    {vals : List (Nat × W64)} (h : s.issues i = some c)
    (hsem : sem c = .ok { s := c.s.modGroup c.g.gid f, vals := vals }) (hstep : (f c.g).stepPath = c.g.stepPath) :
    done s (issueWord i sem s) = .next (c.completes { s := c.s.modGroup c.g.gid f, vals := vals }) := by
  obtain ⟨rfl, -, hg, hgid, -⟩ := State.issues_ctx h
  rw [issueWord_of sem h, hsem, done_eq]
  refine congrArg (fun t => Host.Outcome.next (State.fused t c.s)) (State.finish_of_issues h rfl ?_)
  rw [State.group_mod, if_pos rfl, hgid, hg]
  exact congrArg some hstep

/-- A lane computation with a predicate beside it lands both (R77). -/
theorem laneOpPred_of {s : State} {i : Instr} {c : Ctx} (q : Nat) (f : Ctx → Nat → LaneOut) (h : s.issues i = some c) :
    done s (issueWord i (laneOpPred q f) s) = .next (c.landsPred q (f c)) :=
  issueWord_of_modGroup h rfl (by simp [Group.modThreads])

/-- IMULH gives the high half of the product, rounded toward minus infinity (R75). -/
theorem laneMulh_val (x : XForm) (c : Ctx) (h : Nat) :
    ((laneMulh x c h).val.toNat : Int) =
      (c.elem x.t 1 h 0 * c.elem x.t 2 h 0).fdiv (2 ^ elemW x.t.toNat) % 2 ^ elemW x.t.toNat := by
  rw [Int.fdiv_eq_ediv_of_nonneg _ (by positivity)]
  exact_mod_cast toNat_ofNat_intMod x.t.toNat _

/-- IMADW adds C to the product, signed as T is (R76). -/
theorem laneMadw_val (x : XForm) (c : Ctx) (h : Nat) :
    (laneMadw x c h).val = BitVec.ofInt 64 (c.elem x.t 1 h 0 * c.elem x.t 2 h 0
      + (if x.t = 1 then (c.val 3 h).toInt else ((c.val 3 h).toNat : Int))) := by
  have ht : x.t.toNat = 1 ↔ x.t = 1 := (BitVec.toNat_eq (y := 1#4)).symm
  simp only [laneMadw, pure1, ht, sext_toNat, Ctx.elem]

/-- IADDC gives the sum modulo the width and the carry (R77). -/
theorem laneAddc_val (x : XForm) (c : Ctx) (h : Nat) :
    (laneAddc x c h).val.toNat = (elemNat x.t.toNat 0 (c.val 1 h) + elemNat x.t.toNat 0 (c.val 2 h) + (c.val 3 h).toNat % 2)
      % 2 ^ elemW x.t.toNat :=
  toNat_ofNat_of_lt (elemW_le _) (Nat.mod_lt _ (by positivity))

/-- LEA adds the scaled index and the immediate to A (R89). -/
theorem laneLea_val (x : XForm) (c : Ctx) (h : Nat) :
    (laneLea x c h).val = c.val 1 h
      + (if x.t = 2 then c.val 2 h
         else if x.t = 0 then ((c.val 2 h).setWidth 32).setWidth 64 else ((c.val 2 h).setWidth 32).signExtend 64)
        * 2#64 ^ x.c.toNat
      + x.imm.signExtend 64 := by
  have h2 : x.t = 2 ↔ x.t.toNat = 2 := BitVec.toNat_eq (y := 2#4)
  have h0 : x.t = 0 ↔ x.t.toNat = 0 := BitVec.toNat_eq (y := 0#4)
  have hpow : 2#64 ^ x.c.toNat = BitVec.twoPow 64 x.c.toNat := BitVec.eq_of_toNat_eq (by simp [BitVec.toNat_pow])
  simp only [laneLea, pure1, h2, h0, hpow, ← BitVec.shiftLeft_eq_mul_twoPow]
  congr 3
  split <;> simp_all

/-- ICVT gives the source's integer, saturated under SAT, modulo the width (R90). -/
theorem laneIcvt_val (x : XForm) (c : Ctx) (h : Nat) :
    ((laneIcvt x c h).val.toNat : Int) =
      (if x.sat = 1 then max (loT x.t.toNat) (min (hiT x.t.toNat) (elemInt x.c.toNat 0 (c.val 1 h)))
        else elemInt x.c.toNat 0 (c.val 1 h)) % 2 ^ elemW x.t.toNat := by
  rw [← saturated_eq]
  exact toNat_ofNat_intMod _ _

end Sys2Proof.Machine

open Sys2Proof Sys2Proof.Machine

/-- The wide and converting words give their lanes' values, IADDC its carry too (R75, R76, R77, R89, R90). -/
theorem integerWideArithmetic : Statements.IntegerWideArithmetic := fun x =>
  ⟨delivers_of _ (fun _ => rfl) (fun _ _ => rfl) fun _ c _ h => ⟨rfl, laneMulh_val x c h⟩,
    delivers_of _ (fun _ => rfl) (fun _ _ => rfl) fun _ c _ h => ⟨rfl, laneMadw_val x c h⟩,
    fun _ c hc => ⟨laneAddc x c, laneOpPred_of _ (laneAddc x) hc, fun h => ⟨rfl, laneAddc_val x c h, decide_eq_true_iff⟩⟩,
    delivers_of _ (fun _ => rfl) (fun _ _ => rfl) fun _ c _ h => ⟨rfl, laneLea_val x c h⟩,
    delivers_of _ (fun _ => rfl) (fun _ _ => rfl) fun _ c _ h => ⟨rfl, laneIcvt_val x c h⟩⟩

/-- Shifts and rotates give the result of each element for the element's count (R78). -/
theorem shiftsAndRotates : Statements.ShiftsAndRotates := fun x =>
  ⟨delivers_of _ (fun _ => rfl) (fun _ _ => rfl) fun _ c _ h => ⟨rfl, fun _ hi =>
      elemNat_intShift x (fun w a n _ => shlElem_lt w a n) c h hi⟩,
    delivers_of _ (fun _ => rfl) (fun _ _ => rfl) fun _ c _ h => ⟨rfl, fun _ hi =>
      elemNat_intShift x (fun _ _ n ha => shrElem_lt ha n) c h hi⟩,
    delivers_of _ (fun _ => rfl) (fun _ _ => rfl) fun _ c _ h => ⟨rfl, fun _ hi =>
      (congrArg Nat.cast (elemNat_intShift x (fun _ _ _ _ => intMod_lt _ _) c h hi)).trans (sarElem_cast (elemW_pos _) _ _)⟩,
    delivers_of _ (fun _ => rfl) (fun _ _ => rfl) fun _ c _ h => ⟨rfl, fun _ hi _ hk =>
      (congrArg (Nat.testBit · _) (elemNat_intShift x (fun _ _ _ _ => Nat.mod_lt _ (by positivity)) c h hi)).trans
        (testBit_rotElem (elemNat_lt _ _ _) hk _)⟩⟩

/-- Settles O11: the lane functions give these values, and no flag. -/
theorem wideIntegersAndShifts : Obligations.WideIntegersAndShifts := ⟨integerWideArithmetic, shiftsAndRotates⟩

end

section
/-! # Bits, comparisons and moves (O12) -/

namespace Sys2Proof.Machine

/-! ## Bitwise words (R79 to R82, R86) -/

/-- Bit k of a value that is given bit by bit. -/
theorem getLsbD_ofNat_bitsOf {w k : Nat} (hw : w ≤ 64) (hk : k < w) (f : Nat → Bool) :
    (BitVec.ofNat 64 (bitsOf w f)).getLsbD k = f k := by
  rw [BitVec.getLsbD_ofNat, (bitsOf_spec w f).2, decide_eq_true hk, decide_eq_true (by omega), Bool.true_and, Bool.true_and]

/-- A truth table read at three bits (R79, R86). -/
theorem truth_eq_getLsbD (imm : BitVec 24) (a b c : Bool) :
    truth imm.toNat a b c = imm.getLsbD (4 * a.toNat + 2 * b.toNat + c.toNat) := by
  have hbool : ∀ p : Bool, boolNat p = p.toNat := by decide
  rw [truth, hbool, hbool, hbool]
  rfl

/-- LOGIC reads its table bit by bit (R79). -/
theorem laneLogic_bit (x : XForm) (c : Ctx) (h : Nat) {k : Nat} (hk : k < elemW x.t.toNat) :
    (laneLogic x c h).val.getLsbD k = x.imm.getLsbD
      (4 * ((c.val 1 h).getLsbD k).toNat + 2 * ((c.val 2 h).getLsbD k).toNat + ((c.val 3 h).getLsbD k).toNat) :=
  (getLsbD_ofNat_bitsOf (elemW_le _) hk _).trans (truth_eq_getLsbD ..)

/-- PLOG reads its table once (R86). -/
theorem lanePlog_val (x : XForm) (c : Ctx) (h : Nat) :
    (lanePlog x c h).val.toNat = (x.imm.getLsbD
      (4 * ((c.val 1 h).getLsbD 0).toNat + 2 * ((c.val 2 h).getLsbD 0).toNat + ((c.val 3 h).getLsbD 0).toNat)).toNat := by
  rw [← truth_eq_getLsbD, lanePlog, pure1]
  cases truth x.imm.toNat ((c.val 1 h).getLsbD 0) ((c.val 2 h).getLsbD 0) ((c.val 3 h).getLsbD 0) <;> rfl

/-- The top bit of a number of len bits says whether it is at least 2^(len−1). -/
theorem testBit_top_iff {len n : Nat} (hlen : len ≠ 0) (hn : n < 2 ^ len) : n.testBit (len - 1) = true ↔ 2 ^ (len - 1) ≤ n :=
  ⟨Nat.ge_two_pow_of_testBit, fun hle =>
    Nat.testBit_of_two_pow_le_and_two_pow_add_one_gt hle (by rwa [Nat.sub_add_cancel (by omega)])⟩

/-- BFE extracts a field, signed as T is (R80). -/
theorem laneBfe_val (x : XForm) (c : Ctx) (h : Nat) :
    let pos := (c.val 2 h).toNat % 256
    let len := (c.val 2 h).toNat / 256 % 256
    let v := (c.elem x.t 1 h 0).fdiv (2 ^ pos) % 2 ^ len
    ((laneBfe x c h).val.toNat : Int) = if len = 0 then 0
      else (if signedT x.t.toNat ∧ 2 ^ (len - 1) ≤ v then v - 2 ^ len else v) % 2 ^ elemW x.t.toNat := by
  intro pos len v
  have hv : c.elem x.t 1 h 0 / (2 ^ pos : Nat) % (2 ^ len : Nat) = v := by
    simp only [v, Int.fdiv_eq_ediv_of_nonneg _ (show (0 : Int) ≤ 2 ^ pos by positivity)]
    norm_cast
  have hlane : (laneBfe x c h).val = if len = 0 then 0 else
      BitVec.ofNat 64 (intMod (elemW x.t.toNat)
        (if (signedT x.t.toNat && v.toNat.testBit (len - 1)) = true then v - (2 ^ len : Nat) else v)) := by
    rw [← hv]
    rfl
  rw [hlane]
  by_cases hlen : len = 0
  · rw [if_pos hlen, if_pos hlen]
    rfl
  · have hnonneg : 0 ≤ v := Int.emod_nonneg _ (by positivity)
    have hlt : v < 2 ^ len := Int.emod_lt_of_pos _ (by positivity)
    have htop := testBit_top_iff (n := v.toNat) hlen (by zify; rwa [Int.toNat_of_nonneg hnonneg])
    have hle : 2 ^ (len - 1) ≤ v.toNat ↔ (2 : Int) ^ (len - 1) ≤ v := by zify; rw [Int.toNat_of_nonneg hnonneg]
    rw [if_neg hlen, if_neg hlen, toNat_ofNat_intMod]
    simp only [Bool.and_eq_true, htop, hle, Nat.cast_pow, Nat.cast_ofNat]

/-- The bits of BFI's mask. -/
theorem getLsbD_fieldMask {w k : Nat} (hw : w ≤ 64) (hk : k < w) (pos len : Nat) :
    (BitVec.ofNat 64 ((2 ^ len - 1) * 2 ^ pos % 2 ^ w)).getLsbD k = decide (pos ≤ k ∧ k < pos + len) := by
  rw [BitVec.getLsbD_ofNat, Nat.testBit_mod_two_pow, Nat.testBit_mul_two_pow, Nat.testBit_two_pow_sub_one,
    decide_eq_true hk, decide_eq_true (show k < 64 by omega), Bool.true_and, Bool.true_and, ← Bool.decide_and]
  exact decide_eq_decide.2 (by omega)

/-- The bits of a value with a field replaced. -/
theorem getLsbD_insertField {w k : Nat} (hw : w ≤ 64) (hk : k < w) (pos len : Nat) (a b : W64) :
    ((a &&& ~~~BitVec.ofNat 64 ((2 ^ len - 1) * 2 ^ pos % 2 ^ w)) |||
        (BitVec.ofNat 64 (b.toNat * 2 ^ pos) &&& BitVec.ofNat 64 ((2 ^ len - 1) * 2 ^ pos % 2 ^ w))).getLsbD k =
      if pos ≤ k ∧ k < pos + len then b.getLsbD (k - pos) else a.getLsbD k := by
  have hk64 : k < 64 := by omega
  have hins : (BitVec.ofNat 64 (b.toNat * 2 ^ pos)).getLsbD k = (decide (pos ≤ k) && b.getLsbD (k - pos)) := by
    rw [BitVec.getLsbD_ofNat, Nat.testBit_mul_two_pow, decide_eq_true hk64, Bool.true_and]
    rfl
  rw [BitVec.getLsbD_or, BitVec.getLsbD_and, BitVec.getLsbD_and, BitVec.getLsbD_not, getLsbD_fieldMask hw hk, hins]
  split_ifs with hin
  · simp [hin]
  · simp only [decide_eq_false hin, hk64, decide_true, Bool.not_false, Bool.and_true, Bool.and_false, Bool.or_false]

/-- BFI puts the low bits of B into a field of A (R81). -/
theorem laneBfi_bit (x : XForm) (c : Ctx) (h : Nat) {k : Nat} (hk : k < elemW x.t.toNat) :
    let pos := (c.val 3 h).toNat % 256
    let len := (c.val 3 h).toNat / 256 % 256
    (laneBfi x c h).val.getLsbD k =
      if pos ≤ k ∧ k < pos + len then (c.val 2 h).getLsbD (k - pos) else (c.val 1 h).getLsbD k :=
  getLsbD_insertField (elemW_le _) hk _ _ _ _

/-- A function of A's bits whose result is at most the width. -/
theorem laneBits_val (x : XForm) {f : Nat → Nat → Nat} (hf : ∀ w a, f w a ≤ w) (c : Ctx) (h : Nat) :
    (laneBits x f c h).val.toNat = f (elemW x.t.toNat) (elemNat x.t.toNat 0 (c.val 1 h)) := by
  have hle := (hf (elemW x.t.toNat) (elemNat x.t.toNat 0 (c.val 1 h))).trans (elemW_le _)
  exact toNat_ofNat_of_lt le_rfl (by omega)

theorem popcNat_eq (w a : Nat) : popcNat w a = ((List.range w).filter a.testBit).length := List.countP_eq_length_filter

theorem popcNat_le (w a : Nat) : popcNat w a ≤ w := List.countP_le_length.trans_eq List.length_range

theorem clzNat_le (w a : Nat) : clzNat w a ≤ w := by
  unfold clzNat
  split_ifs <;> omega

/-- The leading zeros of a number of width w: as many as it could be shifted left. -/
theorem clzNat_spec {w a : Nat} (ha : a < 2 ^ w) :
    a < 2 ^ (w - clzNat w a) ∧ (clzNat w a < w → 2 ^ (w - clzNat w a - 1) ≤ a) := by
  unfold clzNat
  split_ifs with h0
  · simp [h0]
  · have hlog : a.log2 < w := (Nat.log2_lt h0).2 ha
    rw [show w - (w - 1 - a.log2) = a.log2 + 1 by omega]
    exact ⟨Nat.lt_log2_self, fun _ => Nat.log2_self_le h0⟩

theorem ctzNat_le (w a : Nat) : ctzNat w a ≤ w := by
  unfold ctzNat
  cases hfind : (List.range w).find? a.testBit with
  | none => exact le_rfl
  | some n => exact (List.mem_range.1 (List.mem_of_find?_eq_some hfind)).le

/-- A number whose bits below k are zero is a multiple of 2^k. -/
theorem mod_two_pow_eq_zero {a k : Nat} (hlow : ∀ j < k, a.testBit j = false) : a % 2 ^ k = 0 :=
  Nat.eq_of_testBit_eq fun j => by
    rw [Nat.testBit_mod_two_pow, Nat.zero_testBit, Bool.and_eq_false_iff, decide_eq_false_iff_not]
    exact (lt_or_ge j k).elim (fun hj => .inr (hlow j hj)) fun hj => .inl (by omega)

/-- The trailing zeros of a number: the index of its lowest one. -/
theorem ctzNat_spec (w a : Nat) : a % 2 ^ ctzNat w a = 0 ∧ (ctzNat w a < w → a.testBit (ctzNat w a) = true) := by
  unfold ctzNat
  cases hfind : (List.range w).find? a.testBit with
  | none =>
    refine ⟨mod_two_pow_eq_zero fun j hj => ?_, fun hlt => absurd hlt (lt_irrefl w)⟩
    exact (Bool.not_eq_true' _).mp (List.find?_range_eq_none.1 hfind j hj)
  | some n =>
    obtain ⟨hbit, -, hlow⟩ := List.find?_range_eq_some.1 hfind
    exact ⟨mod_two_pow_eq_zero fun j hj => (Bool.not_eq_true' _).mp (hlow j hj), fun _ => hbit⟩

/-! ## Comparisons and choices (R84, R85) -/

/-- The six conditions of R84. -/
theorem intCond_iff {cc : BitVec 9} (hcc : cc.toNat ≤ 5) (a b : Int) : intCond cc.toNat a b = true ↔
    (cc = 0 ∧ a = b) ∨ (cc = 1 ∧ a ≠ b) ∨ (cc = 2 ∧ a < b) ∨ (cc = 3 ∧ a ≤ b) ∨ (cc = 4 ∧ b < a) ∨ (cc = 5 ∧ b ≤ a) := by
  have hcases : cc = 0 ∨ cc = 1 ∨ cc = 2 ∨ cc = 3 ∨ cc = 4 ∨ cc = 5 := by bv_omega
  obtain rfl | rfl | rfl | rfl | rfl | rfl := hcases <;> simp [intCond]

/-- ICMP and ISET give 1 where the condition holds, else 0 (R84). -/
theorem laneIcmp_val (x : XForm) (c : Ctx) (h : Nat) {P : Prop}
    (hP : intCond x.c.toNat (c.elem x.t 1 h 0) (c.elem x.t 2 h 0) = true ↔ P) :
    ((laneIcmp x c h).val = 1 ↔ P) ∧ ((laneIcmp x c h).val = 0 ↔ ¬P) := by
  have hval : (laneIcmp x c h).val = if intCond x.c.toNat (c.elem x.t 1 h 0) (c.elem x.t 2 h 0) = true then 1 else 0 := rfl
  rw [hval, ← hP]
  split_ifs with hc <;> simp [hc]

/-- The low word of a value is zero. -/
theorem setWidth_eq_zero_iff (v : W64) : v.setWidth 32 = 0#32 ↔ v.toNat % 2 ^ 32 = 0 := by
  rw [BitVec.toNat_eq, BitVec.toNat_setWidth]
  rfl

/-- SEL chooses B where the low word of C is zero (R85). -/
theorem laneSel_val (c : Ctx) (h : Nat) :
    (laneSel c h).val = if (c.val 3 h).toNat % 2 ^ 32 = 0 then c.val 2 h else c.val 1 h := by
  simp only [laneSel, pure1, ← setWidth_eq_zero_iff, bne_iff_ne, ne_eq, ite_not]

end Sys2Proof.Machine

open Sys2Proof Sys2Proof.Machine

/-- The bitwise words give their lanes' bits, fields and counts (R79 to R82, R86). -/
theorem bitwiseInstructions : Statements.BitwiseInstructions := fun x =>
  ⟨delivers_of _ (fun _ => rfl) (fun _ _ => rfl) fun _ c _ h => ⟨rfl, fun _ hk => laneLogic_bit x c h hk⟩,
    delivers_of _ (fun _ => rfl) (fun _ _ => rfl) fun _ c _ h => ⟨rfl, lanePlog_val x c h⟩,
    delivers_of _ (fun _ => rfl) (fun _ _ => rfl) fun _ c _ h => ⟨rfl, laneBfe_val x c h⟩,
    delivers_of _ (fun _ => rfl) (fun _ _ => rfl) fun _ c _ h => ⟨rfl, fun _ hk => laneBfi_bit x c h hk⟩,
    delivers_of _ (fun _ => rfl) (fun _ _ => rfl) fun _ c _ h =>
      ⟨rfl, (laneBits_val x popcNat_le c h).trans (popcNat_eq _ _)⟩,
    delivers_of _ (fun _ => rfl) (fun _ _ => rfl) fun _ c _ h => ⟨rfl, by
      rw [laneBits_val x clzNat_le]
      exact ⟨clzNat_le _ _, clzNat_spec (elemNat_lt _ _ _)⟩⟩,
    delivers_of _ (fun _ => rfl) (fun _ _ => rfl) fun _ c _ h => ⟨rfl, by
      rw [laneBits_val x ctzNat_le]
      exact ⟨ctzNat_le _ _, ctzNat_spec _ _⟩⟩,
    delivers_of _ (fun _ => rfl) (fun _ _ => rfl) fun _ c _ h => ⟨rfl, fun _ hk => getLsbD_ofNat_bitsOf (elemW_le _) hk _⟩⟩

/-- Comparisons, SEL and the moves give their lanes' values (R84, R85, R87, R88). -/
theorem compareSelectMove : Statements.CompareSelectMove :=
  ⟨fun x =>
    ⟨delivers_of _ (fun _ => rfl) (fun _ _ => rfl) fun _ c _ h => ⟨rfl, fun hcc => laneIcmp_val x c h (intCond_iff hcc _ _)⟩,
      delivers_of _ (fun _ => rfl) (fun _ _ => rfl) fun _ c _ h => ⟨rfl, fun hcc => laneIcmp_val x c h (intCond_iff hcc _ _)⟩,
      delivers_of _ (fun _ => rfl) (fun _ _ => rfl) fun _ c _ h => ⟨rfl, laneSel_val c h⟩,
      delivers_of _ (fun _ => rfl) (fun _ _ => rfl) fun _ _ _ _ => ⟨rfl, rfl⟩⟩,
    fun _ => delivers_of _ (fun _ => rfl) (fun _ _ => rfl) fun _ _ _ _ => ⟨rfl, BitVec.toNat_setWidth_of_le (by norm_num)⟩⟩

/-- Settles O12: the lane functions give these values, and no flag. -/
theorem bitsComparisonsAndMoves : Obligations.BitsComparisonsAndMoves := ⟨bitwiseInstructions, compareSelectMove⟩

end

section
/-! # Byte permute (O13) -/

namespace Sys2Proof.Machine

/-- The eight bytes that PRMT chooses from: A's, then B's (R83). -/
theorem prmtSource_byte (a b : Nat) {s : Nat} (hs : s < 8) :
    (a % 2 ^ 32 + b % 2 ^ 32 * 2 ^ 32) / 256 ^ s % 256 = if s < 4 then a / 256 ^ s % 256 else b / 256 ^ (s - 4) % 256 := by
  interval_cases s <;> norm_num <;> omega

/-- A byte of PRMT's result is a byte. -/
theorem prmtByte_lt (src f : Nat) : prmtByte src f < 256 := by
  have hbyte : src / 256 ^ (f % 8) % 256 < 256 := Nat.mod_lt _ (by norm_num)
  unfold prmtByte
  dsimp only
  split
  case h_2 => exact (bitsOf_spec 8 _).1
  case h_5 => split_ifs <;> norm_num
  all_goals omega

/-- What the upper three bits of a field say of the byte b that the lower three name (R83). -/
theorem prmtByte_spec {src f b r : Nat} (hbyte : src / 256 ^ (f % 8) % 256 = b) (hr : r = prmtByte src f) :
    (f / 8 = 0 → r = b) ∧
    (f / 8 = 1 → ∀ j, j < 8 → r.testBit j = b.testBit (7 - j)) ∧
    (f / 8 = 2 → r = b % 16 + 16 * (b % 16)) ∧
    (f / 8 = 3 → r = b / 16 + 16 * (b / 16)) ∧
    (f / 8 = 4 → r = if b.testBit 7 then 0xFF else 0) ∧
    (f / 8 = 5 → r = 0) ∧
    (f / 8 = 6 → r = 0xFF) ∧
    (f / 8 = 7 → r = b - b % 16) := by
  have hb : b < 2 ^ 8 := hbyte ▸ Nat.mod_lt _ (by norm_num)
  refine ⟨fun hm => ?copy, fun hm j hj => ?reverse, fun hm => ?low, fun hm => ?high, fun hm => ?sign, fun hm => ?zero,
    fun hm => ?ones, fun hm => ?clear⟩
  all_goals simp only [prmtByte, hm, hbyte] at hr
  case copy | zero | ones => exact hr
  case reverse => rw [hr, (bitsOf_spec 8 _).2, decide_eq_true hj, Bool.true_and]
  case sign => exact hr.trans (if_congr (testBit_top_iff (len := 8) (by norm_num) hb).symm rfl rfl)
  case low | high | clear => omega

/-- The bytes of a sum of shifted bytes, and its size. -/
theorem bytes_sum (n : Nat) (f : Nat → Nat) (hf : ∀ k, f k < 256) :
    (List.range n).foldl (fun r k => r + f k * 256 ^ k) 0 < 256 ^ n ∧
      ∀ k, k < n → (List.range n).foldl (fun r k => r + f k * 256 ^ k) 0 / 256 ^ k % 256 = f k := by
  simpa only [Nat.pow_mul, Nat.reducePow] using digits_sum 8 n f hf

/-- PRMT's result has four bytes, byte k the one of field k of C (R83). -/
theorem lanePrmt_byte (c : Ctx) (h : Nat) :
    (lanePrmt c h).val.toNat < 2 ^ 32 ∧ ∀ k, k < 4 → (lanePrmt c h).val.toNat / 256 ^ k % 256 =
      prmtByte ((c.val 1 h).toNat % 2 ^ 32 + (c.val 2 h).toNat % 2 ^ 32 * 2 ^ 32) ((c.val 3 h).toNat / 64 ^ k % 64) := by
  obtain ⟨hlt, hbytes⟩ := bytes_sum 4 _ (fun k => prmtByte_lt
    ((c.val 1 h).toNat % 2 ^ 32 + (c.val 2 h).toNat % 2 ^ 32 * 2 ^ 32) ((c.val 3 h).toNat / 64 ^ k % 64))
  have hval := toNat_ofNat_of_lt (w := 32) (by norm_num) hlt
  rw [← hval] at hlt hbytes
  exact ⟨hlt, hbytes⟩

end Sys2Proof.Machine

open Sys2Proof Sys2Proof.Machine

/-- Settles O13: the result's bytes are its digits, and each is what its field says. -/
theorem bytePermute : Obligations.BytePermute := fun x =>
  delivers_of _ (fun _ => rfl) (fun _ _ => rfl) fun _ c _ h => by
    obtain ⟨hlt, hbyte⟩ := lanePrmt_byte c h
    refine ⟨rfl, hlt, fun k hk => ?_⟩
    rw [show 2 ^ (6 * k) = 64 ^ k from Nat.pow_mul 2 6 k]
    exact prmtByte_spec (prmtSource_byte _ _ (Nat.mod_lt _ (by norm_num))) (hbyte k hk)

end

section
/-! # Lane exchange, votes and CLOCK (O14) -/

namespace Sys2Proof.Machine

/-! ## SHFL (R92) -/

theorem laneShfl_eq (x : XForm) (c : Ctx) (h : Nat) : laneShfl x c h =
    pure1 ((shflLane (x.c.toNat % 4) (x.c.toNat / 4 % 8) h ((c.val 2 h).toNat % 2 ^ 32)).elim 0 (c.val 1)) := by
  unfold laneShfl
  cases shflLane (x.c.toNat % 4) (x.c.toNat / 4 % 8) h ((c.val 2 h).toNat % 2 ^ 32) <;> rfl

/-- SHFL raises no flag. -/
theorem laneShfl_flags (x : XForm) (c : Ctx) (h : Nat) : (laneShfl x c h).flags = 0 := by
  rw [laneShfl_eq]
  rfl

/-- SHFL gives A of the lane that its mode names, or zero outside the segment under .SHIFT (R92). -/
theorem laneShfl_val (x : XForm) (c : Ctx) (h : Nat) :
    let n := (c.val 2 h).toNat % 2 ^ 32
    let sz := 2 ^ (x.c.toNat / 4 % 8 + 1)
    let b := h - h % sz
    let j : Int := (h : Int) + sext 32 n
    (x.c.toNat % 4 = 0 → (laneShfl x c h).val = c.val 1 (b + n % sz)) ∧
    (x.c.toNat % 4 = 1 → (laneShfl x c h).val = c.val 1 (b + (h - b + n) % sz)) ∧
    (x.c.toNat % 4 = 2 → (laneShfl x c h).val = c.val 1 (h ^^^ (n % sz))) ∧
    (x.c.toNat % 4 = 3 → (laneShfl x c h).val = if (b : Int) ≤ j ∧ j < b + sz then c.val 1 j.toNat else 0) := by
  intro n sz b j
  rw [laneShfl_eq]
  refine ⟨fun hm => by rw [hm]; rfl, fun hm => by rw [hm]; rfl, fun hm => by rw [hm]; rfl, fun hm => ?_⟩
  have hlane : shflLane 3 (x.c.toNat / 4 % 8) h n = if (b : Int) ≤ j ∧ j < (b + sz : Nat) then some j.toNat else none := rfl
  rw [hm, hlane, Nat.cast_add]
  split_ifs <;> rfl

/-! ## BALLOT and VOTE (R93, R94) -/

/-- A bit of BALLOT's mask is an active lane whose A is nonzero (R93). -/
theorem laneBallot_bit (c : Ctx) (h : Nat) {k : Nat} (hk : k < 64) :
    (laneBallot c h).val.getLsbD k = true ↔ k ∈ c.act ∧ (c.val 1 k).toNat % 2 ^ 32 ≠ 0 := by
  refine (getLsbD_maskOf _ hk).trans ?_
  rw [Ctx.votes, List.mem_filter, bne_iff_ne, ne_eq, setWidth_eq_zero_iff]

/-- The lanes of a mask are at most 64. -/
theorem length_lanesOf_le (m : W64) (n : Nat) : (lanesOf m n).length ≤ 64 := by
  have hsub : lanesOf m n ⊆ List.range 64 := fun h hh =>
    List.mem_range.2 (BitVec.lt_of_getLsbD (List.mem_filter.1 hh).2)
  exact ((List.nodup_range.filter _).subperm hsub).length_le.trans_eq List.length_range

/-- At most 64 lanes are active. -/
theorem Ctx.length_act_le (c : Ctx) : c.act.length ≤ 64 :=
  (List.length_filter_le _ _).trans (length_lanesOf_le _ _)

theorem Ctx.length_votes_le (c : Ctx) (p : W64 → Bool) : (c.votes p).length ≤ c.act.length := List.length_filter_le _ _

theorem boolNat_le_one (b : Bool) : boolNat b ≤ 1 := by cases b <;> decide

/-- No VOTE counts more than 64 lanes. -/
theorem voteOf_le (c : Ctx) (x : XForm) : voteOf c x ≤ 64 := by
  have hact := c.length_act_le
  have hyes := c.length_votes_le (fun v => v != 0)
  have hbool (b : Bool) : boolNat b ≤ 64 := (boolNat_le_one b).trans (by norm_num)
  unfold voteOf
  dsimp only
  split
  case h_4 => omega
  all_goals exact hbool _

/-- VOTE gives the summary of its mode, and a predicate whether that is nonzero (R94). -/
theorem laneVote_val (x : XForm) (c : Ctx) (h : Nat) {v : Nat} (hv : voteOf c x = v) : (laneVote x c h).val.toNat =
    if 0x144 ≤ x.d.toNat ∧ x.d.toNat < 0x14C then (if v = 0 then 0 else 1) else v := by
  have hle : v ≤ 64 := hv ▸ voteOf_le c x
  have hnonzero : boolNat (v != 0) = if v = 0 then 0 else 1 := by simp only [boolNat, bne_iff_ne, ne_eq, ite_not]
  simp only [laneVote, pure1, hv, hnonzero]
  exact toNat_ofNat_of_lt le_rfl (by split_ifs <;> omega)

/-- The number of lanes of the path that vote yes. -/
theorem Ctx.length_votes_eq (c : Ctx) : (c.votes (fun v => v != 0)).length = (c.act.filter (fun k => c.val 1 k ≠ 0)).length :=
  congrArg List.length (List.filter_congr fun _ _ => Bool.eq_iff_iff.2 (by simp))

/-- Every lane votes yes. -/
theorem Ctx.votes_all_iff (c : Ctx) (p : W64 → Bool) :
    (c.votes p).length = c.act.length ↔ ∀ k ∈ c.act, p (c.val 1 k) = true := List.length_filter_eq_length_iff

/-- Some lane votes yes. -/
theorem Ctx.votes_pos_iff (c : Ctx) (p : W64 → Bool) :
    0 < (c.votes p).length ↔ ∃ k ∈ c.act, p (c.val 1 k) = true := List.length_filter_pos_iff

/-- A's values agree with that of the first active lane exactly when they agree with one another. -/
theorem Ctx.agree_iff (c : Ctx) :
    (∀ k ∈ c.act, c.val 1 k = c.uval 1) ↔ ∀ k ∈ c.act, ∀ j ∈ c.act, c.val 1 k = c.val 1 j := by
  refine ⟨fun hfirst k hk j hj => (hfirst k hk).trans (hfirst j hj).symm, fun hall k hk => hall k hk _ ?_⟩
  rw [List.head?_eq_some_head (List.ne_nil_of_mem hk)]
  exact List.head_mem _

/-- The summary that VOTE forms in each mode (R94). -/
theorem voteOf_eq (c : Ctx) (x : XForm) :
    let set := (c.act.filter (fun k => c.val 1 k ≠ 0)).length
    (x.c = 0 → voteOf c x = if ∀ k ∈ c.act, c.val 1 k ≠ 0 then 1 else 0) ∧
    (x.c = 1 → voteOf c x = if ∃ k ∈ c.act, c.val 1 k ≠ 0 then 1 else 0) ∧
    (x.c = 2 → voteOf c x = if ∀ k ∈ c.act, ∀ j ∈ c.act, c.val 1 k = c.val 1 j then 1 else 0) ∧
    (x.c = 3 → voteOf c x = set % 2 ^ 64) ∧
    (x.c = 4 → voteOf c x = if c.act.length - set < set then 1 else 0) := by
  intro set
  have hset : (c.votes (fun v => v != 0)).length = set := c.length_votes_eq
  have hle : set ≤ 64 := (List.length_filter_le _ _).trans c.length_act_le
  refine ⟨fun hm => ?all, fun hm => ?any, fun hm => ?uniform, fun hm => ?count, fun hm => ?majority⟩
  all_goals simp only [voteOf, hm]
  case all => exact if_congr (beq_iff_eq.trans (by rw [c.votes_all_iff]; simp only [bne_iff_ne])) rfl rfl
  case any => exact if_congr (decide_eq_true_iff.trans (by rw [c.votes_pos_iff]; simp only [bne_iff_ne])) rfl rfl
  case uniform => exact if_congr (beq_iff_eq.trans (by rw [c.votes_all_iff, ← c.agree_iff]; simp only [beq_iff_eq])) rfl rfl
  case count => exact hset.trans (Nat.mod_eq_of_lt (by omega)).symm
  case majority => exact if_congr (decide_eq_true_iff.trans (by rw [hset]; omega)) rfl rfl

/-! ## CLOCK (R114) -/

/-- CLOCK gives the counter of the issuing core that C names, cut to 32 bits for the narrow types (R114). -/
theorem laneClock_val (x : XForm) (c : Ctx) (h : Nat) :
    let n := if x.c = 0 then c.s.cycle c.core else c.s.time (c.core / 64)
    (laneClock x c h).val = if wideT x.t.toNat then n else (n.setWidth 32).setWidth 64 := by
  intro n
  rw [← and_ones_eq_setWidth]
  rfl

end Sys2Proof.Machine

open Sys2Proof Sys2Proof.Machine

/-- Settles O14: the lane functions give these values, and no flag. -/
theorem laneExchangeAndClock : Obligations.LaneExchangeAndClock := fun x =>
  ⟨delivers_of _ (fun _ => rfl) (laneShfl_flags x) fun _ c _ h => ⟨laneShfl_flags x c h, laneShfl_val x c h⟩,
    delivers_of _ (fun _ => rfl) (fun _ _ => rfl) fun _ c _ h => ⟨rfl, fun _ hk => laneBallot_bit c h hk⟩,
    delivers_of _ (fun _ => rfl) (fun _ _ => rfl) fun _ c _ h => ⟨rfl, by
      obtain ⟨hall, hany, huniform, hcount, hmajority⟩ := voteOf_eq c x
      exact ⟨fun hm => laneVote_val x c h (hall hm), fun hm => laneVote_val x c h (hany hm),
        fun hm => laneVote_val x c h (huniform hm), fun hm => laneVote_val x c h (hcount hm),
        fun hm => laneVote_val x c h (hmajority hm)⟩⟩,
    delivers_of _ (fun _ => rfl) (fun _ _ => rfl) fun _ _ _ _ => ⟨rfl, rfl⟩,
    delivers_of _ (fun _ => rfl) (fun _ _ => rfl) fun _ c _ h => ⟨rfl, laneClock_val x c h⟩⟩

end

section
/-! # Control transfers (O19) -/

namespace Sys2Proof.Machine

/-- A word whose effect keeps its group's single step completes with it (R427). -/
theorem issueWord_of_effect {s : State} {i : Instr} {c : Ctx} {sem : Ctx → Except TrapInfo Res} {r : Res} (h : s.issues i = some c)
    (hsem : sem c = .ok r) (hkeep : r.keep = false)
    (hstep : (r.s.group? c.g.gid).map Group.stepPath = (s.group? c.g.gid).map Group.stepPath) :
    done s (issueWord i sem s) = .next ((c.completes r).fused s) := by
  simp only [issueWord_of sem h, hsem, done_eq, State.finish_of_issues h hkeep hstep]

/-- An effect that a word may complete with: the fuses and its group's single step are as they were, and the path moves on. -/
def Ctx.Completable (c : Ctx) (r : Res) : Prop :=
  r.keep = false ∧ r.s.fuses = c.s.fuses ∧ (r.s.group? c.g.gid).map Group.stepPath = (c.s.group? c.g.gid).map Group.stepPath

/-- A word with such an effect completes with it. -/
theorem issueWord_of_ok {s : State} {i : Instr} {c : Ctx} {sem : Ctx → Except TrapInfo Res} {r : Res} (h : s.issues i = some c)
    (hsem : sem c = .ok r) (hr : c.Completable r) : done s (issueWord i sem s) = .next (c.completes r) := by
  obtain ⟨rfl, -⟩ := State.issues_ctx h
  obtain ⟨hkeep, hfuses, hstep⟩ := hr
  rw [issueWord_of_effect h hsem hkeep hstep]
  exact congrArg Host.Outcome.next (congrArg (fun f => { c.completes r with fuses := f }) hfuses.symm)

/-- The group of a word that issues is found by its own identifier. -/
theorem State.issues_group {s : State} {i : Instr} {c : Ctx} (h : s.issues i = some c) : s.group? c.g.gid = some c.g := by
  obtain ⟨-, -, hg, hgid, -⟩ := State.issues_ctx h
  rw [hgid, hg]

/-- The label of a branch: whole lines from the line of the branch, and a slot of that line (R99). -/
theorem branchTarget_eq (pc : W64) (loff : BitVec 21) (slot : BitVec 3) :
    branchTarget pc loff slot = lineBase pc + loff.signExtend 64 * 64 + BitVec.ofNat 64 (4 + 12 * slot.toNat) := by
  rw [branchTarget, BitVec.shiftLeft_eq_mul_twoPow]
  rfl

/-- The active lanes are in increasing order. -/
theorem Ctx.act_sorted (c : Ctx) : c.act.Pairwise (· < ·) :=
  (List.pairwise_lt_range.filter _).filter _

/-- The trap of a transfer names the target of the lowest lane whose target is illegal (R100). -/
theorem Ctx.transfer_of_bad {c : Ctx} {computed : Bool} {target : Nat → W64} {h : Nat} (r : Res) (hm : h ∈ c.act)
    (hbad : c.s.targetBad c.g.asid.toNat (target h) computed = true)
    (hlow : ∀ k ∈ c.act, k < h → ¬c.s.targetBad c.g.asid.toNat (target k) computed = true) :
    c.transfer computed target r = .error (c.trap 0x05 0 (target h)) := by
  obtain ⟨before, after, hact⟩ := List.append_of_mem hm
  have hsorted := hact ▸ c.act_sorted
  have hfind : c.act.find? (fun h => c.s.targetBad c.g.asid.toNat (target h) computed) = some h :=
    List.find?_eq_some_iff_append.2 ⟨hbad, before, after, hact, fun k hk => by
      have hlt : k < h := (List.pairwise_append.1 hsorted).2.2 k hk h List.mem_cons_self
      simpa using hlow k (hact ▸ List.mem_append_left _ hk) hlt⟩
  rw [Ctx.transfer, hfind]

theorem Ctx.transfer_of_good {c : Ctx} {computed : Bool} {target : Nat → W64} (r : Res)
    (hgood : ∀ h ∈ c.act, ¬c.s.targetBad c.g.asid.toNat (target h) computed = true) :
    c.transfer computed target r = .ok { r with pcs := c.act.map (fun h => (h, target h)) } := by
  rw [Ctx.transfer, List.find?_eq_none.2 hgood]

/-- A word that transfers moves its active lanes to their targets, or traps at an illegal one (R99 to R101). -/
theorem issueWord_of_transfer {s : State} {i : Instr} {c : Ctx} {sem : Ctx → Except TrapInfo Res} {computed : Bool}
    {target : Nat → W64} {r : Res} (h : s.issues i = some c) (hsem : sem c = c.transfer computed target r) (hr : c.Completable r) :
    let bad (h : Nat) : Prop := s.targetBad c.g.asid.toNat (target h) computed = true
    ((∀ h ∈ c.act, ¬bad h) →
      done s (issueWord i sem s) = .next (c.completes { r with pcs := c.act.map (fun h => (h, target h)) })) ∧
    ∀ h ∈ c.act, bad h → (∀ k ∈ c.act, k < h → ¬bad k) →
      done s (issueWord i sem s) = .next ((c.traps (c.trap 0x05 0 (target h))).fused s) := by
  obtain ⟨rfl, -⟩ := State.issues_ctx h
  exact ⟨fun hgood => issueWord_of_ok h (hsem.trans (Ctx.transfer_of_good r hgood)) hr,
    fun k hm hbad hlow => issueWord_of_error h (hsem.trans (Ctx.transfer_of_bad r hm hbad hlow))⟩

theorem Ctx.completable_plain (c : Ctx) : c.Completable { s := c.s } := ⟨rfl, rfl, rfl⟩

/-- The link of a call goes to D and the latches of the group (R101). -/
theorem Ctx.completable_link {s : State} {i : Instr} {c : Ctx} (h : s.issues i = some c) : c.Completable c.link := by
  obtain ⟨rfl, -⟩ := State.issues_ctx h
  refine ⟨rfl, rfl, ?_⟩
  rw [Ctx.link, State.group_mod, if_pos rfl, State.issues_group h]
  exact congrArg some (Ctx.write_stepPath c _ _)

end Sys2Proof.Machine

open Sys2Proof Sys2Proof.Machine

/-- R99 to R101: the five transfers differ in their targets and in the link. -/
theorem branchesAndCalls : Statements.BranchesAndCalls := by
  intro b x label plain link moves
  have hlabel (c : Ctx) : (fun _ => branchTarget c.pc b.loff b.slot) = label c := funext fun _ => branchTarget_eq ..
  refine ⟨fun s c h => ?_, fun s c h => ?_, fun s c h => ?_, fun s c h => ?_, fun s c h => ?_⟩
  · exact issueWord_of_transfer h (congrArg (c.transfer false · _) (hlabel c)) c.completable_plain
  · exact issueWord_of_transfer h (congrArg (c.transfer false · _) (hlabel c)) (Ctx.completable_link h)
  · exact issueWord_of_transfer h rfl c.completable_plain
  · exact issueWord_of_transfer h rfl c.completable_plain
  · exact issueWord_of_transfer h rfl (Ctx.completable_link h)

/-- R17, R18, R100: the checks of a target, in order. -/
theorem illegalTargets : Statements.IllegalTargets := by
  intro s asid a computed
  unfold State.targetBad
  cases hslot : slotOf a with
  | none => simp
  | some k =>
    simp only [Bool.or_eq_true, Bool.and_eq_true, beyond57, decide_eq_true_eq, reduceCtorEq, Option.some.injEq, false_or]
    refine or_congr_right ?_
    cases s.codeLine asid (lineBase a).toNat with
    | error e => simp
    | ok l => simp [and_assoc]

/-- Settles O19: the transfers, then the targets that are illegal. -/
theorem controlTransfers : Obligations.ControlTransfers := ⟨branchesAndCalls, illegalTargets⟩

end

section
/-! # Threads (O20) -/

namespace Sys2Proof.Machine

/-! ## The back-off generator (R111) -/

theorem lfsrSteps_add (m n : Nat) (v : W32) : lfsrSteps (m + n) v = lfsrSteps n (lfsrSteps m v) := by
  induction m generalizing v with
  | zero => rw [Nat.zero_add]; rfl
  | succ m ih => rw [Nat.succ_add]; exact ih _

/-- The generator of a core stands at v. -/
def State.setLfsr (s : State) (core : Nat) (v : W32) : State :=
  { s with cores := modNth s.cores core (fun k => { k with lfsr := v }) }

theorem State.core_setLfsr {s : State} {core : Nat} {k : Core} (hk : s.cores[core]? = some k) (v : W32) :
    (s.setLfsr core v).cores[core]? = some { k with lfsr := v } := by
  simp [State.setLfsr, modNth, List.getElem?_mapIdx, hk]

theorem State.cycle_setLfsr {s : State} {core : Nat} {k : Core} (hk : s.cores[core]? = some k) (v : W32) :
    (s.setLfsr core v).cycle core = k.cycle := by
  rw [State.cycle, State.core_setLfsr hk]

/-- A thread that waits for the number its lane has drawn from a generator at v, in a cycle of the core. -/
def Ctx.drawn (c : Ctx) (now : W64) (v : W32) (h : Nat) (y : Thread) : Thread :=
  { y with blockedUntil := now + BitVec.ofNat 64 (backoffCycles (c.val 1 h) v), wait := .backoff }

/-- One lane draws: the generator steps 16 times and the lane waits for the number drawn. -/
def Ctx.drawLane (c : Ctx) (s : State) (h : Nat) : State :=
  let x := lfsrSteps 16 (((s.core? c.core).map (·.lfsr)).getD 0)
  (s.setLfsr c.core x).modGroup c.g.gid (fun g => g.modThreads (fun j => j = h) (fun _ => c.drawn ((s.setLfsr c.core x).cycle c.core) x h))

theorem backoffIssue_eq (c : Ctx) : backoffIssue c = .ok { s := c.act.foldl c.drawLane c.s } := rfl

theorem Ctx.drawLane_eq (c : Ctx) {s : State} {k : Core} (hk : s.cores[c.core]? = some k) (h : Nat) :
    c.drawLane s h = (s.setLfsr c.core (lfsrSteps 16 k.lfsr)).modGroup c.g.gid
      (fun g => g.modThreads (fun j => j = h) (fun _ => c.drawn k.cycle (lfsrSteps 16 k.lfsr) h)) := by
  have hlfsr : ((s.core? c.core).map (·.lfsr)).getD 0 = k.lfsr := by rw [State.core?, hk]; rfl
  rw [Ctx.drawLane, hlfsr, State.cycle_setLfsr hk]

/-- The lanes of a list have drawn, one after another: only the generator of the core and those lanes of the group differ, and the
n-th lane waits for the number drawn after 16 × (n + 1) steps. -/
structure Ctx.Drew (c : Ctx) (l : List Nat) (s t : State) (k : Core) (g g' : Group) : Prop where
  rest : { t with groups := s.groups, cores := s.cores } = s
  core : t.cores[c.core]? = some { k with lfsr := lfsrSteps (16 * l.length) k.lfsr }
  others : ∀ j, j ≠ c.core → t.cores[j]? = s.cores[j]?
  group : t.group? c.g.gid = some g'
  frame : { g' with threads := g.threads } = g
  idle : ∀ h, h ∉ l → g'.threads[h]? = g.threads[h]?
  waits : ∀ n h : Nat, l[n]? = some h →
    g'.threads[h]? = (g.threads[h]?).map (c.drawn k.cycle (lfsrSteps (16 * (n + 1)) k.lfsr) h)

theorem Ctx.drew_nil (c : Ctx) {s : State} {k : Core} {g : Group} (hk : s.cores[c.core]? = some k) (hg : s.group? c.g.gid = some g) :
    c.Drew [] s s k g g :=
  ⟨rfl, hk, fun _ _ => rfl, hg, rfl, fun _ _ => rfl, fun n h hn => by simp at hn⟩

/-- The first lane draws, then the others. -/
theorem Ctx.Drew.cons {c : Ctx} {h : Nat} {l : List Nat} {s t : State} {k : Core} {g g' : Group} (hk : s.cores[c.core]? = some k)
    (hl : h ∉ l)
    (hrest : c.Drew l (c.drawLane s h) t { k with lfsr := lfsrSteps 16 k.lfsr }
      (g.modThreads (fun j => j = h) (fun _ => c.drawn k.cycle (lfsrSteps 16 k.lfsr) h)) g') :
    c.Drew (h :: l) s t k g g' where
  rest := (congrArg (fun u : State => { u with groups := s.groups, cores := s.cores }) hrest.rest :).trans
    (by rw [c.drawLane_eq hk]; rfl)
  core := by rw [hrest.core, List.length_cons, Nat.mul_succ, Nat.add_comm, lfsrSteps_add]
  others := fun j hj => by
    rw [hrest.others j hj, c.drawLane_eq hk]
    simp [State.setLfsr, modNth, List.getElem?_mapIdx, hj]
  group := hrest.group
  frame := (congrArg (fun x : Group => { x with threads := g.threads }) hrest.frame :)
  idle := fun j hj => by
    rw [List.mem_cons, not_or] at hj
    obtain ⟨hne, hj⟩ := hj
    rw [hrest.idle j hj, Group.modThreads_getElem?]
    simp [hne]
  waits := fun n j hn => by
    cases n with
    | zero =>
      obtain rfl : h = j := by simpa using hn
      rw [hrest.idle h hl, Group.modThreads_getElem?]
      simp
    | succ n =>
      rw [List.getElem?_cons_succ] at hn
      have hne : j ≠ h := fun e => hl (e ▸ List.mem_of_getElem? hn)
      rw [hrest.waits n j hn, Group.modThreads_getElem?, ← lfsrSteps_add, show 16 + 16 * (n + 1) = 16 * (n + 1 + 1) by omega]
      simp [hne]

/-- Distinct lanes draw one after another. -/
theorem Ctx.drew_foldl (c : Ctx) {l : List Nat} (hl : l.Nodup) {s : State} {k : Core} {g : Group} (hk : s.cores[c.core]? = some k)
    (hg : s.group? c.g.gid = some g) : ∃ g', c.Drew l s (l.foldl c.drawLane s) k g g' := by
  induction l generalizing s k g with
  | nil => exact ⟨g, c.drew_nil hk hg⟩
  | cons h l ih =>
    obtain ⟨hh, hl⟩ := List.nodup_cons.1 hl
    have hcore : (c.drawLane s h).cores[c.core]? = some { k with lfsr := lfsrSteps 16 k.lfsr } := by
      rw [c.drawLane_eq hk]
      exact State.core_setLfsr hk _
    have hgroup : (c.drawLane s h).group? c.g.gid =
        some (g.modThreads (fun j => j = h) (fun _ => c.drawn k.cycle (lfsrSteps 16 k.lfsr) h)) := by
      rw [c.drawLane_eq hk]
      exact State.group_mod_self (s := s.setLfsr c.core (lfsrSteps 16 k.lfsr)) hg rfl
    obtain ⟨g', hrest⟩ := ih hl hcore hgroup
    exact ⟨g', .cons hk hh hrest⟩

end Sys2Proof.Machine

open Sys2Proof Sys2Proof.Machine

/-- R103, R106 to R108, R112: each effect is an update of the group's threads. -/
theorem threadStates : Statements.ThreadStates := by
  intro b x label old
  refine ⟨fun hb s c h => ?_, fun hb s c h => ?_, fun hb s c h => ?_, fun hb s c h => ?_, fun s c h => issueWord_of_modGroup h rfl rfl,
    fun s c h => issueWord_of_modGroup h rfl rfl, fun s c h => issueWord_of_modGroup h rfl rfl, fun s c h => ?_⟩
  · refine issueWord_of_modGroup h ?_ rfl
    simp only [setmeetIssue, hb, branchTarget_eq]
    rfl
  · refine issueWord_of_modGroup h ?_ ?_
    · simp only [setmeetIssue, hb, branchTarget_eq]
      rfl
    · exact Group.writeDest_stepPath ..
  · refine issueWord_of_modGroup h ?_ rfl
    simp only [setmeetIssue, hb]
    rfl
  · refine issueWord_of_modGroup h ?_ rfl
    simp only [setmeetIssue, hb]
    rfl
  · refine issueWord_of_modGroup h ?_ rfl
    have hzero (v : W32) : v.setWidth 64 = 0 ↔ v = 0 := by
      rw [← BitVec.toNat_inj, ← BitVec.toNat_inj, BitVec.toNat_setWidth_of_le (by decide)]
      rfl
    simp only [sleepIssue, hzero]
    rfl

/-- R111: the fold over the active lanes, then the step of the path. -/
theorem backoffDraws : Statements.BackoffDraws := by
  refine ⟨fun n v => ⟨rfl, rfl⟩, fun x s c k h hk => ?_⟩
  obtain ⟨rfl, -⟩ := State.issues_ctx h
  have hg := State.issues_group h
  obtain ⟨g, hdrew⟩ := c.drew_foldl (c.act_sorted.imp Nat.ne_of_lt) hk hg
  have hstep : g.stepPath = c.g.stepPath := (congrArg Group.stepPath hdrew.frame :)
  have hr : c.Completable { s := c.act.foldl c.drawLane c.s } :=
    ⟨rfl, (congrArg State.fuses hdrew.rest :), by rw [hdrew.group, hg]; exact congrArg some hstep⟩
  refine ⟨_, _, issueWord_of_ok h (backoffIssue_eq c) hr, Ctx.completes_group hdrew.group, hdrew.rest, hdrew.core, hdrew.others,
    hdrew.frame, ?_⟩
  intro n j y z hn hy hz
  rw [Group.modThreads_getElem?, hdrew.waits n j hn, hy, Option.map_some, Option.map_some, Option.some.injEq] at hz
  obtain ⟨hpath, -, hlive⟩ := Ctx.mem_act (List.mem_of_getElem? hn)
  rw [if_pos hpath, c.advance_live _ j (x := c.drawn k.cycle _ j y) (hlive y hy)] at hz
  rw [← hz]
  exact ⟨rfl, rfl⟩

/-- Settles O20: what each word does to its threads, then the draws of BACKOFF. -/
theorem threadControl : Obligations.ThreadControl := ⟨threadStates, backoffDraws⟩

end

section
/-! # What the bookkeeping of operations leaves of the groups -/

namespace Sys2Proof.Machine

/-- A fold whose steps keep a view of the state keeps it. -/
theorem foldl_keeps {σ α β : Type} (view : σ → β) {f : σ → α → σ} (hf : ∀ s a, view (f s a) = view s) (l : List α)
    (s : σ) : view (l.foldl f s) = view s := by
  induction l generalizing s with
  | nil => rfl
  | cons a l ih => rw [List.foldl_cons, ih, hf]

/-- A thread but for what it waits for. -/
def Thread.bare (t : Thread) : Thread := { t with wait := .none }

/-- A group but for its waits, and the marks that its operations, recorded multiplies and deferred traps leave in it. -/
def Group.bare (g : Group) : Group :=
  { g with threads := g.threads.map Thread.bare, frame := none, pend := [], traps := [], mmas := [], wakeTick := 0, mxStall := none }

/-- The groups but for those. -/
def State.bareGroups (s : State) : List Group := s.groups.map Group.bare

theorem Group.thread_bare {g g' : Group} (h : g'.bare = g.bare) (k : Nat) :
    (g'.threads[k]?).map Thread.bare = (g.threads[k]?).map Thread.bare := by
  rw [← List.getElem?_map, ← List.getElem?_map]
  exact congrArg (fun x : Group => x.threads[k]?) h

/-- Threads that change in their waits only. -/
theorem Group.bare_mapThreads {f : Thread → Thread} (hf : ∀ t, (f t).bare = t.bare) (g : Group) : (g.mapThreads f).bare = g.bare := by
  have hth : (g.threads.map f).map Thread.bare = g.threads.map Thread.bare := by
    rw [List.map_map]
    exact List.map_congr_left fun t _ => hf t
  exact congrArg (fun l => { g.bare with threads := l }) hth

theorem Group.bare_modThreads (g : Group) {f : Nat → Thread → Thread} (hf : ∀ h t, (f h t).bare = t.bare) (p : Nat → Bool) :
    (g.modThreads p f).bare = g.bare := by
  have hth : (g.modThreads p f).threads.map Thread.bare = g.threads.map Thread.bare := by
    refine List.ext_getElem? fun h => ?_
    rw [List.getElem?_map, List.getElem?_map, Group.modThreads_getElem?, Option.map_map]
    refine congrArg (Option.map · _) (funext fun t => ?_)
    simp only [Function.comp]
    split_ifs
    · exact hf h t
    · rfl
  exact congrArg (fun l => { g.bare with threads := l }) hth

theorem State.bareGroups_modGroup {f : Group → Group} (hf : ∀ g, (f g).bare = g.bare) (s : State) (k : Nat) :
    (s.modGroup k f).bareGroups = s.bareGroups := by
  simp only [State.bareGroups, State.modGroup, List.map_map]
  refine List.map_congr_left fun g _ => ?_
  simp only [Function.comp]
  split
  next hk => exact (congrArg (fun x : Group => { x with gid := k }) (hf g) :).trans (by rw [← hk]; rfl)
  next => rfl

/-- The group of an identifier, but for those. -/
theorem State.group_bare {s t : State} (h : t.bareGroups = s.bareGroups) (gid : Nat) :
    (t.group? gid).map Group.bare = (s.group? gid).map Group.bare := by
  have hfind (u : State) : (u.group? gid).map Group.bare = u.bareGroups.find? (fun g => g.gid == gid) := by
    rw [State.bareGroups, List.find?_map]
    rfl
  rw [hfind, hfind, h]

/-! ## Rounds, barriers, logged entries -/

theorem Group.bare_endRound (g : Group) (cv : Nat) : (g.endRound cv).bare = g.bare :=
  (Group.bare_mapThreads (f := fun t => if t.wait = .mmas cv then { t with wait := .signed } else t) (fun t => by split <;> rfl) g :)

theorem State.bareGroups_issueRound (s : State) (g : Group) (w : Workgroup) (core : Nat) (r : MmasRound) :
    (s.issueRound g w core r).bareGroups = s.bareGroups := by
  refine (State.bareGroups_modGroup (fun g => g.bare_endRound r.cv) _ _).trans ?_
  refine (State.bareGroups_modGroup (fun g => ?_) _ _).trans ?_
  · rfl
  · rfl

/-- An emptied pending set issues its multiply, or defers its trap (R109). -/
theorem State.bareGroups_emptied (s : State) (k cv : Nat) : (s.emptied k cv).bareGroups = s.bareGroups := by
  unfold State.emptied
  split
  · rfl
  · split
    · split
      · rfl
      · dsimp only
        split
        · exact State.bareGroups_issueRound ..
        · refine (State.bareGroups_modGroup (fun g => ?_) _ _).trans ?_
          · exact g.bare_endRound cv
          · rfl
    · rfl

theorem State.bareGroups_modBarrier (s : State) (w : Workgroup) (k : Nat) (f : Barrier → Barrier) :
    (s.modBarrier w k f).bareGroups = s.bareGroups := by
  unfold State.modBarrier
  split_ifs <;> rfl

/-- A barrier that an arrival completes changes what its threads wait for (R169). -/
theorem State.bareGroups_checkArrival (s : State) (k b : Nat) (last : W64) : (s.checkArrival k b last).bareGroups = s.bareGroups := by
  unfold State.checkArrival
  split
  · rfl
  · split
    · rfl
    · dsimp only
      split
      · rfl
      · split
        · rfl
        · refine (State.bareGroups_modGroup (fun g => ?_) _ _).trans (State.bareGroups_modBarrier ..)
          split
          · refine (Group.bare_modThreads _ (fun h t => ?_) _).trans (Group.bare_mapThreads (fun t => ?_) g)
            · split <;> rfl
            · split
              · split <;> rfl
              · rfl
          · refine Group.bare_mapThreads (fun t => ?_) g
            split
            · split <;> rfl
            · rfl

/-- Dropping an operation's logged lanes ends the wait for it (R194). -/
theorem State.bareGroups_dropLogged (s : State) (vf : Nat) (o : MemOp) : (s.dropLogged vf o).bareGroups = s.bareGroups := by
  unfold State.dropLogged
  dsimp only
  refine (State.bareGroups_modGroup (fun g => ?_) _ _).trans ?_
  · exact Group.bare_mapThreads (f := fun t => if t.wait = .opDone o.id then { t with wait := .none } else t)
      (fun t => by split <;> rfl) g
  · have hfold : ((o.lanes.filter LaneReq.isLogged).foldl (fun s l => s.clearPendLane o.gid o.id l.lane) s).bareGroups = s.bareGroups :=
      foldl_keeps State.bareGroups (fun s l => by
        refine State.bareGroups_modGroup (fun g => ?_) _ _
        rfl) _ _
    cases o.fid <;> exact hfold

theorem State.bareGroups_dropTraps (s : State) (k : Nat) : (s.dropTraps k).bareGroups = s.bareGroups := by
  unfold State.dropTraps
  split
  · rfl
  · refine (State.bareGroups_modGroup (fun g => ?_) _ _).trans (foldl_keeps State.bareGroups (fun s t => ?_) _ _)
    · rfl
    · split
      · exact State.bareGroups_dropLogged ..
      · rfl

end Sys2Proof.Machine

end

section
/-! # EXIT (O21) -/

namespace Sys2Proof.Machine

/-- The active lanes are those of their mask. -/
theorem Ctx.laneIn_actMask (c : Ctx) (h : Nat) : laneIn c.actMask h = true ↔ h ∈ c.act := by
  by_cases hh : h < 64
  · exact getLsbD_maskOf _ hh
  · refine iff_of_false (by simp [laneIn, BitVec.getLsbD_of_ge _ _ (Nat.le_of_not_lt hh)]) fun hm => hh ?_
    exact BitVec.lt_of_getLsbD (Ctx.mem_act hm).1

/-- Lanes taken from the pending sets of the first n convergence registers (R109). -/
theorem get_leaveSets (cvs : Cells 64) (mask : W64) (n k : Nat) :
    Cells.get ((List.range n).foldl (fun c k => c.set k (c.get k &&& ~~~mask)) cvs) k =
      if k < n then cvs.get k &&& ~~~mask else cvs.get k := by
  induction n with
  | zero => rfl
  | succ n ih =>
    rw [List.range_succ, List.foldl_append, List.foldl_cons, List.foldl_nil, Cells.get_set]
    by_cases hk : k = n
    · subst hk
      simp [ih]
    · rw [if_neg hk, ih]
      simp [show k < n + 1 ↔ k < n by omega]

/-- A group whose threads of a mask have exited: they have left its pending sets (R102, R109). -/
def Group.exits (g : Group) (mask : W64) : Group :=
  { g.modThreads (laneIn mask) (fun _ t => { t with exited := true }) with
    cvs := (List.range 8).foldl (fun c k => c.set k (c.get k &&& ~~~mask)) g.cvs }

/-- What else follows from an exit changes waits and marks only: multiplies that a pending set recorded, barriers that it completes,
and deferred traps that no thread is left to take. -/
theorem State.bareGroups_exitThreads (s : State) (gid : Nat) (mask : W64) :
    (s.exitThreads gid mask).bareGroups = (s.modGroup gid (fun g => g.exits mask)).bareGroups := by
  have hsettled : (((List.range 8).foldl (fun s k => s.emptied gid k) (s.modGroup gid (fun g => g.exits mask))).exitArrivals
      gid).bareGroups = (s.modGroup gid (fun g => g.exits mask)).bareGroups :=
    (foldl_keeps State.bareGroups (fun s k => s.bareGroups_checkArrival gid k 0) _ _).trans
      (foldl_keeps State.bareGroups (fun s k => s.bareGroups_emptied gid k) _ _)
  rw [← hsettled]
  unfold State.exitThreads
  dsimp only
  split
  · rfl
  · split
    · exact State.bareGroups_dropTraps ..
    · rfl

/-- The group after EXIT has effect: the active threads have exited and left the pending sets. -/
structure Ctx.Exited (c : Ctx) (g : Group) : Prop where
  vregs : g.vregs = c.g.vregs
  sregs : g.sregs = c.g.sregs
  stepPath : g.stepPath = c.g.stepPath
  cvs : ∀ k, k < 8 → g.cvs.get k = c.g.cvs.get k &&& ~~~c.actMask
  threads : ∀ h, (g.threads[h]?).map Thread.bare =
    (c.g.threads[h]?).map (fun t => if h ∈ c.act then { t.bare with exited := true } else t.bare)

theorem Ctx.exited_of_bare {c : Ctx} {g : Group} (h : g.bare = (c.g.exits c.actMask).bare) : c.Exited g where
  vregs := (congrArg Group.vregs h :)
  sregs := (congrArg Group.sregs h :)
  stepPath := (congrArg Group.stepPath h :)
  cvs := fun k hk => by
    rw [show g.cvs = _ from (congrArg Group.cvs h :)]
    exact (get_leaveSets ..).trans (if_pos hk)
  threads := fun k => by
    rw [Group.thread_bare h, Group.exits, Group.modThreads_getElem?, Option.map_map]
    refine congrArg (Option.map · _) (funext fun t => ?_)
    simp only [Function.comp, c.laneIn_actMask]
    split_ifs <;> rfl

theorem Ctx.exited_self {c : Ctx} (h : c.act = []) : c.Exited c.g where
  vregs := rfl
  sregs := rfl
  stepPath := rfl
  cvs := fun k _ => by
    rw [Ctx.actMask, h]
    exact BitVec.and_allOnes.symm
  threads := fun k => by simp [h]

/-- EXIT completes, and its group is so. -/
theorem exitIssue_spec {s : State} {i : Instr} {c : Ctx} (h : s.issues i = some c) :
    ∃ t g, exitIssue c = .ok { s := t } ∧ t.group? c.g.gid = some g ∧ c.Exited g := by
  obtain ⟨rfl, -⟩ := State.issues_ctx h
  have hg := State.issues_group h
  unfold exitIssue
  split
  next hact => exact ⟨c.s, c.g, rfl, hg, c.exited_self hact⟩
  next =>
    have hbare := State.group_bare (State.bareGroups_exitThreads c.s c.g.gid c.actMask) c.g.gid
    rw [State.group_mod_self (f := fun g => g.exits c.actMask) hg rfl, Option.map_some, Option.map_eq_some_iff] at hbare
    obtain ⟨g, hgroup, hbare⟩ := hbare
    exact ⟨c.s.exitThreads c.g.gid c.actMask, g, rfl, hgroup, Ctx.exited_of_bare hbare⟩

/-- A thread of the group, and the same thread after the path has moved on. -/
theorem Ctx.Exited.thread {c : Ctx} {g : Group} (hg : c.Exited g) {r : Res} (hpcs : r.pcs = []) {h : Nat} {y z : Thread}
    (hy : c.g.threads[h]? = some y) (hz : (g.modThreads (laneIn c.part.mask) (c.advance r)).threads[h]? = some z) :
    (h ∈ c.act → z.exited = true) ∧ (h ∉ c.act → z.exited = y.exited) ∧
      (laneIn c.part.mask h = true → h ∉ c.act → y.exited = false → z.pc = nextPc c.pc) ∧
      (laneIn c.part.mask h = false → z.pc = y.pc) := by
  have hth := hg.threads h
  rw [Group.modThreads_getElem?, Option.map_eq_some_iff] at hz
  obtain ⟨x, hx, hz⟩ := hz
  rw [hx, hy, Option.map_some, Option.map_some, Option.some.injEq] at hth
  have hpc : x.pc = y.pc := by
    have := congrArg Thread.pc hth
    split_ifs at this <;> exact this
  have hexit : x.exited = if h ∈ c.act then true else y.exited := by
    have := congrArg Thread.exited hth
    split_ifs at this ⊢ <;> exact this
  have hadv : (c.advance r h x).exited = x.exited := by
    cases he : x.exited
    · rw [c.advance_live r h he]
      exact he
    · rw [c.advance_exited r h he, he]
  have hmoved : (if laneIn c.part.mask h = true then c.advance r h x else x).exited = x.exited := by
    split_ifs
    · exact hadv
    · rfl
  rw [← hz, hmoved, hexit]
  refine ⟨fun hm => if_pos hm, fun hm => if_neg hm, fun hl hm hlive => ?_, fun hl => ?_⟩
  · rw [if_neg hm, hlive] at hexit
    rw [if_pos hl, c.advance_live r h hexit, hpcs]
    rfl
  · rw [if_neg (by simp [hl]), hpc]

end Sys2Proof.Machine

open Sys2Proof Sys2Proof.Machine

/-- Settles O21: what EXIT does to its group, then the step of the path. -/
theorem exitEndsThreads : Obligations.ExitEndsThreads := by
  intro x s c h
  obtain ⟨t, g, hsem, hgroup, hexited⟩ := exitIssue_spec h
  have hstep : (t.group? c.g.gid).map Group.stepPath = (s.group? c.g.gid).map Group.stepPath := by
    rw [hgroup, State.issues_group h]
    exact congrArg some hexited.stepPath
  exact ⟨_, _, issueWord_of_effect h hsem rfl hstep, Ctx.completes_group hgroup, hexited.vregs, hexited.sregs, hexited.cvs,
    fun k y z hy hz => hexited.thread rfl hy hz⟩

end

section
/-! # CVDECL and SWITCHPT (O22) -/

namespace Sys2Proof.Machine

/-- A word with such an effect where a lane is active, and none otherwise, completes with it or only moves on. -/
theorem issueWord_of_active {s : State} {i : Instr} {c : Ctx} {sem : Ctx → Except TrapInfo Res} {r : Res} (h : s.issues i = some c)
    (hsem : sem c = if c.act = [] then .ok { s := c.s } else .ok r) (hr : c.Completable r) :
    done s (issueWord i sem s) = .next (c.completes (if c.act = [] then { s := s } else r)) := by
  split_ifs at hsem ⊢
  · exact issueWord_of_idle h hsem
  · exact issueWord_of_ok h hsem hr

/-- An update of the issuing group that keeps its single step, in a state with the issue's groups and fuses. -/
theorem Ctx.completable_modGroup {s t : State} {i : Instr} {c : Ctx} (h : s.issues i = some c) {f : Group → Group} {r : Res}
    (hr : r.s = t.modGroup c.g.gid f) (hkeep : r.keep = false) (hgroups : t.groups = s.groups) (hfuses : t.fuses = s.fuses)
    (hstep : (f c.g).stepPath = c.g.stepPath) : c.Completable r := by
  obtain ⟨rfl, -⟩ := State.issues_ctx h
  have hg := State.issues_group h
  have hgt : t.group? c.g.gid = some c.g := by rw [State.group?, hgroups]; exact hg
  refine ⟨hkeep, by rw [hr]; exact hfuses, ?_⟩
  rw [hr, State.group_mod, if_pos rfl, hgt, hg]
  exact congrArg some hstep

/-! ## A point that the groups of one identifier reach -/

/-- A loaded program under an order, its code listing point 0. Its group's identifier is also that of a second group, whose threads
have exited: nothing in the statement keeps identifiers apart. -/
def State.twinned : State :=
  { State.reset.loadedWith 8 0 with
    issue := { Issue.idle with core := 0, parts := [⟨4, 0xFF, 0⟩], pc := 0x10004, igsize := 8 }
    codes := [{ loadCode 8 with switches := [⟨0, 0, [0], 0⟩], points := [(0, 0, 4)] }]
    wgs := [{ loadWg with order := some ⟨0⟩ }]
    groups := [loadGroup 8, { loadGroup 8 with threads := List.replicate 8 { Thread.start 0x10004 with exited := true } }] }

/-- SWITCHPT of point 0. -/
def switchAtZero : XForm := ⟨0, 7, 0, 0, 0, 0, 0, 0, 0, 0, 0, 0⟩

theorem twinned_issues : (State.twinned.issues (.switchpt switchAtZero)).isSome = true := by decide +kernel

/-- The context in which it issues there. -/
def twinnedCtx : Ctx := (State.twinned.issues (.switchpt switchAtZero)).get twinned_issues

/-- What the first thread of the group listed last waits for after an outcome. -/
def lastWait : Host.Outcome State Fault Refusal → Option Wait
  | .next t => (t.groups.getLast?.bind (·.threads.head?)).map (·.wait)
  | _ => none

/-- The exited threads of the second group wait for nothing. -/
theorem twinned_leaves_exited : lastWait (exec (.switchpt switchAtZero) State.twinned) = some .none := by decide +kernel

end Sys2Proof.Machine

open Sys2Proof Sys2Proof.Machine

/-- R109: the register is free, or the threads wait under a new token. -/
theorem convergenceDeclared : Statements.ConvergenceDeclared := by
  intro x members s c h
  obtain ⟨rfl, -, -, -, -, op, hf⟩ := State.issues_ctx h
  have hform : c.f = .x x := (Prod.mk.inj (Option.some.inj hf)).2.symm
  have hmask : (if c.fieldCode 1 = 0x1FF then c.actMask else c.uval 1) = members c := by
    rw [Ctx.fieldCode, hform]
    exact if_congr (BitVec.toNat_eq (y := 0x1FF#9)).symm rfl rfl
  refine issueWord_of_active h ?_ ?_
  · simp only [cvdeclIssue, hmask]
    split_ifs <;> rfl
  · beta_reduce
    split_ifs
    · exact Ctx.completable_modGroup (t := c.s) h rfl rfl rfl rfl rfl
    · exact Ctx.completable_modGroup (t := { c.s with tick := c.s.tick + 1 }) h rfl rfl rfl rfl rfl

/-- Refutes O22: of the groups that bear the issuing group's identifier, `State.reachPoint` makes each thread wait that has not
exited, the statement each lane that is active in the issuing group. In `twinned` a second group bears it, with exited threads: the
statement has no premise that keeps identifiers apart. -/
theorem not_convergenceAndSwitchPoints : ¬ Obligations.ConvergenceAndSwitchPoints := by
  intro ⟨_, hswitch⟩
  obtain ⟨_, _, hordered⟩ := hswitch switchAtZero State.twinned twinnedCtx (Option.some_get _).symm
  obtain ⟨_, hwaits⟩ := hordered ⟨0⟩ (by decide +kernel) (by decide +kernel)
  have hone : ∀ g ∈ State.twinned.groups, g.gid = twinnedCtx.g.gid := by decide +kernel
  have hnext := hwaits fun m ⟨g, hg, _, hother, _⟩ => absurd (hone g hg) hother
  have hnone := twinned_leaves_exited
  rw [hnext] at hnone
  exact absurd hnone (by decide +kernel)

end

section
/-! # Waits, formed groups and guards (O24)

`FlockBinsFormGroups` dates a formed group by the core of a group whose thread it holds. A workgroup's landed groups form bins of their
own, each on the core where it landed (R108); their pool is found by identifier, so where two landed groups bear one identifier, the
threads of the second form bins on the core of the first. -/

namespace Sys2Proof.Machine

/-! ## Meetings (R104) -/

/-- No thread of the meeting at X is still to come. -/
def Group.allHeld (g : Group) (x : W64) : Prop :=
  ∀ y ∈ g.threads, y.exited = false → y.meet = x → y.wait ≠ .backoff → y.wait ≠ .sleep → y.held = true

theorem Group.allHeld_iff (g : Group) (x : W64) : g.allHeld x ↔ g.threads.all (fun t => t.outside x || t.held) = true := by
  simp only [Group.allHeld, Thread.outside, List.all_eq_true, Bool.or_eq_true, bne_iff_ne, beq_iff_eq]
  refine forall₂_congr fun y _ => ?_
  cases y.exited
  · simp only [Bool.false_eq_true, false_or, true_imp_iff]
    tauto
  · simp

/-- Where a thread is held at X, the meeting is ready when all its threads are. -/
theorem Group.meetReady_iff {g : Group} {x : W64} {y : Thread} (hx : x ≠ 0) (hy : y ∈ g.threads) (hheld : y.held = true)
    (hmeet : y.meet = x) : g.meetReady x = true ↔ g.allHeld x := by
  have hany : g.threads.any (fun t => t.held && t.meet == x) = true := List.any_eq_true.2 ⟨y, hy, by simp [hheld, hmeet]⟩
  rw [Group.meetReady, hany, Group.allHeld_iff, Bool.and_true, Bool.and_eq_true, bne_iff_ne, and_iff_right hx]

/-- A group after MEET_RELEASE of X. -/
def Group.released (g : Group) (x : W64) : Group :=
  if g.meetReady x then { g with threads := g.threads.map (fun t => if t.held && t.meet == x then { t with meet := 0 } else t) } else g

theorem Group.released_frame (g : Group) (x : W64) : { g.released x with threads := g.threads } = g := by
  unfold Group.released
  split_ifs <;> rfl

theorem Group.released_thread (g : Group) (x : W64) (h : Nat) : (g.released x).threads[h]? = (g.threads[h]?).map (fun y =>
    if g.meetReady x = true ∧ y.held = true ∧ y.meet = x then { y with meet := 0 } else y) := by
  unfold Group.released
  split_ifs with hready
  · simp [hready]
  · simp [hready]

/-! ## CVDECL (R109) -/

/-- The register and members of the CVDECL of a token that a thread waits for. -/
def Wait.ofCvdecl (w : Wait) (tok : Nat) : Option (Nat × W64) :=
  match w with
  | .cvdecl k cv m => if k = tok then some (cv, m) else Option.none
  | _ => Option.none

/-- A thread waits for the CVDECL of a token. -/
def Wait.isCvdecl (w : Wait) (tok : Nat) : Bool :=
  match w with
  | .cvdecl k _ _ => k == tok
  | _ => false

theorem Wait.ofCvdecl_eq_some_iff {tok cv : Nat} {m : W64} {w : Wait} : w.ofCvdecl tok = some (cv, m) ↔ w = .cvdecl tok cv m := by
  unfold Wait.ofCvdecl
  split
  next k cv' m' =>
    rw [Option.ite_none_right_eq_some, Option.some.injEq, Prod.mk.injEq, Wait.cvdecl.injEq]
  next hno =>
    exact iff_of_false (by simp) (hno tok cv m)

theorem Wait.isCvdecl_iff {tok : Nat} {w : Wait} : w.isCvdecl tok = true ↔ ∃ cv m, w = .cvdecl tok cv m := by
  unfold Wait.isCvdecl
  split
  next k cv' m' => simp
  next hno => simpa using hno tok

/-- A group whose waiting CVDECL has written its members, and whose threads go on. -/
def Group.wroteCvdecl (g : Group) (tok cv : Nat) (m : W64) : Group := (g.declare cv m).endWait (·.isCvdecl tok) tok

theorem Group.wroteCvdecl_thread (g : Group) (tok cv : Nat) (m : W64) (h : Nat) : (g.wroteCvdecl tok cv m).threads[h]? =
    (g.threads[h]?).map (fun y => if y.wait.isCvdecl tok = true then { y with wait := .none } else y) :=
  List.getElem?_map

theorem State.cvdeclDone_of {s : State} {gid tok cv : Nat} {m : W64} {g : Group} (hg : s.group? gid = some g)
    (hfind : g.threads.findSome? (·.wait.ofCvdecl tok) = some (cv, m)) :
    s.cvdeclDone gid tok = if g.cvs.get cv = 0 then s.modGroup gid (fun g => g.wroteCvdecl tok cv m) else s := by
  unfold State.cvdeclDone
  rw [hg]
  dsimp only
  split
  next hnone => exact absurd (hnone.symm.trans hfind) (by simp)
  next cv' m' hsome =>
    obtain ⟨rfl, rfl⟩ := Prod.mk.inj (Option.some.inj (hsome.symm.trans hfind))
    by_cases hcv : g.cvs.get cv' = 0
    · rw [if_pos hcv, if_neg (by simpa using hcv)]
      rfl
    · rw [if_neg hcv, if_pos (by simpa using hcv)]

/-! ## The guards -/

/-- The element of a list whose key is below every other's is the one chosen. -/
theorem foldl_least {α : Type} {key : α → Nat} {x : α} (l : List α) (m : α) (hx : x = m ∨ x ∈ l)
    (hmin : ∀ y, y = m ∨ y ∈ l → y ≠ x → key x < key y) : l.foldl (fun m y => if key y < key m then y else m) m = x := by
  induction l generalizing m with
  | nil => simpa [eq_comm] using hx
  | cons y l ih =>
    have hstep : x = (if key y < key m then y else m) ∨ x ∈ l := by
      rcases hx with rfl | hx
      · by_cases hyx : y = x
        · simp [hyx]
        · have := hmin y (.inr List.mem_cons_self) hyx
          exact .inl (if_neg (by omega)).symm
      · rcases List.mem_cons.1 hx with rfl | hx
        · by_cases hmx : m = x
          · simp [hmx]
          · exact .inl (if_pos (hmin m (.inl rfl) hmx)).symm
        · exact .inr hx
    refine ih _ hstep fun z hz hne => hmin z ?_ hne
    rcases hz with rfl | hz
    · beta_reduce
      split_ifs
      · exact .inr List.mem_cons_self
      · exact .inl rfl
    · exact .inr (List.mem_cons_of_mem _ hz)

theorem earliest_eq_some {α : Type} {key : α → Nat} {l : List α} {x : α} (hx : x ∈ l)
    (hmin : ∀ y ∈ l, y ≠ x → key x < key y) : earliest key l = some x := by
  cases l with
  | nil => cases hx
  | cons m l => exact congrArg some (foldl_least l m (List.mem_cons.1 hx) fun y hy => hmin y (List.mem_cons.2 hy))

/-- A group of a partition of a core that has been passed over for 4,096 cycles (R321). -/
def State.starving (s : State) (core ipart : Nat) (g : Group) : Bool :=
  s.coreOf g == some core && g.ipart == ipart && !g.retired && 4096 ≤ g.passed

theorem State.starving_iff {s : State} {core ipart : Nat} {g : Group} :
    s.starving core ipart g = true ↔ s.coreOf g = some core ∧ g.ipart = ipart ∧ g.retired = false ∧ 4096 ≤ g.passed := by
  simp [State.starving, and_assoc]

theorem State.starve_of {s : State} {core ipart : Nat} {g : Group}
    (hg : earliest (·.lastIssue) (s.groups.filter (s.starving core ipart)) = some g) :
    s.starve core ipart = s.modGroup g.gid (fun g => { g with starved := true }) := by
  unfold State.starve
  dsimp only
  split
  next hnone => exact absurd (hnone.symm.trans hg) (by simp)
  next hsome =>
    obtain rfl := Option.some.inj (hsome.symm.trans hg)
    rfl

/-! ## Two landed groups of one identifier -/

/-- A loaded program with two groups of one identifier, which have landed on cores 0 and 1. On core 0 one cycle has passed, on core 1 none.
Thread 0 of the second waits in REGROUP until cycle 1. -/
def State.landedTwice : State :=
  { State.reset.loadedWith 8 0 with
    cores := modNth State.reset.cores 0 (fun k => { k with cycle := 1 })
    groups := [{ loadGroup 8 with landing := some ⟨0, 0⟩ },
      { loadGroup 8 with landing := some ⟨1, 0⟩,
                         threads := [{ Thread.start 0x10004 with wait := .regroup 0 1 0x10010 }] }] }

/-- The first cycles of the groups that stand formed after an outcome. -/
def formedStarts : Host.Outcome State Fault Refusal → List W64
  | .next t => t.formed.map (·.start)
  | _ => []

/-- The bin is released on core 0, whose cycle is 1. -/
theorem landedTwice_forms : formedStarts (exec (.flockBinRelease 3 0x10010) State.landedTwice) = [2] := by decide +kernel

/-- The group of every thread that waits in REGROUP has landed on core 1. -/
theorem landedTwice_waiting : ∀ g ∈ State.landedTwice.groups, (∃ x ∈ g.threads, x.wait ≠ .none) →
    g.landing.map (·.core) = some 1 := by
  decide +kernel

end Sys2Proof.Machine

open Sys2Proof Sys2Proof.Machine

/-- R104, R109, R111, R112: a meeting, two deadlines, and a waiting CVDECL. -/
theorem threadWaitsEnd : Statements.ThreadWaitsEnd := by
  refine ⟨fun s gid a g hg ha => ?_, fun s gid lane core g hg hcore => ?_, fun s gid lane g hg => ?_,
    fun s gid tok cv m g hg hsome hall => ?_⟩
  · refine ⟨s.modGroup gid (fun g => g.released a), g.released a, rfl, s.modGroup_onlyGroup _ _,
      State.group_mod_self hg (congrArg Group.gid (g.released_frame a) :), g.released_frame a, ?_⟩
    intro ready h y z hy hz
    rw [g.released_thread, hy, Option.map_some, Option.some.injEq] at hz
    have hmem := List.mem_of_getElem? hy
    refine ⟨fun hready hheld hmeet => ?_, fun hno => ?_⟩
    · rw [← hz, if_pos ⟨(Group.meetReady_iff ha hmem hheld hmeet).2 hready, hheld, hmeet⟩]
    · rw [← hz, if_neg]
      rintro ⟨hready, hheld, hmeet⟩
      exact hno ⟨(Group.meetReady_iff ha hmem hheld hmeet).1 hready, hheld, hmeet⟩
  · simp only [exec, execBackoffExpiry, State.backoffDone, hg, hcore, Bool.and_eq_true, decide_eq_true_eq]
    rfl
  · simp only [exec, execSleepExpiry, State.sleepDone, hg, Bool.and_eq_true, decide_eq_true_eq]
    rfl
  · obtain ⟨x, hx, hwait⟩ := hsome
    have hfind : g.threads.findSome? (·.wait.ofCvdecl tok) = some (cv, m) := by
      have hsome : (g.threads.findSome? (·.wait.ofCvdecl tok)).isSome = true :=
        List.findSome?_isSome_iff.2 ⟨x, hx, by rw [Wait.ofCvdecl_eq_some_iff.2 hwait]; rfl⟩
      obtain ⟨⟨k, n⟩, hfound⟩ := Option.isSome_iff_exists.1 hsome
      obtain ⟨y, hy, hyw⟩ := List.exists_of_findSome?_eq_some hfound
      obtain ⟨rfl, rfl⟩ := hall y hy k n (Wait.ofCvdecl_eq_some_iff.1 hyw)
      exact hfound
    have hdone := State.cvdeclDone_of hg hfind
    by_cases hcv : g.cvs.get cv = 0
    · rw [if_pos hcv] at hdone
      refine ⟨s.modGroup gid (fun g => g.wroteCvdecl tok cv m), g.wroteCvdecl tok cv m, congrArg (done s) hdone,
         State.group_mod_self hg rfl, s.modGroup_onlyGroup _ _,
        fun hne => absurd hcv hne, fun _ => ⟨Cells.get_set_self .., fun k hk => Cells.get_set_ne _ _ hk, fun h y z hy hz => ?_⟩⟩
      rw [g.wroteCvdecl_thread, hy, Option.map_some, Option.some.injEq] at hz
      rw [← hz]
      refine if_congr ?_ rfl rfl
      rw [Wait.isCvdecl_iff]
      constructor
      · rintro ⟨k, n, hk⟩
        obtain ⟨rfl, rfl⟩ := hall y (List.mem_of_getElem? hy) k n hk
        exact hk
      · exact fun hk => ⟨cv, m, hk⟩
    · rw [if_neg hcv] at hdone
      exact ⟨s, g, congrArg (done s) hdone, hg, ⟨rfl, fun _ _ => rfl⟩, fun _ => rfl, fun hz => absurd hz hcv⟩

/-- R209, R321: the mark that each guard sets. -/
theorem issueGuards : Statements.IssueGuards := by
  refine ⟨fun s gid g hg hpassed => ?_, fun s core ipart g hg => ?_⟩
  · have hany : g.threads.any (fun t => !t.exited && 64 ≤ t.passed) = true := by simpa using hpassed
    refine ⟨s.modGroup gid (fun g => if g.threads.any (fun t => !t.exited && 64 ≤ t.passed) then { g with forced := true } else g),
      rfl, s.modGroup_onlyGroup _ _, (State.group_mod_self hg ?_).trans ?_⟩
    · rw [if_pos hany]
    · rw [if_pos hany]
  · intro starving hstarving hfirst
    have hearliest : earliest (·.lastIssue) (s.groups.filter (s.starving core ipart)) = some g :=
      earliest_eq_some (List.mem_filter.2 ⟨List.mem_of_find?_eq_some hg, State.starving_iff.2 hstarving⟩) fun y hy hne =>
        hfirst y (List.mem_filter.1 hy).1 (State.starving_iff.1 (List.mem_filter.1 hy).2) hne
    refine ⟨s.modGroup g.gid (fun g => { g with starved := true }), ?_, s.modGroup_onlyGroup _ _, State.group_mod_self hg rfl⟩
    exact congrArg (done s) (State.starve_of hearliest)

/-- Refutes O24: on the state `landedTwice` a formed group may issue from cycle 2 of core 0, and its one thread is of a group that has
landed on core 1, which stands at cycle 0. The statement has no premise that keeps identifiers apart. -/
theorem not_waitsAndGuards : ¬ Obligations.WaitsAndGuards := by
  intro ⟨_, hflock, _⟩
  obtain ⟨t, new, hnext, hformed, hall⟩ := (hflock State.landedTwice 3 0x10010).2
  have hnew : t.formed = new := hformed
  have hstarts := landedTwice_forms
  rw [hnext, formedStarts, hnew] at hstarts
  obtain ⟨f, rfl, hstart⟩ := List.map_eq_singleton_iff.1 hstarts
  obtain ⟨-, -, -, -, m, -, g, hg, x, i, e, core, -, hx, hwait, hcore, -, hcycle⟩ := hall f (List.mem_singleton_self f)
  have hone := landedTwice_waiting g hg ⟨x, List.mem_of_getElem? hx, by rw [hwait]; exact Wait.noConfusion⟩
  have hcore : core = 1 := by
    rcases hcore with ⟨hnone, -⟩ | ⟨l, hl, rfl⟩
    · rw [hnone] at hone
      cases hone
    · rw [hl] at hone
      exact Option.some.inj hone
  rw [hstart, hcore] at hcycle
  exact absurd hcycle (by decide +kernel)

end

section
/-! # What completions and orders leave of the units of a launch (O52) -/

namespace Sys2Proof.Machine

/-! ## Completions -/

/-- A workgroup but for its order. -/
def Workgroup.unordered (w : Workgroup) : Workgroup := { w with order := none }

/-- The units of the state as placement sees them: groups but for their waits and marks, workgroups, launches. -/
def State.placed (s : State) : List Group × List Workgroup × List Launch := (s.bareGroups, s.wgs, s.launches)

/-- Those units, the workgroups but for their orders. -/
def State.placedUnordered (s : State) : List Group × List Workgroup × List Launch :=
  (s.bareGroups, s.wgs.map Workgroup.unordered, s.launches)

theorem State.placed_modGroup {f : Group → Group} (hf : ∀ g, (f g).bare = g.bare) (s : State) (k : Nat) :
    (s.modGroup k f).placed = s.placed :=
  congrArg (fun l => (l, s.wgs, s.launches)) (State.bareGroups_modGroup hf s k)

theorem State.placed_dropLogged (s : State) (vf : Nat) (o : MemOp) : (s.dropLogged vf o).placed = s.placed := by
  have hwgs : ((s.dropLogged vf o).wgs, (s.dropLogged vf o).launches) = (s.wgs, s.launches) := by
    have hfold : (((o.lanes.filter LaneReq.isLogged).foldl (fun s l => s.clearPendLane o.gid o.id l.lane) s).wgs,
        ((o.lanes.filter LaneReq.isLogged).foldl (fun s l => s.clearPendLane o.gid o.id l.lane) s).launches) = (s.wgs, s.launches) :=
      foldl_keeps (fun s : State => (s.wgs, s.launches)) (fun _ _ => by rfl) _ _
    unfold State.dropLogged
    cases o.fid <;> exact hfold
  rw [State.placed, State.bareGroups_dropLogged, hwgs]
  rfl

theorem State.placed_dropTraps (s : State) (k : Nat) : (s.dropTraps k).placed = s.placed := by
  unfold State.dropTraps
  split
  · rfl
  · refine (State.placed_modGroup (fun g => ?_) _ _).trans (foldl_keeps State.placed (fun s t => ?_) _ _)
    · rfl
    · split
      · exact State.placed_dropLogged ..
      · rfl

theorem State.placed_signal (s : State) (fn v : Nat) : (s.signal fn v).placed = s.placed := rfl

theorem State.placed_modFunc (s : State) (fn : Nat) (f : Func → Func) : (s.modFunc fn f).placed = s.placed := rfl

theorem State.placed_putLaunch (s : State) (vf : Nat) (e : W32 × Nat × W64) : (s.putLaunch vf e).placed = s.placed := by
  unfold State.putLaunch
  split
  · rfl
  · rw [State.placed_signal, State.placed_modFunc]
    rfl

theorem State.placed_putLaunches (vf : Nat) (l : List (W32 × Nat × W64)) (s : State) : (State.putLaunches vf l s).placed = s.placed := by
  induction l generalizing s with
  | nil => rfl
  | cons e rest ih =>
    unfold State.putLaunches
    split
    · rfl
    · rw [ih]
      exact State.placed_putLaunch ..

theorem State.placed_launchEntry (s : State) (vf : Nat) (id : W32) (status : Nat) (user : W64) :
    (s.launchEntry vf id status user).placed = s.placed := by
  unfold State.launchEntry
  split
  · rfl
  · split
    · exact State.placed_putLaunches ..
    · rfl

theorem State.placed_wakeCreator (s : State) (creator : Option Nat) : (s.wakeCreator creator).placed = s.placed := by
  unfold State.wakeCreator
  split
  · rfl
  · exact State.placed_modGroup (f := fun g => { g with wakeTick := s.tick }) (fun _ => rfl) _ _

/-- A task that completes is told to its creator and to the host (R181, R384). -/
theorem State.placed_finishTask (s : State) (vf : Nat) (id : W32) (status hostStatus : Nat) (silent : Bool) :
    (s.finishTask vf id status hostStatus silent).placed = s.placed := by
  unfold State.finishTask
  split
  · rfl
  · dsimp only
    split
    · rw [State.placed_launchEntry, State.placed_wakeCreator]
      rfl
    · rw [State.placed_wakeCreator]
      rfl

/-! ## Orders -/

theorem State.placedUnordered_modWg {f : Workgroup → Workgroup} (hf : ∀ w, (f w).unordered = w.unordered) (s : State) (k : Nat) :
    (s.modWg k f).placedUnordered = s.placedUnordered := by
  refine congrArg (fun l => (s.bareGroups, l, s.launches)) ?_
  rw [State.modWg, List.map_map]
  refine List.map_congr_left fun w _ => ?_
  simp only [Function.comp]
  split
  next hk => exact (congrArg (fun x : Workgroup => { x with wid := k }) (hf w) :).trans (by rw [← hk]; rfl)
  next => rfl

theorem State.bareGroups_endSwitchWaits (s : State) (wid : Nat) : (s.endSwitchWaits wid).bareGroups = s.bareGroups := by
  rw [State.bareGroups, State.endSwitchWaits, List.map_map]
  refine List.map_congr_left fun g _ => ?_
  simp only [Function.comp]
  split
  · exact Group.bare_mapThreads (fun t => by split <;> rfl) g
  · rfl

theorem State.placedUnordered_reachPoint (s : State) (wid gid n : Nat) :
    (s.reachPoint wid gid n).placedUnordered = s.placedUnordered := by
  unfold State.reachPoint
  split
  · rfl
  · split
    · dsimp only
      split
      · exact (State.placedUnordered_modWg (fun _ => by rfl) _ _).trans
          (congrArg (fun l => (l, s.wgs.map Workgroup.unordered, s.launches)) (State.bareGroups_endSwitchWaits s wid))
      · split
        · refine congrArg (fun l => (l, s.wgs.map Workgroup.unordered, s.launches)) (State.bareGroups_modGroup (fun g => ?_) s _)
          exact Group.bare_mapThreads (f := fun t => if t.exited then t else { t with wait := .switchpt n })
            (fun t => by split <;> rfl) g
        · rfl
    · rfl

theorem State.placedUnordered_order (s : State) (wid u : Nat) : (s.order wid u).placedUnordered = s.placedUnordered := by
  unfold State.order
  refine (foldl_keeps State.placedUnordered (fun s g => ?_) _ _).trans (State.placedUnordered_modWg (fun _ => by rfl) _ _)
  split
  · split
    · exact State.placedUnordered_reachPoint ..
    · rfl
  · rfl

theorem State.placedUnordered_ordersOnFree (s : State) (q : Nat) : (s.ordersOnFree q).placedUnordered = s.placedUnordered := by
  unfold State.ordersOnFree
  refine foldl_keeps State.placedUnordered (fun s w => ?_) _ _
  split
  · exact State.placedUnordered_order ..
  · rfl

end Sys2Proof.Machine

end

section
/-! # Retirement (O52) -/

namespace Sys2Proof.Machine

/-! ## A group that retires -/

/-- A group that has retired: parked, on no landing slot (R102). -/
def Group.retire (g : Group) : Group := { g with retired := true, landing := none, tier := .parked }

/-- The state in which a group has retired, its workgroup not looked at yet. -/
def State.retiring (s : State) (gid : Nat) : State := ((s.dropTraps gid).dissolve gid).modGroup gid Group.retire

/-- An update that does not look at waits and marks, in two states whose groups differ in those only. -/
theorem State.bareGroups_modGroup_congr {s t : State} (h : t.bareGroups = s.bareGroups) {f : Group → Group}
    (hf : ∀ g, (f g).bare = (f g.bare).bare) (k : Nat) : (t.modGroup k f).bareGroups = (s.modGroup k f).bareGroups := by
  have hmod (u : State) :
      (u.modGroup k f).bareGroups = u.bareGroups.map (fun x => (if x.gid = k then { f x with gid := k } else x).bare) := by
    simp only [State.bareGroups, State.modGroup, List.map_map]
    refine List.map_congr_left fun g _ => ?_
    change (if g.gid = k then _ else _ : Group).bare = (if g.gid = k then _ else _ : Group).bare
    split
    · exact (congrArg (fun x : Group => { x with gid := k }) (hf g) :)
    · simp [Group.bare, Thread.bare, Function.comp_def]
  rw [hmod, hmod, h]

theorem State.bareGroups_retiring (s : State) (gid : Nat) :
    (s.retiring gid).bareGroups = (s.modGroup gid Group.retire).bareGroups := by
  have hdrop : ((s.dropTraps gid).dissolve gid).bareGroups = s.bareGroups := State.bareGroups_dropTraps s gid
  refine State.bareGroups_modGroup_congr hdrop (fun g => ?_) gid
  simp [Group.bare, Group.retire, Thread.bare, Function.comp_def]

theorem Group.fields_of_bare {x y : Group} (h : x.bare = y.bare) : y.gid = x.gid ∧ y.wid = x.wid ∧ y.retired = x.retired ∧
    y.landing = x.landing ∧ y.vregs = x.vregs ∧ y.sregs = x.sregs :=
  ⟨(congrArg Group.gid h.symm :), (congrArg Group.wid h.symm :), (congrArg Group.retired h.symm :), (congrArg Group.landing h.symm :),
    (congrArg Group.vregs h.symm :), (congrArg Group.sregs h.symm :)⟩

/-- A group of a state some of whose groups, but for waits and marks, are those of another. -/
theorem Group.exists_of_bareGroups {s t : State} (h : t.bareGroups.Sublist s.bareGroups) {y : Group} (hy : y ∈ t.groups) :
    ∃ x ∈ s.groups, x.bare = y.bare :=
  List.mem_map.1 (h.subset (List.mem_map_of_mem hy))

/-- A group of the state in which one has retired. -/
theorem State.mem_retiring {s : State} {gid : Nat} {y : Group} (hy : y ∈ (s.retiring gid).groups) :
    ∃ x ∈ s.groups, y.gid = x.gid ∧ y.wid = x.wid ∧ (y.retired = true ↔ x.gid = gid ∨ x.retired = true) ∧
      (x.gid = gid → y.landing = none) := by
  obtain ⟨z, hz, hbare⟩ := Group.exists_of_bareGroups (s := s.modGroup gid Group.retire) (by rw [s.bareGroups_retiring gid]) hy
  obtain ⟨x, hx, rfl⟩ := List.mem_map.1 hz
  refine ⟨x, hx, ?_⟩
  obtain ⟨hgid, hwid, hretired, hlanding, -, -⟩ := Group.fields_of_bare hbare
  rw [hgid, hwid, hretired, hlanding]
  by_cases hk : x.gid = gid
  · simp [hk, Group.retire]
  · simp [hk]

theorem State.wgs_retiring (s : State) (gid : Nat) : (s.retiring gid).wgs = s.wgs :=
  (congrArg (·.2.1) (State.placed_dropTraps s gid) :)

theorem State.launches_retiring (s : State) (gid : Nat) : (s.retiring gid).launches = s.launches :=
  (congrArg (·.2.2) (State.placed_dropTraps s gid) :)

/-- A group retires when none of its threads, operations and writes is outstanding (R102). -/
theorem State.retireGroup_of {s : State} {gid : Nat} {g : Group} (hg : s.group? gid = some g) (hret : g.retired = false)
    (hdone : g.live = [] ∨ g.stopped = true) (hidle : s.groupIdle g = true) (hmay : s.mayRetire g = true) :
    s.retireGroup gid = (s.retiring gid).retireWg g.wid := by
  unfold State.retireGroup
  rw [hg]
  dsimp only
  rw [if_neg (by simpa [hret, hidle, hmay] using or_iff_not_imp_left.1 hdone)]
  rfl

theorem State.retireGroup_stays {s : State} {gid : Nat} {g : Group} (hg : s.group? gid = some g)
    (hno : g.retired = true ∨ (g.live ≠ [] ∧ g.stopped = false) ∨ s.groupIdle g = false ∨ s.mayRetire g = false) :
    s.retireGroup gid = s := by
  unfold State.retireGroup
  rw [hg]
  dsimp only
  rw [if_pos (by simpa [or_assoc] using hno)]

/-! ## A workgroup that retires -/

/-- A group without registers. -/
def Group.freed (g : Group) : Group := { g with vregs := [], sregs := [], badV := [], badS := [] }

/-- A workgroup without core, scratchpad and tiles. -/
def Workgroup.freed (w : Workgroup) : Workgroup :=
  { w with retired := true, core := none, order := none, scratch := [], scratchSize := 0, tiles := [] }

/-- A workgroup and its groups hold nothing (R102). -/
def State.frees (s : State) (wid : Nat) : State :=
  { s.modWg wid Workgroup.freed with groups := s.groups.map (fun g => if g.wid = wid then g.freed else g) }

theorem Workgroup.fields_of_unordered {x y : Workgroup} (h : x.unordered = y.unordered) : y.wid = x.wid ∧ y.lid = x.lid ∧
    y.retired = x.retired ∧ y.core = x.core ∧ y.scratch = x.scratch ∧ y.tiles = x.tiles :=
  ⟨(congrArg Workgroup.wid h.symm :), (congrArg Workgroup.lid h.symm :), (congrArg Workgroup.retired h.symm :),
    (congrArg Workgroup.core h.symm :), (congrArg Workgroup.scratch h.symm :), (congrArg Workgroup.tiles h.symm :)⟩

theorem State.retireWg_of {s : State} {wid : Nat} {w : Workgroup} (hw : s.wg? wid = some w) (hret : w.retired = false)
    (hall : ∀ g ∈ s.groups, g.wid = wid → g.retired = true) :
    ∃ u : State, s.retireWg wid = u.endLaunch w.lid ∧ u.placedUnordered = (s.frees wid).placedUnordered := by
  have hnone : (s.groups.any (fun g => g.wid == wid && !g.retired)) = false := by
    simpa using hall
  unfold State.retireWg
  rw [hw]
  dsimp only
  rw [if_neg (by simp [hret, hnone])]
  refine ⟨_, rfl, ?_⟩
  split
  · split
    · rw [State.placedUnordered_ordersOnFree]
      rfl
    · rfl
  · rfl

/-- A group after its workgroup has retired, if it is still there. -/
theorem State.mem_frees {s u : State} {wid : Nat} (h : u.bareGroups.Sublist (s.frees wid).bareGroups) {y : Group} (hy : y ∈ u.groups) :
    ∃ x ∈ s.groups, y.gid = x.gid ∧ y.wid = x.wid ∧ y.retired = x.retired ∧ y.landing = x.landing ∧
      (x.wid = wid → y.vregs = [] ∧ y.sregs = []) := by
  obtain ⟨z, hz, hbare⟩ := Group.exists_of_bareGroups h hy
  obtain ⟨x, hx, rfl⟩ := List.mem_map.1 hz
  refine ⟨x, hx, ?_⟩
  obtain ⟨hgid, hwid, hretired, hlanding, hvregs, hsregs⟩ := Group.fields_of_bare hbare
  rw [hgid, hwid, hretired, hlanding, hvregs, hsregs]
  by_cases hk : x.wid = wid
  · simp [hk, Group.freed]
  · simp [hk]

/-- A workgroup of the state in which one has retired. -/
theorem State.mem_frees_wg {s u : State} {wid : Nat} (h : u.wgs.map Workgroup.unordered = (s.frees wid).wgs.map Workgroup.unordered)
    {y : Workgroup} (hy : y ∈ u.wgs) :
    ∃ x ∈ s.wgs, y.wid = x.wid ∧ y.lid = x.lid ∧
      (x.wid = wid → y.retired = true ∧ y.core = none ∧ y.scratch = [] ∧ y.tiles = []) ∧ (x.retired = true → y.retired = true) := by
  obtain ⟨z, hz, hsame⟩ := List.mem_map.1 (h ▸ List.mem_map_of_mem hy)
  obtain ⟨x, hx, rfl⟩ := List.mem_map.1 hz
  refine ⟨x, hx, ?_⟩
  obtain ⟨hwid, hlid, hretired, hcore, hscratch, htiles⟩ := Workgroup.fields_of_unordered hsame
  rw [hwid, hlid, hretired, hcore, hscratch, htiles]
  by_cases hk : x.wid = wid
  · simp [hk, Workgroup.freed]
  · simp [hk]

theorem State.retireWg_stays {s : State} {wid : Nat} (hsome : ∃ g ∈ s.groups, g.wid = wid ∧ g.retired = false) :
    s.retireWg wid = s := by
  unfold State.retireWg
  split
  · rfl
  · rw [if_pos (by simpa using .inr hsome)]

/-! ## A launch that ends -/

/-- What is left of the units when a launch ends: some of the groups and workgroups. -/
theorem State.endLaunch_units (s : State) (lid : Nat) :
    (s.endLaunch lid).bareGroups.Sublist s.bareGroups ∧ (s.endLaunch lid).wgs.Sublist s.wgs := by
  unfold State.endLaunch
  split
  · exact ⟨.refl _, .refl _⟩
  next la _ =>
    dsimp only
    split
    · exact ⟨.refl _, .refl _⟩
    · obtain ⟨hgroups, hrest⟩ := Prod.mk.inj (s.placed_finishTask la.vf la.id la.status.toNat la.status.toNat false)
      obtain ⟨hwgs, -⟩ := Prod.mk.inj hrest
      rw [← hgroups, ← hwgs]
      exact ⟨List.filter_sublist.map _, List.filter_sublist⟩

/-- A launch whose workgroups have all retired is gone, and they with it (R181, R384). -/
theorem State.endLaunch_done {s : State} {lid : Nat} (hall : ∀ w ∈ s.wgs, w.lid = lid → w.retired = true) :
    (s.endLaunch lid).launch? lid = none ∧ ∀ x ∈ (s.endLaunch lid).wgs, x.lid = lid → s.launch? lid = none := by
  unfold State.endLaunch
  split
  next hnone => exact ⟨hnone, fun _ _ _ => hnone⟩
  next la _ =>
    dsimp only
    rw [if_neg (by simpa using hall)]
    constructor
    · exact List.find?_eq_none.2 fun l hl => by simpa using (List.mem_filter.1 hl).2
    · intro x hx hlid
      exact absurd hlid (by simpa using (List.mem_filter.1 hx).2)

/-! ## GROUP_RETIRE -/

/-- What GROUP_RETIRE leaves when it retires the last group of a workgroup: a state whose launch is looked at next. -/
theorem State.retireGroup_last {s : State} {g : Group} {w : Workgroup} (hw : s.wg? g.wid = some w) (hret : w.retired = false)
    (hlast : ∀ x ∈ s.groups, x.wid = g.wid → x.gid = g.gid ∨ x.retired = true) :
    ∃ u : State, (s.retiring g.gid).retireWg g.wid = u.endLaunch w.lid ∧
      u.placedUnordered = ((s.retiring g.gid).frees g.wid).placedUnordered := by
  refine State.retireWg_of (by rw [State.wg?, s.wgs_retiring]; exact hw) hret fun y hy hwid => ?_
  obtain ⟨x, hx, -, hxw, hretired, -⟩ := State.mem_retiring hy
  exact hretired.2 (hlast x hx (hxw ▸ hwid))

/-- The groups of a retired one's identifier have retired, and hold no landing slot. -/
theorem State.retireGroup_gone {s : State} {g : Group} {w : Workgroup} (hw : s.wg? g.wid = some w) (hret : w.retired = false) :
    ∀ y ∈ ((s.retiring g.gid).retireWg g.wid).groups, y.gid = g.gid → y.retired = true ∧ y.landing = none := by
  have hgone : ∀ y ∈ (s.retiring g.gid).groups, y.gid = g.gid → y.retired = true ∧ y.landing = none := fun y hy hgid => by
    obtain ⟨x, -, hyx, -, hretired, hlanding⟩ := State.mem_retiring hy
    exact ⟨hretired.2 (.inl (hyx ▸ hgid)), hlanding (hyx ▸ hgid)⟩
  by_cases hsome : ∃ x ∈ (s.retiring g.gid).groups, x.wid = g.wid ∧ x.retired = false
  · rw [State.retireWg_stays hsome]
    exact hgone
  · obtain ⟨u, hu, hplaced⟩ := State.retireWg_of (s := s.retiring g.gid) (by rw [State.wg?, s.wgs_retiring]; exact hw) hret
      fun y hy hwid => by simpa using fun h => hsome ⟨y, hy, hwid, h⟩
    intro y hy hgid
    rw [hu] at hy
    have hsub := (u.endLaunch_units w.lid).1
    rw [show u.bareGroups = _ from congrArg (·.1) hplaced] at hsub
    obtain ⟨x, hx, hyx, -, hretired, hlanding, -⟩ := State.mem_frees hsub hy
    rw [hretired, hlanding]
    exact hgone x hx (hyx ▸ hgid)

/-- A group that is not its workgroup's last keeps its registers. -/
theorem State.retireGroup_beside {s : State} {g : Group} (hg : s.group? g.gid = some g)
    (hbeside : ∃ x ∈ s.groups, x.wid = g.wid ∧ x.gid ≠ g.gid ∧ x.retired = false) :
    let t := (s.retiring g.gid).retireWg g.wid
    t.wgs = s.wgs ∧ t.launches = s.launches ∧ ∃ x, t.group? g.gid = some x ∧ x.vregs = g.vregs ∧ x.sregs = g.sregs := by
  obtain ⟨x, hx, hwid, hother, hstays⟩ := hbeside
  have hsome : ∃ y ∈ (s.retiring g.gid).groups, y.wid = g.wid ∧ y.retired = false := by
    obtain ⟨y, hy, hbare⟩ := Group.exists_of_bareGroups (s := s.retiring g.gid) (t := s.modGroup g.gid Group.retire)
      (by rw [s.bareGroups_retiring]) (List.mem_map.2 ⟨x, hx, if_neg hother⟩)
    obtain ⟨-, hyw, hyr, -⟩ := Group.fields_of_bare hbare
    exact ⟨y, hy, hyw ▸ hwid, hyr ▸ hstays⟩
  rw [State.retireWg_stays hsome]
  refine ⟨s.wgs_retiring _, s.launches_retiring _, ?_⟩
  have hbare := State.group_bare (s.bareGroups_retiring g.gid) g.gid
  rw [State.group_mod_self hg rfl, Option.map_some, Option.map_eq_some_iff] at hbare
  obtain ⟨y, hy, hbare⟩ := hbare
  obtain ⟨-, -, -, -, hvregs, hsregs⟩ := Group.fields_of_bare hbare
  exact ⟨y, hy, hvregs.symm, hsregs.symm⟩

/-- The last group of a workgroup frees what it holds, and the last workgroup ends its launch. -/
theorem State.retireGroup_frees {s : State} {g : Group} {w : Workgroup} (hw : s.wg? g.wid = some w) (hret : w.retired = false)
    (hlast : ∀ x ∈ s.groups, x.wid = g.wid → x.gid = g.gid ∨ x.retired = true) :
    let t := (s.retiring g.gid).retireWg g.wid
    (∀ x ∈ t.groups, x.wid = g.wid → x.vregs = [] ∧ x.sregs = []) ∧
    (∀ x ∈ t.wgs, x.wid = w.wid → x.retired = true ∧ x.core = none ∧ x.scratch = [] ∧ x.tiles = []) ∧
    ((∀ x ∈ s.wgs, x.lid = w.lid → x.wid = w.wid ∨ x.retired = true) →
      t.launch? w.lid = none ∧ ∀ x ∈ t.wgs, x.lid = w.lid → s.launch? w.lid = none) := by
  obtain ⟨u, hu, hplaced⟩ := State.retireGroup_last hw hret hlast
  obtain ⟨hgroups, hwgs⟩ := u.endLaunch_units w.lid
  rw [show u.bareGroups = _ from congrArg (·.1) hplaced] at hgroups
  have hfreed : u.wgs.map Workgroup.unordered = ((s.retiring g.gid).frees g.wid).wgs.map Workgroup.unordered := congrArg (·.2.1) hplaced
  have hlaunches : u.launches = s.launches := (congrArg (·.2.2) hplaced).trans (s.launches_retiring g.gid)
  intro t
  have ht : t = u.endLaunch w.lid := hu
  rw [ht]
  refine ⟨fun y hy hwid => ?_, fun y hy hwid => ?_, fun hall => ?_⟩
  · obtain ⟨x, -, -, hyx, -, -, hregs⟩ := State.mem_frees hgroups hy
    exact hregs (hyx ▸ hwid)
  · obtain ⟨x, -, hyx, -, hfree, -⟩ := State.mem_frees_wg hfreed (hwgs.subset hy)
    exact hfree (by rw [← hyx, hwid, State.wg_key hw])
  · have hdone := u.endLaunch_done (lid := w.lid) fun y hy hlid => by
      obtain ⟨x, hx, -, hyl, hfree, hkept⟩ := State.mem_frees_wg hfreed hy
      rcases hall x (s.wgs_retiring g.gid ▸ hx) (hyl ▸ hlid) with hwid | hretired
      · exact (hfree (hwid.trans (State.wg_key hw))).1
      · exact hkept hretired
    simpa only [State.launch?, hlaunches] using hdone

end Sys2Proof.Machine

end

section
/-! # Admission (O52) -/

namespace Sys2Proof.Machine

/-! ## Register tiers -/

/-- The workgroups, launches and queue entries, which register tiers leave alone. -/
def State.unitsAbove (s : State) : List Workgroup × List Launch × List QEntry := (s.wgs, s.launches, s.queue)

theorem State.unitsAbove_fitTiers (s : State) : s.fitTiers.unitsAbove = s.unitsAbove := by
  refine foldl_keeps State.unitsAbove (fun s c => ?_) _ _
  have htrim : (s.trimActive c).unitsAbove = s.unitsAbove := by
    unfold State.trimActive
    dsimp only
    split
    · exact foldl_keeps State.unitsAbove (fun s g => by rfl) _ _
    · rfl
  unfold State.overflow
  dsimp only
  split
  · exact (foldl_keeps State.unitsAbove (fun s g => by rfl) _ _).trans htrim
  · exact htrim

/-! ## The variants of a placement (R313) -/

/-- Every workgroup of a placement has a variant that the code has. -/
theorem variant_of_placeOn {s : State} {c : CodeObj} {r : LaunchRec} {p : Option (Placing × List Usage)} (cores : List Nat)
    (hp : ∀ q, p = some q → ∀ x ∈ q.1, ∃ v, c.variant? x.2 = some v) {q : Placing × List Usage}
    (hq : cores.foldl (s.placeOn c r) p = some q) : ∀ x ∈ q.1, ∃ v, c.variant? x.2 = some v := by
  induction cores generalizing p with
  | nil => exact hp q hq
  | cons core cores ih =>
    refine ih (fun q' hq' => ?_) hq
    unfold State.placeOn at hq'
    split at hq'
    · cases hq'
    next ps us =>
      split at hq'
      · cases hq'
      next k _ =>
        split at hq'
        · cases hq'
        next v hv =>
          obtain rfl := Option.some.inj hq'
          intro x hx
          rcases List.mem_append.1 hx with hx | hx
          · exact hp _ rfl x hx
          · obtain rfl := List.mem_singleton.1 hx
            exact ⟨v, hv⟩

theorem variant_of_placeGiven {s : State} {c : CodeObj} {r : LaunchRec} {us : List Usage} {quads cores : List Nat} {pl : Placing}
    (h : s.placeGiven c r us quads cores = some pl) : ∀ x ∈ pl, ∃ v, c.variant? x.2 = some v := by
  unfold State.placeGiven at h
  split at h
  · cases h
  · obtain ⟨q, hq, rfl⟩ := Option.map_eq_some_iff.1 h
    refine variant_of_placeOn cores (fun q' hq' x hx => ?_) hq
    obtain rfl := Option.some.inj hq'
    cases hx

/-! ## The workgroups of a launch start -/

/-- Launch, index, core, variant and groups of a workgroup. -/
def Workgroup.seat (w : Workgroup) : Nat × Nat × Option Nat × Nat × Nat := (w.lid, w.index, w.core, w.variant, w.ngrp)

/-- Where a placement puts a workgroup of a launch. -/
def Launch.seatOf (la : Launch) (p : (Nat × Nat) × Nat) : Nat × Nat × Option Nat × Nat × Nat :=
  (la.lid, p.2, some p.1.1, p.1.2, (la.record.ngrp[p.1.2]?).getD 0)

theorem State.startPlaced_units (la : Launch) {c : CodeObj} (s : State) {p : (Nat × Nat) × Nat} {v : Variant}
    (hv : c.variant? p.1.2 = some v) : ∃ w : Workgroup, w.seat = la.seatOf p ∧
      (State.startPlaced la c s p).unitsAbove = (s.wgs ++ [w], s.launches, s.queue) := by
  unfold State.startPlaced State.startWg
  dsimp only
  rw [hv]
  dsimp only
  split
  · exact ⟨_, rfl, rfl⟩
  · exact ⟨_, rfl, rfl⟩

theorem State.startAll_units (la : Launch) {c : CodeObj} (l : List ((Nat × Nat) × Nat))
    (hl : ∀ p ∈ l, ∃ v, c.variant? p.1.2 = some v) (s : State) : ∃ new : List Workgroup, new.map Workgroup.seat = l.map la.seatOf ∧
      (l.foldl (State.startPlaced la c) s).unitsAbove = (s.wgs ++ new, s.launches, s.queue) := by
  induction l generalizing s with
  | nil => exact ⟨[], rfl, by rw [List.append_nil]; rfl⟩
  | cons p l ih =>
    obtain ⟨v, hv⟩ := hl p List.mem_cons_self
    obtain ⟨w, hw, hstart⟩ := s.startPlaced_units la hv
    obtain ⟨new, hnew, hrest⟩ := ih (fun q hq => hl q (List.mem_cons_of_mem _ hq)) (State.startPlaced la c s p)
    obtain ⟨hwgs, hlq⟩ := Prod.mk.inj hstart
    obtain ⟨hlaunches, hqueue⟩ := Prod.mk.inj hlq
    refine ⟨w :: new, by rw [List.map_cons, hw, hnew, List.map_cons], ?_⟩
    rw [List.foldl_cons, hrest, hwgs, hlaunches, hqueue, List.append_assoc, List.singleton_append]

/-- The launch that an entry becomes. -/
def QEntry.launch (e : QEntry) (lid part : Nat) : Launch :=
  ⟨lid, e.vf, e.id, part, e.level, e.record, e.record.fpctl &&& 0x1F, if e.firmware then 2 else 0, 0, Barrier.fresh, 0⟩

/-- A launch that is admitted (R311, R313). -/
theorem State.takeIn_units (s : State) (e : QEntry) (part : Nat) {c : CodeObj} {pl : Placing}
    (hpl : ∀ x ∈ pl, ∃ v, c.variant? x.2 = some v) : ∃ new : List Workgroup,
      new.map Workgroup.seat = pl.zipIdx.map (e.launch s.tick part).seatOf ∧
      (s.takeIn e part c pl).unitsAbove = (s.wgs ++ new, s.launches ++ [e.launch s.tick part],
        s.queue.map (fun x => if x.vf = e.vf ∧ x.id = e.id then { x with admitted := true } else x)) :=
  State.startAll_units (e.launch s.tick part) pl.zipIdx
    (fun p hp => hpl p.1 (List.fst_mem_of_mem_zipIdx hp)) _

/-! ## LAUNCH_ADMIT -/

theorem State.considerLaunch_absent {s : State} {vf id part : Nat} {cores : List Nat} (hpart : s.partOf vf = some part)
    (hfind : (s.levelHeads part).find? (fun e => e.vf == vf && e.id.toNat == id) = none) : s.considerLaunch vf id cores = s := by
  simp only [State.considerLaunch, hpart, hfind]

section
variable {s : State} {vf id part : Nat} {cores : List Nat} {e : QEntry} (hpart : s.partOf vf = some part)
  (hfind : (s.levelHeads part).find? (fun e => e.vf == vf && e.id.toNat == id) = some e)
include hpart hfind

theorem State.considerLaunch_uncoded (hcode : s.code? e.record.asid e.record.kobj = none) :
    s.considerLaunch vf id cores = s.finishTask vf e.id 1 4 false := by
  simp only [State.considerLaunch, hpart, hfind, hcode]

variable {c : CodeObj} (hcode : s.code? e.record.asid e.record.kobj = some c)
include hcode

theorem State.considerLaunch_impossible (hno : s.possible part c e.record = false) :
    s.considerLaunch vf id cores = s.finishTask vf e.id 1 4 false := by
  simp [State.considerLaunch, hpart, hfind, hcode, hno]

variable (hposs : s.possible part c e.record = true)
include hposs

theorem State.considerLaunch_waits (hwait : s.headLaunch part ≠ some e ∨ s.savedOf part ≠ [] ∨
    s.areaBytes part < s.imagesOf part + imageBytes c e.record * e.record.count) : s.considerLaunch vf id cores = s := by
  simp only [State.considerLaunch, hpart, hfind, hcode, hposs]
  rcases hwait with hwait | hwait | hwait <;> simp [hwait]

theorem State.considerLaunch_admits {pl : Placing} (hhead : s.headLaunch part = some e) (hsaved : s.savedOf part = [])
    (hroom : s.imagesOf part + imageBytes c e.record * e.record.count ≤ s.areaBytes part)
    (hplace : s.placeGiven c e.record (s.usages []) (s.openQuads part) cores = some pl) :
    s.considerLaunch vf id cores = s.takeIn e part c pl := by
  simp [State.considerLaunch, hpart, hfind, hcode, hposs, hhead, hsaved, Nat.not_lt.2 hroom, hplace]

end

end Sys2Proof.Machine

end

section
/-! # Variant switches (O52) -/

namespace Sys2Proof.Machine

/-! ## Registers that move (R316) -/

/-- The register writes of a move: each listed location of each lane takes what its old location held. -/
theorem mem_movedVregs {g : Group} {m : List (Nat × Nat)} {p : Nat × W32} :
    p ∈ (List.range g.width).flatMap (fun h => m.map (fun m => (h * 256 + m.2, g.vreg h m.1))) ↔
      ∃ h, h < g.width ∧ ∃ q ∈ m, (h * 256 + q.2, g.vreg h q.1) = p := by
  simp only [List.mem_flatMap, List.mem_range, List.mem_map]

/-- A register that the switch map names holds what its old location held; another holds zero (R316). -/
theorem Group.vreg_moveTo (g : Group) (es : List SwitchEnt) (v u : Nat) (pc : W64) {h k : Nat} (hh : h < g.width) (hk : k < 256)
    (hnd : ((moves es 0 v u).map Prod.snd).Nodup) (hlt : ∀ p ∈ moves es 0 v u, p.2 < 256) :
    (∀ j, (j, k) ∈ moves es 0 v u → (g.moveTo es v u pc).vreg h k = g.vreg h j) ∧
      ((∀ j, (j, k) ∉ moves es 0 v u) → (g.moveTo es v u pc).vreg h k = 0) := by
  refine ⟨fun j hj => ?_, fun hno => ?_⟩
  · refine get_setAll_mem _ _ _ _ (fun p hp hpk => ?_) ⟨_, mem_movedVregs.2 ⟨h, hh, (j, k), hj, rfl⟩, rfl⟩
    obtain ⟨h', -, q, hq, rfl⟩ := mem_movedVregs.1 hp
    have hqlt := hlt q hq
    obtain ⟨rfl, hqk⟩ : h' = h ∧ q.2 = k := by
      simp only at hpk
      omega
    have hqj : q = (j, k) := List.inj_on_of_nodup_map hnd hq hj hqk
    rw [hqj]
  · refine (get_setAll_not _ _ _ fun p hp hpk => ?_).trans rfl
    obtain ⟨h', -, q, hq, rfl⟩ := mem_movedVregs.1 hp
    have hqlt := hlt q hq
    have hqk : q.2 = k := by
      simp only at hpk
      omega
    exact hno q.1 (hqk ▸ hq)

/-! ## SWITCH_RENDEZVOUS -/

section
variable {s : State} {w : Workgroup} {o : SwitchOrder} {core n : Nat} {la : Launch} {c : CodeObj} (hw : s.wg? w.wid = some w)
  (ho : w.order = some o) (hcore : w.core = some core) (hla : s.launch? w.lid = some la) (hc : s.codeOf la = some c)
  (hn : s.meetingPoint w.wid = some n)
include hw ho hcore hla hc hn

theorem State.rendezvous_waits (hno : s.rendezvousClear w.wid = false ∨ s.edgeOpen core = false) : s.rendezvous w.wid = s := by
  simp only [State.rendezvous, hw, ho, hcore, hla, Option.bind_some, hc, hn]
  rw [if_pos (by simpa using hno)]

theorem State.rendezvous_switches (hclear : s.rendezvousClear w.wid = true) (hedge : s.edgeOpen core = true) :
    s.rendezvous w.wid = s.switchWg w c n o.target := by
  simp only [State.rendezvous, hw, ho, hcore, hla, Option.bind_some, hc, hn]
  rw [if_neg (by simp [hclear, hedge])]

end

/-- What a workgroup's switch to variant u leaves: its groups have moved, it holds u's scratchpad, marks of bad scratchpad beyond what
both variants hold are gone, and nothing else has changed (R316). -/
theorem State.switchWg_of {s : State} {w : Workgroup} {c : CodeObj} {n u off : Nat} {vv vu : Variant} (hw : s.wg? w.wid = some w)
    (hvv : c.variant? w.variant = some vv) (hvu : c.variant? u = some vu)
    (hp : c.points.find? (fun p => p.1 == u && p.2.1 == n) = some (u, n, off)) :
    let t := s.switchWg w c n u
    t.groups = s.groups.map (fun g => if g.wid = w.wid ∧ g.retired = false then
      g.moveTo (c.switches.filter (fun e => e.point == n)) w.variant u (nextPc (c.kobj + BitVec.ofNat 64 off)) else g) ∧
    { t with groups := s.groups, wgs := s.wgs, badScratch := s.badScratch } = s ∧
    (∀ b, b ∈ t.badScratch ↔ b ∈ s.badScratch ∧ (b.1 = w.wid → 8 * b.2 < min vv.scratch vu.scratch)) ∧
    ∃ w', t.wg? w.wid = some w' ∧ w'.variant = u ∧ w'.order = none ∧ w'.scratchSize = vu.scratch ∧
      ∀ x ∈ s.wgs, x.wid ≠ w.wid → x ∈ t.wgs := by
  unfold State.switchWg
  rw [hvv, hvu, hp]
  dsimp only
  refine ⟨?_, rfl, fun b => ?_, ?_⟩
  · refine List.map_congr_left fun g _ => if_congr ?_ rfl rfl
    simp
  · refine List.mem_filter.trans (and_congr_right fun _ => ?_)
    rw [Bool.or_eq_true, bne_iff_ne, decide_eq_true_eq, ← imp_iff_not_or]
  · refine ⟨w.moveTo (c.switches.filter (fun e => e.point == n)) w.variant u vv.scratch vu.scratch, ?_, rfl, rfl, rfl,
      fun x hx hne => ?_⟩
    · rw [State.wg_modWg, if_pos rfl]
      change Option.map _ (s.wg? w.wid) = _
      rw [hw]
      rfl
    · exact List.mem_map.2 ⟨x, hx, if_neg hne⟩

end Sys2Proof.Machine

open Sys2Proof Sys2Proof.Machine

/-- R102, R110, R310 to R316, R384: retirement, admission, the rendezvous, and the registers that it moves. -/
theorem launchesPlaced : Statements.LaunchesPlaced := by
  refine ⟨fun s g w hg hw hwret => ⟨fun hno => ?_, fun hret hdone hidle hmay => ?_⟩, fun s e part cores hpart => ?_,
    fun s w o core la c n hw ho hcore hla hc hn => ⟨fun hno => ?_, fun vv vu off hclear hedge hvv hvu hp => ?_⟩,
    fun g es v u pc h k hh hk hnd hlt => g.vreg_moveTo es v u pc hh hk hnd hlt⟩
  · exact congrArg (done s) (State.retireGroup_stays hg hno)
  · exact ⟨_, congrArg (done s) (State.retireGroup_of hg hret hdone hidle hmay), State.retireGroup_gone hw hwret,
      State.retireGroup_beside hg, State.retireGroup_frees hw hwret⟩
  · have hadmit {u : State} (hu : s.considerLaunch e.vf e.id.toNat cores = u) :
        exec (.launchAdmit e.vf e.id.toNat cores) s = .next (u.fitTiers.fused s) := congrArg (fun u : State => done s u.fitTiers) hu
    refine ⟨fun hno => hadmit (State.considerLaunch_absent hpart ?_), fun hfind => ⟨fun hno => hadmit ?_, fun c pl hcode hposs =>
      ⟨fun hwait => hadmit (State.considerLaunch_waits hpart hfind hcode hposs hwait), fun hhead hsaved hroom hplace => ?_⟩⟩⟩
    · refine List.find?_eq_none.2 fun x hx hsame => ?_
      simp only [Bool.and_eq_true, beq_iff_eq] at hsame
      exact hno x hx hsame.1 (BitVec.eq_of_toNat_eq hsame.2)
    · rcases hno with hcode | ⟨c, hcode, hposs⟩
      · exact State.considerLaunch_uncoded hpart hfind hcode
      · exact State.considerLaunch_impossible hpart hfind hcode hposs
    · have hconsider := State.considerLaunch_admits hpart hfind hcode hposs hhead hsaved hroom hplace
      obtain ⟨new, hseats, hunits⟩ := s.takeIn_units e part (variant_of_placeGiven hplace)
      rw [← State.unitsAbove_fitTiers] at hunits
      obtain ⟨hwgs, hlq⟩ := Prod.mk.inj hunits
      obtain ⟨hlaunches, hqueue⟩ := Prod.mk.inj hlq
      refine ⟨_, new, hadmit hconsider, hwgs, hseats, hqueue, ?_⟩
      rw [State.fused]
      dsimp only
      rw [hlaunches, List.map_append]
      rfl
  · exact congrArg (fun u : State => done s u.fitTiers) (State.rendezvous_waits hw ho hcore hla hc hn hno)
  · exact ⟨_, congrArg (fun u : State => done s u.fitTiers) (State.rendezvous_switches hw ho hcore hla hc hn hclear hedge),
      State.switchWg_of hw hvv hvu hp⟩

end

section
/-! # Register tiers (O52) -/

namespace Sys2Proof.Machine

/-! ## Sorting -/

theorem insertBy_perm {α : Type} (lt : α → α → Bool) (x : α) (l : List α) : (insertBy lt x l).Perm (x :: l) := by
  induction l with
  | nil => exact .refl _
  | cons y l ih =>
    unfold insertBy
    split
    · exact .refl _
    · exact (ih.cons y).trans (.swap x y l)

theorem sortBy_perm {α : Type} (lt : α → α → Bool) (l : List α) : (l.sortBy lt).Perm l := by
  have hfold (acc : List α) : (l.foldl (fun acc x => insertBy lt x acc) acc).Perm (l ++ acc) := by
    induction l generalizing acc with
    | nil => exact .refl _
    | cons x l ih => exact (ih _).trans (((insertBy_perm lt x acc).append_left l).trans List.perm_middle)
  exact (hfold []).trans (.of_eq (List.append_nil l))

/-! ## Groups that leave a register file -/

theorem State.mem_enough {s : State} {need : Nat} {l out : List Group} (h : s.enough need l = some out) : ∀ g ∈ out, g ∈ l := by
  induction l generalizing need out with
  | nil =>
    cases need with
    | zero => cases h; simp
    | succ n => cases h
  | cons g l ih =>
    cases need with
    | zero => cases h; simp
    | succ n =>
      obtain ⟨rest, hrest, rfl⟩ := Option.map_eq_some_iff.1 h
      intro x hx
      rcases List.mem_cons.1 hx with rfl | hx
      · exact List.mem_cons_self
      · exact List.mem_cons_of_mem _ (ih hrest x hx)

theorem State.mem_leaveOrder {s : State} {prio : Nat} {gs : List Group} {g : Group} (h : g ∈ s.leaveOrder prio gs) : g ∈ gs := by
  rcases List.mem_append.1 h with h | h
  · exact (List.mem_filter.1 ((sortBy_perm _ _).mem_iff.1 h)).1
  · exact (List.mem_filter.1 ((sortBy_perm _ _).mem_iff.1 h)).1

/-- Updates of groups of other identifiers leave a group where it is. -/
theorem foldl_modGroup_other {f : Group → Group} {gid : Nat} (l : List Group) (hl : ∀ k ∈ l, k.gid ≠ gid) (s : State) :
    (l.foldl (fun s k => s.modGroup k.gid f) s).group? gid = s.group? gid ∧
      ∀ x ∈ s.groups, x.gid = gid → x ∈ (l.foldl (fun s k => s.modGroup k.gid f) s).groups := by
  induction l generalizing s with
  | nil => exact ⟨rfl, fun x hx _ => hx⟩
  | cons k l ih =>
    have hk : k.gid ≠ gid := hl k List.mem_cons_self
    obtain ⟨hgroup, hmem⟩ := ih (fun j hj => hl j (List.mem_cons_of_mem _ hj)) (s.modGroup k.gid f)
    refine ⟨hgroup.trans ?_, fun x hx hgid => hmem x ?_ hgid⟩
    · rw [State.group_mod, if_neg (Ne.symm hk)]
    · exact List.mem_map.2 ⟨x, hx, if_neg (hgid ▸ Ne.symm hk)⟩

/-- Groups of one identifier that are equal. -/
theorem Group.eq_of_gid {s : State} (hids : (s.groups.map (·.gid)).Nodup) {x y : Group} (hx : x ∈ s.groups) (hy : y ∈ s.groups)
    (h : x.gid = y.gid) : x = y :=
  List.inj_on_of_nodup_map hids hx hy h

/-- The overflow of the pending file leaves an active group alone (R320). -/
theorem State.overflow_active {s : State} (hids : (s.groups.map (·.gid)).Nodup) (core : Nat) {x : Group} (hx : x ∈ s.groups)
    (hactive : x.tier = .active) : (s.overflow core).group? x.gid = s.group? x.gid ∧ x ∈ (s.overflow core).groups := by
  unfold State.overflow
  dsimp only
  split
  next gs hgs =>
    have hother : ∀ k ∈ gs, k.gid ≠ x.gid := fun k hk hgid => by
      have hmem := State.mem_leaveOrder (State.mem_enough hgs k hk)
      simp only [State.groupsOn, List.mem_filter, Bool.and_eq_true, beq_iff_eq] at hmem
      obtain ⟨⟨hmem, -⟩, hpending, -⟩ := hmem
      rw [Group.eq_of_gid hids hmem hx hgid, hactive] at hpending
      cases hpending
    obtain ⟨hgroup, hmem⟩ := foldl_modGroup_other gs hother s
    exact ⟨hgroup, hmem x hx rfl⟩
  next => exact ⟨rfl, hx⟩

/-! ## A group that enters the active set -/

theorem State.gids_modGroup (s : State) (k : Nat) (f : Group → Group) : (s.modGroup k f).groups.map (·.gid) = s.groups.map (·.gid) := by
  rw [State.modGroup, List.map_map]
  refine List.map_congr_left fun g _ => ?_
  simp only [Function.comp]
  split
  next hk => exact hk.symm
  next => rfl

theorem State.group_of_mem {s : State} (hids : (s.groups.map (·.gid)).Nodup) {x : Group} (hx : x ∈ s.groups) :
    s.group? x.gid = some x := by
  have hsome : (s.group? x.gid).isSome = true := List.find?_isSome.2 ⟨x, hx, by simp⟩
  obtain ⟨y, hy⟩ := Option.isSome_iff_exists.1 hsome
  rw [hy, Group.eq_of_gid hids (List.mem_of_find?_eq_some hy) hx (State.gid_of_group hy)]

/-- Group g is active from this cycle on in t, and no group that was active has left (R320). -/
def State.enters (s : State) (core : Nat) (g : Group) (t : State) : Prop :=
  (∃ x, t.group? g.gid = some x ∧ x.tier = .active ∧ x.tierSince = s.cycle core) ∧
    ∀ x ∈ s.groups, x.gid ≠ g.gid → x.tier = .active → ∃ y ∈ t.groups, y.gid = x.gid ∧ y.tier = .active

/-- A group that is made active enters, whatever the pending file then sheds. -/
theorem State.enters_of_modGroup {s : State} (hids : (s.groups.map (·.gid)).Nodup) {core : Nat} {g : Group} (hg : g ∈ s.groups)
    {f : Group → Group} (hf : ∀ x, (f x).tier = .active ∧ (f x).tierSince = s.cycle core) :
    s.enters core g ((s.modGroup g.gid f).overflow core) := by
  have hids' : ((s.modGroup g.gid f).groups.map (·.gid)).Nodup := by rwa [State.gids_modGroup]
  constructor
  · have hmem : { f g with gid := g.gid } ∈ (s.modGroup g.gid f).groups := List.mem_map.2 ⟨g, hg, if_pos rfl⟩
    have hgroup := (State.overflow_active hids' core hmem (hf g).1).1
    exact ⟨_, hgroup.trans (State.group_of_mem hids' hmem), hf g⟩
  · intro x hx hother hactive
    have hmem : x ∈ (s.modGroup g.gid f).groups := List.mem_map.2 ⟨x, hx, if_neg hother⟩
    exact ⟨x, (State.overflow_active hids' core hmem hactive).2, rfl, hactive⟩

theorem State.modGroup_modGroup (s : State) (k : Nat) (f f' : Group → Group) :
    (s.modGroup k f).modGroup k f' = s.modGroup k (fun g => f' { f g with gid := k }) := by
  simp only [State.modGroup, List.map_map]
  refine congrArg (fun l => { s with groups := l }) (List.map_congr_left fun g _ => ?_)
  simp only [Function.comp]
  split <;> simp_all

/-- Where a group's context fits beside those in the active set, it enters and none leaves. -/
theorem State.promoteOver_of_fits {s : State} (hids : (s.groups.map (·.gid)).Nodup) {core : Nat} {g : Group} (hg : g ∈ s.groups)
    (hfits : sumOf (((s.groupsOn core).filter (fun x => x.tier == .active)).map s.unitsOf) + s.unitsOf g ≤ 1024) (vs : List Group) :
    ∃ t, s.promoteOver core g vs = some t ∧ s.enters core g t := by
  unfold State.promoteOver
  dsimp only
  rw [Nat.sub_eq_zero_of_le hfits, State.enough]
  dsimp only [List.foldl_nil]
  refine ⟨_, rfl, ?_⟩
  rw [State.setTier, State.modGroup_modGroup]
  exact State.enters_of_modGroup hids hg fun x => ⟨rfl, rfl⟩

theorem State.mem_waitingGroups {s : State} {core : Nat} {g : Group} (h : g ∈ s.waitingGroups core) : g ∈ s.groups :=
  (List.mem_filter.1 (List.mem_filter.1 h).1).1

/-- The first of some groups enters where it fits. -/
theorem State.findSome_promoteOver {s : State} (hids : (s.groups.map (·.gid)).Nodup) {core : Nat} {l rest : List Group} {g : Group}
    (hl : l.sortBy s.promoteBefore = g :: rest) (hmem : ∀ x ∈ l, x ∈ s.groups)
    (hfits : sumOf (((s.groupsOn core).filter (fun x => x.tier == .active)).map s.unitsOf) + s.unitsOf g ≤ 1024)
    (vs : Group → List Group) :
    ∃ t, (l.sortBy s.promoteBefore).findSome? (fun g => s.promoteOver core g (vs g)) = some t ∧ s.enters core g t := by
  have hg : g ∈ s.groups := hmem g ((sortBy_perm s.promoteBefore l).mem_iff.1 (hl ▸ List.mem_cons_self))
  obtain ⟨t, ht, henters⟩ := State.promoteOver_of_fits hids hg hfits (vs g)
  exact ⟨t, by rw [hl, List.findSome?_cons, ht], henters⟩

/-- The groups of a core that have waited 65,536 cycles outside the active set. -/
def State.agedGroups (s : State) (core : Nat) : List Group :=
  (s.waitingGroups core).filter (fun g => 65536 ≤ (s.cycle core - g.tierSince).toNat)

theorem State.aged_of_nil {s : State} {core : Nat} (h : s.agedGroups core = []) : s.aged core = none := by
  unfold State.aged
  change List.findSome? _ ((s.agedGroups core).sortBy s.promoteBefore) = none
  rw [h]
  rfl

theorem State.aged_of_fits {s : State} (hids : (s.groups.map (·.gid)).Nodup) {core : Nat} {rest : List Group} {g : Group}
    (hl : (s.agedGroups core).sortBy s.promoteBefore = g :: rest)
    (hfits : sumOf (((s.groupsOn core).filter (fun x => x.tier == .active)).map s.unitsOf) + s.unitsOf g ≤ 1024) :
    ∃ t, s.aged core = some t ∧ s.enters core g t :=
  State.findSome_promoteOver hids hl (fun _ hx => State.mem_waitingGroups (List.mem_filter.1 hx).1) hfits fun _ => _

end Sys2Proof.Machine

open Sys2Proof Sys2Proof.Machine

/-- R203, R320: with room beside the active set, the first of the groups in order enters, those that have aged before the others. -/
theorem contextsMove : Statements.ContextsMove := by
  intro s core hids active fits enters old
  have hfits (g : Machine.Group) (h : fits g) :
      sumOf (((s.groupsOn core).filter (fun x => x.tier == .active)).map s.unitsOf) + s.unitsOf g ≤ 1024 := by
    rw [State.groupsOn, List.filter_filter]
    have hsum := congrArg (fun l => sumOf (l.map s.unitsOf)) (List.filter_congr (l := s.groups) fun x _ =>
      Bool.and_comm (x.tier == .active) (!x.retired && s.coreOf x == some core))
    exact (congrArg (· + s.unitsOf g) hsum).trans_le h
  have hnone (h : old = []) : s.promoteNext core = (((s.waitingGroups core).sortBy s.promoteBefore).findSome? (fun g =>
      s.promoteOver core g (s.victims core (s.wgPrio g)))).getD s := by
    rw [State.promoteNext, State.aged_of_nil h]
    rfl
  refine ⟨fun hempty => ?_, fun g rest hold hsorted hg => ?_, fun g rest hsorted hg => ?_, fun hold => ?_, fun g rest hsorted hg => ?_⟩
  · have hold : old = [] := congrArg (List.filter _) hempty
    refine congrArg (done s) ?_
    rw [hnone hold, hempty]
    rfl
  · obtain ⟨t, ht, henters⟩ := State.findSome_promoteOver hids hsorted (fun _ hx => State.mem_waitingGroups hx) (hfits g hg)
      (fun g => s.victims core (s.wgPrio g))
    have hnext : s.promoteNext core = t := by rw [hnone hold, ht, Option.getD_some]
    exact ⟨t.fused s, congrArg (done s) hnext, henters⟩
  · obtain ⟨t, ht, -⟩ := State.aged_of_fits hids hsorted (hfits g hg)
    refine congrArg (done s) ?_
    rw [State.promoteNext, ht]
    rfl
  · refine congrArg (done s) ?_
    rw [State.ageNext, State.aged_of_nil hold]
    rfl
  · obtain ⟨t, ht, henters⟩ := State.aged_of_fits hids hsorted (hfits g hg)
    have hnext : s.ageNext core = t := by rw [State.ageNext, ht, Option.getD_some]
    exact ⟨t.fused s, congrArg (done s) hnext, henters⟩

/-- Settles O52: launches and their units, then register tiers. -/
theorem launchesAndContexts : Obligations.LaunchesAndContexts := ⟨launchesPlaced, contextsMove⟩

end

section
/-! # Quotients, roots and estimates (O16)

Each result is the rounding of a truncated quotient or root, with more bits than the format has, and a mark of what the truncation
drops. -/

namespace Sys2Proof

/-! ## Truncated quotients and roots -/

/-- Each step of the digit recurrence appends one bit to the root of a quarter of the number. -/
theorem isqrt_eq_sqrt {n b : Nat} (hn : n < 4 ^ (b + 1)) : isqrt n b = n.sqrt := by
  induction b generalizing n with
  | zero =>
    rw [Nat.eq_sqrt, isqrt]
    split_ifs <;> omega
  | succ b ih =>
    have hlow := Nat.sqrt_le (n / 4)
    have hhigh := Nat.lt_succ_sqrt (n / 4)
    rw [Nat.eq_sqrt, isqrt, ih (by omega)]
    generalize (n / 4).sqrt = r at hlow hhigh
    rw [Nat.succ_eq_add_one] at hhigh
    split_ifs with hbit
    · exact ⟨hbit, by linarith [show n < 4 * ((r + 1) * (r + 1)) by omega]⟩
    · exact ⟨by linarith [show 4 * (r * r) ≤ n by omega], by omega⟩

theorem natSqrt_eq_sqrt (n : Nat) : natSqrt n = n.sqrt := by
  refine isqrt_eq_sqrt ?_
  calc n < 2 ^ (n.log2 + 1) := Nat.lt_log2_self
    _ ≤ 2 ^ (2 * (n.log2 / 2 + 1 + 1)) := Nat.pow_le_pow_right (by norm_num) (by omega)
    _ = 4 ^ (n.log2 / 2 + 1 + 1) := Nat.pow_mul 2 2 _

/-- A dividend scaled by more places than the divisor has bits leaves a quotient of more than n bits. -/
theorem two_pow_le_scaled_div {m d : Nat} (hm : m ≠ 0) (hd : d ≠ 0) (n : Nat) : 2 ^ n ≤ m * 2 ^ (n + 1 + d.log2) / d := by
  rw [Nat.le_div_iff_mul_le (Nat.pos_of_ne_zero hd)]
  calc 2 ^ n * d ≤ 2 ^ n * 2 ^ (d.log2 + 1) := Nat.mul_le_mul_left _ Nat.lt_log2_self.le
    _ = 2 ^ (n + 1 + d.log2) := by rw [← Nat.pow_add]; congr 1; omega
    _ ≤ m * 2 ^ (n + 1 + d.log2) := Nat.le_mul_of_pos_left _ (Nat.pos_of_ne_zero hm)

/-- The mark of a truncated root says that its square is not the number. -/
theorem bne_eq_decide_ne (a b : Nat) : (a != b) = decide (a ≠ b) := (decide_not ..).symm

/-- The mark of a truncated quotient says that the division leaves a remainder. -/
theorem mod_bne_zero (n d : Nat) : (n % d != 0) = decide (¬d ∣ n) :=
  (bne_eq_decide_ne ..).trans (decide_eq_decide.2 (not_congr Nat.dvd_iff_mod_eq_zero.symm))

/-! ## The operations on finite values -/

theorem FFmt.div_fin (f : FFmt) (rm : Nat) (n n' : Bool) (m : Nat) {m' : Nat} (hm' : m' ≠ 0) (k k' : Int) :
    ∃ j : Nat, f.div rm (.fin n m k) (.fin n' m' k') =
        f.roundFin rm false (n != n') (m * 2 ^ j / m') (k - k' - j) (decide (¬m' ∣ m * 2 ^ j)) ∧
      (m ≠ 0 → 2 ^ (f.fb + 3) ≤ m * 2 ^ j / m') := by
  refine ⟨f.fb + 4 + m'.log2, ?_, fun hm => two_pow_le_scaled_div hm hm' (f.fb + 3)⟩
  rw [← mod_bne_zero, ← Nat.shiftLeft_eq]
  exact if_neg hm'

theorem FFmt.sqrt_fin (f : FFmt) (rm : Nat) {m : Nat} (hm : m ≠ 0) (k : Int) :
    ∃ j r : Nat, 2 ∣ k - j ∧ r * r ≤ m * 2 ^ j ∧ m * 2 ^ j < (r + 1) * (r + 1) ∧ 2 ^ (f.fb + 3) ≤ r ∧
      f.sqrt rm (.fin false m k) = f.roundFin rm false false r ((k - j) / 2) (decide (r * r ≠ m * 2 ^ j)) := by
  let j := 2 * (f.fb + 4) + (k % 2).toNat
  refine ⟨j, (m * 2 ^ j).sqrt, by omega, Nat.sqrt_le _, Nat.lt_succ_sqrt _, Nat.le_sqrt.2 ?_, ?_⟩
  · calc 2 ^ (f.fb + 3) * 2 ^ (f.fb + 3) = 2 ^ (2 * (f.fb + 3)) := by rw [← Nat.pow_add, Nat.two_mul]
      _ ≤ 2 ^ j := Nat.pow_le_pow_right (by norm_num) (by omega)
      _ ≤ m * 2 ^ j := Nat.le_mul_of_pos_left _ (Nat.pos_of_ne_zero hm)
  · rw [← bne_eq_decide_ne, ← natSqrt_eq_sqrt, ← Nat.shiftLeft_eq]
    exact if_neg hm

theorem FFmt.recip_fin (f : FFmt) (n : Bool) {m : Nat} (hm : m ≠ 0) (k : Int) :
    ∃ j : Nat, 2 ^ 15 ≤ 2 ^ j / m ∧ f.recip (.fin n m k) = f.round14 n (2 ^ j / m) (-k - j) (decide (¬m ∣ 2 ^ j)) := by
  refine ⟨20 + m.log2, ?_, ?_⟩
  · calc 2 ^ 15 ≤ 2 ^ 19 := by norm_num
      _ ≤ 1 * 2 ^ (20 + m.log2) / m := two_pow_le_scaled_div one_ne_zero hm 19
      _ = 2 ^ (20 + m.log2) / m := by rw [one_mul]
  · rw [← mod_bne_zero]
    exact if_neg hm

theorem FFmt.rsqrt_fin (f : FFmt) {m : Nat} (hm : m ≠ 0) (k : Int) :
    ∃ j r d : Nat, d < 2 ∧ 2 ∣ k - d ∧ r * r * (m * 2 ^ d) ≤ 2 ^ (2 * j) ∧ 2 ^ (2 * j) < (r + 1) * (r + 1) * (m * 2 ^ d) ∧
      2 ^ 15 ≤ r ∧ f.rsqrt (.fin false m k) =
        f.round14 false r (-((k - d) / 2) - j) (decide (r * r * (m * 2 ^ d) ≠ 2 ^ (2 * j))) := by
  let d := (k % 2).toNat
  let m' := m * 2 ^ d
  let j := 20 + m'.log2
  have hm' : m' ≠ 0 := Nat.mul_ne_zero hm (by positivity)
  refine ⟨j, (2 ^ (2 * j) / m').sqrt, d, by omega, by omega, ?_, ?_, Nat.le_sqrt.2 ?_, ?_⟩
  · exact (Nat.le_div_iff_mul_le (Nat.pos_of_ne_zero hm')).1 (Nat.sqrt_le _)
  · exact (Nat.div_lt_iff_lt_mul (Nat.pos_of_ne_zero hm')).1 (Nat.lt_succ_sqrt _)
  · have hj : 2 ^ (2 * j) = 2 ^ (9 + m'.log2) * 2 ^ (31 + m'.log2) := by rw [← Nat.pow_add]; congr 1; omega
    rw [hj]
    exact two_pow_le_scaled_div (by positivity) hm' 30
  · rw [← bne_eq_decide_ne, ← natSqrt_eq_sqrt]
    simp only [m', j, d, ← Nat.shiftLeft_eq]
    exact if_neg hm

end Sys2Proof

open Sys2Proof Sys2Proof.Machine

/-- Settles O16: the special cases are those of each table, and a finite result is the rounding of a truncation. -/
theorem floatQuotientsAndRoots : Obligations.FloatQuotientsAndRoots := by
  intro x
  dsimp only
  refine ⟨deliversFloat_of _ (fun _ => rfl) fun _ c _ h => ⟨_, rfl, fun i => ?fdiv⟩,
    deliversFloat_of _ (fun _ => rfl) fun _ c _ h => ⟨_, rfl, fun i => ?fsqrt⟩,
    deliversFloat_of _ (fun _ => rfl) fun _ c _ h => ⟨_, rfl, fun i => ?frcpe⟩,
    deliversFloat_of _ (fun _ => rfl) fun _ c _ h => ⟨_, rfl, fun i => ?frsqe⟩⟩
  all_goals
    beta_reduce
    generalize (fmtT x.t.toNat).unpack (elemNat x.t.toNat i (c.val 1 h)) = a
  case fdiv =>
    generalize (fmtT x.t.toNat).unpack (elemNat x.t.toNat i (c.val 2 h)) = b
    match a, b with
    | .nan _, _ | .inf _, .nan _ | .inf _, .inf _ | .inf _, .fin .. | .fin .., .nan _ | .fin .., .inf _ => rfl
    | .fin _ 0 _, .fin _ 0 _ | .fin _ (_ + 1) _, .fin _ 0 _ => rfl
    | .fin .., .fin _ (m' + 1) _ => exact FFmt.div_fin _ _ _ _ _ m'.succ_ne_zero _ _
  case fsqrt =>
    match a with
    | .nan _ | .inf true | .inf false | .fin _ 0 _ | .fin true (_ + 1) _ => rfl
    | .fin false (m + 1) _ => exact FFmt.sqrt_fin _ _ m.succ_ne_zero _
  case frcpe =>
    match a with
    | .nan _ | .inf _ | .fin _ 0 _ => rfl
    | .fin _ (m + 1) _ => exact FFmt.recip_fin _ _ m.succ_ne_zero _
  case frsqe =>
    match a with
    | .nan _ | .inf true | .inf false | .fin _ 0 _ | .fin true (_ + 1) _ => rfl
    | .fin false (m + 1) _ => exact FFmt.rsqrt_fin _ m.succ_ne_zero _

end

section
/-! # Selection and comparison (O17) -/

namespace Sys2Proof

/-! ## The order of values -/

theorem FVal.isNan_of_isSig {a : FVal} (h : a.isSig = true) : a.isNan = true := by
  cases a with
  | nan => rfl
  | inf | fin => cases h

theorem FVal.isSig_of_not_isNan {a : FVal} (h : a.isNan = false) : a.isSig = false :=
  Bool.eq_false_of_not_eq_true fun hs => by simp [FVal.isNan_of_isSig hs] at h

theorem FVal.cmp_self {a : FVal} (ha : a.isNan = false) : a.cmp a = 0 := by
  cases a with
  | nan => cases ha
  | inf => exact if_pos rfl
  | fin => simp [FVal.cmp]

theorem FVal.cmp_swap {a b : FVal} (ha : a.isNan = false) (hb : b.isNan = false) : b.cmp a = -a.cmp b := by
  match a, b with
  | .nan _, _ => cases ha
  | _, .nan _ => cases hb
  | .inf n, .inf n' => cases n <;> cases n' <;> rfl
  | .inf n, .fin .. | .fin .., .inf n => cases n <;> rfl
  | .fin n m k, .fin n' m' k' =>
    simp only [FVal.cmp, min_comm (FVal.exp (.fin n' m' k'))]
    split_ifs <;> omega

theorem FVal.notAbove_refl {a : FVal} (ha : a.isNan = false) : a.notAbove a := .inr ⟨FVal.cmp_self ha, id⟩

/-- One value stands before another: it is smaller, or −0 beside +0 (R133). -/
def FVal.before (a b : FVal) : Bool := a.cmp b < 0 || (a.cmp b = 0 && a.neg && !b.neg)

theorem FVal.notAbove_of_before {a b : FVal} (h : a.before b = true) : a.notAbove b := by
  simp only [FVal.before, Bool.or_eq_true, Bool.and_eq_true, decide_eq_true_eq] at h
  obtain hlt | ⟨⟨heq, hneg⟩, -⟩ := h
  · exact .inl hlt
  · exact .inr ⟨heq, fun _ => hneg⟩

theorem FVal.notAbove_of_not_before {a b : FVal} (ha : a.isNan = false) (hb : b.isNan = false) (h : a.before b = false) :
    b.notAbove a := by
  rw [FVal.notAbove, FVal.cmp_swap ha hb]
  simp only [FVal.before, Bool.or_eq_false_iff, decide_eq_false_iff_not, Bool.and_eq_false_iff, Bool.not_eq_false'] at h
  obtain ⟨hge, hzero⟩ := h
  rcases (not_lt.1 hge).lt_or_eq with hgt | heq
  · exact .inl (by omega)
  · refine .inr ⟨by omega, fun hneg => ?_⟩
    simpa [heq.symm, hneg] using hzero

/-! ## Minimum and maximum (R133) -/

theorem FFmt.minMax_flags (f : FFmt) (mx number : Bool) (x y : Nat) :
    (f.minMax mx number x y).2 = if (f.unpack x).isSig || (f.unpack y).isSig then fNV else 0 := by
  cases ha : (f.unpack x).isNan <;> cases hb : (f.unpack y).isNan
  case false.false =>
    rw [FVal.isSig_of_not_isNan ha, FVal.isSig_of_not_isNan hb]
    simp [FFmt.minMax, ha, hb]
  all_goals simp [FFmt.minMax, ha, hb, flagIf]

theorem FFmt.minMax_nan_nan (f : FFmt) (mx number : Bool) {x y : Nat} (ha : (f.unpack x).isNan = true)
    (hb : (f.unpack y).isNan = true) : (f.minMax mx number x y).1 = f.nanBits := by
  simp [FFmt.minMax, ha, hb]

theorem FFmt.minMax_nan_left (f : FFmt) (mx number : Bool) {x y : Nat} (ha : (f.unpack x).isNan = true)
    (hb : (f.unpack y).isNan = false) : (f.minMax mx number x y).1 = if number then y else f.nanBits := by
  simp [FFmt.minMax, ha, hb]

theorem FFmt.minMax_nan_right (f : FFmt) (mx number : Bool) {x y : Nat} (ha : (f.unpack x).isNan = false)
    (hb : (f.unpack y).isNan = true) : (f.minMax mx number x y).1 = if number then x else f.nanBits := by
  simp [FFmt.minMax, ha, hb]

theorem FFmt.minMax_numbers (f : FFmt) (mx number : Bool) {x y : Nat} (ha : (f.unpack x).isNan = false)
    (hb : (f.unpack y).isNan = false) :
    (f.minMax mx number x y).1 = if (f.unpack x).before (f.unpack y) != mx then x else y := by
  simp only [FFmt.minMax, ha, hb, Bool.and_self, Bool.false_eq_true, if_false]
  rfl

/-- Of two numbers the result is one, and no operand stands beyond it. -/
theorem FFmt.minMax_extreme (f : FFmt) (mx number : Bool) {x y : Nat} (ha : (f.unpack x).isNan = false)
    (hb : (f.unpack y).isNan = false) :
    let r := (f.minMax mx number x y).1
    (r = x ∨ r = y) ∧
      if mx then (f.unpack x).notAbove (f.unpack r) ∧ (f.unpack y).notAbove (f.unpack r)
      else (f.unpack r).notAbove (f.unpack x) ∧ (f.unpack r).notAbove (f.unpack y) := by
  intro r
  have hx := FVal.notAbove_refl ha
  have hy := FVal.notAbove_refl hb
  have hr : r = if (f.unpack x).before (f.unpack y) != mx then x else y := FFmt.minMax_numbers f mx number ha hb
  rw [hr]
  cases hbefore : (f.unpack x).before (f.unpack y)
  case true =>
    have hxy := FVal.notAbove_of_before hbefore
    cases mx
    · exact ⟨.inl rfl, hx, hxy⟩
    · exact ⟨.inr rfl, hxy, hy⟩
  case false =>
    have hyx := FVal.notAbove_of_not_before ha hb hbefore
    cases mx
    · exact ⟨.inr rfl, hyx, hy⟩
    · exact ⟨.inl rfl, hx, hyx⟩

/-! ## Conditions (R134) -/

/-- The condition that C names holds of two values. -/
def FVal.meets (c : BitVec 9) (a b : FVal) : Bool :=
  let un := a.isNan || b.isNan
  let o := a.cmp b
  (c == 0 && !un && o == 0) || (c == 1 && (un || o != 0)) || (c == 2 && !un && decide (o < 0))
    || (c == 3 && !un && decide (o ≤ 0)) || (c == 4 && !un && decide (0 < o)) || (c == 5 && !un && decide (0 ≤ o))
    || (c == 6 && !un) || (c == 7 && un) || (c == 8 && (un || decide (o < 0))) || (c == 9 && (un || decide (o ≤ 0)))
    || (c == 10 && (un || decide (0 < o))) || (c == 11 && (un || decide (0 ≤ o)))

/-- A comparison gives the condition, and Invalid for a signalling NaN, under the ordered conditions for any NaN. -/
theorem fcompare_eq {c : BitVec 9} (hc : c.toNat < 12) (a b : FVal) :
    fcompare c.toNat a b = (FVal.meets c a b,
      if a.isSig || b.isSig || (decide (2 ≤ c.toNat ∧ c.toNat ≤ 5) && (a.isNan || b.isNan)) then fNV else 0) := by
  have hsig : (a.isSig || b.isSig || (a.isNan || b.isNan)) = (a.isNan || b.isNan) := by
    rw [Bool.or_eq_right_iff_imp, Bool.or_eq_true, Bool.or_eq_true]
    exact Or.imp FVal.isNan_of_isSig FVal.isNan_of_isSig
  generalize hn : c.toNat = n at hc ⊢
  obtain rfl : c = BitVec.ofNat 9 n := by rw [← hn, BitVec.ofNat_toNat, BitVec.setWidth_eq]
  unfold FVal.meets
  interval_cases n
  all_goals simp [fcompare, hsig, flagIf]

/-! ## Classes, signs and saturation (R135 to R137) -/

/-- A finite value is subnormal when the exponent field is 0, and else has its leading bit. -/
theorem FFmt.unpack_eq_fin {f : FFmt} {x m : Nat} {n : Bool} {k : Int} (h : f.unpack x = .fin n m k) :
    (x / 2 ^ f.fb % 2 ^ f.eb = 0 ∧ m = x % 2 ^ f.fb ∧ k = f.qmin) ∨
      (x / 2 ^ f.fb % 2 ^ f.eb ≠ 0 ∧ m = 2 ^ f.fb + x % 2 ^ f.fb) := by
  simp only [FFmt.unpack] at h
  split_ifs at h with _ _ _ hfield
  · obtain ⟨-, rfl, rfl⟩ := FVal.fin.inj h
    exact .inl ⟨hfield, rfl, rfl⟩
  · obtain ⟨-, rfl, -⟩ := FVal.fin.inj h
    exact .inr ⟨hfield, rfl⟩

theorem FFmt.subnormal_iff {f : FFmt} {x m : Nat} {n : Bool} {k : Int} (h : f.unpack x = .fin n m k) :
    (k = f.qmin ∧ m < 2 ^ f.fb) ↔ x / 2 ^ f.fb % 2 ^ f.eb = 0 := by
  obtain ⟨hfield, rfl, rfl⟩ | ⟨hfield, rfl⟩ := FFmt.unpack_eq_fin h
  · exact iff_of_true ⟨rfl, Nat.mod_lt _ (by positivity)⟩ hfield
  · exact iff_of_false (fun hsub => by omega) hfield

theorem FFmt.classBit_le (f : FFmt) (x : Nat) : f.classBit x ≤ 9 := by
  unfold FFmt.classBit
  split
  all_goals split_ifs <;> omega

theorem FFmt.two_pow_classBit_nan {f : FFmt} {x : Nat} {s : Bool} (h : f.unpack x = .nan s) :
    2 ^ f.classBit x = if s then 2 ^ 8 else 2 ^ 9 := by
  rw [FFmt.classBit, h, ← apply_ite]

theorem FFmt.two_pow_classBit_inf {f : FFmt} {x : Nat} {n : Bool} (h : f.unpack x = .inf n) :
    2 ^ f.classBit x = if n then 2 ^ 0 else 2 ^ 7 := by
  rw [FFmt.classBit, h, ← apply_ite]

theorem FFmt.two_pow_classBit_fin {f : FFmt} {x m : Nat} {n : Bool} {k : Int} (h : f.unpack x = .fin n m k) :
    2 ^ f.classBit x = if m = 0 then (if n then 2 ^ 3 else 2 ^ 4)
      else if x / 2 ^ f.fb % 2 ^ f.eb = 0 then (if n then 2 ^ 2 else 2 ^ 5) else (if n then 2 ^ 1 else 2 ^ 6) := by
  simp only [FFmt.classBit, h, Bool.and_eq_true, decide_eq_true_eq, FFmt.subnormal_iff h]
  split_ifs <;> rfl

theorem FFmt.clamp_nan {f : FFmt} {x : Nat} {s : Bool} (h : f.unpack x = .nan s) : f.clamp x = (0, flagIf fNV s) := by
  rw [FFmt.clamp, h]

theorem FFmt.clamp_inf {f : FFmt} {x : Nat} {n : Bool} (h : f.unpack x = .inf n) :
    f.clamp x = (if n then 0 else f.const 0x161, 0) := by
  rw [FFmt.clamp, h]
  rfl

theorem FFmt.clamp_fin {f : FFmt} {x m : Nat} {n : Bool} {k : Int} (h : f.unpack x = .fin n m k) :
    f.clamp x = if n || m == 0 then (0, 0)
      else if 0 < (FVal.fin n m k).cmp (.fin false 1 0) then (f.const 0x161, 0) else (x, 0) := by
  rw [FFmt.clamp, h]
  cases n <;> rfl

end Sys2Proof

namespace Sys2Proof.Machine

/-- The mask of a class is the number it stands for. -/
theorem toNat_classMask {n : Nat} (hn : n ≤ 9) : ((BitVec.ofInt 32 ((2 ^ n : Nat) : Int)).setWidth 64).toNat = 2 ^ n := by
  have hlt : 2 ^ n < 2 ^ 32 := Nat.pow_lt_pow_right (by norm_num) (by omega)
  rw [BitVec.ofInt_natCast, BitVec.toNat_setWidth, BitVec.toNat_ofNat, Nat.mod_eq_of_lt hlt, Nat.mod_eq_of_lt (by omega)]

theorem fsgnElem_eq (c : BitVec 9) (f : FFmt) (a b : Nat) :
    fsgnElem c.toNat f a b =
      let w := f.width - 1
      (a % 2 ^ w + if (if c = 0 then b.testBit w else if c = 1 then !b.testBit w else if c = 2 then a.testBit w != b.testBit w
        else if c = 3 then false else !a.testBit w) then 2 ^ w else 0, 0) := by
  have h0 : c = 0 ↔ c.toNat = 0 := BitVec.toNat_eq (y := 0#9)
  have h1 : c = 1 ↔ c.toNat = 1 := BitVec.toNat_eq (y := 1#9)
  have h2 : c = 2 ↔ c.toNat = 2 := BitVec.toNat_eq (y := 2#9)
  have h3 : c = 3 ↔ c.toNat = 3 := BitVec.toNat_eq (y := 3#9)
  simp only [h0, h1, h2, h3]
  match c.toNat with
  | 0 | 1 | 2 | 3 | _ + 4 => rfl

end Sys2Proof.Machine

open Sys2Proof Sys2Proof.Machine

/-- Settles O17: of two numbers the result is one that no operand stands beyond; a condition is that of the code in C; classes, signs
and saturation go by the value's kind. -/
theorem floatSelectionAndComparison : Obligations.FloatSelectionAndComparison := by
  intro x t fm bits e one nv pick cond cnv
  have hpick (largest number : Bool) (c : Ctx) : pick largest number c (laneF x (fun f a b => f.minMax largest number a b) c) :=
    fun h => ⟨_, rfl, fun i => ⟨FFmt.minMax_flags .., FFmt.minMax_nan_nan _ _ _, FFmt.minMax_nan_left _ _ _,
      FFmt.minMax_nan_right _ _ _, FFmt.minMax_extreme _ _ _⟩⟩
  refine ⟨deliversFloat_of _ (fun _ => rfl) fun _ c _ => hpick false false c,
    deliversFloat_of _ (fun _ => rfl) fun _ c _ => hpick true false c,
    deliversFloat_of _ (fun _ => rfl) fun _ c _ => hpick false true c,
    deliversFloat_of _ (fun _ => rfl) fun _ c _ => hpick true true c,
    fun hc => deliversFloat_of _ (fun _ => rfl) fun _ c _ h => ?fcmp,
    fun hc => deliversFloat_of _ (fun _ => rfl) fun _ c _ h => congrArg (eachElem t) (funext fun i => ?fset),
    deliversFloat_of _ (fun _ => rfl) fun _ c _ h => ⟨rfl, ?fclass⟩,
    deliversFloat_of _ (fun _ => rfl) fun _ c _ h => congrArg (eachElem t) (funext fun i => fsgnElem_eq ..),
    deliversFloat_of _ (fun _ => rfl) fun _ c _ h => congrArg (eachElem t) (funext fun i => ?fsat)⟩
  case fcmp => exact congrArg (fun p => flagged (if p.1 then 1 else 0) p.2) (fcompare_eq hc ..)
  case fset => exact congrArg (fun p => (if p.1 then one else 0, p.2)) (fcompare_eq hc ..)
  case fclass =>
    refine (toNat_classMask (FFmt.classBit_le ..)).trans ?_
    cases hv : e c 1 h 0 with
    | nan s => exact FFmt.two_pow_classBit_nan hv
    | inf n => exact FFmt.two_pow_classBit_inf hv
    | fin n m k => exact FFmt.two_pow_classBit_fin hv
  case fsat =>
    cases hv : e c 1 h i with
    | nan s => exact FFmt.clamp_nan hv
    | inf n => exact (FFmt.clamp_inf hv).trans (by cases n <;> rfl)
    | fin n m k => exact FFmt.clamp_fin hv

end

section
/-! # What a rounding gives

An integer multiple of the last place, one of the two beside the exact value; and the encoding of it, which stays within the format. -/

namespace Sys2Proof

/-! ## Rounding to a multiple of a power of two -/

/-- The part that a rounding drops, against one half of the last place kept: nothing, less, equal, more (R46). -/
def droppedCmp (r half : Nat) (sticky : Bool) : Nat :=
  if r = 0 && !sticky then 0 else if r < half then 1 else if r = half && !sticky then 2 else 3

theorem roundAt_of_le (rm : Nat) (neg : Bool) (m : Nat) (sticky : Bool) {e q : Int} (h : q ≤ e) :
    roundAt rm neg m e sticky q = (m * 2 ^ (e - q).toNat, sticky) := by
  rw [roundAt, if_pos h, Nat.shiftLeft_eq]

theorem roundAt_drop (rm : Nat) (neg : Bool) (m : Nat) (e : Int) (sticky : Bool) (s : Nat) :
    roundAt rm neg m e sticky (e + (s + 1 : Nat)) =
      (if roundUp rm neg (m / 2 ^ (s + 1) % 2 == 1) (droppedCmp (m % 2 ^ (s + 1)) (2 ^ s) sticky) then m / 2 ^ (s + 1) + 1
        else m / 2 ^ (s + 1), droppedCmp (m % 2 ^ (s + 1)) (2 ^ s) sticky != 0) := by
  rw [roundAt, if_neg (by omega), show (e + (s + 1 : Nat) - e).toNat = s + 1 by omega]
  simp only [Nat.shiftRight_eq_div_pow]
  rfl

/-- A number rounded to its first n + 1 bits has n + 1 bits, or is the next power of two. -/
theorem roundAt_bounds {m : Nat} (hm : m ≠ 0) (rm : Nat) (neg : Bool) (e : Int) (sticky : Bool) (n : Nat) :
    2 ^ n ≤ (roundAt rm neg m e sticky (m.log2 + e - n)).1 ∧
      (roundAt rm neg m e sticky (m.log2 + e - n)).1 ≤ 2 ^ (n + 1) := by
  have hlow := Nat.log2_self_le hm
  have hhigh : m < 2 ^ (m.log2 + 1) := Nat.lt_log2_self
  generalize m.log2 = l at hlow hhigh ⊢
  rcases Nat.lt_or_ge n l with hln | hln
  · obtain ⟨s, rfl⟩ := Nat.exists_eq_add_of_lt hln
    have hklow : 2 ^ n ≤ m / 2 ^ (s + 1) := by rwa [Nat.le_div_iff_mul_le (by positivity), ← Nat.pow_add]
    have hkhigh : m / 2 ^ (s + 1) < 2 ^ (n + 1) := by
      rwa [Nat.div_lt_iff_lt_mul (by positivity), ← Nat.pow_add, Nat.add_right_comm]
    rw [show ((n + s + 1 : Nat) : Int) + e - n = e + (s + 1 : Nat) by push_cast; ring, roundAt_drop]
    dsimp only
    split_ifs <;> omega
  · obtain ⟨d, rfl⟩ := Nat.exists_eq_add_of_le hln
    rw [roundAt_of_le _ _ _ _ (by omega), show (e - (l + e - (l + d : Nat))).toNat = d by omega, Nat.pow_add,
      Nat.add_right_comm, Nat.pow_add 2 (l + 1)]
    exact ⟨Nat.mul_le_mul_right _ hlow, Nat.mul_le_mul_right _ hhigh.le⟩

/-- Of a number below half a unit of the last place, the direction alone decides. -/
theorem roundAt_small {m : Nat} (hm : m ≠ 0) (rm : Nat) (neg : Bool) {e q : Int} (h : m.log2 + e + 2 ≤ q) :
    roundAt rm neg m e false q = (if roundUp rm neg false 1 then 1 else 0, true) := by
  obtain ⟨s, rfl⟩ : ∃ s : Nat, q = e + (s + 1 : Nat) := ⟨(q - e - 1).toNat, by omega⟩
  have hhalf : m < 2 ^ s := Nat.lt_log2_self.trans_le (Nat.pow_le_pow_right (by norm_num) (by omega))
  have hlt : m < 2 ^ (s + 1) := hhalf.trans_le (Nat.pow_le_pow_right (by norm_num) (by omega))
  rw [roundAt_drop, Nat.div_eq_of_lt hlt, Nat.mod_eq_of_lt hlt]
  simp [droppedCmp, hm, hhalf]

/-! ## The size of a result -/

/-- What the sizes of a format's fields say of its encodings (R117, R118). -/
structure FFmt.Sized (f : FFmt) : Prop where
  width : f.width = f.eb + f.fb + 1
  maxBits : f.maxBits < 2 ^ (f.eb + f.fb)
  nanBits : f.nanBits < 2 ^ f.width
  nanMagnitude : f.hasNan = true → 0x7F < 2 ^ (f.eb + f.fb)

theorem fmtCode_sized (c : Nat) : (fmtCode c).Sized := by
  unfold fmtCode
  split <;> exact ⟨by decide, by decide, by decide, by decide⟩

theorem fmtT_sized (t : Nat) : (fmtT t).Sized := by
  unfold fmtT
  split_ifs <;> exact ⟨by decide, by decide, by decide, by decide⟩

/-- A nonzero result: the encoding counts the multiples of the last place from the smallest subnormal on. -/
theorem FFmt.roundFin_of_roundAt {f : FFmt} {rm : Nat} {neg : Bool} {m : Nat} (hm : m ≠ 0) {e q : Int} {a : Nat × Bool}
    (hq : max (m.log2 + e - f.fb) f.qmin = q) (ha : roundAt rm neg m e false q = a) (sat : Bool) :
    f.roundFin rm sat neg m e false =
      let u := (roundAt rm neg m e false (m.log2 + e - f.fb)).1
      let pat := (q - f.qmin).toNat * 2 ^ f.fb + a.1
      if a.1 ≠ 0 ∧ f.maxBits < pat then (f.overflowBits rm sat neg, fOF ||| fNX)
      else (f.sign neg + pat,
        flagIf fNX a.2 ||| flagIf fUF (a.2 && (u == 0 || decide ((u.log2 : Int) + (m.log2 + e - f.fb) < f.qmin + f.fb)))) := by
  simp [FFmt.roundFin, hm, hq, ha]

/-- Results below a quarter of the smallest subnormal all round alike. -/
theorem FFmt.roundFin_small (f : FFmt) {m : Nat} (hm : m ≠ 0) (rm : Nat) (sat neg : Bool) {e : Int}
    (h : m.log2 + e + 2 ≤ f.qmin) :
    f.roundFin rm sat neg m e false =
      let n := if roundUp rm neg false 1 then 1 else 0
      if n ≠ 0 ∧ f.maxBits < n then (f.overflowBits rm sat neg, fOF ||| fNX) else (f.sign neg + n, fNX ||| fUF) := by
  obtain ⟨hlow, hhigh⟩ := roundAt_bounds hm rm neg e false f.fb
  rw [FFmt.roundFin_of_roundAt hm (max_eq_right (by omega)) (roundAt_small hm rm neg h)]
  generalize (roundAt rm neg m e false (m.log2 + e - f.fb)).1 = u at hlow hhigh
  have hu : u ≠ 0 := Nat.ne_of_gt (lt_of_lt_of_le (by positivity) hlow)
  have hlog : u.log2 < f.fb + 2 := (Nat.log2_lt hu).2 (hhigh.trans_lt (Nat.pow_lt_pow_right (by norm_num) (by omega)))
  have htiny : (u.log2 : Int) + (m.log2 + e - f.fb) < f.qmin + f.fb := by omega
  simp [htiny, flagIf]

/-- Results beyond the reach of the exponent field overflow. -/
theorem FFmt.roundFin_large {f : FFmt} (hf : f.Sized) {m : Nat} (hm : m ≠ 0) (rm : Nat) (sat neg : Bool) {e : Int}
    (h : 2 ^ f.eb ≤ m.log2 + e) : f.roundFin rm sat neg m e false = (f.overflowBits rm sat neg, fOF ||| fNX) := by
  obtain ⟨hlow, -⟩ := roundAt_bounds hm rm neg e false f.fb
  have hcast : ((2 ^ f.eb : Nat) : Int) = 2 ^ f.eb := by norm_cast
  have hpos : 0 < 2 ^ f.eb := by positivity
  have hqmin : f.qmin = 1 - (f.bias : Int) - f.fb := rfl
  have hfield : 2 ^ f.eb - 1 ≤ (m.log2 + e - f.fb - f.qmin).toNat := by omega
  rw [FFmt.roundFin_of_roundAt hm (max_eq_left (by omega)) rfl]
  refine if_pos ⟨Nat.ne_of_gt (lt_of_lt_of_le (by positivity) hlow), ?_⟩
  calc f.maxBits < 2 ^ (f.eb + f.fb) := hf.maxBits
    _ = (2 ^ f.eb - 1) * 2 ^ f.fb + 2 ^ f.fb := by rw [← Nat.succ_mul, Nat.succ_eq_add_one, Nat.sub_add_cancel hpos, Nat.pow_add]
    _ ≤ _ := Nat.add_le_add (Nat.mul_le_mul_right _ hfield) hlow

theorem FFmt.sign_add_lt {f : FFmt} (hf : f.Sized) (neg : Bool) {n : Nat} (hn : n < 2 ^ (f.eb + f.fb)) :
    f.sign neg + n < 2 ^ f.width := by
  have hw : f.width - 1 = f.eb + f.fb := by rw [hf.width]; omega
  rw [FFmt.sign, hw, hf.width, Nat.pow_succ]
  split_ifs <;> omega

theorem FFmt.infBits_lt {f : FFmt} (hf : f.Sized) (neg : Bool) : f.infBits neg < 2 ^ f.width := by
  refine FFmt.sign_add_lt hf neg ?_
  rw [Nat.pow_add]
  exact Nat.mul_lt_mul_of_pos_right (Nat.sub_lt (by positivity) one_pos) (by positivity)

theorem FFmt.overflowBits_lt {f : FFmt} (hf : f.Sized) (rm : Nat) (sat neg : Bool) : f.overflowBits rm sat neg < 2 ^ f.width := by
  unfold FFmt.overflowBits
  dsimp only
  split_ifs with hbig hinf
  · exact FFmt.sign_add_lt hf neg hf.maxBits
  · exact FFmt.infBits_lt hf neg
  · exact FFmt.sign_add_lt hf neg (hf.nanMagnitude (by simp_all))

theorem FFmt.roundFin_lt {f : FFmt} (hf : f.Sized) (rm : Nat) (sat neg : Bool) (m : Nat) (e : Int) :
    (f.roundFin rm sat neg m e false).1 < 2 ^ f.width := by
  by_cases hm : m = 0
  · subst hm
    exact FFmt.sign_add_lt hf neg (by positivity)
  obtain ⟨hlow, -⟩ := roundAt_bounds hm rm neg e false f.fb
  obtain ⟨q, hq⟩ : ∃ q, max (m.log2 + e - f.fb) f.qmin = q := ⟨_, rfl⟩
  obtain ⟨a, ha⟩ : ∃ a, roundAt rm neg m e false q = a := ⟨_, rfl⟩
  rw [FFmt.roundFin_of_roundAt hm hq ha]
  dsimp only
  split_ifs with hover
  · exact FFmt.overflowBits_lt hf rm sat neg
  refine FFmt.sign_add_lt hf neg (lt_of_le_of_lt ?_ hf.maxBits)
  by_cases hn : a.1 = 0
  · have hqmin : q = f.qmin := by
      by_contra hne
      have htop : m.log2 + e - f.fb = q := by omega
      rw [htop, ha, hn] at hlow
      exact absurd hlow (Nat.not_le.2 (by positivity))
    simp [hn, hqmin]
  · exact Nat.not_lt.1 fun hlt => hover ⟨hn, hlt⟩

theorem FFmt.round_lt {f : FFmt} (hf : f.Sized) (rm : Nat) (sat : Bool) (v : FVal) : (f.round rm sat v).1 < 2 ^ f.width := by
  match v with
  | .nan _ => exact hf.nanBits
  | .inf neg =>
    unfold FFmt.round
    split_ifs with hbig hinf
    · exact FFmt.sign_add_lt hf neg hf.maxBits
    · exact FFmt.infBits_lt hf neg
    · exact FFmt.sign_add_lt hf neg (hf.nanMagnitude (by simp_all))
  | .fin neg m e => exact FFmt.roundFin_lt hf rm sat neg m e

/-! ## Integral values -/

theorem roundsTo_one {rm : Nat} (hrm : rm ≤ 4) (neg : Bool) (m : Nat) : roundsTo rm neg m 1 m := by
  match rm, hrm with
  | 0, _ => simp only [roundsTo]; omega
  | 1, _ => exact (Nat.div_one m).symm
  | 2, _ | 3, _ => simp [roundsTo]
  | 4, _ => simp only [roundsTo]; omega

theorem droppedCmp_spec (r : Nat) {h : Nat} (hh : 0 < h) :
    (droppedCmp r h false = 0 ↔ r = 0) ∧ (droppedCmp r h false = 2 ↔ r = h) ∧ (droppedCmp r h false = 3 ↔ h < r) ∧
      (2 ≤ droppedCmp r h false ↔ h ≤ r) := by
  simp only [droppedCmp, Bool.not_false, Bool.and_true, decide_eq_true_eq]
  grind

/-- What is dropped against one half, and the parity of what is kept, decide between the two neighbours. -/
theorem roundsTo_div {rm : Nat} (hrm : rm ≤ 4) (neg : Bool) (m : Nat) {h : Nat} (hh : 0 < h) :
    roundsTo rm neg m (2 * h)
      (if roundUp rm neg (m / (2 * h) % 2 == 1) (droppedCmp (m % (2 * h)) h false) then m / (2 * h) + 1 else m / (2 * h)) := by
  have hm := Nat.div_add_mod m (2 * h)
  have hr := Nat.mod_lt m (show 0 < 2 * h by omega)
  generalize m % (2 * h) = r at hm hr
  generalize hk : m / (2 * h) = k at hm
  obtain ⟨hnone, hhalf, hmore, hleast⟩ := droppedCmp_spec r hh
  have hup : (m + 2 * h - 1) / (2 * h) = if r = 0 then k else k + 1 := by
    rw [← hm, Nat.add_assoc, Nat.add_sub_assoc (by omega), Nat.mul_add_div (by omega)]
    split_ifs
    · rw [Nat.div_eq_of_lt (by omega), Nat.add_zero]
    · exact congrArg (k + ·) (Nat.div_eq_of_lt_le (by omega) (by omega))
  have haway : (2 * m + 2 * h) / (2 * (2 * h)) = if h ≤ r then k + 1 else k := by
    split_ifs <;> refine Nat.div_eq_of_lt_le ?_ ?_ <;> linarith
  match rm, hrm with
  | 0, _ =>
    have hlow : 2 * k * (2 * h) = 2 * (2 * h * k) := by ring
    have hhigh : 2 * (k + 1) * (2 * h) = 2 * (2 * h * k) + 4 * h := by ring
    simp only [roundsTo, roundUp, Bool.or_eq_true, Bool.and_eq_true, beq_iff_eq, hhalf, hmore]
    split_ifs with hc <;> omega
  | 1, _ => exact hk.symm
  | 2, _ | 3, _ => cases neg <;> simp [roundsTo, roundUp, hup, hk, hnone]
  | 4, _ => simp [roundsTo, roundUp, haway, hleast]

theorem roundsTo_roundIntegral {rm : Nat} (hrm : rm ≤ 4) (neg : Bool) (m : Nat) (k : Int) :
    roundsTo rm neg (m * 2 ^ k.toNat) (2 ^ (-k).toNat) (roundIntegral rm neg m k) := by
  rw [roundIntegral]
  rcases lt_or_ge k 0 with hk | hk
  · obtain ⟨s, rfl⟩ : ∃ s : Nat, k = -(s + 1 : Nat) := ⟨(-k - 1).toNat, by omega⟩
    have hzero : (0 : Int) = -(s + 1 : Nat) + (s + 1 : Nat) := by ring
    rw [hzero, roundAt_drop, neg_neg, Int.toNat_natCast, Int.toNat_of_nonpos hk.le, pow_zero, mul_one, Nat.pow_succ']
    exact roundsTo_div hrm neg m (by positivity)
  · rw [roundAt_of_le _ _ _ _ hk, sub_zero, Int.toNat_of_nonpos (neg_nonpos.2 hk), pow_zero]
    exact roundsTo_one hrm neg _

end Sys2Proof

end

section
/-! # Conversions, scaling and exponents (O18) -/

namespace Sys2Proof

open Machine

/-! ## Values without a rounding of their own (R138, R140, R142) -/

theorem FFmt.rnd_nan {f : FFmt} {x : Nat} {s : Bool} (rm : Nat) (h : f.unpack x = .nan s) :
    f.rnd rm x = (f.nanBits, flagIf fNV s) := by
  rw [FFmt.rnd, h]

theorem FFmt.rnd_inf {f : FFmt} {x : Nat} {n : Bool} (rm : Nat) (h : f.unpack x = .inf n) : f.rnd rm x = (f.infBits n, 0) := by
  rw [FFmt.rnd, h]

theorem FFmt.rnd_fin {f : FFmt} {x m : Nat} {n : Bool} {k : Int} (rm : Nat) (h : f.unpack x = .fin n m k) :
    f.rnd rm x = if 0 ≤ k then (x, 0) else (f.encodeExact n (roundIntegral rm n m k) 0, 0) := by
  rw [FFmt.rnd, h]

/-- F2I of a finite value is its integer clamped, Invalid when it was out of range (R142). -/
theorem f2int_fin {lo hi : Int} (hle : lo ≤ hi) (rm : Nat) (neg : Bool) (m : Nat) (k : Int) :
    f2int rm lo hi (.fin neg m k) =
      let v : Int := if neg then -(roundIntegral rm neg m k : Nat) else (roundIntegral rm neg m k : Nat)
      (max lo (min hi v), if decide (v < lo ∨ hi < v) then fNV else 0) := by
  simp only [f2int, ← satInt_eq hle, satInt]
  generalize (if neg = true then -((roundIntegral rm neg m k : Nat) : Int) else (roundIntegral rm neg m k : Nat)) = v
  rcases lt_or_ge v lo with hlo | hlo
  · simp [hlo]
  rcases lt_or_ge hi v with hhi | hhi
  · simp [hhi, hlo.not_gt]
  · simp [hhi.not_gt, hlo.not_gt]

theorem fgetexp_fin {m : Nat} (hm : m ≠ 0) (n : Bool) (k : Int) :
    ∃ l : Nat, 2 ^ l ≤ m ∧ m < 2 ^ (l + 1) ∧ fgetexp (.fin n m k) = (l + k, 0) :=
  ⟨m.log2, Nat.log2_self_le hm, Nat.lt_log2_self, if_neg hm⟩

/-! ## One element of a register replaced -/

/-- A number with one digit of base w replaced, p the place of the digit: what stands below, the digit, what stands above. -/
theorem replaceDigit_eq (b r p w : Nat) : b - b / p % w * p + r * p = b % p + p * (r + w * (b / (p * w))) := by
  have hlow := Nat.div_add_mod b p
  have hdigit := Nat.div_add_mod (b / p) w
  rw [Nat.div_div_eq_div_mul] at hdigit
  generalize b / (p * w) = q at hdigit ⊢
  generalize b / p % w = d at hdigit ⊢
  have hb : b = b % p + p * (w * q) + d * p := by
    rw [← hdigit] at hlow
    linarith
  calc b - d * p + r * p = b % p + p * (w * q) + d * p - d * p + r * p := by rw [← hb]
    _ = b % p + p * (r + w * q) := by rw [Nat.add_sub_cancel]; ring

/-- Of n digits of w bits digit k is replaced. -/
theorem digit_replaceDigit {w n b r : Nat} (hb : b < 2 ^ (w * n)) (hr : r < 2 ^ w) {k : Nat} (hk : k < n) :
    let v := b - b / 2 ^ (w * k) % 2 ^ w * 2 ^ (w * k) + r * 2 ^ (w * k)
    v < 2 ^ (w * n) ∧ ∀ j, v / 2 ^ (w * j) % 2 ^ w = if j = k then r else b / 2 ^ (w * j) % 2 ^ w := by
  intro v
  have hv : v = b % 2 ^ (w * k) + 2 ^ (w * k) * (r + 2 ^ w * (b / (2 ^ (w * k) * 2 ^ w))) := replaceDigit_eq ..
  have hpow (i j : Nat) : 2 ^ (w * (i + j + 1)) = 2 ^ (w * i) * 2 ^ w * 2 ^ (w * j) := by
    rw [← Nat.pow_add, ← Nat.pow_add]
    congr 1
    ring
  have hlow : b % 2 ^ (w * k) < 2 ^ (w * k) := Nat.mod_lt _ (by positivity)
  have htop : v / (2 ^ (w * k) * 2 ^ w) = b / (2 ^ (w * k) * 2 ^ w) := by
    rw [hv, ← Nat.div_div_eq_div_mul, Nat.add_mul_div_left _ _ (by positivity), Nat.div_eq_of_lt hlow, Nat.zero_add,
      Nat.add_mul_div_left _ _ (by positivity), Nat.div_eq_of_lt hr, Nat.zero_add]
  refine ⟨?_, fun j => ?_⟩
  · obtain ⟨i, rfl⟩ := Nat.exists_eq_add_of_lt hk
    rw [hpow, Nat.mul_comm, ← Nat.div_lt_iff_lt_mul (by positivity)] at hb ⊢
    rwa [htop]
  rcases Nat.lt_trichotomy j k with hj | rfl | hj
  · obtain ⟨i, rfl⟩ := Nat.exists_eq_add_of_lt hj
    rw [if_neg (by omega), ← Nat.mod_mul_right_div_self, ← Nat.mod_mul_right_div_self b, hv, hpow]
    congr 1
    rw [Nat.mul_assoc (_ * _), Nat.add_mul_mod_self_left, Nat.mod_mod_of_dvd _ (Nat.dvd_mul_right _ _)]
  · rw [if_pos rfl, hv, Nat.add_mul_div_left _ _ (by positivity), Nat.div_eq_of_lt hlow, Nat.zero_add, Nat.add_mul_mod_self_left,
      Nat.mod_eq_of_lt hr]
  · obtain ⟨i, rfl⟩ := Nat.exists_eq_add_of_lt hj
    rw [if_neg (by omega), hpow, ← Nat.div_div_eq_div_mul v (_ * _), htop, Nat.div_div_eq_div_mul]

end Sys2Proof

namespace Sys2Proof.Machine

/-- A word that issues and rounds names one of the five directions (R44). -/
theorem rm_le_four_of_issues {s : State} {i : Instr} {c : Ctx} {op : Nat} {x : XForm} {sh : Shape} (h : s.issues i = some c)
    (hform : i.form = some (op, .x x)) (hshape : i.shape = some sh) (hrm : sh.rm = true) : x.rm.toNat ≤ 4 := by
  obtain ⟨-, -, hfault, -⟩ := State.issues_iff h
  obtain ⟨-, rfl, -⟩ := State.issues_ctx h
  have hwf : c.i.wellFormed = true := by
    by_contra hno
    simp [Ctx.decodeFault, Bool.eq_false_of_not_eq_true hno] at hfault
  have hfields : xOk sh x = true := by
    simp only [Instr.wellFormed, Instr.fieldsOk, hform, hshape, Bool.and_eq_true] at hwf
    exact hwf.1.1
  simp only [xOk, hrm, if_true, Bool.and_eq_true, decide_eq_true_eq] at hfields
  obtain ⟨⟨⟨⟨⟨-, hle⟩, -⟩, -⟩, -⟩, -⟩ := hfields
  exact hle

theorem intMod_eq (w : Nat) (v : Int) : intMod w v = (v % 2 ^ w).toNat := by
  rw [← intMod_cast, Int.toNat_natCast]

/-! ## Scaling (R139) -/

theorem roundFin_ldexpExp {f : FFmt} (hf : f.Sized) (rm : Nat) (neg : Bool) (m : Nat) (e n : Int) :
    f.roundFin rm false neg m (if m = 0 then e else laneLdexp.ldexpExp f m e n) false = f.roundFin rm false neg m (e + n) false := by
  split_ifs with hm
  · rw [hm]
    rfl
  unfold laneLdexp.ldexpExp
  dsimp only
  split_ifs with hlo hhi
  · rw [FFmt.roundFin_small _ hm _ _ _ (by omega), FFmt.roundFin_small _ hm _ _ _ (by omega)]
  · rw [FFmt.roundFin_large hf hm _ _ _ (by omega), FFmt.roundFin_large hf hm _ _ _ (by omega)]
  · rfl

/-! ## Formats (R141) -/

/-- The value that FCVT reads: element sk of A under the source format. -/
def Ctx.cvtSource (c : Ctx) (x : XForm) (h : Nat) : FVal :=
  let src := x.c.toNat / 16 % 16
  let a := (c.val 1 h).toNat / 2 ^ (cvtWidth src * (x.imm.toNat / 8 % 8)) % 2 ^ cvtWidth src
  if src = 9 then unpackE8m0 a else (fmtCode src).unpack a

/-- FCVT's value rounded to the destination format, and its flags. -/
def Ctx.cvtResult (c : Ctx) (x : XForm) (h : Nat) : Nat × Flags :=
  (fmtCode (x.c.toNat % 16)).round x.rm.toNat (x.sat == 1) (c.cvtSource x h)

theorem laneFcvt_eq (x : XForm) (c : Ctx) (h : Nat) :
    laneFcvt x c h =
      let fl := (c.cvtResult x h).2 ||| flagIf fNV (c.cvtSource x h).isSig
      if x.c.toNat % 16 ≤ 1 then flagged (BitVec.ofNat 64 (c.cvtResult x h).1) fl
      else
        let p := 2 ^ (cvtWidth (x.c.toNat % 16) * (x.imm.toNat % 8))
        let b := (c.val 2 h).toNat % 2 ^ 32
        flagged (BitVec.ofNat 64 (b - b / p % 2 ^ cvtWidth (x.c.toNat % 16) * p + (c.cvtResult x h).1 * p)) fl := rfl

/-- An element of a narrow format fits its place in the register. -/
theorem width_le_cvtWidth (n : Nat) : (fmtCode n).width ≤ cvtWidth n := by
  match n with
  | 0 | 1 | 2 | 3 | 4 | 5 | 6 | 7 | 8 => decide
  | _ + 9 => exact (by decide : 4 ≤ 8)

theorem cvtWidth_mul {n : Nat} (hn : 2 ≤ n) : cvtWidth n * (32 / cvtWidth n) = 32 := by
  match n, hn with
  | 2, _ | 3, _ | 4, _ | 5, _ | 6, _ | 7, _ | 8, _ => rfl
  | _ + 9, _ => exact (by decide : 8 * (32 / 8) = 32)

theorem laneFcvt_flags (x : XForm) (c : Ctx) (h : Nat) :
    (laneFcvt x c h).flags = (c.cvtResult x h).2 ||| flagIf fNV (c.cvtSource x h).isSig := by
  rw [laneFcvt_eq]
  dsimp only
  split_ifs <;> rfl

theorem laneFcvt_val_whole {x : XForm} (hdst : x.c.toNat % 16 ≤ 1) (c : Ctx) (h : Nat) :
    (laneFcvt x c h).val = BitVec.ofNat 64 (c.cvtResult x h).1 := by
  rw [laneFcvt_eq]
  dsimp only
  rw [if_pos hdst]
  rfl

theorem laneFcvt_val_element {x : XForm} (hdst : 2 ≤ x.c.toNat % 16)
    (hk : x.imm.toNat % 8 < 32 / cvtWidth (x.c.toNat % 16)) (c : Ctx) (h : Nat) :
    let w := cvtWidth (x.c.toNat % 16)
    (laneFcvt x c h).val.toNat < 2 ^ 32 ∧ ∀ j, j < 32 / w → (laneFcvt x c h).val.toNat / 2 ^ (w * j) % 2 ^ w =
      if j = x.imm.toNat % 8 then (c.cvtResult x h).1 else (c.val 2 h).toNat / 2 ^ (w * j) % 2 ^ w := by
  intro w
  have hw : w * (32 / w) = 32 := cvtWidth_mul hdst
  have hr : (c.cvtResult x h).1 < 2 ^ w :=
    (FFmt.round_lt (fmtCode_sized _) ..).trans_le (Nat.pow_le_pow_right (by norm_num) (width_le_cvtWidth _))
  have hb : (c.val 2 h).toNat % 2 ^ 32 < 2 ^ (w * (32 / w)) := by
    rw [hw]
    exact Nat.mod_lt _ (by norm_num)
  obtain ⟨hlt, hdigit⟩ := digit_replaceDigit hb hr hk
  rw [laneFcvt_eq]
  dsimp only
  rw [if_neg (by omega)]
  have hval := toNat_ofNat_of_lt (by rw [hw]; norm_num) hlt
  rw [← hval] at hlt hdigit
  refine ⟨by rwa [hw] at hlt, fun j hj => (hdigit j).trans (if_congr Iff.rfl rfl ?_)⟩
  have hdvd : 2 ^ (w * j) * 2 ^ w ∣ 2 ^ 32 := by
    rw [← Nat.pow_add, ← Nat.mul_succ, ← hw]
    exact Nat.pow_dvd_pow 2 (Nat.mul_le_mul_left _ hj)
  rw [← Nat.mod_mul_right_div_self, ← Nat.mod_mul_right_div_self (c.val 2 h).toNat, Nat.mod_mod_of_dvd _ hdvd]

end Sys2Proof.Machine

open Sys2Proof Sys2Proof.Machine

/-- Settles O18: the special cases are those of each rule; the others rest on what a rounding to an integer is, on the results beyond
a format's range, and on the digits of a register. -/
theorem floatConversions : Obligations.FloatConversions := by
  intro x
  dsimp only
  refine ⟨deliversFloat_of _ (fun _ => rfl) fun _ c hc h => ⟨_, rfl, fun i => ?frnd⟩,
    deliversFloat_of _ (fun _ => rfl) fun _ c _ h => ?fldexp,
    deliversFloat_of _ (fun _ => rfl) fun _ c _ h => ?fgetexp,
    deliversFloat_of _ (fun _ => rfl) fun _ c _ h =>
      ⟨laneFcvt_flags x c h, fun hdst => laneFcvt_val_whole hdst c h, fun hdst hk => laneFcvt_val_element hdst hk c h⟩,
    deliversFloat_of _ (fun _ => rfl) fun _ c hc h => ?f2i,
    deliversFloat_of _ (fun _ => rfl) fun _ c _ h => rfl⟩
  case frnd =>
    have hrm : x.rm.toNat ≤ 4 := rm_le_four_of_issues hc rfl rfl rfl
    cases hv : (fmtT x.t.toNat).unpack (elemNat x.t.toNat i (c.val 1 h)) with
    | nan s => exact FFmt.rnd_nan _ hv
    | inf n => exact FFmt.rnd_inf _ hv
    | fin n m k =>
      dsimp only
      split_ifs with hk
      · exact (FFmt.rnd_fin _ hv).trans (if_pos hk)
      · refine ⟨roundIntegral x.rm.toNat n m k, ?_, (FFmt.rnd_fin _ hv).trans (if_neg hk)⟩
        simpa [Int.toNat_of_nonpos (not_le.1 hk).le] using roundsTo_roundIntegral hrm n m k
  case fldexp =>
    rw [laneLdexp]
    generalize (fmtT x.t.toNat).unpack (elemNat x.t.toNat 0 (c.val 1 h)) = a
    match a with
    | .nan _ | .inf _ => rfl
    | .fin .. => exact congrArg (fun r => flagged (BitVec.ofNat 64 r.1) r.2) (roundFin_ldexpExp (fmtT_sized _) ..)
  case fgetexp =>
    rw [laneF1]
    generalize (fmtT x.t.toNat).unpack (elemNat x.t.toNat 0 (c.val 1 h)) = a
    match a with
    | .nan _ | .inf _ | .fin _ 0 _ => rfl
    | .fin n (m + 1) k =>
      obtain ⟨l, hlow, hhigh, hexp⟩ := fgetexp_fin m.succ_ne_zero n k
      exact ⟨l, hlow, hhigh, congrArg (fun r => flagged ((BitVec.ofInt 32 r.1).setWidth 64) r.2) hexp⟩
  case f2i =>
    have hrm : x.rm.toNat ≤ 4 := rm_le_four_of_issues hc rfl rfl rfl
    simp only [laneF2i, intMod_eq]
    generalize (fmtT x.c.toNat).unpack (elemNat x.c.toNat 0 (c.val 1 h)) = a
    match a with
    | .nan _ | .inf true | .inf false => rfl
    | .fin n m k => exact ⟨_, roundsTo_roundIntegral hrm n m k,
        congrArg (fun r => flagged (BitVec.ofNat 64 (r.1 % 2 ^ elemW x.t.toNat).toNat) r.2) (f2int_fin (loT_le_hiT _) ..)⟩

end

section
/-! # Cache control (O33): key generations beyond the seals

`CacheControl` says that HBM holds what a line held once CCTL has written it back. A line is sealed under its partition's key generation plus
one, and a seal has 32 bits (`State.writeHbmLine`), but a generation is any number (`Partition.keyGen`). Once 2^32 keys have been made, the
seal that a write-back leaves is that of an earlier generation, and its partition reads the line as one under another key (`State.hbmLine`),
whatever was written. -/

namespace Sys2Proof.Machine

/-- CCTL of kind 0: address s8 + s10, length s12. -/
def writeBackWord : Instr := .cctl ⟨0, 7, 0, 0, 264, 266, 268, 0, 0, 0, 0, 0⟩

/-- A line that differs with b. -/
def lateLine (b : Bool) : HomeLine :=
  ⟨1, 0x800, 0, 0, BitVec.ofNat 512 b.toNat, 0xFF, 0, 0x20000, .i, 0, 0, 0, ScopeRec.none, none, []⟩

/-- A loaded program that issues with s8 = 0x20000 and s12 = 64. The home holds that line with every granule dirty, and the partition's key
is of generation 2^32. -/
def State.lateKey (b : Bool) : State :=
  let s := State.reset.loadedWith 8 0
  { s with
    issue := { Issue.idle with core := 0, parts := [⟨4, 0xFF, 0⟩], pc := 0x10004, igsize := 8 }
    groups := s.groups.map (fun g => { g with sregs := (g.sregs.set 8 0x20000).set 12 64 })
    parts := s.parts.map (fun p => { p with keyGen := 2 ^ 32 })
    home := [lateLine b] }

theorem lateKey_issues : ∀ b, ((State.lateKey b).issues writeBackWord).isSome = true := by decide +kernel

/-- The context in which the CCTL issues there. -/
def lateKeyCtx (b : Bool) : Ctx := ((State.lateKey b).issues writeBackWord).get (lateKey_issues b)

/-- The seal of the line at 0x20000 after an outcome. -/
def sealAfter : Host.Outcome State Fault Refusal → Option (BitVec 32)
  | .next t => some (t.seals.get 0x800)
  | _ => none

/-- The write-back leaves the seal of generation 0. -/
theorem lateKey_seal : ∀ b, sealAfter (exec writeBackWord (State.lateKey b)) = some 1 := by decide +kernel

/-- A line sealed under generation 0 reads, under generation 2^32, as one of another key. -/
theorem State.hbmLine_of_seal_one {t : State} (h : t.seals.get 0x800 = 1) :
    t.hbmLine 0x20000 (2 ^ 32) = Config.scrambledLine (0x800 * 2 ^ 64 + 1 * 2 ^ 32 + 2 ^ 32) := by
  simp [State.hbmLine, h]

/-- The range of the CCTL: the line at 0x20000 of ASID 1. -/
theorem lateKeyCtx_range : ∀ b, (lateKeyCtx b).act ≠ [] ∧ (lateKeyCtx b).g.asid.toNat = 1 ∧
    (lateKeyCtx b).ea (((lateKeyCtx b).act.head?).getD 0) = 0x20000 ∧ (lateKeyCtx b).uval 3 = 64 := by decide +kernel

/-- The line may be written back: its frame is its partition's, and its page lets writes through. -/
theorem lateKey_mayWrite : ∀ b, (State.lateKey b).memWf = true ∧
    (State.lateKey b).ownsFrame ((((State.lateKey b).asid? 1).map (·.part)).getD 0) 0x20000 = true ∧
    (State.lateKey b).mayWriteBack 1 0x800 = true := by decide +kernel

theorem lateKey_genOf : ∀ b, (State.lateKey b).genOf 1 = 2 ^ 32 := by decide +kernel

/-- What `CacheControl` has HBM hold after the CCTL. -/
def lateMerged (b : Bool) : LineData :=
  mergeGranules ((State.lateKey b).hbmLine 0x20000 (2 ^ 32)) (lateLine b).data (lateLine b).dirty

theorem lateMerged_ne : lateMerged false ≠ lateMerged true := by decide +kernel

/-- `CacheControl` makes that the scrambled line. -/
theorem lateMerged_of_cacheControl (h : Statements.CacheControl) (b : Bool) :
    lateMerged b = Config.scrambledLine (0x800 * 2 ^ 64 + 1 * 2 ^ 32 + 2 ^ 32) := by
  obtain ⟨-, -, hcctl, -⟩ := h ⟨0, 7, 0, 0, 264, 266, 268, 0, 0, 0, 0, 0⟩
  obtain ⟨hact, hasid, hea, hlen⟩ := lateKeyCtx_range b
  obtain ⟨hwf, howns, hwrite⟩ := lateKey_mayWrite b
  obtain ⟨t, ht, -, -, hline⟩ := hcctl (State.lateKey b) (lateKeyCtx b) (Option.some_get _).symm hact
    (by simp only [hea, hlen]; decide)
  simp only [hasid, lateKey_genOf, hea, hlen] at hline
  have hother : ∀ j ∈ (State.lateKey b).home, j.line = 0x800 := fun j hj => by rw [List.mem_singleton.1 hj]; rfl
  obtain ⟨hmerged, -⟩ := hline 0x800 (lateLine b) (lateLine b) hwf rfl (by decide) rfl (.inl ⟨rfl, rfl⟩) howns hwrite
    (fun j hj _ _ hne => absurd (hother j hj) hne)
  have hseal := lateKey_seal b
  rw [writeBackWord, ht] at hseal
  exact hmerged.symm.trans (State.hbmLine_of_seal_one (Option.some.inj hseal))

end Sys2Proof.Machine

open Sys2Proof Sys2Proof.Machine

/-- Refutes O33: a line that CCTL writes back under key generation 2^32 gets the seal of generation 0, so that two lines of different
data read alike afterwards. -/
theorem not_prefetchFencesAndCaches : ¬ Obligations.PrefetchFencesAndCaches := by
  intro ⟨_, _, hcache⟩
  exact lateMerged_ne ((lateMerged_of_cacheControl hcache false).trans (lateMerged_of_cacheControl hcache true).symm)

end

section
/-! # Lines that nothing else holds, and the answers of writes (O32, O34) -/

namespace Sys2Proof.Machine

/-! ## The order in which a line serves its requests -/

/-- Serving a request notes its turn and changes nothing else. -/
theorem State.serve_eq (s : State) (o : MemOp) (addr : W64) : ∃ l, s.serve o addr = { s with lineTurns := l } := by
  unfold State.serve
  dsimp only
  split
  · exact ⟨s.lineTurns, rfl⟩
  · exact ⟨_, rfl⟩

theorem State.serve_of_scratch {o : MemOp} (h : o.scratch = true) (s : State) (addr : W64) : s.serve o addr = s := by
  simp [State.serve, h]

/-! ## Home lines -/

theorem State.home_tag {s : State} {a l : Nat} {h : HomeLine} (hh : s.home? a l = some h) : h.asid = a ∧ h.line = l := by
  simpa using List.find?_some hh

theorem State.home_putHome (s : State) (h : HomeLine) (a l : Nat) :
    (s.putHome h).home? a l = if h.asid = a ∧ h.line = l then some h else s.home? a l := by
  by_cases htag : h.asid = a ∧ h.line = l
  · obtain ⟨rfl, rfl⟩ := htag
    simp [State.home?, State.putHome]
  · have hne : (h.asid == a && h.line == l) = false := by simpa using htag
    rw [if_neg htag, State.home?, State.putHome, List.find?_cons, hne, List.find?_filter]
    refine congrArg (fun p => s.home.find? p) (funext fun x => ?_)
    by_cases hx : x.asid = a ∧ x.line = l
    · obtain ⟨rfl, rfl⟩ := hx
      simp only [beq_self_eq_true, Bool.and_true]
      simp; tauto
    · have hx' : (x.asid == a && x.line == l) = false := by simpa using hx
      simp [hx']

/-- The line of a tag is the one last put there. -/
theorem State.putHome_putHome (s : State) {h k : HomeLine} (ha : h.asid = k.asid) (hl : h.line = k.line) :
    (s.putHome h).putHome k = s.putHome k := by
  simp [State.putHome, ha, hl]

theorem State.fillHome_of_present {s : State} {die a va hpa : Nat} {h : HomeLine} (hh : s.home? a (va / 64) = some h) :
    s.fillHome die a va hpa = s := by
  simp [State.fillHome, hh]

/-- A line that no cache but its home holds, with no sharer or owner noted. -/
def HomeLine.alone (h : HomeLine) : HomeLine := { h with dir := .i, sv := 0, owner := 0 }

/-- The line with bytes written at an offset. -/
def HomeLine.written (h : HomeLine) (k : Nat) (bs : List Byte) : HomeLine :=
  let r := putBytes h.data h.poison k bs
  { h.alone with data := r.1, dirty := h.dirty ||| r.2.1, poison := r.2.2 }

/-- A recall of such a line reaches no other cache. -/
theorem State.dirRecall_of_idle {s : State} {a l : Nat} {h : HomeLine} (hh : s.home? a l = some h) (hdir : h.dir = .i) :
    s.dirRecall a l = s.putHome h.alone := by
  simp [State.dirRecall, hh, HomeLine.holders, hdir, HomeLine.alone]

theorem State.home_putHome_alone {s : State} {a l : Nat} {h : HomeLine} (hh : s.home? a l = some h) :
    (s.putHome h.alone).home? a l = some h.alone := by
  rw [State.home_putHome, if_pos]
  exact (State.home_tag hh :)

/-- Bytes applied at the home of such a line (R246). -/
theorem State.homeApply_of_idle {s : State} {home a v hpa : Nat} {h : HomeLine} (hh : s.home? a (v / 64) = some h)
    (hdir : h.dir = .i) (bs : List Byte) :
    s.homeApply home a v hpa bs false = .ok (s.putHome (h.written (v % 64) bs), h.lr) := by
  simp only [State.homeApply, State.fillHome_of_present hh, State.dirRecall_of_idle hh hdir, State.home_putHome_alone hh, Bool.false_eq_true, if_false]
  rw [State.putHome_putHome]
  · rfl
  · rfl
  · rfl

/-- Bytes applied at the home after a recall. -/
theorem State.homeApply_of_recalled {s : State} {home a v hpa : Nat} {h : HomeLine} (hh : s.home? a (v / 64) = some h) (bs : List Byte) :
    (s.putHome h.alone).homeApply home a v hpa bs false = .ok (s.putHome (h.written (v % 64) bs), h.lr) := by
  rw [State.homeApply_of_idle (State.home_putHome_alone hh) rfl, State.putHome_putHome]
  · rfl
  · rfl
  · rfl

theorem State.lineFree_of_idle {s : State} {a l : Nat} {h : HomeLine} (hh : s.home? a l = some h) (hfree : h.taken = false) :
    s.lineFree a l = true := by
  simp [State.lineFree, hh, hfree]

/-! ## Acknowledgements -/

/-- The acknowledgements of a write of several operations, their identifiers counted from n on. -/
def acksOf (n : Nat) (os : List MemOp) (line : Nat) (w : W64) (system : Bool) : List Ack :=
  os.zipIdx.map (fun q => ⟨n + q.2, q.1.gid, q.1.id, q.1.core, q.1.asid.toNat, line, w, system⟩)

theorem acksOf_cons (n : Nat) (o : MemOp) (os : List MemOp) (line : Nat) (w : W64) (system : Bool) :
    acksOf n (o :: os) line w system = ⟨n, o.gid, o.id, o.core, o.asid.toNat, line, w, system⟩ :: acksOf (n + 1) os line w system := by
  simp [acksOf, List.zipIdx_cons', -List.zipIdx_cons, Function.comp_def, Nat.add_assoc, Nat.add_comm 1]

theorem State.sendAcks_eq (s : State) (os : List MemOp) (line : Nat) (w : W64) (system : Bool) :
    s.sendAcks os line w system = { s with acks := s.acks ++ acksOf s.tick os line w system, tick := s.tick + os.length } := by
  unfold State.sendAcks
  induction os generalizing s with
  | nil => simp [acksOf]
  | cons o os ih =>
    rw [List.foldl_cons, ih]
    simp [State.sendAck, State.newId, acksOf_cons, Nat.add_right_comm, ← Nat.add_assoc]

end Sys2Proof.Machine
end
section
/-! # The steps of a chain (O34) -/

namespace Sys2Proof.Machine

/-! ## Lane by lane -/

theorem runChain_nil (i : Instr) (old : Nat) : runChain i [] old = (old, []) := rfl

/-- The first lane takes the value that memory holds; the others form the chain from what it leaves. -/
theorem runChain_cons (i : Instr) (l : LaneReq) (ls : List LaneReq) (old : Nat) :
    runChain i (l :: ls) old =
      ((runChain i ls (chainStep i l old).1).1, (l, old, (chainStep i l old).2) :: (runChain i ls (chainStep i l old).1).2) := by
  have hfold : ∀ (ls : List LaneReq) (v : Nat) (outs : List (LaneReq × Nat × Flags)),
      ls.foldl (fun r l => let (v, f) := chainStep i l r.1; (v, r.2 ++ [(l, r.1, f)])) (v, outs) =
        ((runChain i ls v).1, outs ++ (runChain i ls v).2) := by
    intro ls
    induction ls with
    | nil => intro v outs; simp [runChain]
    | cons l ls ih =>
      intro v outs
      have hstep := ih (chainStep i l v).1 [(l, v, (chainStep i l v).2)]
      simp only [runChain, List.foldl_cons, List.nil_append] at hstep ⊢
      rw [hstep, ih]
      simp [runChain]
  exact hfold ls _ _

/-! ## One lane of an ATOM or RED -/

/-- The elements of a type, and the flags of all of them: what an element-wise step computes. -/
theorem foldl_elems (t : Nat) (g : Nat → Nat × Flags) (hg : ∀ i, (g i).1 < 2 ^ elemW t) :
    let r := (List.range (elemN t)).foldl (fun r i => let q := g i; (r.1 + q.1 * 2 ^ (elemW t * i), r.2 ||| q.2)) (0, 0)
    (∀ k, k < elemN t → r.1 / 2 ^ (elemW t * k) % 2 ^ elemW t = (g k).1) ∧
      ∀ b, (r.2.getLsbD b = true ↔ ∃ k, k < elemN t ∧ (g k).2.getLsbD b = true) := by
  have hfold : ∀ (l : List Nat) (n : Nat) (f : Flags),
      l.foldl (fun r i => let q := g i; (r.1 + q.1 * 2 ^ (elemW t * i), r.2 ||| q.2)) (n, f) =
        (l.foldl (fun r i => r + (g i).1 * 2 ^ (elemW t * i)) n, l.foldl (fun r i => r ||| (g i).2) f) := by
    intro l
    induction l with
    | nil => intro n f; rfl
    | cons i l ih => intro n f; exact ih _ _
  have hflags : ∀ (l : List Nat) (f : Flags) (b : Nat),
      (l.foldl (fun r i => r ||| (g i).2) f).getLsbD b = true ↔ f.getLsbD b = true ∨ ∃ k ∈ l, (g k).2.getLsbD b = true := by
    intro l
    induction l with
    | nil => simp
    | cons i l ih => intro f b; rw [List.foldl_cons, ih]; simp [or_assoc]
  dsimp only
  rw [hfold]
  refine ⟨(digits_sum (elemW t) (elemN t) (fun i => (g i).1) hg).2, fun b => ?_⟩
  rw [hflags]
  simp

theorem elemW_eq_width {t : Nat} (ht : floatT t = true) : elemW t = (fmtT t).width := by
  obtain ⟨hlow, hhigh⟩ : 4 ≤ t ∧ t ≤ 9 := by simpa [floatT] using ht
  interval_cases t <;> rfl

theorem chainStep_of_mem {x : MForm} {i : Instr} (hi : i ∈ [Instr.atom x, .red x]) (l : LaneReq) (old : Nat) :
    chainStep i l old = atomStep x old l.data.toNat := by
  simp only [List.mem_cons, List.not_mem_nil, or_false] at hi
  obtain rfl | rfl := hi <;> rfl

section
variable {x : MForm} (old c : Nat)

/-- The sum of an integer ATOM, clamped to its type where SAT is set (R158). -/
theorem atomStep_add_int (hf : floatT x.t.toNat = false) (hk : x.kind = 0) :
    let t := x.t.toNat
    let z (v : Nat) : Int := elemInt t 0 (BitVec.ofNat 64 v)
    ((atomStep x old c).1 : Int) = (if x.sat = 1 then max (loT t) (min (hiT t) (z old + z c)) else z old + z c) % 2 ^ elemW t ∧
      (atomStep x old c).2 = 0 := by
  simp only [atomStep, hk, hf, Bool.false_eq_true, if_false, intMod_cast, satInt_eq (loT_le_hiT _), and_self]

theorem atomStep_min_int (hf : floatT x.t.toNat = false) (hk : x.kind = 1) :
    let z (v : Nat) : Int := elemInt x.t.toNat 0 (BitVec.ofNat 64 v)
    ((atomStep x old c).1 : Int) = min (z old) (z c) % 2 ^ elemW x.t.toNat ∧ (atomStep x old c).2 = 0 := by
  simp only [atomStep, hk, hf, Bool.false_eq_true, if_false, intMod_cast, and_self]

theorem atomStep_max_int (hf : floatT x.t.toNat = false) (hk : x.kind = 2) :
    let z (v : Nat) : Int := elemInt x.t.toNat 0 (BitVec.ofNat 64 v)
    ((atomStep x old c).1 : Int) = max (z old) (z c) % 2 ^ elemW x.t.toNat ∧ (atomStep x old c).2 = 0 := by
  simp only [atomStep, hk, hf, Bool.false_eq_true, if_false, intMod_cast, and_self]

theorem atomStep_and (hk : x.kind = 3) : atomStep x old c = (old &&& c, 0) := by simp only [atomStep, hk]
theorem atomStep_or (hk : x.kind = 4) : atomStep x old c = (old ||| c, 0) := by simp only [atomStep, hk]
theorem atomStep_xor (hk : x.kind = 5) : atomStep x old c = (old ^^^ c, 0) := by simp only [atomStep, hk]

theorem atomStep_exchange (hk : 5 < x.kind) : atomStep x old c = (c, 0) := by
  obtain ⟨k, hk⟩ := Nat.exists_eq_add_of_lt hk
  simp only [atomStep, show x.kind = k + 6 by omega]

theorem atomStep_min_float (hf : floatT x.t.toNat = true) (hk : x.kind = 1) :
    atomStep x old c = (fmtT x.t.toNat).minMax false true old c := by
  simp only [atomStep, hk, hf, if_true]

theorem atomStep_max_float (hf : floatT x.t.toNat = true) (hk : x.kind = 2) :
    atomStep x old c = (fmtT x.t.toNat).minMax true true old c := by
  simp only [atomStep, hk, hf, if_true]

/-- The sum of one element of a floating ATOM, rounded once, with its flags (R158). -/
def atomSum (x : MForm) (old c i : Nat) : Nat × Flags :=
  let f := fmtT x.t.toNat
  let e (v : Nat) : Nat := v / 2 ^ (elemW x.t.toNat * i) % 2 ^ elemW x.t.toNat
  let p := sumProducts x.rm.toNat [] [f.unpack (e old), f.unpack (e c)]
  ((f.round x.rm.toNat false p.1).1, (f.round x.rm.toNat false p.1).2 ||| p.2)

theorem atomStep_add_float (hf : floatT x.t.toNat = true) (hk : x.kind = 0) :
    (∀ k, k < elemN x.t.toNat → (atomStep x old c).1 / 2 ^ (elemW x.t.toNat * k) % 2 ^ elemW x.t.toNat = (atomSum x old c k).1) ∧
      ∀ b, ((atomStep x old c).2.getLsbD b = true ↔ ∃ k, k < elemN x.t.toNat ∧ (atomSum x old c k).2.getLsbD b = true) := by
  have hsum : ∀ i, (atomSum x old c i).1 < 2 ^ elemW x.t.toNat := fun i => by
    rw [elemW_eq_width hf]
    exact FFmt.round_lt (fmtT_sized _) _ _ _
  have hstep : atomStep x old c = (List.range (elemN x.t.toNat)).foldl
      (fun r i => let q := atomSum x old c i; (r.1 + q.1 * 2 ^ (elemW x.t.toNat * i), r.2 ||| q.2)) (0, 0) := by
    simp only [atomStep, hk, hf, if_true]
    rfl
  rw [hstep]
  exact foldl_elems _ _ hsum

end

end Sys2Proof.Machine
end

section
/-! # Atomic chains at their line (O34) -/

namespace Sys2Proof.Machine

/-! ## The lanes of a chain -/

theorem State.mem_chainLanes (s : State) (o : MemOp) (addr : W64) (p : MemOp × LaneReq) :
    p ∈ s.chainLanes o addr ↔ p.1 ∈ s.joinedOps o ∧ p.2 ∈ p.1.lanes ∧ p.2.stage = .todo ∧ p.2.addr = addr := by
  obtain ⟨q, l⟩ := p
  have hlanes : (q, l) ∈ (s.joinedOps o).flatMap (fun x => (x.lanes.filter (fun l => l.isTodo && l.addr == addr)).map (fun l => (x, l))) ↔
      q ∈ s.joinedOps o ∧ l ∈ q.lanes ∧ l.stage = .todo ∧ l.addr = addr := by
    simp [LaneReq.isTodo]
  unfold State.chainLanes
  dsimp only
  split
  · rw [(sortBy_perm _ _).mem_iff, hlanes]
  · exact hlanes

theorem State.chainLanes_serve (s : State) (o x : MemOp) (addr a : W64) : (s.serve x a).chainLanes o addr = s.chainLanes o addr := by
  obtain ⟨l, hl⟩ := s.serve_eq x a
  rw [hl]
  rfl

/-- Where every group passes the scope check the chain stays whole. -/
theorem State.splitChain_of_pass {s : State} {ps : List (MemOp × LaneReq)} {va : Nat} (h : ∀ q ∈ ps, s.scopeVerdict q.1 va = none) :
    s.splitChain ps va = (s, ps) := by
  have hbad : ps.filter (fun p => (s.scopeVerdict p.1 va).isSome) = [] :=
    List.filter_eq_nil_iff.2 fun q hq => by simp [h q hq]
  simp [State.splitChain, hbad]

/-! ## A chain that may perform -/

theorem exec_atomicUnitChain {s : State} {id : Nat} {addr : W64} {o : MemOp} (hop : s.op? id = some o) (hatomic : o.instr.isAtomic = true)
    (hready : s.chainReady o addr = true) (hturn : s.inTurn o addr = true) :
    exec (.atomicUnitChain id addr) s = .next (((s.serve o addr).atomicChain o addr).fused s) := by
  have htry : s.tryAtomic id addr = (s.serve o addr).atomicChain o addr := by simp [State.tryAtomic, hop, hatomic, hready, hturn]
  exact congrArg (done s) htry

section
variable {s : State} {o : MemOp} {addr : W64} {p0 : MemOp × LaneReq} {g : Group}
  (hlast : (s.chainLanes o addr).getLast? = some p0) (hg : s.group? p0.1.gid = some g)
include hlast hg

/-- A chain in a scratchpad (R151, R158), or a Machine check of every operation where it reads a bad granule (R256). -/
theorem State.atomicChain_of_scratch {wid off : Nat} (hscratch : o.scratch = true) (hplace : s.place o p0.2 = some (wid + 1, off)) :
    let ps := s.chainLanes o addr
    let r := runChain o.instr (ps.map (·.2)) (leNat (s.scratchBytes wid off o.instr.accessBytes))
    s.atomicChain o addr = if s.scratchBad wid off o.instr.accessBytes
      then ((ps.map (·.1)).eraseDups).foldl (fun s o => s.machineCheckOp o addr) s
      else (s.scratchWrite wid off (natBytes o.instr.accessBytes r.1)).chainDone ps r.2 := by
  simp [State.atomicChain, hscratch, hlast, hg, hplace]

/-- A chain in memory whose line gives it good bytes. -/
theorem State.atomicChain_of_rmw {t : State} {old : List Byte} {rec' : Option ScopeRec} {far : Bool} (hscratch : o.scratch = false)
    (hpass : ∀ q ∈ s.chainLanes o addr, s.scopeVerdict q.1 addr.toNat = none)
    (hrmw : s.homeRmw ((s.chainLanes o addr).map (·.1)).eraseDups o g addr.toNat o.instr.accessBytes
      (fun old => natBytes o.instr.accessBytes (runChain o.instr ((s.chainLanes o addr).map (·.2)) (leNat old)).1) =
        .ok t old false rec' far) :
    s.atomicChain o addr = t.chainDone (s.chainLanes o addr) (runChain o.instr ((s.chainLanes o addr).map (·.2)) (leNat old)).2 := by
  simp [State.atomicChain, hscratch, State.splitChain_of_pass hpass, hlast, hg, hrmw]

end

/-! ## Reading and writing at the party of an address -/

section
variable {s : State} {o : MemOp} {va : Nat} (os : List MemOp) (g : Group) (n : Nat) (f : List Byte → List Byte)

theorem State.homeRmw_of_host {b : Nat} (hsys : o.instr.scopeOf = 5) (hres : s.resolve o.asid.toNat va .write = .ok (.host b)) :
    s.homeRmw os o g va n f = .ok (({ s with hostMem := s.hostMem.setBytes b (f (s.hostMem.bytes b n)) } : State).sendAcks os (va / 64) 0 true)
      (s.hostMem.bytes b n) false none true := by
  simp [State.homeRmw, hres, hsys]

theorem State.homeRmw_of_peer {k m b : Nat} (hsys : o.instr.scopeOf = 5) (hres : s.resolve o.asid.toNat va .write = .ok (.peer k m b)) :
    let a := k * 2 ^ 49 + m * 2 ^ 39 + b
    s.homeRmw os o g va n f = .ok (({ s with peerMem := s.peerMem.setBytes a (f (s.peerMem.bytes a n)) } : State).sendAcks os (va / 64) 0 true)
      (s.peerMem.bytes a n) false none true := by
  simp [State.homeRmw, hres, hsys]

/-- What a chain leaves that writes a home line: the line, of which its core keeps no L1 copy, and the acknowledgements (R158, R246). -/
def State.chainWritten (s : State) (os : List MemOp) (o : MemOp) (va home : Nat) (h : HomeLine) (lr : W64) : State :=
  ((s.putHome h).l1Replace o.core o.asid.toNat (va / 64)).sendAcks os (va / 64) (maxT (s.time home) lr) false

/-- At a line that nothing but its home holds (R158, R246, R270). -/
theorem State.homeRmw_of_idle {home a v hpa : Nat} {tr : Trans} {h : HomeLine}
    (hres : s.resolve o.asid.toNat va .write = .ok (.line home a v hpa tr)) (htrk : tr.trk = false) (hown : tr.own = false)
    (hh : s.home? a (v / 64) = some h) (hfree : h.taken = false) (hdir : h.dir = .i) (hpass : h.scope.passes s g = true) :
    let old := lineBytes h.data (v % 64) n
    s.homeRmw os o g va n f = .ok
      (s.chainWritten os o va home { h.written (v % 64) (f old) with scope := s.recordOf g o.instr.scopeOf } h.lr)
      old (poisonedAt h.poison (v % 64) n) none false := by
  have hwritten (bs : List Byte) : (s.putHome (h.written (v % 64) bs)).home? a (v / 64) = some (h.written (v % 64) bs) := by
    rw [State.home_putHome, if_pos]
    exact (State.home_tag hh :)
  have hpass' : h.alone.scope.passes s g = true := hpass
  simp only [State.homeRmw, hres, State.lineFree_of_idle hh hfree, State.fillHome_of_present hh, State.dirRecall_of_idle hh hdir,
    State.home_putHome_alone hh, htrk, State.homeApply_of_recalled hh, hwritten, hown, hpass', Bool.not_true, Bool.not_false,
    Bool.false_and, Bool.and_false, Bool.false_eq_true, if_false]
  rw [State.putHome_putHome]
  · rfl
  · rfl
  · rfl

end

section
variable (s : State) (os : List MemOp) (o : MemOp) (va home : Nat) (h : HomeLine) (lr : W64)

theorem State.home_chainWritten (a l : Nat) :
    (s.chainWritten os o va home h lr).home? a l = if h.asid = a ∧ h.line = l then some h else s.home? a l := by
  rw [State.chainWritten, State.sendAcks_eq]
  exact s.home_putHome h a l

theorem State.l1_chainWritten : ∀ y ∈ (s.chainWritten os o va home h lr).l1, ¬(y.core = o.core ∧ y.asid = o.asid.toNat ∧ y.line = va / 64) := by
  rw [State.chainWritten, State.sendAcks_eq]
  intro y hy hcopy
  simp [State.l1Replace, State.dropL1, hcopy] at hy

theorem State.acks_chainWritten :
    (s.chainWritten os o va home h lr).acks = s.acks ++ acksOf s.tick os (va / 64) (maxT (s.time home) lr) false := by
  rw [State.chainWritten, State.sendAcks_eq]
  rfl

/-- A chain at a home line changes caches, acknowledgements and the count of identifiers only. -/
theorem State.chainWritten_frame :
    { s.chainWritten os o va home h lr with home := s.home, l1 := s.l1, acks := s.acks, tick := s.tick } = s := by
  rw [State.chainWritten, State.sendAcks_eq]
  rfl

end

end Sys2Proof.Machine
end

section

namespace Sys2Proof.Machine

/-- A chain at a line that nothing but its home holds, each of whose groups passes the scope check (R158, R246, R270). -/
theorem State.atomicChain_of_idle {s : State} {o : MemOp} {addr : W64} {p0 : MemOp × LaneReq} {g : Group}
    (hlast : (s.chainLanes o addr).getLast? = some p0) (hg : s.group? p0.1.gid = some g) (hscratch : o.scratch = false)
    (hverdict : ∀ q ∈ s.chainLanes o addr, s.scopeVerdict q.1 addr.toNat = none) {home a v hpa : Nat} {tr : Trans} {h : HomeLine}
    (hres : s.resolve o.asid.toNat addr.toNat .write = .ok (.line home a v hpa tr)) (htrk : tr.trk = false) (hown : tr.own = false)
    (hh : s.home? a (v / 64) = some h) (hfree : h.taken = false) (hdir : h.dir = .i) (hpass : h.scope.passes s g = true)
    (hgood : poisonedAt h.poison (v % 64) o.instr.accessBytes = false) :
    let n := o.instr.accessBytes
    let ps := s.chainLanes o addr
    let r := runChain o.instr (ps.map (·.2)) (leNat (lineBytes h.data (v % 64) n))
    ∃ (t : State) (h' : HomeLine), s.atomicChain o addr = t.chainDone ps r.2 ∧ t.groups = s.groups ∧ t.ops = s.ops ∧
      t.home? a (v / 64) = some h' ∧ t.hbm = s.hbm ∧ t.hostMem = s.hostMem ∧ t.peerMem = s.peerMem ∧
      h'.data = lineSet h.data (v % 64) (natBytes n r.1) ∧ h'.scope = s.recordOf g o.instr.scopeOf ∧
      (∀ b k, ¬(b = a ∧ k = v / 64) → t.home? b k = s.home? b k) ∧
      (∀ y ∈ t.l1, ¬(y.core = o.core ∧ y.asid = o.asid.toNat ∧ y.line = addr.toNat / 64)) ∧
      t.acks = s.acks ++ acksOf s.tick ((ps.map (·.1)).eraseDups) (addr.toNat / 64) (maxT (s.time home) h.lr) false := by
  intro n ps r
  obtain ⟨ha, hl⟩ := State.home_tag hh
  let h' : HomeLine := { h.written (v % 64) (natBytes n r.1) with scope := s.recordOf g o.instr.scopeOf }
  have htag : h'.asid = a ∧ h'.line = v / 64 := ⟨ha, hl⟩
  have hrmw := State.homeRmw_of_idle (ps.map (·.1)).eraseDups g n (fun old => natBytes n (runChain o.instr (ps.map (·.2)) (leNat old)).1)
    hres htrk hown hh hfree hdir hpass
  rw [hgood] at hrmw
  have hframe := s.chainWritten_frame (ps.map (·.1)).eraseDups o addr.toNat home h' h.lr
  refine ⟨_, h', State.atomicChain_of_rmw hlast hg hscratch hverdict hrmw, (congrArg State.groups hframe :),
    (congrArg State.ops hframe :), ?_, (congrArg State.hbm hframe :), (congrArg State.hostMem hframe :), (congrArg State.peerMem hframe :), rfl, rfl,
    fun b k hne => ?_, s.l1_chainWritten _ _ _ _ _ _, s.acks_chainWritten _ _ _ _ _ _⟩
  · rw [State.home_chainWritten]
    exact if_pos htag
  · rw [State.home_chainWritten, if_neg]
    rintro ⟨rfl, rfl⟩
    exact hne htag

end Sys2Proof.Machine

open Sys2Proof Sys2Proof.Machine

/-- ATOM, RED and CAS lane by lane; the chain of their lanes; and where that chain performs. -/
theorem atomicChains : Statements.AtomicChains := by
  refine ⟨fun x l old => ⟨?_, ?_, ?_, ?_, ?_, ?_, ?_, ?_, rfl⟩, fun i l ls old => ⟨runChain_nil i old, runChain_cons i l ls old⟩, ?_⟩
  · exact fun hf hk i hi => by rw [chainStep_of_mem hi]; exact atomStep_add_int old _ hf hk
  · exact fun hf hk i hi => by rw [chainStep_of_mem hi]; exact atomStep_min_int old _ hf hk
  · exact fun hf hk i hi => by rw [chainStep_of_mem hi]; exact atomStep_max_int old _ hf hk
  · exact fun hk i hi => by rw [chainStep_of_mem hi, atomStep_and old _ hk]; exact ⟨rfl, rfl⟩
  · exact fun hk i hi => by rw [chainStep_of_mem hi, atomStep_or old _ hk]; exact ⟨rfl, rfl⟩
  · exact fun hk i hi => by rw [chainStep_of_mem hi, atomStep_xor old _ hk]; exact ⟨rfl, rfl⟩
  · exact fun hk i hi => by rw [chainStep_of_mem hi, atomStep_exchange old _ hk]; exact ⟨rfl, rfl⟩
  · intro hf
    refine fun i hi => ⟨fun hk => ?_, fun hk => ?_, fun hk => ?_⟩
    · rw [chainStep_of_mem hi]; exact atomStep_add_float old _ hf hk
    · rw [chainStep_of_mem hi]; exact atomStep_min_float old _ hf hk
    · rw [chainStep_of_mem hi]; exact atomStep_max_float old _ hf hk
  intro s id addr o p0 g hop hatomic hready hturn
  rw [exec_atomicUnitChain hop hatomic hready hturn]
  refine ⟨s.mem_chainLanes o addr, fun hjoint => by simp [State.joinedOps, hjoint], fun hlast hg => ⟨?_, ?_⟩⟩
  · intro wid off hscratch hplace
    rw [State.serve_of_scratch hscratch, State.atomicChain_of_scratch hlast hg hscratch hplace]
    exact ⟨fun hgood => by rw [hgood]; rfl, fun hbad => by rw [hbad]; rfl⟩
  intro hscratch hpass
  obtain ⟨turns, hserve⟩ := s.serve_eq o addr
  rw [hserve] at hpass ⊢
  refine ⟨?_, ?_, ?_⟩
  · intro b hsys hres
    exact congrArg (fun t : State => Host.Outcome.next (t.fused s))
      (State.atomicChain_of_rmw (s := { s with lineTurns := turns }) hlast hg hscratch hpass (State.homeRmw_of_host _ g _ _ hsys hres))
  · intro k m b hsys hres
    exact congrArg (fun t : State => Host.Outcome.next (t.fused s))
      (State.atomicChain_of_rmw (s := { s with lineTurns := turns }) hlast hg hscratch hpass (State.homeRmw_of_peer _ g _ _ hsys hres))
  · intro home a v hpa tr h hres htrk hown hh hfree hdir hscope hgood
    obtain ⟨t, h', hchain, hleft⟩ := State.atomicChain_of_idle (s := { s with lineTurns := turns }) hlast hg hscratch hpass hres htrk hown
      hh hfree hdir hscope hgood
    exact ⟨t, h', congrArg (fun t : State => Host.Outcome.next (t.fused s)) hchain, hleft⟩

end

section
/-! # Deque chains (O34) -/

namespace Sys2Proof.Machine

/-! ## One lane's step (R178) -/

/-- The lane's operation fails and changes nothing. -/
def DequeRun.fails (r : DequeRun) (o : MemOp) (l : LaneReq) : DequeRun := { r with outs := r.outs ++ [(o, l, 0, false)] }

section
variable {x : XForm} {asid buf cap size last : Nat} {hdr : W64} {r : DequeRun} {o : MemOp} {l : LaneReq} {u : State} {v w : W64} {b : Bool}
  (hsize : (r.ends.bot + 2 ^ 64 - r.ends.top) % 2 ^ 64 = size)
include hsize

theorem DequeRun.step_push_full (h : cap ≤ size) : DequeRun.step (.dqpush x) asid hdr buf cap r (o, l) = r.fails o l := by
  unfold DequeRun.step
  exact if_pos (hsize ▸ h)

theorem DequeRun.step_pop_empty (h : size = 0) : DequeRun.step (.dqpop x) asid hdr buf cap r (o, l) = r.fails o l := by
  unfold DequeRun.step
  exact if_pos (hsize.trans h)

theorem DequeRun.step_steal_empty (h : size = 0) : DequeRun.step (.dqsteal x) asid hdr buf cap r (o, l) = r.fails o l := by
  unfold DequeRun.step
  exact if_pos (hsize.trans h)

theorem DequeRun.step_push (h : size < cap)
    (he : r.s.dequeEntry asid hdr (buf + 8 * (r.ends.bot % cap)) (some (l.data.setWidth 64)) = .ok (u, v, b, w)) :
    DequeRun.step (.dqpush x) asid hdr buf cap r (o, l) = { r with
      s := u, ends := ⟨r.ends.top, (r.ends.bot + 1) % 2 ^ 64⟩, entries := (buf + 8 * (r.ends.bot % cap)) :: r.entries
      outs := r.outs ++ [(o, l, 0, true)], w := maxT r.w w } := by
  simp only [DequeRun.step, hsize, if_neg (Nat.not_le.2 h), he]

theorem DequeRun.step_pop (hlast : (r.ends.bot + 2 ^ 64 - 1) % 2 ^ 64 = last) (h : size ≠ 0)
    (he : r.s.dequeEntry asid hdr (buf + 8 * (last % cap)) none = .ok (u, v, b, w)) :
    DequeRun.step (.dqpop x) asid hdr buf cap r (o, l) = { r with
      s := u, ends := ⟨r.ends.top, last⟩, entries := (buf + 8 * (last % cap)) :: r.entries, outs := r.outs ++ [(o, l, v, true)]
      bad := r.bad || b } := by
  simp only [DequeRun.step, hsize, if_neg h, hlast, he]

theorem DequeRun.step_steal (h : size ≠ 0) (he : r.s.dequeEntry asid hdr (buf + 8 * (r.ends.top % cap)) none = .ok (u, v, b, w)) :
    DequeRun.step (.dqsteal x) asid hdr buf cap r (o, l) = { r with
      s := u, ends := ⟨(r.ends.top + 1) % 2 ^ 64, r.ends.bot⟩, entries := (buf + 8 * (r.ends.top % cap)) :: r.entries
      outs := r.outs ++ [(o, l, v, true)], bad := r.bad || b } := by
  simp only [DequeRun.step, hsize, if_neg h, he]

end

/-! ## A chain that may perform -/

theorem exec_dequeChain {s : State} {id : Nat} {addr : W64} {o : MemOp} (hop : s.op? id = some o) (hdeque : o.instr.isDeque = true)
    (hready : s.chainReady o addr = true) (hturn : s.inTurn o addr = true) :
    exec (.dequeChain id addr) s = .next (((s.serve o addr).dequeChain o addr).fused s) := by
  have htry : s.tryDeque id addr = (s.serve o addr).dequeChain o addr := by simp [State.tryDeque, hop, hdeque, hready, hturn]
  exact congrArg (done s) htry

/-- A header in a region of KIND 2 or 3 faults every lane (log entry 51). -/
theorem State.dequeChain_of_far {s : State} {o : MemOp} {addr : W64} (hfar : s.farDeque o.asid.toNat addr.toNat = true) :
    s.dequeChain o addr = s.chainFault (s.chainLanes o addr) (dequeFault addr) := by
  simp [State.dequeChain, hfar]

/-- Bytes k to k + n of a deque's header, as a number. -/
def HomeLine.headerNat (h : HomeLine) (k n : Nat) : Nat := leNat (lineBytes h.data k n)

/-- A chain at a header in memory that passes its checks and whose lanes meet neither a fault nor poison (R178, R388). -/
theorem State.dequeChain_of_good {s : State} {o : MemOp} {addr : W64} {p0 : MemOp × LaneReq} {g : Group} {home a v hpa : Nat} {tr : Trans}
    {h : HomeLine} (hnear : s.farDeque o.asid.toNat addr.toNat = false) (hlast : (s.chainLanes o addr).getLast? = some p0)
    (hg : s.group? p0.1.gid = some g) (hverdict : ∀ q ∈ s.chainLanes o addr, s.scopeVerdict q.1 addr.toNat = none)
    (hres : s.resolve o.asid.toNat addr.toNat .write = .ok (.line home a v hpa tr)) (hfree : s.lineFree a (v / 64) = true)
    (hh : ((s.fillHome home a v hpa).dirRecall a (v / 64)).home? a (v / 64) = some h) (hpass : h.scope.passes s g = true)
    (hgood : poisonedAt h.poison 0 28 = false) (hcap : 1 ≤ h.headerNat 24 4 % 64) (hcap' : h.headerNat 24 4 % 64 ≤ 20) (hbuf : 8 ∣ h.headerNat 16 8) {r : DequeRun}
    (hr : (s.chainLanes o addr).foldl (DequeRun.step o.instr o.asid.toNat addr (h.headerNat 16 8) (2 ^ (h.headerNat 24 4 % 64)))
      ⟨(s.fillHome home a v hpa).dirRecall a (v / 64), ⟨h.headerNat 0 8, h.headerNat 8 8⟩, [], [], [], false, 0⟩ = r)
    (hbad : r.bad = false) (hfaults : r.faults = []) {s1 : State} {lr : W64}
    (happly : (if r.ends = ⟨h.headerNat 0 8, h.headerNat 8 8⟩ then .ok (r.s, h.lr)
      else r.s.homeApply home a v hpa (natBytes 8 r.ends.top ++ natBytes 8 r.ends.bot) tr.trk) = .ok (s1, lr)) {h1 : HomeLine}
    (hh1 : s1.home? a (v / 64) = some h1) :
    let s2 := (r.entries.foldl (fun s k => s.l1Replace o.core o.asid.toNat (k / 64)) s1).l1Replace o.core o.asid.toNat (addr.toNat / 64)
    s.dequeChain o addr = ((s2.putHome { h1 with scope := s.recordOf g o.instr.scopeOf }).sendAcks ((s.chainLanes o addr).map (·.1)).eraseDups
      (addr.toNat / 64) (maxT (s.time home) (maxT lr r.w)) false).dequeDone r.outs := by
  have hmod : h.headerNat 16 8 % 8 = 0 := Nat.mod_eq_zero_of_dvd hbuf
  have hhome : ∀ (l : List Nat) (t : State), (l.foldl (fun s k => s.l1Replace o.core o.asid.toNat (k / 64)) t).home? a (v / 64) =
      t.home? a (v / 64) := foldl_keeps (fun t : State => t.home? a (v / 64)) (fun _ _ => rfl)
  have hh2 : ((r.entries.foldl (fun s k => s.l1Replace o.core o.asid.toNat (k / 64)) s1).l1Replace o.core o.asid.toNat
      (addr.toNat / 64)).home? a (v / 64) = some h1 := (hhome _ _).trans hh1
  unfold HomeLine.headerNat at *
  simp only [State.dequeChain, hnear, State.splitChain_of_pass hverdict, hlast, Option.bind_some, hg, hres, hfree, hh, hpass, hgood, hmod,
    hr, hbad, happly, hh2, hfaults, List.foldl_nil]
  rw [if_neg Bool.false_ne_true, if_neg (by simp), if_neg (by simp), if_neg Bool.false_ne_true, if_neg (by simp; omega),
    if_neg Bool.false_ne_true]

end Sys2Proof.Machine
end

section
open Sys2Proof Sys2Proof.Machine

/-- A deque's operations lane by lane, and the chain of their lanes at a header. -/
theorem dequeChains : Statements.DequeChains := by
  refine ⟨fun x asid buf cap hdr r o l => ⟨DequeRun.step_push_full rfl, DequeRun.step_pop_empty rfl, DequeRun.step_steal_empty rfl,
    fun u v b w => DequeRun.step_push rfl, fun u v b w => DequeRun.step_pop rfl rfl, fun u v b w => DequeRun.step_steal rfl⟩, ?_, ?_⟩
  · intro s id addr o hop hdeque hready hturn hfar
    rw [exec_dequeChain hop hdeque hready hturn]
    obtain ⟨turns, hserve⟩ := s.serve_eq o addr
    rw [hserve]
    exact congrArg (fun t : State => Host.Outcome.next (t.fused s)) (State.dequeChain_of_far (s := { s with lineTurns := turns }) hfar)
  · intro s id addr o p0 g home a v hpa tr h hop hdeque hready hturn hnear
    rw [exec_dequeChain hop hdeque hready hturn]
    obtain ⟨turns, hserve⟩ := s.serve_eq o addr
    rw [hserve]
    intro u ps hlast hg hverdict hres hfree s0 hh hpass hgood rd r hcap hcap' hbuf hbad hfaults s1 lr happly h1 hh1
    exact congrArg (fun t : State => Host.Outcome.next (t.fused s)) (State.dequeChain_of_good (s := { s with lineTurns := turns }) hnear
      hlast hg hverdict hres hfree hh hpass hgood hcap hcap' hbuf rfl hbad hfaults happly hh1)

/-- Settles O34: a chain's steps are those of its lanes, and it performs them where its address leads. -/
theorem atomicAndDequeChains : Obligations.AtomicAndDequeChains := ⟨atomicChains, dequeChains⟩

end

section
/-! # What the end of a lane leaves (O32) -/

namespace Sys2Proof.Machine

/-! ## Everything but the bookkeeping of operations -/

/-- The state but for its groups and operations, and for the records of faults. -/
def State.beyondOps (s : State) : State := { s with groups := [], ops := [], funcs := [], hostMem := [], vectors := [], travRuns := [] }

/-- Two states that agree beyond their operations differ in the fields left out there only. -/
theorem State.eq_of_beyondOps {s t : State} (h : t.beyondOps = s.beyondOps) :
    { t with groups := s.groups, ops := s.ops, funcs := s.funcs, hostMem := s.hostMem, vectors := s.vectors, travRuns := s.travRuns } = s :=
  congrArg (fun u : State => { u with
    groups := s.groups, ops := s.ops, funcs := s.funcs, hostMem := s.hostMem, vectors := s.vectors, travRuns := s.travRuns }) h

@[simp] theorem State.beyondOps_update (s : State) {groups ops funcs hostMem vectors travRuns} :
    ({ s with groups, ops, funcs, hostMem, vectors, travRuns } : State).beyondOps = s.beyondOps := (rfl)

@[simp] theorem State.beyondOps_modGroup (s : State) (k : Nat) (f : Group → Group) : (s.modGroup k f).beyondOps = s.beyondOps := rfl
@[simp] theorem State.beyondOps_modOp (s : State) (k : Nat) (f : MemOp → MemOp) : (s.modOp k f).beyondOps = s.beyondOps := rfl
@[simp] theorem State.beyondOps_modFunc (s : State) (k : Nat) (f : Func → Func) : (s.modFunc k f).beyondOps = s.beyondOps := rfl
@[simp] theorem State.beyondOps_signal (s : State) (fn v : Nat) : (s.signal fn v).beyondOps = s.beyondOps := rfl

theorem State.beyondOps_postOne (s : State) (fn : Nat) : (s.postOne fn).beyondOps = s.beyondOps := by
  unfold State.postOne
  (repeat' split) <;> simp

@[simp] theorem State.beyondOps_makeRecord (s : State) (fn : Nat) (r : FaultRec) (ref : Option FidRef) :
    (s.makeRecord fn r ref).1.beyondOps = s.beyondOps := by
  have hpost (s : State) : (s.postHeld fn).beyondOps = s.beyondOps := by
    unfold State.postHeld
    split
    · rfl
    · exact foldl_keeps State.beyondOps (fun s _ => s.beyondOps_postOne fn) ..
  unfold State.makeRecord
  split <;> simp [hpost]

theorem State.beyondOps_dropLogged (s : State) (vf : Nat) (o : MemOp) : (s.dropLogged vf o).beyondOps = s.beyondOps := by
  have hpend : ((o.lanes.filter LaneReq.isLogged).foldl (fun s l => s.clearPendLane o.gid o.id l.lane) s).beyondOps = s.beyondOps :=
    foldl_keeps State.beyondOps (fun s l => s.beyondOps_modGroup o.gid _) ..
  unfold State.dropLogged
  cases o.fid <;> exact hpend

theorem State.beyondOps_report (s : State) (o : MemOp) : (s.report o).beyondOps = s.beyondOps := by
  simp only [State.report]
  (repeat' split) <;> simp

theorem State.beyondOps_settle (s : State) (id : Nat) : (s.settle id).beyondOps = s.beyondOps := by
  unfold State.settle
  split
  · rfl
  next o _ =>
    split_ifs
    · rfl
    · rfl
    · rfl
    · exact s.beyondOps_dropLogged _ o
    · exact s.beyondOps_report o
    · rfl

theorem State.beyondOps_laneDone (s : State) (gid id lane : Nat) : (s.laneDone gid id lane).beyondOps = s.beyondOps := by
  rw [State.laneDone, State.beyondOps_settle, State.clearPendLane, State.beyondOps_modGroup, State.beyondOps_modOp]

/-! ## The last lane of an operation, and one of several -/

/-- An operation without lanes left is gone, and no destination awaits it. -/
theorem State.settle_of_empty {s : State} {id : Nat} {o : MemOp} {g : Group} (hop : s.op? id = some o) (hlanes : o.lanes = [])
    (hg : s.group? o.gid = some g) :
    { s.settle id with groups := s.groups, ops := s.ops, travRuns := s.travRuns } = s ∧ (∀ p ∈ (s.settle id).ops, p.id ≠ id) ∧
      ∃ g', (s.settle id).group? o.gid = some g' ∧ { g' with pend := g.pend, threads := g.threads, wakeTick := g.wakeTick } = g ∧
        ∀ p ∈ g'.pend, p.op ≠ id := by
  have hdel : ∃ g', (s.delOp o.gid id).group? o.gid = some g' ∧
      { g' with pend := g.pend, threads := g.threads, wakeTick := g.wakeTick } = g ∧ ∀ p ∈ g'.pend, p.op ≠ id := by
    refine ⟨_, State.group_mod_self (s := { s with ops := _, travRuns := _ }) hg rfl, rfl, fun p hp => ?_⟩
    simpa using (List.mem_filter.1 hp).2
  have hops : ∀ p ∈ (s.delOp o.gid id).ops, p.id ≠ id := fun p hp => by simpa using (List.mem_filter.1 hp).2
  obtain ⟨g', hg', hframe, hpend⟩ := hdel
  have hsettle : s.settle id = if o.log = .raised then s.delOp o.gid id
      else (s.delOp o.gid id).modGroup o.gid (fun g => { g with wakeTick := (s.delOp o.gid id).tick }) := by
    simp [State.settle, hop, hlanes]
  rw [hsettle]
  split_ifs
  · exact ⟨rfl, hops, g', hg', hframe, hpend⟩
  · exact ⟨rfl, hops, _, State.group_mod_self hg' rfl, hframe, hpend⟩

/-- One with a lane that has yet to perform stays. -/
theorem State.settle_of_open {s : State} {id : Nat} {o : MemOp} (hop : s.op? id = some o) (hopen : ∃ l ∈ o.lanes, l.isLogged = false) :
    s.settle id = s := by
  obtain ⟨l, hl, hlog⟩ := hopen
  have hne : o.lanes ≠ [] := List.ne_nil_of_mem hl
  have hall : o.lanes.all (fun l => l.isLogged) = false := List.all_eq_false.2 ⟨l, hl, by simp [hlog]⟩
  simp [State.settle, hop, hne, hall]

section
variable {s : State} {id lane : Nat} {o : MemOp} {g : Group}

/-- The operation once a lane of it has performed. -/
theorem State.op_without (hop : s.op? id = some o) (gid : Nat) :
    ((s.modOp id (fun o => { o with lanes := o.lanes.filter (fun l => l.lane != lane) })).clearPendLane gid id lane).op? id =
      some { o with lanes := o.lanes.filter (fun l => l.lane != lane) } := by
  refine ((s.op_modOp id _ id).trans ?_ :)
  rw [if_pos rfl, hop, Option.map_some, ← State.op_key hop]

/-- Its group then. -/
theorem State.group_without (hg : s.group? o.gid = some g) :
    ((s.modOp id (fun o => { o with lanes := o.lanes.filter (fun l => l.lane != lane) })).clearPendLane o.gid id lane).group? o.gid =
      some { g with pend := g.pend.map (fun p => if p.op = id then { p with lanes := p.lanes &&& ~~~((1 : W64) <<< lane) } else p) } :=
  State.group_mod_self (s := s.modOp id _) hg rfl

variable (hop : s.op? id = some o) (hg : s.group? o.gid = some g)
include hop hg

/-- The last lane of an operation ends it. -/
theorem State.laneDone_last (hlast : ∀ l ∈ o.lanes, l.lane = lane) :
    { s.laneDone o.gid id lane with groups := s.groups, ops := s.ops, travRuns := s.travRuns } = s ∧
      (∀ p ∈ (s.laneDone o.gid id lane).ops, p.id ≠ id) ∧
      ∃ g', (s.laneDone o.gid id lane).group? o.gid = some g' ∧
        { g' with pend := g.pend, threads := g.threads, wakeTick := g.wakeTick } = g ∧ ∀ p ∈ g'.pend, p.op ≠ id := by
  have hlanes : o.lanes.filter (fun l => l.lane != lane) = [] := List.filter_eq_nil_iff.2 fun l hl => by simp [hlast l hl]
  obtain ⟨hframe, hops, g', hg', hgframe, hpend⟩ := State.settle_of_empty (State.op_without hop o.gid) hlanes (State.group_without hg)
  exact ⟨congrArg (fun u : State => { u with groups := s.groups, ops := s.ops, travRuns := s.travRuns }) hframe, hops, g', hg',
    congrArg (fun u : Group => { u with pend := g.pend, threads := g.threads, wakeTick := g.wakeTick }) hgframe, hpend⟩

/-- Another leaves it outstanding. -/
theorem State.laneDone_more (hmore : ∃ l ∈ o.lanes, l.lane ≠ lane ∧ l.isLogged = false) :
    (s.laneDone o.gid id lane).op? id = some { o with lanes := o.lanes.filter (fun l => l.lane != lane) } ∧
      (s.laneDone o.gid id lane).group? o.gid =
        some { g with pend := g.pend.map (fun p => if p.op = id then { p with lanes := p.lanes &&& ~~~((1 : W64) <<< lane) } else p) } := by
  obtain ⟨l, hl, hne, hlog⟩ := hmore
  have hopen := State.settle_of_open (State.op_without hop (lane := lane) o.gid) ⟨l, List.mem_filter.2 ⟨hl, by simpa using hne⟩, hlog⟩
  rw [State.laneDone, hopen]
  exact ⟨State.op_without hop o.gid, State.group_without hg⟩

end

end Sys2Proof.Machine
end

section
/-! # What a load writes (O32) -/

namespace Sys2Proof.Machine

/-! ## The destination of a load -/

/-- A loaded value, extended as its KIND says (R154). -/
theorem extendKind_eq (k v : Nat) :
    extendKind k v = if k = 1 then BitVec.ofInt 64 (sext 8 v) else if k = 3 then BitVec.ofInt 64 (sext 16 v) else BitVec.ofNat 64 v := by
  unfold extendKind
  split
  · rfl
  · rfl
  next h1 h3 => rw [if_neg h1, if_neg h3]

/-- A load into registers of one kind: to its destination, unless that is a v register of a thread that has exited (R102). -/
theorem Group.deliverLoad_eq {x : MForm} {i : Instr} (hi : i ∈ [Instr.ld x, .lds x, .ldv x]) (g : Group) (lane : Nat) (bs : List Byte) :
    g.deliverLoad i lane bs = if x.d.toNat < 0x100 && g.gone lane then g
      else g.writeDest (x.kind == 5) x.d.toNat [(lane, extendKind x.kind (leNat bs))] := by
  have hwide : (x.kind == 5) = decide (x.kind = 5) := by rw [Bool.eq_iff_iff]; simp
  simp only [List.mem_cons, List.not_mem_nil, or_false] at hi
  rw [hwide]
  obtain rfl | rfl | rfl := hi <;> rfl

theorem Group.deliverLoad_ldq (x : MForm) (g : Group) (lane : Nat) (bs : List Byte) :
    g.deliverLoad (.ldq x) lane bs = if g.gone lane then g else g.deliverQuad x.d.toNat lane (BitVec.ofNat 128 (leNat bs)) := rfl

/-- A load changes registers, their parity marks and threads only. -/
theorem Group.deliverLoad_frame (g : Group) (i : Instr) (lane : Nat) (bs : List Byte) :
    { g.deliverLoad i lane bs with
      vregs := g.vregs, sregs := g.sregs, threads := g.threads, badV := g.badV, badS := g.badS } = g := by
  simp only [Group.deliverLoad, Group.deliver, Group.deliverQuad]
  split
  case h_1 | h_2 | h_3 =>
    split
    · rfl
    · exact writeDest_frame ..
  case h_4 => split <;> rfl
  case h_5 => rfl

/-- Word j of a number of 128 bits. -/
theorem extractLsb'_ofNat_word (v : Nat) {j : Nat} (hj : j < 4) :
    (BitVec.ofNat 128 v).extractLsb' (32 * j) 32 = BitVec.ofNat 32 (v / 2 ^ (32 * j)) := by
  ext i hi
  have hlow : i + 32 * j < 128 := by omega
  rw [← BitVec.getLsbD_eq_getElem, ← BitVec.getLsbD_eq_getElem, BitVec.getLsbD_extractLsb', BitVec.getLsbD_ofNat, BitVec.getLsbD_ofNat,
    Nat.testBit_div_two_pow]
  simp [hi, hlow, Nat.add_comm (32 * j)]

/-- The four registers of a quad hold the words of its value. -/
theorem Group.deliverQuad_vreg (g : Group) (d lane : Nat) (v : BitVec 128) {j : Nat} (hj : j < 4) :
    (g.deliverQuad d lane v).vreg lane (d + j) = v.extractLsb' (32 * j) 32 := by
  refine get_setAll_mem _ _ _ _ (fun p hp hkey => ?_) ⟨(lane * 256 + d + j, v.extractLsb' (32 * j) 32), ?_, Nat.add_assoc ..⟩
  · obtain ⟨k, -, rfl⟩ := List.mem_map.1 hp
    obtain rfl : k = j := by simp only at hkey; omega
    rfl
  · exact List.mem_map.2 ⟨j, List.mem_range.2 hj, rfl⟩

theorem loadedValues : Statements.LoadedValues := by
  refine fun x g lane bs => ⟨fun hgone hd i hi => ?_, fun hlive i hi => ?_, fun hlive j hj hd => ?_⟩
  · obtain hmem | rfl : i ∈ [Instr.ld x, .lds x, .ldv x] ∨ i = .ldq x := by
      simpa [or_assoc] using hi
    · rw [Group.deliverLoad_eq hmem, if_pos (by simp [hgone, hd])]
    · rw [Group.deliverLoad_ldq, if_pos hgone]
  · have hput : (decide (x.d.toNat < 0x100) && g.gone lane) = false := by
      obtain hlive | hd := hlive
      · simp [hlive]
      · simp [Nat.not_lt.2 hd]
    rw [Group.deliverLoad_eq hi, hput, extendKind_eq]
    rfl
  · rw [Group.deliverLoad_ldq, hlive, ← extractLsb'_ofNat_word _ hj]
    exact Group.deliverQuad_vreg g _ lane _ hj

end Sys2Proof.Machine
end

section
/-! # What a load reads (O32) -/

namespace Sys2Proof.Machine

@[simp] theorem natBytes_length (n x : Nat) : (natBytes n x).length = n := by
  induction n generalizing x with
  | zero => rfl
  | succ n ih => rw [natBytes, List.length_cons, ih]

@[simp] theorem lineBytes_length (d : LineData) (k n : Nat) : (lineBytes d k n).length = n := by simp [lineBytes]

/-! ## The store buffer -/

/-- A lane of a store covers the byte at an address. -/
def coversByte (a : Nat) (p : MemOp × LaneReq) : Prop := p.2.addr.toNat ≤ a ∧ a < p.2.addr.toNat + p.1.instr.accessBytes

/-- What a store gives the byte at an address, over what those before it gave (R247). -/
def bufferedByte (a : Nat) (r : Option Byte) (p : MemOp × LaneReq) : Option Byte :=
  if p.2.addr.toNat ≤ a && a < p.2.addr.toNat + p.1.instr.accessBytes then (p.2.bytes p.1.instr.accessBytes)[a - p.2.addr.toNat]? else r

theorem bufferedBytes_eq (buf : List (MemOp × LaneReq)) (addr n : Nat) :
    bufferedBytes buf addr n = (List.range n).map (fun j => buf.foldl (bufferedByte (addr + j)) none) := rfl

theorem bufferedByte_of_covers {a : Nat} {p : MemOp × LaneReq} (h : coversByte a p) (r : Option Byte) :
    bufferedByte a r p = (p.2.bytes p.1.instr.accessBytes)[a - p.2.addr.toNat]? := by
  obtain ⟨hlow, hhigh⟩ := h
  simp [bufferedByte, hlow, hhigh]

/-- Stores that do not cover a byte give nothing for it. -/
theorem foldl_bufferedByte_of_not_covers {a : Nat} {buf : List (MemOp × LaneReq)} (h : ∀ q ∈ buf, ¬coversByte a q) (r : Option Byte) :
    buf.foldl (bufferedByte a) r = r := by
  induction buf generalizing r with
  | nil => rfl
  | cons q buf ih =>
    obtain ⟨hq, hbuf⟩ := List.forall_mem_cons.1 h
    have hskip : bufferedByte a r q = r := if_neg (by simpa [coversByte] using hq)
    rw [List.foldl_cons, hskip, ih hbuf]

/-- The youngest store that covers a byte gives it. -/
theorem foldl_bufferedByte_youngest {a : Nat} {p : MemOp × LaneReq} {younger : List (MemOp × LaneReq)} (hp : coversByte a p)
    (h : ∀ q ∈ younger, ¬coversByte a q) (older : List (MemOp × LaneReq)) :
    (older ++ p :: younger).foldl (bufferedByte a) none = (p.2.bytes p.1.instr.accessBytes)[a - p.2.addr.toNat]? := by
  rw [List.foldl_append, List.foldl_cons, foldl_bufferedByte_of_not_covers h, bufferedByte_of_covers hp]

/-! ## A hit in the L1 -/

/-- The bytes of a load that hits its core's L1: the store buffer's, and the line's where that has none (R244, R247). -/
def hitBytes (buf : List (MemOp × LaneReq)) (data : LineData) (va n : Nat) : List Byte :=
  ((bufferedBytes buf va n).zip (lineBytes data (va % 64) n)).map (fun p => p.1.getD p.2)

theorem hitBytes_length (buf : List (MemOp × LaneReq)) (data : LineData) (va n : Nat) : (hitBytes buf data va n).length = n := by
  simp [hitBytes, bufferedBytes_eq]

section
variable {buf : List (MemOp × LaneReq)} {data : LineData} {va n j : Nat} {b : Byte} (hb : (hitBytes buf data va n)[j]? = some b)
include hb

/-- Each byte is the store buffer's or the line's. -/
theorem hitBytes_getElem : ∃ d, (lineBytes data (va % 64) n)[j]? = some d ∧ (buf.foldl (bufferedByte (va + j)) none).getD d = b := by
  obtain ⟨p, hp, hpb⟩ : ∃ p, ((bufferedBytes buf va n).zip (lineBytes data (va % 64) n))[j]? = some p ∧ p.1.getD p.2 = b := by
    simpa [hitBytes] using hb
  obtain ⟨hbuf, hline⟩ := List.getElem?_zip_eq_some.1 hp
  obtain ⟨-, hfst⟩ : j < n ∧ buf.foldl (bufferedByte (va + j)) none = p.1 := by
    simpa [bufferedBytes_eq, List.getElem?_eq_some_iff] using hbuf
  exact ⟨p.2, hline, by rw [hfst, hpb]⟩

theorem hitBytes_of_not_covers (h : ∀ p ∈ buf, ¬coversByte (va + j) p) : (lineBytes data (va % 64) n)[j]? = some b := by
  obtain ⟨d, hd, hbyte⟩ := hitBytes_getElem hb
  rw [foldl_bufferedByte_of_not_covers h] at hbyte
  rw [hd, ← hbyte]
  rfl

theorem hitBytes_of_youngest {p : MemOp × LaneReq} {older younger : List (MemOp × LaneReq)} (hbuf : buf = older ++ p :: younger)
    (hp : coversByte (va + j) p) (h : ∀ q ∈ younger, ¬coversByte (va + j) q) :
    (p.2.bytes p.1.instr.accessBytes)[va + j - p.2.addr.toNat]? = some b := by
  obtain ⟨d, -, hbyte⟩ := hitBytes_getElem hb
  have hin : va + j - p.2.addr.toNat < (p.2.bytes p.1.instr.accessBytes).length := by
    obtain ⟨hlow, hhigh⟩ := hp
    rw [LaneReq.bytes, natBytes_length]
    omega
  rw [hbuf, foldl_bufferedByte_youngest hp h, List.getElem?_eq_getElem hin, Option.getD_some] at hbyte
  rw [List.getElem?_eq_getElem hin, hbyte]

end

/-- A read that hits the L1, where every store of the buffer may write its place. -/
theorem State.lsuRead_of_hit {s : State} {core asid va : Nat} {x : L1Line} (hx : s.l1Hit core asid (va / 64) = some x) (hgood : x.poison = 0)
    (gid id n : Nat) (noAlloc : Bool)
    (hwrite : ∀ p ∈ s.buffered core asid gid id va n, ∃ r, s.resolve asid p.2.addr.toNat .write = .ok r) :
    s.lsuRead core gid id asid va n false noAlloc =
      .ok s (hitBytes (s.buffered core asid gid id va n) x.data va n) false (some x.scope) false := by
  have hall : (s.buffered core asid gid id va n).all (fun p => match s.resolve asid p.2.addr.toNat .write with
      | .ok _ => true
      | .error _ => false) = true := by
    rw [List.all_eq_true]
    intro p hp
    obtain ⟨r, hr⟩ := hwrite p hp
    rw [hr]
  simp only [State.lsuRead, Bool.false_eq_true, if_false, hx]
  rw [if_neg]
  · simp [hgood, hitBytes]
  · exact ne_of_eq_of_ne (congrArg (! ·) hall) Bool.false_ne_true

/-! ## One lane of a load -/

/-- What a global load reads: under its view if it is versioned (R156). -/
def State.loadGot (s : State) (o : MemOp) (l : LaneReq) : Got :=
  match o.instr with
  | .ldv _ => s.viewRead o.core o.gid o.id o.asid.toNat l.addr.toNat o.instr.accessBytes l.view o.instr.noL1 o.noAlloc
  | _ => s.lsuRead o.core o.gid o.id o.asid.toNat l.addr.toNat o.instr.accessBytes o.instr.noL1 o.noAlloc

theorem State.loadGot_of_not_ldv {o : MemOp} (h : ∀ f, o.instr ≠ .ldv f) (s : State) (l : LaneReq) :
    s.loadGot o l = s.lsuRead o.core o.gid o.id o.asid.toNat l.addr.toNat o.instr.accessBytes o.instr.noL1 o.noAlloc := by
  unfold State.loadGot
  split
  next f hf => exact absurd hf (h f)
  · rfl

/-- What a lane of a global load does with what it reads: it waits, faults or receives the bytes, or takes a Machine check (R256, R270). -/
def State.receive (s : State) (o : MemOp) (l : LaneReq) (g : Group) : Got → State
  | .wait => s
  | .fault f => s.laneFault o.id l.lane f
  | .ok u bs bad r far =>
    match s.acquireFault o g l.addr.toNat r far with
    | some f => s.laneFault o.id l.lane f
    | none => if bad then s.machineCheckOp o l.addr else u.deliverLane o l bs

section
variable {s : State} {o : MemOp} {l : LaneReq} {g : Group} (hg : s.group? o.gid = some g)
include hg

theorem State.loadLane_of_scratch {wid off : Nat} (hscratch : o.scratch = true) (hplace : s.place o l = some (wid + 1, off)) :
    s.loadLane o l = if s.scratchBad wid off o.instr.accessBytes then s.machineCheckOp o l.addr
      else s.deliverLane o l (s.scratchBytes wid off o.instr.accessBytes) := by
  simp [State.loadLane, hg, hscratch, hplace]

theorem State.loadLane_of_global (hscratch : o.scratch = false) : s.loadLane o l = s.receive o l g (s.loadGot o l) := by
  simp only [State.loadLane, hg, hscratch, Bool.false_eq_true, if_false]
  rfl

theorem State.loadLane_of_got {u : State} {bs : List Byte} {bad : Bool} {r : Option ScopeRec} {far : Bool} (hscratch : o.scratch = false)
    (hgot : s.loadGot o l = .ok u bs bad r far) (hacq : s.acquireFault o g l.addr.toNat r far = none) :
    s.loadLane o l = if bad then s.machineCheckOp o l.addr else u.deliverLane o l bs := by
  rw [State.loadLane_of_global hg hscratch, hgot, State.receive, hacq]

/-- A load without acquire that hits the L1. -/
theorem State.loadLane_of_hit {x : L1Line} (hscratch : o.scratch = false) (hldv : ∀ f, o.instr ≠ .ldv f) (horder : o.instr.order % 2 = 0)
    (hl1 : o.instr.noL1 = false) (hx : s.l1Hit o.core o.asid.toNat (l.addr.toNat / 64) = some x) (hgood : x.poison = 0)
    (hwrite : ∀ p ∈ s.buffered o.core o.asid.toNat o.gid o.id l.addr.toNat o.instr.accessBytes,
      ∃ r, s.resolve o.asid.toNat p.2.addr.toNat .write = .ok r) :
    s.loadLane o l = s.deliverLane o l (hitBytes (s.buffered o.core o.asid.toNat o.gid o.id l.addr.toNat o.instr.accessBytes) x.data
      l.addr.toNat o.instr.accessBytes) := by
  have hgot := s.loadGot_of_not_ldv hldv l
  rw [hl1, State.lsuRead_of_hit hx hgood _ _ _ _ hwrite] at hgot
  exact State.loadLane_of_got hg hscratch hgot (if_pos horder)

end

end Sys2Proof.Machine
end

section
/-! # Loads return (O32) -/

namespace Sys2Proof.Machine

/-! ## A load that may return -/

/-- A lane of a load returns if it is ready, behind no load of its line, and in turn; else it stays. -/
theorem exec_loadReturn {s : State} {id lane : Nat} {o : MemOp} {l : LaneReq} (hop : s.op? id = some o) (hlane : o.lane? lane = some l)
    (hload : o.instr.isPlainLoad = true) :
    exec (.loadReturn id lane) s =
      .next (if s.laneReady o l = true ∧ s.loadBehind o l = false ∧ s.inTurn o l.addr = true
        then ((s.serve o l.addr).loadLane o l).fused s else s) := by
  have htry : s.tryLoad id lane = if s.laneReady o l = true ∧ s.loadBehind o l = false ∧ s.inTurn o l.addr = true
      then (s.serve o l.addr).loadLane o l else s := by
    simp [State.tryLoad, hop, hlane, hload, and_assoc]
  refine (congrArg (done s) htry).trans ?_
  split_ifs
  · rfl
  · rfl

/-! ## A lane that receives its bytes -/

theorem Group.deliverLoad_gid (g : Group) (i : Instr) (lane : Nat) (bs : List Byte) : (g.deliverLoad i lane bs).gid = g.gid :=
  (congrArg Group.gid (g.deliverLoad_frame i lane bs) :)

/-- The operation and its group as the lane ends. -/
theorem State.delivered {s : State} {id : Nat} {o : MemOp} {l : LaneReq} {g : Group} (bs : List Byte) (hop : s.op? id = some o)
    (hg : s.group? o.gid = some g) :
    let t := (s.modOp o.id (fun x => { x with undo := x.undo ++ g.destNow o.instr l.lane })).modGroup o.gid
      (fun g => g.deliverLoad o.instr l.lane bs)
    s.deliverLane o l bs = t.laneDone o.gid id l.lane ∧ t.op? id = some { o with undo := o.undo ++ g.destNow o.instr l.lane } ∧
      t.group? o.gid = some (g.deliverLoad o.instr l.lane bs) := by
  intro t
  obtain rfl := State.op_key hop
  refine ⟨?_, ?_, State.group_mod_self (s := s.modOp _ _) hg (g.deliverLoad_gid ..)⟩
  · simp only [State.deliverLane, hg, Option.map_some, Option.getD_some]
    rfl
  · refine (s.op_modOp o.id _ o.id).trans ?_
    rw [if_pos rfl, hop, Option.map_some]

/-- A mask without a lane. -/
theorem laneIn_without (m : W64) (lane : Nat) : laneIn (m &&& ~~~((1 : W64) <<< lane)) lane = false := by
  by_cases hlane : lane < 64
  · simp [laneIn, hlane]
  · simp [laneIn, Nat.not_lt.1 hlane]

end Sys2Proof.Machine

open Sys2Proof Sys2Proof.Machine

/-- What LOAD_RETURN leaves, and what the end of a lane of a load leaves. -/
theorem loadsReturn : Statements.LoadsReturn := by
  refine ⟨fun s id lane o l g hop hlane hg hload => ?_, fun s id o l g bs hop hl hg => ⟨fun hlast => ?_, fun hmore => ?_⟩⟩
  · rw [exec_loadReturn hop hlane hload]
    refine ⟨fun hmay => by rw [if_neg hmay], fun hmay => ?_⟩
    rw [if_pos hmay]
    obtain ⟨turns, hserve⟩ := s.serve_eq o l.addr
    refine ⟨fun wid off hscratch hplace => ?_, fun x hscratch hldv horder hl1 hx hgood hwrite => ?_,
      fun u bs bad r far hscratch hgot hacq => ?_⟩
    · rw [State.serve_of_scratch hscratch, State.loadLane_of_scratch hg hscratch hplace]
      exact ⟨fun hgood => by rw [hgood]; rfl, fun hbad => by rw [hbad]; rfl⟩
    · refine ⟨hitBytes (s.buffered o.core o.asid.toNat o.gid o.id l.addr.toNat o.instr.accessBytes) x.data l.addr.toNat
        o.instr.accessBytes, ?_, hitBytes_length .., fun j b hb => ⟨hitBytes_of_not_covers hb,
          fun older p younger hbuf hyoung hlow hhigh => hitBytes_of_youngest hb hbuf ⟨hlow, hhigh⟩ hyoung⟩⟩
      rw [hserve]
      exact congrArg (fun t : State => Host.Outcome.next (t.fused s))
        (State.loadLane_of_hit (s := { s with lineTurns := turns }) hg hscratch hldv horder hl1 hx hgood hwrite)
    · have hgroup : (s.serve o l.addr).group? o.gid = some g := by rw [hserve]; exact hg
      rw [State.loadLane_of_got hgroup hscratch hgot hacq]
      exact ⟨fun hgood => by rw [hgood]; rfl, fun hbad => by rw [hbad]; rfl⟩
  · obtain ⟨hdone, hop', hg'⟩ := State.delivered (l := l) bs hop hg
    rw [hdone]
    obtain ⟨-, hops, g', hgroup, hframe, hpend⟩ := State.laneDone_last hop' hg' hlast
    exact ⟨g', hgroup, hops, hpend, (congrArg Group.vregs hframe :), (congrArg Group.sregs hframe :)⟩
  · obtain ⟨hdone, hop', hg'⟩ := State.delivered (l := l) bs hop hg
    rw [hdone]
    obtain ⟨hop'', hgroup⟩ := State.laneDone_more hop' hg' hmore
    refine ⟨_, _, hgroup, hop'', rfl, rfl, fun p hp hid => ?_, rfl, rfl⟩
    obtain ⟨q, -, rfl⟩ := List.mem_map.1 hp
    split_ifs at hid ⊢
    · exact .inl (laneIn_without ..)
    · contradiction

end

section
/-! # Stores apply (O32) -/

namespace Sys2Proof.Machine

/-! ## Bytes of a line -/

/-- The granules that a predicate picks from a list, as bits (R256). -/
theorem getLsbD_foldl_granules (p : Nat → Prop) [DecidablePred p] (l : List Nat) (m : BitVec 8) {k : Nat} (hk : k < 8) :
    (l.foldl (fun m g => if p g then m ||| ((1 : BitVec 8) <<< g) else m) m).getLsbD k = true ↔ m.getLsbD k = true ∨ k ∈ l ∧ p k := by
  induction l generalizing m with
  | nil => simp
  | cons g l ih =>
    rw [List.foldl_cons, ih]
    have hbit : ((1 : BitVec 8) <<< g).getLsbD k = true ↔ k = g := by
      rw [BitVec.getLsbD_shiftLeft]
      simp [hk]
      omega
    by_cases hg : p g
    · have hpick : k = g → p k := fun hk => hk ▸ hg
      rw [if_pos hg, BitVec.getLsbD_or, Bool.or_eq_true, hbit, List.mem_cons]
      tauto
    · have hskip : k = g → ¬p k := fun hk => hk ▸ hg
      rw [if_neg hg, List.mem_cons]
      tauto

/-- The granules of a line that bytes from an offset touch. -/
theorem getLsbD_putBytes_touched (data : LineData) (poison : BitVec 8) (k : Nat) (bs : List Byte) {j : Nat} (hj : j < 8) :
    (putBytes data poison k bs).2.1.getLsbD j = true ↔ k < 8 * j + 8 ∧ 8 * j < k + bs.length := by
  have hmem : j ∈ List.range 8 := List.mem_range.2 hj
  refine (getLsbD_foldl_granules (fun g => (k < 8 * g + 8 && 8 * g < k + bs.length) = true) (List.range 8) 0 hj).trans ?_
  simp [hmem]

/-! ## One lane of a store -/

theorem exec_storeApply {s : State} {id lane : Nat} {o : MemOp} {l : LaneReq} (hop : s.op? id = some o) (hlane : o.lane? lane = some l)
    (hstore : o.instr.isLaneStore = true) (hready : s.laneReady o l = true) (hturn : s.inTurn o l.addr = true) :
    exec (.storeApply id lane) s = .next (((s.serve o l.addr).storeLane o l).fused s) := by
  have htry : s.tryStore id lane = (s.serve o l.addr).storeLane o l := by simp [State.tryStore, hop, hlane, hstore, hready, hturn]
  exact congrArg (done s) htry

theorem State.storeLane_of_scratch {s : State} {o : MemOp} {l : LaneReq} {wid off : Nat} (hscratch : o.scratch = true)
    (hplace : s.place o l = some (wid + 1, off)) :
    s.storeLane o l = (s.scratchWrite wid off (l.bytes o.instr.accessBytes)).laneDone o.gid o.id l.lane := by
  simp [State.storeLane, hscratch, hplace]

section
variable {s : State} {o : MemOp} {l : LaneReq} {g : Group} (hg : s.group? o.gid = some g) (hscratch : o.scratch = false)
  (horder : o.instr.order < 2)
include hg hscratch horder

theorem State.storeLane_of_host {b : Nat} (hres : s.resolve o.asid.toNat l.addr.toNat .write = .ok (.host b)) :
    s.storeLane o l = (({ s with hostMem := s.hostMem.setBytes b (l.bytes o.instr.accessBytes) } : State).sendAck o (l.addr.toNat / 64) 0
      true).laneDone o.gid o.id l.lane := by
  simp [State.storeLane, hg, hscratch, Nat.not_le.2 horder, hres]

theorem State.storeLane_of_peer {p r b : Nat} (hres : s.resolve o.asid.toNat l.addr.toNat .write = .ok (.peer p r b)) :
    s.storeLane o l = (({ s with peerMem := s.peerMem.setBytes (p * 2 ^ 49 + r * 2 ^ 39 + b) (l.bytes o.instr.accessBytes) } :
      State).sendAck o (l.addr.toNat / 64) 0 true).laneDone o.gid o.id l.lane := by
  simp [State.storeLane, hg, hscratch, Nat.not_le.2 horder, hres]

/-- At a line that nothing but its home holds, on the die of the core (R236, R246, R247). -/
theorem State.storeLane_of_idle {home a v hpa : Nat} {tr : Trans} {h : HomeLine}
    (hres : s.resolve o.asid.toNat l.addr.toNat .write = .ok (.line home a v hpa tr)) (htrk : tr.trk = false) (hdie : dieOf o.core = home)
    (hh : s.home? a (v / 64) = some h) (hfree : h.taken = false) (hdir : h.dir = .i) :
    s.storeLane o l = (((s.putHome (h.written (v % 64) (l.bytes o.instr.accessBytes))).l1Update o.core o.asid.toNat l.addr.toNat
      (l.bytes o.instr.accessBytes)).sendAck o (l.addr.toNat / 64) (maxT (s.time home) h.lr) false).laneDone o.gid o.id l.lane := by
  simp only [State.storeLane, hg, hscratch, Nat.not_le.2 horder, hres, State.lineFree_of_idle hh hfree, State.fillHome_of_present hh,
    State.dirRecall_of_idle hh hdir, hh, State.homeApply_of_recalled hh, htrk, hdie, Option.isNone_some, decide_true, decide_false, Bool.true_or, Bool.not_true,
    Bool.false_and, Bool.or_false, Bool.false_eq_true, if_false, if_true]
  rfl

end

/-! ## What a store leaves -/

/-- The end of a lane changes groups, operations and the records of faults only. -/
theorem State.laneDone_frame (s : State) (gid id lane : Nat) :
    { s.laneDone gid id lane with groups := s.groups, ops := s.ops, funcs := s.funcs, hostMem := s.hostMem, vectors := s.vectors,
                                  travRuns := s.travRuns } = s :=
  State.eq_of_beyondOps (s.beyondOps_laneDone gid id lane)

/-- The last lane of a store, with its acknowledgement on the way. -/
theorem State.sendAck_laneDone {s : State} {o : MemOp} {l : LaneReq} {g : Group} (hop : s.op? o.id = some o)
    (hg : s.group? o.gid = some g) (hlanes : o.lanes = [l]) (line : Nat) (w : W64) (system : Bool) :
    let t := (s.sendAck o line w system).laneDone o.gid o.id l.lane
    { t with groups := s.groups, ops := s.ops, travRuns := s.travRuns, acks := s.acks, tick := s.tick } = s ∧
      t.acks = s.acks ++ [⟨s.tick, o.gid, o.id, o.core, o.asid.toNat, line, w, system⟩] := by
  obtain ⟨hframe, -⟩ := State.laneDone_last (s := s.sendAck o line w system) (lane := l.lane) hop hg (by simp [hlanes])
  exact ⟨congrArg (fun u : State => { u with acks := s.acks, tick := s.tick }) hframe, (congrArg State.acks hframe :)⟩

/-- A store to a scratchpad leaves its bytes there, every other byte as it was, and everything else but the bookkeeping. -/
theorem State.scratchWrite_laneDone {s : State} {wid : Nat} {w : Workgroup} (hw : s.wg? wid = some w) (off : Nat) (bs : List Byte)
    (gid id lane : Nat) :
    let t := (s.scratchWrite wid off bs).laneDone gid id lane
    (∃ w', t.wg? wid = some w' ∧ w'.scratch.bytes off bs.length = bs ∧
      ∀ a, a < off ∨ off + bs.length ≤ a → w'.scratch.get a = w.scratch.get a) ∧
    { t with groups := s.groups, wgs := s.wgs, ops := s.ops, funcs := s.funcs, hostMem := s.hostMem, vectors := s.vectors,
             badScratch := s.badScratch, travRuns := s.travRuns } = s := by
  intro t
  have hframe := (s.scratchWrite wid off bs).laneDone_frame gid id lane
  have hwg : (s.scratchWrite wid off bs).wg? wid = some { w with scratch := w.scratch.setBytes off bs, wid := wid } := by
    refine (s.wg_modWg wid _ wid).trans ?_
    rw [if_pos rfl, hw, Option.map_some]
  exact ⟨⟨_, (congrArg (State.wg? · wid) hframe :).trans hwg, Cells.bytes_setBytes w.scratch off bs,
    Cells.get_setBytes_outside bs w.scratch off⟩, congrArg (fun u : State => { u with wgs := s.wgs, badScratch := s.badScratch }) hframe⟩

/-- A store at its line's home leaves the line written, the core's L1 copy too, and an acknowledgement on the way. -/
theorem State.putHome_laneDone {s : State} {o : MemOp} {l : LaneReq} {g : Group} (hop : s.op? o.id = some o)
    (hg : s.group? o.gid = some g) (hlanes : o.lanes = [l]) (h : HomeLine) (bs : List Byte) (w : W64) :
    let t := (((s.putHome h).l1Update o.core o.asid.toNat l.addr.toNat bs).sendAck o (l.addr.toNat / 64) w false).laneDone o.gid o.id l.lane
    { t with groups := s.groups, ops := s.ops, travRuns := s.travRuns, acks := s.acks, tick := s.tick, home := s.home, l1 := s.l1 } = s ∧
      t.l1 = (s.l1Update o.core o.asid.toNat l.addr.toNat bs).l1 ∧
      (∀ a k, t.home? a k = if h.asid = a ∧ h.line = k then some h else s.home? a k) ∧
      t.acks = s.acks ++ [⟨s.tick, o.gid, o.id, o.core, o.asid.toNat, l.addr.toNat / 64, w, false⟩] := by
  intro t
  obtain ⟨hframe, hacks⟩ := State.sendAck_laneDone (s := (s.putHome h).l1Update o.core o.asid.toNat l.addr.toNat bs) hop hg hlanes
    (l.addr.toNat / 64) w false
  exact ⟨congrArg (fun u : State => { u with home := s.home, l1 := s.l1 }) hframe, (congrArg State.l1 hframe :),
    fun a k => (congrArg (State.home? · a k) hframe :).trans (s.home_putHome h a k), hacks⟩

/-- The granules that a write leaves dirty: those that were, and those that it touches. -/
theorem HomeLine.dirty_written (h : HomeLine) (k : Nat) (bs : List Byte) {j : Nat} (hj : j < 8) :
    (h.written k bs).dirty.getLsbD j = true ↔ h.dirty.getLsbD j = true ∨ (k < 8 * j + 8 ∧ 8 * j < k + bs.length) := by
  rw [← getLsbD_putBytes_touched h.data h.poison k bs hj, HomeLine.written, BitVec.getLsbD_or, Bool.or_eq_true]

/-! ## An acknowledgement -/

/-- An acknowledgement reaches its group and what is known of its core's stores (R164, R248). -/
theorem State.ackArrives_spec {s : State} {k : Ack} {g : Group} (hack : s.acks.find? (fun a => a.id == k.id) = some k)
    (hg : s.group? k.gid = some g) :
    let t := s.ackArrives k.id
    { t with acks := s.acks, ops := s.ops, coreW := s.coreW, groups := s.groups } = s ∧ t.acks = s.acks.filter (fun a => a.id != k.id) ∧
      t.coreWOf k.core k.asid = maxT k.w (s.coreWOf k.core k.asid) ∧ t.group? k.gid = some { g with ch := maxT g.ch k.w } := by
  intro t
  simp only [t, State.ackArrives, hack]
  refine ⟨rfl, rfl, ?_, ?_⟩
  · simp [State.coreWOf, State.modGroup]
  · exact State.group_mod_self hg rfl

end Sys2Proof.Machine

open Sys2Proof Sys2Proof.Machine

/-- What STORE_APPLY leaves in each kind of memory, and what STORE_ACK leaves. -/
theorem storesApply : Statements.StoresApply := by
  refine ⟨fun s id lane o l g hop hlane hg hstore hready hturn => ⟨_, exec_storeApply hop hlane hstore hready hturn, ?_⟩,
    fun s k g hack hg => ?_⟩
  · obtain rfl := State.op_key hop
    obtain ⟨turns, hserve⟩ := s.serve_eq o l.addr
    refine ⟨fun wid off w hscratch hplace hw => ?_, fun b hscratch horder hres hlanes => ?_, fun p r b hscratch horder hres hlanes => ?_,
      fun home a v hpa tr h hscratch horder hres htrk hdie hh hfree hdir hlanes => ?_⟩
    · rw [State.serve_of_scratch hscratch, State.storeLane_of_scratch hscratch hplace]
      obtain ⟨⟨w', hw', hin, hout⟩, hframe⟩ := State.scratchWrite_laneDone hw off (l.bytes o.instr.accessBytes) o.gid o.id l.lane
      rw [LaneReq.bytes, natBytes_length] at hin hout
      exact ⟨w', hw', hin, hout, congrArg (State.fused · s) hframe⟩
    · rw [hserve, State.storeLane_of_host (s := { s with lineTurns := turns }) hg hscratch horder hres]
      obtain ⟨hframe, hacks⟩ := State.sendAck_laneDone
        (s := { s with lineTurns := turns, hostMem := s.hostMem.setBytes b (l.bytes o.instr.accessBytes) }) hop hg hlanes
        (l.addr.toNat / 64) 0 true
      exact ⟨(congrArg State.hostMem hframe :), (congrArg State.hbm hframe :), (congrArg State.home hframe :), hacks⟩
    · rw [hserve, State.storeLane_of_peer (s := { s with lineTurns := turns }) hg hscratch horder hres]
      obtain ⟨hframe, hacks⟩ := State.sendAck_laneDone
        (s := { s with lineTurns := turns, peerMem := s.peerMem.setBytes (p * 2 ^ 49 + r * 2 ^ 39 + b) (l.bytes o.instr.accessBytes) })
        hop hg hlanes (l.addr.toNat / 64) 0 true
      exact ⟨(congrArg State.peerMem hframe :), (congrArg State.hostMem hframe :), (congrArg State.hbm hframe :),
        (congrArg State.home hframe :), hacks⟩
    · rw [hserve, State.storeLane_of_idle (s := { s with lineTurns := turns }) hg hscratch horder hres htrk hdie hh hfree hdir]
      obtain ⟨hframe, hl1, hhome, hacks⟩ := State.putHome_laneDone (s := { s with lineTurns := turns }) hop hg hlanes
        (h.written (v % 64) (l.bytes o.instr.accessBytes)) (l.bytes o.instr.accessBytes) (maxT (s.time home) h.lr)
      obtain ⟨rfl, hline⟩ := State.home_tag hh
      refine ⟨(congrArg State.hbm hframe :), (congrArg State.hostMem hframe :), (congrArg State.peerMem hframe :),
        (congrArg State.rdc hframe :), hl1, fun b k hne => (hhome b k).trans (if_neg ?_), _, (hhome h.asid (v / 64)).trans (if_pos ⟨rfl, hline⟩),
        rfl, fun k hk => ?_, hacks⟩
      · rintro ⟨rfl, rfl⟩
        exact hne ⟨rfl, hline⟩
      · have hdirty := h.dirty_written (v % 64) (l.bytes o.instr.accessBytes) hk
        rwa [LaneReq.bytes, natBytes_length] at hdirty
  · obtain ⟨hframe, hacks, hcore, hgroup⟩ := State.ackArrives_spec hack hg
    refine ⟨_, rfl, fun a => ?_, (congrArg State.hbm hframe.symm :), (congrArg State.home hframe.symm :), hcore, hgroup⟩
    refine (iff_of_eq (congrArg (a ∈ ·) hacks)).trans ?_
    simp

end

section

open Sys2Proof Sys2Proof.Machine

/-- Settles O32: what a load writes, what LOAD_RETURN reads and leaves, and where STORE_APPLY and STORE_ACK put bytes and times. -/
theorem loadsAndStoresPerform : Obligations.LoadsAndStoresPerform :=
  ⟨loadedValues, loadsReturn, storesApply⟩

end

section
/-! # Folds of collective elements (O48) -/

namespace Sys2Proof.Machine

/-- The signed integer of 32 bits that a number stands for. -/
theorem sext_eq_toInt (n : Nat) : sext 32 n = (BitVec.ofNat 32 n).toInt := by
  rw [sext, BitVec.toInt_eq_toNat_cond, BitVec.toNat_ofNat]
  exact if_congr (by omega) rfl rfl

/-- A number of 32 bits is itself modulo 2^32. -/
theorem intMod_cast_of_lt {n : Nat} (hn : n < 2 ^ 32) : intMod 32 (n : Int) = n := by
  have h := intMod_cast 32 n
  rw [Int.emod_eq_of_lt (by positivity) (by exact_mod_cast hn)] at h
  exact_mod_cast h

end Sys2Proof.Machine

open Sys2Proof Sys2Proof.Machine

/-- Settles O48: the fold over the members, integers through their values, and four bytes for each element. -/
theorem collectiveFolds : Obligations.CollectiveFolds := by
  refine ⟨fun e acc red i l ls => rfl, fun acc r x hr hx => ⟨?_, ?_, ?_, ?_, ?_⟩, fun acc n ls => ?_⟩
  · rintro e (rfl | rfl) <;> rfl
  · change intMod 32 (min ((r % 2 ^ 32 : Nat) : Int) ((x % 2 ^ 32 : Nat) : Int)) = min r x
    rw [Nat.mod_eq_of_lt hr, Nat.mod_eq_of_lt hx, ← Nat.cast_min]
    exact intMod_cast_of_lt (by omega)
  · change intMod 32 (max ((r % 2 ^ 32 : Nat) : Int) ((x % 2 ^ 32 : Nat) : Int)) = max r x
    rw [Nat.mod_eq_of_lt hr, Nat.mod_eq_of_lt hx, ← Nat.cast_max]
    exact intMod_cast_of_lt (by omega)
  · rw [← sext_eq_toInt, ← sext_eq_toInt]
    exact intMod_cast 32 _
  · rw [← sext_eq_toInt, ← sext_eq_toInt]
    exact intMod_cast 32 _
  · have hone (i : Nat) : (natBytes (collAccBytes 5 acc) (foldElem 5 acc 0 ls i)).length = 4 := natBytes_length ..
    simp [foldBytes, List.length_flatMap, hone, Nat.mul_comm]
end

section
/-! # IDLE (O30) -/

namespace Sys2Proof.Machine

/-- An IDLE of a token and limit is over: an event came after it, the handler's service, or its limit (R195). -/
theorem State.idleOver_iff {s : State} {g : Group} {y : Thread} {tok : Nat} {limit : Option W64} (hy : y.wait = .idle tok limit) :
    s.idleOver g y = true ↔
      tok < g.wakeTick ∨ (g.inh = true ∧ tok < g.serviceTick) ∨ ∃ e, limit = some e ∧ e ≤ s.time (s.groupDie g) := by
  unfold State.idleOver
  rw [hy]
  cases limit <;> simp [or_assoc]

/-- The thread of a lane after IDLE_WAKE. -/
def State.wokenThread (s : State) (g : Group) (y : Thread) : Thread := if s.idleOver g y then { y with wait := .none } else y

theorem State.idleWakes_of {s : State} {gid lane : Nat} {g : Group} (hg : s.group? gid = some g) :
    s.idleWakes gid lane = s.modGroup gid (fun x => x.modThreads (fun h => h = lane) (fun _ => s.wokenThread g)) := by
  unfold State.idleWakes
  rw [hg]
  rfl

end Sys2Proof.Machine

open Sys2Proof Sys2Proof.Machine

/-- Settles O30: the threads that IDLE blocks, and the one that IDLE_WAKE looks at. -/
theorem idleWaits : Obligations.IdleWaits := by
  refine ⟨fun x s c h => ?_, fun s gid lane tok limit g y hg hy hwait => ?_⟩
  · obtain ⟨rfl, -⟩ := State.issues_ctx h
    refine issueWord_of_active h ?_ (Ctx.completable_modGroup (t := { c.s with tick := c.s.tick + 1 }) h rfl rfl rfl rfl rfl)
    have hzero (v : W32) : v.setWidth 64 = (0 : W64) ↔ v = 0 := by
      rw [← BitVec.toNat_inj, ← BitVec.toNat_inj, BitVec.toNat_setWidth_of_le (by decide)]
      rfl
    simp only [idleIssue, hzero]
    rfl
  · refine ⟨_, _, s.wokenThread g y, congrArg (done s) (State.idleWakes_of hg), s.modGroup_onlyGroup _ _, State.group_mod_self hg rfl,
      ?_, ?_, ?_⟩
    · rw [Group.modThreads_getElem?, hy]
      simp
    · intro h hne
      rw [Group.modThreads_getElem?]
      simp [hne]
    · intro past
      have hover := State.idleOver_iff (s := s) (g := g) hwait
      exact ⟨fun hp => if_pos (hover.2 hp), fun hp => if_neg (mt hover.1 hp)⟩
end

section
/-! # The record that ends a workgroup (O26) -/

namespace Sys2Proof.Machine

/-! ## What records leave -/

/-- The state but for its functions, the host's memory and the vectors signalled. -/
def State.recordless (s : State) : State := { s with funcs := [], hostMem := [], vectors := [] }

@[simp] theorem State.recordless_update (s : State) {funcs hostMem vectors} :
    ({ s with funcs, hostMem, vectors } : State).recordless = s.recordless := (rfl)

@[simp] theorem State.recordless_modFunc (s : State) (k : Nat) (f : Func → Func) : (s.modFunc k f).recordless = s.recordless := rfl
@[simp] theorem State.recordless_signal (s : State) (fn v : Nat) : (s.signal fn v).recordless = s.recordless := rfl

theorem State.recordless_postOne (s : State) (fn : Nat) : (s.postOne fn).recordless = s.recordless := by
  unfold State.postOne
  (repeat' split) <;> simp

@[simp] theorem State.recordless_makeRecord (s : State) (fn : Nat) (r : FaultRec) (ref : Option FidRef) :
    (s.makeRecord fn r ref).1.recordless = s.recordless := by
  have hpost (s : State) : (s.postHeld fn).recordless = s.recordless := by
    unfold State.postHeld
    split
    · rfl
    · exact foldl_keeps State.recordless (fun s _ => s.recordless_postOne fn) ..
  unfold State.makeRecord
  split <;> simp [hpost]

/-! ## A record that is held or posted (R373) -/

/-- A record is the last that a function holds, or it has been posted last. -/
def State.recordOut (t : State) (f : Func) (r : FaultRec) : Prop :=
  f.heldRecs.getLast? = some r ∨ f.heldRecs = [] ∧
    t.hostMem.bytes (f.fqRing.toNat + 64 * ((f.fqPi - 1).toNat % 2 ^ f.fqLog)) 64 = r.bytes

theorem FaultRec.bytes_length (r : FaultRec) : r.bytes.length = 64 := by simp [FaultRec.bytes]

/-- A function whose first held record has been posted. -/
def Func.posted (f : Func) : Func := { f with fqPi := f.fqPi + 1, heldRecs := f.heldRecs.tail }

theorem State.func_signal (s : State) (fn v k : Nat) : (s.signal fn v).func? k = s.func? k := rfl

theorem State.func_hostMem (s : State) (m : Cells 8) (k : Nat) : ({ s with hostMem := m } : State).func? k = s.func? k := rfl

/-- Posting writes the first held record into the ring, if there is one and the ring has room. -/
theorem State.postOne_of {s : State} {fn : Nat} {f : Func} (hf : s.func? fn = some f) :
    s.postOne fn = s ∨ ∃ q rest, f.heldRecs = q :: rest ∧ (s.postOne fn).func? fn = some f.posted ∧
      (s.postOne fn).hostMem = s.hostMem.setBytes (f.fqRing.toNat + 64 * (f.fqPi.toNat % 2 ^ f.fqLog)) q.bytes := by
  unfold State.postOne
  rw [hf]
  dsimp only
  split
  next => exact .inl rfl
  next q rest hheld =>
    generalize hm : s.hostMem.setBytes (f.fqRing.toNat + 64 * (f.fqPi.toNat % 2 ^ f.fqLog)) q.bytes = m
    split_ifs
    · refine .inr ⟨q, rest, hheld, ?_, ?_⟩
      · rw [State.func_signal, State.func_modFunc, if_pos rfl, State.func_hostMem, hf, Option.map_some, ← State.func_key hf, Func.posted, hheld]
        rfl
      · exact hm.symm
    · exact .inl rfl

/-- Posting one record leaves the last one held, or posts it. -/
theorem State.postOne_recordOut {s : State} {fn : Nat} {f : Func} {r : FaultRec} (hf : s.func? fn = some f) (hr : s.recordOut f r) :
    ∃ f', (s.postOne fn).func? fn = some f' ∧ f'.nextFid = f.nextFid ∧ (s.postOne fn).recordOut f' r := by
  rcases State.postOne_of hf with hsame | ⟨q, rest, hheld, hposted, hmem⟩
  · rw [hsame]
    exact ⟨f, hf, rfl, hr⟩
  · refine ⟨f.posted, hposted, rfl, ?_⟩
    have hlast : (q :: rest).getLast? = some r := by
      rcases hr with hr | ⟨hnil, -⟩
      · rwa [hheld] at hr
      · rw [hheld] at hnil
        cases hnil
    cases rest with
    | nil =>
      obtain rfl : q = r := by simpa using hlast
      have hbytes := Cells.bytes_setBytes s.hostMem (f.fqRing.toNat + 64 * (f.fqPi.toNat % 2 ^ f.fqLog)) q.bytes
      rw [q.bytes_length] at hbytes
      refine .inr ⟨congrArg List.tail hheld, ?_⟩
      rw [hmem, show f.posted.fqPi - 1 = f.fqPi from BitVec.add_sub_cancel ..]
      exact hbytes
    | cons p rest => exact .inl ((congrArg (·.tail.getLast?) hheld).trans (by simpa using hlast))

/-- A function with one more record held, under the next FID. -/
def Func.recorded (f : Func) (fid : W32) (r : FaultRec) (ref : Option FidRef) : Func :=
  { f with
    nextFid := fid + 1
    heldRecs := f.heldRecs ++ [{ r with fid := fid }]
    openFids := match ref with
      | some x => f.openFids ++ [(fid, x)]
      | none => f.openFids }

/-- A record made for a function is held or posted, with the next FID. -/
theorem State.makeRecord_recordOut {s : State} {fn : Nat} {f : Func} (hf : s.func? fn = some f) (r : FaultRec) (ref : Option FidRef) :
    ∃ f', (s.makeRecord fn r ref).1.func? fn = some f' ∧ f'.nextFid = f.nextFid + 1 ∧
      (s.makeRecord fn r ref).1.recordOut f' { r with fid := f.nextFid } := by
  have hpost (l : List FaultRec) : ∀ (u : State) (f' : Func), u.func? fn = some f' → u.recordOut f' { r with fid := f.nextFid } →
      ∃ f'', (l.foldl (fun s _ => s.postOne fn) u).func? fn = some f'' ∧ f''.nextFid = f'.nextFid ∧
        (l.foldl (fun s _ => s.postOne fn) u).recordOut f'' { r with fid := f.nextFid } := by
    induction l with
    | nil => exact fun u f' hu hout => ⟨f', hu, rfl, hout⟩
    | cons q l ih =>
      intro u f' hu hout
      obtain ⟨f'', hu', hnext, hout'⟩ := State.postOne_recordOut hu hout
      obtain ⟨g, hg, hgnext, hgout⟩ := ih _ f'' hu' hout'
      exact ⟨g, hg, hgnext.trans hnext, hgout⟩
  have hmade : (s.modFunc fn (fun g => g.recorded f.nextFid r ref)).func? fn = some (f.recorded f.nextFid r ref) := by
    rw [State.func_modFunc, if_pos rfl, hf, Option.map_some, ← State.func_key hf]
    rfl
  have hmake : (s.makeRecord fn r ref).1 = (s.modFunc fn (fun g => g.recorded f.nextFid r ref)).postHeld fn := by
    unfold State.makeRecord
    rw [hf]
    rfl
  rw [hmake, State.postHeld, hmade]
  exact hpost _ _ _ hmade (.inl (by simp [Func.recorded]))

/-! ## A workgroup that has ended (R195, R426) -/

/-- The operations once the logged lanes of one have been dropped. -/
theorem State.ops_dropLogged (s : State) (vf : Nat) (o : MemOp) : (s.dropLogged vf o).ops =
    if o.lanes.filter (fun l => !l.isLogged) = [] then s.ops.filter (fun x => x.id != o.id)
    else s.ops.map (fun x => if x.id = o.id then { x with lanes := o.lanes.filter (fun l => !l.isLogged), fid := none, log := .raised }
      else x) := by
  have hpend : ((o.lanes.filter LaneReq.isLogged).foldl (fun s l => s.clearPendLane o.gid o.id l.lane) s).ops = s.ops :=
    foldl_keeps State.ops (fun s l => s.modGroup_ops ..) ..
  rw [← hpend]
  unfold State.dropLogged
  cases o.fid <;> rfl

/-- An operation that is logged after a drop is another one. -/
theorem State.mem_dropLogged {s : State} {vf : Nat} {o p : MemOp} (hp : p ∈ (s.dropLogged vf o).ops) (hlog : p.isLogged = true) :
    p ∈ s.ops ∧ p.id ≠ o.id := by
  rw [State.ops_dropLogged] at hp
  split_ifs at hp
  · simpa using hp
  · obtain ⟨x, hx, rfl⟩ := List.mem_map.1 hp
    split_ifs at hlog ⊢ with hid
    · simp [MemOp.isLogged, List.any_filter] at hlog
    · exact ⟨hx, hid⟩

theorem State.mem_foldl_dropLogged {vf : Nat} {p : MemOp} (l : List MemOp) (s : State)
    (hp : p ∈ (l.foldl (fun s o => s.dropLogged vf o) s).ops) (hlog : p.isLogged = true) : p ∈ s.ops ∧ ∀ o ∈ l, p.id ≠ o.id := by
  induction l generalizing s with
  | nil => exact ⟨hp, fun o ho => by cases ho⟩
  | cons o l ih =>
    obtain ⟨hmem, hrest⟩ := ih _ hp
    obtain ⟨hmem, hne⟩ := State.mem_dropLogged hmem hlog
    exact ⟨hmem, List.forall_mem_cons.2 ⟨hne, hrest⟩⟩

/-- A group of a workgroup that has ended issues nothing more. -/
def Group.ended (g : Group) (wid : Nat) : Group := if g.wid = wid then { g with stopped := true, traps := [] } else g

/-- The identifiers of a workgroup's groups. -/
def State.gidsOf (s : State) (wid : Nat) : List Nat := (s.groups.filter (fun x => x.wid == wid)).map (·.gid)

/-- A workgroup's groups have stopped, and its logged operations are dropped. -/
def State.silenced (s : State) (wid vf : Nat) : State :=
  (s.ops.filter (fun o => (s.gidsOf wid).contains o.gid && o.isLogged)).foldl (fun s o => s.dropLogged vf o)
    { s with groups := s.groups.map (fun x => x.ended wid) }

/-- A record is not of a fetch fault of one of these groups. -/
def FidRef.beyond (r : FidRef) (gids : List Nat) : Bool :=
  match r with
  | .fetch gid _ _ => !gids.contains gid
  | _ => true

/-- A function with those records closed. -/
def Func.unfetched (f : Func) (gids : List Nat) : Func := { f with openFids := f.openFids.filter (fun e => e.2.beyond gids) }

/-- Besides, its fetch records are closed, its formed issue groups dissolve, and it has ended with task status 1. -/
def State.ending (s : State) (w : Workgroup) (la : Launch) : State :=
  ((((s.gidsOf w.wid).foldl (fun s gid => s.dissolve gid) ((s.silenced w.wid la.vf).modFunc la.vf
    (fun f => f.unfetched (s.gidsOf w.wid)))).modWg w.wid
      (fun w => { w with ended := true })).modLaunch la.lid (fun l => { l with status := 1 }))

/-- The record of the end. -/
def State.endRecord (s : State) (g : Group) (la : Launch) (cause : Nat) (epc : W64) (code : W32) : FaultRec :=
  { s.recordFor g la cause 5 epc with tag := code }

theorem State.endWorkgroup_of {s : State} {g : Group} {w : Workgroup} {la : Launch} (hw : s.wg? g.wid = some w)
    (hla : s.launch? w.lid = some la) (cause : Nat) (epc : W64) (code : W32) :
    s.endWorkgroup g cause epc code =
      ((s.ending w la).makeRecord la.vf ((s.ending w la).endRecord g la cause epc code) none).1 := by
  unfold State.endWorkgroup
  simp only [hw, hla]
  rfl

/-- The next FID of each function. -/
def State.fids (s : State) : List (Nat × W32) := s.funcs.map (fun f => (f.fn, f.nextFid))

theorem State.nextFid_of_fids {s t : State} (h : t.fids = s.fids) {k : Nat} {f : Func} (hf : s.func? k = some f) :
    ∃ f', t.func? k = some f' ∧ f'.nextFid = f.nextFid := by
  have hfind (u : State) : (u.func? k).map (fun f => (f.fn, f.nextFid)) = u.fids.find? (fun p => p.1 == k) := by
    rw [State.fids, List.find?_map]
    rfl
  have hmap := (hfind t).trans ((congrArg (List.find? _) h).trans (hfind s).symm)
  rw [hf, Option.map_some, Option.map_eq_some_iff] at hmap
  obtain ⟨f', hf', heq⟩ := hmap
  exact ⟨f', hf', congrArg Prod.snd heq⟩

theorem State.fids_modFunc {f : Func → Func} (hf : ∀ x, (f x).nextFid = x.nextFid) (s : State) (k : Nat) :
    (s.modFunc k f).fids = s.fids := by
  simp only [State.fids, State.modFunc, List.map_map]
  refine List.map_congr_left fun x _ => ?_
  simp only [Function.comp]
  split_ifs with hk
  · rw [hf, hk]
  · rfl

theorem State.fids_closeFid (s : State) (vf : Nat) (fid : W32) : (s.closeFid vf fid).fids = s.fids :=
  State.fids_modFunc (f := fun f => { f with openFids := f.openFids.filter (fun e => e.1 != fid) }) (fun _ => rfl) ..

theorem State.fids_dropLogged (s : State) (vf : Nat) (o : MemOp) : (s.dropLogged vf o).fids = s.fids := by
  have hpend : ((o.lanes.filter LaneReq.isLogged).foldl (fun s l => s.clearPendLane o.gid o.id l.lane) s).fids = s.fids :=
    foldl_keeps State.fids (fun s l => congrArg (List.map _) (s.modGroup_funcs ..)) ..
  rw [← hpend]
  unfold State.dropLogged
  cases o.fid
  · rfl
  · exact State.fids_closeFid ..

/-- The groups that have stopped, but for their waits and marks. -/
theorem State.bareGroups_silenced (s : State) (wid vf : Nat) :
    (s.silenced wid vf).bareGroups = (s.groups.map (fun x => x.ended wid)).map Group.bare :=
  foldl_keeps State.bareGroups (fun s o => s.bareGroups_dropLogged vf o) ..

theorem State.beyondOps_silenced (s : State) (wid vf : Nat) : (s.silenced wid vf).beyondOps = s.beyondOps :=
  foldl_keeps State.beyondOps (fun s o => s.beyondOps_dropLogged vf o) ..

theorem State.fids_silenced (s : State) (wid vf : Nat) : (s.silenced wid vf).fids = s.fids :=
  foldl_keeps State.fids (fun s o => s.fids_dropLogged vf o) ..

/-- No operation of a silenced workgroup is logged. -/
theorem State.not_logged_silenced {s : State} {wid vf : Nat} {o : MemOp} {g : Group} (ho : o ∈ (s.silenced wid vf).ops) (hg : g ∈ s.groups)
    (hwid : g.wid = wid) (hgid : g.gid = o.gid) : o.isLogged = false := by
  by_contra hlog
  rw [Bool.not_eq_false] at hlog
  obtain ⟨hmem, hne⟩ := State.mem_foldl_dropLogged _ _ ho hlog
  have hgids : o.gid ∈ s.gidsOf wid := List.mem_map.2 ⟨g, List.mem_filter.2 ⟨hg, by simpa using hwid⟩, hgid⟩
  exact hne o (List.mem_filter.2 ⟨hmem, by simp [hgids, hlog]⟩) rfl

/-- The formed issue groups that dissolve are all that changes besides the marks of the end. -/
theorem State.ending_fields (s : State) (w : Workgroup) (la : Launch) :
    (s.ending w la).groups = (s.silenced w.wid la.vf).groups ∧ (s.ending w la).ops = (s.silenced w.wid la.vf).ops ∧
      (s.ending w la).fids = (s.silenced w.wid la.vf).fids ∧
      (s.ending w la).wg? w.wid = (s.wg? w.wid).map (fun x => { x with ended := true, wid := w.wid }) ∧
      (s.ending w la).launch? la.lid = (s.launch? la.lid).map (fun x => { x with status := 1, lid := la.lid }) := by
  have hbeyond := s.beyondOps_silenced w.wid la.vf
  have hdissolve := foldl_keeps (fun u : State => { u with formed := [] }) (fun u gid => rfl) (f := fun s gid => s.dissolve gid)
    (s.gidsOf w.wid) ((s.silenced w.wid la.vf).modFunc la.vf (fun f => f.unfetched (s.gidsOf w.wid)))
  refine ⟨(congrArg State.groups hdissolve :), (congrArg State.ops hdissolve :),
    (congrArg State.fids hdissolve :).trans (State.fids_modFunc (f := fun f => f.unfetched _) (fun _ => rfl) ..), ?_, ?_⟩
  · refine (State.wg_modWg _ _ _ _).trans ?_
    rw [if_pos rfl]
    refine congrArg (Option.map _) ?_
    exact (congrArg (fun u : State => u.wg? w.wid) hdissolve :).trans (congrArg (fun u : State => u.wg? w.wid) hbeyond :)
  · refine (State.launch_modLaunch _ _ _ _).trans ?_
    rw [if_pos rfl]
    refine congrArg (Option.map _) ?_
    exact (congrArg (fun u : State => u.launch? la.lid) hdissolve :).trans (congrArg (fun u : State => u.launch? la.lid) hbeyond :)

/-- A workgroup that is made to end has ended. -/
theorem State.endWorkgroup_ends {s : State} {g : Group} {w : Workgroup} {la : Launch} (hw : s.wg? g.wid = some w)
    (hla : s.launch? w.lid = some la) (cause : Nat) (epc : W64) (code : W32) :
    s.workgroupEnds (s.endWorkgroup g cause epc code) w la cause epc code := by
  obtain ⟨hgroups, hops, hfids, hwg, hlaunch⟩ := s.ending_fields w la
  rw [State.endWorkgroup_of hw hla]
  generalize hr : (s.ending w la).endRecord g la cause epc code = r
  have hrecord := State.recordless_makeRecord (s.ending w la) la.vf r none
  rw [← State.wg_key hw] at hw
  rw [← State.launch_key hla] at hla
  rw [hw] at hwg
  rw [hla] at hlaunch
  refine ⟨fun x hx hwid => ?_, fun o ho ⟨x, hx, hwid, hgid⟩ => ?_, ?_, ?_, fun f hf => ?_⟩
  · have hx : x ∈ (s.silenced w.wid la.vf).groups := hgroups ▸ (congrArg State.groups hrecord :) ▸ hx
    have hbare := List.mem_map_of_mem (f := Group.bare) hx
    rw [show List.map _ _ = _ from s.bareGroups_silenced w.wid la.vf, List.map_map] at hbare
    obtain ⟨y, -, hy⟩ := List.mem_map.1 hbare
    have hwy : (y.ended w.wid).wid = x.wid := (congrArg Group.wid hy :)
    have hsy : (y.ended w.wid).stopped = x.stopped := (congrArg Group.stopped hy :)
    rw [← hsy]
    by_cases hy : y.wid = w.wid
    · rw [Group.ended, if_pos hy]
    · rw [Group.ended, if_neg hy] at hwy
      exact absurd (hwy.trans hwid) hy
  · have ho : o ∈ (s.silenced w.wid la.vf).ops := hops ▸ (congrArg State.ops hrecord :) ▸ ho
    exact State.not_logged_silenced ho hx hwid hgid
  · exact ⟨_, (congrArg (fun u : State => u.wg? w.wid) hrecord :).trans hwg, rfl⟩
  · exact ⟨_, (congrArg (fun u : State => u.launch? la.lid) hrecord :).trans hlaunch, rfl⟩
  · obtain ⟨f1, hf1, hnext⟩ := State.nextFid_of_fids (hfids.trans (s.fids_silenced w.wid la.vf)) hf
    obtain ⟨f2, hf2, hnext2, hout⟩ := State.makeRecord_recordOut hf1 r none
    rw [hnext] at hnext2 hout
    subst hr
    exact ⟨f2, _, hf2, hnext2, rfl, rfl, rfl, rfl, rfl, rfl, rfl, rfl, hout⟩

/-- What ends does not depend on what the start holds besides groups and functions. -/
theorem State.workgroupEnds_of_start {s u t : State} {w : Workgroup} {la : Launch} {cause : Nat} {epc : W64} {code : W32}
    (hgroups : u.groups = s.groups) (hfuncs : u.funcs = s.funcs) (h : u.workgroupEnds t w la cause epc code) :
    s.workgroupEnds t w la cause epc code := by
  have hfunc (k : Nat) : s.func? k = u.func? k := congrArg (List.find? _) hfuncs.symm
  simp only [State.workgroupEnds, hfunc, ← hgroups]
  exact h

/-- A workgroup that has ended stays so when a group moves on. -/
theorem State.workgroupEnds_modGroup {s t : State} {w : Workgroup} {la : Launch} {cause : Nat} {epc : W64} {code : W32} {k : Nat}
    {f : Group → Group} (hf : ∀ g, (f g).wid = g.wid ∧ (f g).stopped = g.stopped) (h : s.workgroupEnds t w la cause epc code) :
    s.workgroupEnds (t.modGroup k f) w la cause epc code := by
  obtain ⟨hgroups, hrest⟩ := h
  refine ⟨fun g hg hwid => ?_, hrest⟩
  obtain ⟨x, hx, rfl⟩ := List.mem_map.1 hg
  have hx := hgroups x hx
  split_ifs at hwid ⊢
  · exact (hf x).2.trans (hx ((hf x).1.symm.trans hwid))
  · exact hx hwid

/-- A trap that its group cannot take ends the workgroup (R426). -/
theorem State.takeTrap_ends {s : State} {gid : Nat} {t : TrapInfo} {g : Group} {w : Workgroup} {la : Launch}
    (hg : s.group? gid = some g) (hw : s.wg? g.wid = some w) (hla : s.launch? w.lid = some la) (hend : g.inh = true ∨ la.record.tvec = 0) :
    s.workgroupEnds (s.takeTrap gid t) w la t.cause (t.raiser.getD t.epc) 0 := by
  have htake : s.takeTrap gid t = (if t.cause = 0x14 then (s.dissolve gid).machineRecord else s.dissolve gid).endWorkgroup g t.cause
      (t.raiser.getD t.epc) 0 := by
    unfold State.takeTrap
    simp only [hg, hw, hla, Option.bind_some]
    exact if_pos (by simpa using hend)
  rw [htake]
  split_ifs
  · exact State.workgroupEnds_of_start (u := (s.dissolve gid).machineRecord) rfl rfl
      (State.endWorkgroup_ends (s := (s.dissolve gid).machineRecord) hw hla ..)
  · exact State.workgroupEnds_of_start (u := s.dissolve gid) rfl rfl (State.endWorkgroup_ends (s := s.dissolve gid) hw hla ..)

/-- The workgroup and the launch of a word that issues. -/
theorem State.issues_units {s : State} {i : Instr} {c : Ctx} (h : s.issues i = some c) :
    s.wg? c.g.wid = some c.w ∧ s.launch? c.w.lid = some c.la := by
  obtain ⟨-, hc, -⟩ := State.issues_iff h
  generalize c.part = p at hc
  simp only [mkCtx, Option.bind_eq_bind, Option.bind_eq_some_iff] at hc
  obtain ⟨g, -, w, hw, la, hla, co, -, vd, -, sh, -, ⟨op, f⟩, -, hc⟩ := hc
  cases hc
  exact ⟨hw, hla⟩

/-- The group of an identifier when every group of the list has changed. -/
theorem find_mapGroups {f : Group → Group} (hf : ∀ g, (f g).gid = g.gid) (l : List Group) (k : Nat) :
    (l.map f).find? (fun g => g.gid == k) = (l.find? (fun g => g.gid == k)).map f := by
  rw [List.find?_map, show (fun g : Group => g.gid == k) ∘ f = fun g => g.gid == k from funext fun g => by simp [hf]]

/-- The end of a workgroup leaves the single steps of its groups. -/
theorem State.stepPath_endWorkgroup {s : State} {g : Group} {w : Workgroup} {la : Launch} (hw : s.wg? g.wid = some w)
    (hla : s.launch? w.lid = some la) (cause : Nat) (epc : W64) (code : W32) (k : Nat) :
    ((s.endWorkgroup g cause epc code).group? k).map Group.stepPath = (s.group? k).map Group.stepPath := by
  obtain ⟨hgroups, -⟩ := s.ending_fields w la
  have hrecord := State.recordless_makeRecord (s.ending w la) la.vf ((s.ending w la).endRecord g la cause epc code) none
  have hsame : (s.endWorkgroup g cause epc code).groups = (s.silenced w.wid la.vf).groups := by
    rw [State.endWorkgroup_of hw hla, ← hgroups]
    exact (congrArg State.groups hrecord :)
  have hbare := State.group_bare (s := { s with groups := s.groups.map (fun x => x.ended w.wid) }) (t := s.endWorkgroup g cause epc code)
    ((congrArg (List.map Group.bare) hsame).trans (s.bareGroups_silenced w.wid la.vf)) k
  have hended := find_mapGroups (f := fun x => x.ended w.wid) (fun x => by unfold Group.ended; split_ifs <;> rfl) s.groups k
  have hbare := hbare.trans (congrArg (Option.map Group.bare) hended)
  have hstep := congrArg (Option.map Group.stepPath) hbare
  rw [Option.map_map, Option.map_map, Option.map_map] at hstep
  refine hstep.trans (congrArg (Option.map · _) (funext fun x => ?_))
  simp only [Function.comp, Group.ended]
  split_ifs <;> rfl

end Sys2Proof.Machine

open Sys2Proof Sys2Proof.Machine

/-- Settles O26: a trap that cannot be taken and HALT above group level both end the workgroup; HALT below it is privileged. -/
theorem workgroupEndings : Obligations.WorkgroupEndings := by
  refine ⟨fun s t g w la hg hw hla hend => State.takeTrap_ends hg hw hla hend, fun x s c h => ⟨fun hact => ?_, fun hact hlvl => ?_,
    fun hact hlvl => ?_⟩⟩
  · exact issueWord_of_idle h (if_pos hact)
  · exact issueWord_of_error h ((if_neg hact).trans (if_pos hlvl))
  · obtain ⟨rfl, -⟩ := State.issues_ctx h
    obtain ⟨hw, hla⟩ := State.issues_units h
    refine ⟨_, issueWord_of_effect h ((if_neg hact).trans (if_neg hlvl)) rfl (State.stepPath_endWorkgroup hw hla ..), ?_⟩
    exact State.workgroupEnds_modGroup (fun _ => ⟨rfl, rfl⟩) (State.endWorkgroup_ends hw hla ..)

end

section
/-! # ERET (O28) -/

namespace Sys2Proof.Machine

/-! ## Instructions of the whole group (R212) -/

/-- A thread that is not active makes a partial issue, and the trap names such threads. -/
theorem Ctx.partialIssue_of_idle {c : Ctx} (hidle : ∃ h, h ∈ c.g.live ∧ h ∉ c.act) :
    ∃ m, c.partialIssue = some (c.trap 0x0C 0 m) ∧ ∀ h, h < 64 → (m.getLsbD h = true ↔ h ∈ c.g.live ∧ h ∉ c.act) := by
  have hmiss (h : Nat) : h ∈ c.g.live.filter (fun h => !c.act.contains h) ↔ h ∈ c.g.live ∧ h ∉ c.act := by simp
  obtain ⟨k, hk⟩ := hidle
  refine ⟨_, if_neg (List.ne_nil_of_mem ((hmiss k).2 hk)), fun h hh => ?_⟩
  rw [← hmiss]
  exact getLsbD_maskOf _ hh

theorem Ctx.partialIssue_eq_none {c : Ctx} (hall : ∀ h ∈ c.g.live, h ∈ c.act) : c.partialIssue = none :=
  if_pos (List.filter_eq_nil_iff.2 fun h hh => by simpa using hall h hh)

/-- A word that sets the program counters of its group itself is the last of its issue (R425). -/
theorem issueWord_of_keep {s : State} {i : Instr} {c : Ctx} {sem : Ctx → Except TrapInfo Res} {r : Res} (h : s.issues i = some c)
    (hsem : sem c = .ok r) (hkeep : r.keep = true) : done s (issueWord i sem s) = .next ((r.s.dropPart c.g.gid).fused s) := by
  rw [issueWord_of sem h, hsem, done_eq]
  simp only [Ctx.finish, hkeep, if_true]

/-! ## The group as ERET leaves it (R425) -/

/-- A thread that waits for a landing slot issues its MIGRATE again. -/
def Thread.awaitsSlot (f : Thread) : Bool :=
  match f.wait with
  | .migrate _ _ (some _) => true
  | _ => false

theorem Thread.awaitsSlot_iff (f : Thread) : f.awaitsSlot = true ↔ ∃ a b q, f.wait = .migrate a b (some q) := by
  unfold Thread.awaitsSlot
  split
  next hwait => simp [hwait]
  next hno => exact iff_of_false Bool.false_ne_true fun ⟨a, b, q, hwait⟩ => hno a b q hwait

theorem Thread.restore_exited {t : Thread} (f : Thread) (pc : W64) (h : t.exited = true) : t.restore f pc = t := by
  simp [Thread.restore, h]

/-- A thread goes on as its frame says, with the predicates, flags and keys that the handler left. -/
theorem Thread.restore_live {t : Thread} (f : Thread) (pc : W64) (h : t.exited = false) : t.restore f pc = { f with
    pc := if f.awaitsSlot then prevPc pc else pc
    wait := if f.awaitsSlot then .none else f.wait
    preds := t.preds, fpstat := t.fpstat, key0 := t.key0, key1 := t.key1, lastIssue := t.lastIssue } := by
  unfold Thread.restore
  rw [if_neg (by simp [h])]
  rfl

/-- Where a thread of the group goes on: a precise trap's path at EPC, others where they stood. -/
def Group.resumePc (g : Group) (fr : TrapFrame) (h : Nat) (f : Thread) : W64 :=
  if g.deferred = false ∧ laneIn fr.path h = true then g.epc else f.pc

/-- The thread of a lane after ERET: as its frame has it, but for how it came to its counter. -/
theorem Group.leaveTrap_thread {g : Group} {fr : TrapFrame} {h : Nat} {t f : Thread} (ht : g.threads[h]? = some t)
    (hf : fr.threads[h]? = some f) :
    ∃ a, (g.leaveTrap fr).threads[h]? = some { t.restore f (g.resumePc fr h f) with arrival := a } := by
  rw [show (g.leaveTrap fr).threads[h]? = _ from List.getElem?_mapIdx, ht, Option.map_some]
  simp only [hf]
  by_cases hpath : g.deferred = false ∧ laneIn fr.path h = true
  · rw [if_pos (by simp [hpath]), Group.resumePc, if_pos hpath]
    exact ⟨_, rfl⟩
  · rw [if_neg (by simpa [and_comm] using hpath), Group.resumePc, if_neg hpath]
    exact ⟨_, rfl⟩

/-- The state in which the entry that OPLOG names has been freed (R194). -/
def Ctx.entryFreed (c : Ctx) : State :=
  match c.s.ops.find? (fun o => o.gid == c.g.gid && o.isLogged && o.entry == c.g.oplogTent.toNat) with
  | some o => if c.g.oplogTv then c.s.dropLogged c.la.vf o else c.s
  | none => c.s

theorem Ctx.bareGroups_entryFreed (c : Ctx) : c.entryFreed.bareGroups = c.s.bareGroups := by
  unfold Ctx.entryFreed
  split
  · split_ifs
    · exact State.bareGroups_dropLogged ..
    · rfl
  · rfl

/-- ERET in a handler whose frame is there. -/
theorem eretIssue_of {c : Ctx} {fr : TrapFrame} (hfr : c.g.frame = some fr) (hinh : c.g.inh = true) :
    eretIssue c = match c.partialIssue with
      | some t => .error t
      | none => if c.g.deferred = false ∧ (slotOf c.g.epc = none ∨ 2 ^ 57 ≤ c.g.epc.toNat) then
          .ok { s := c.s.endWorkgroup c.g 0x05 c.pc 0, keep := true }
        else .ok { s := c.entryFreed.modGroup c.g.gid (fun g => g.leaveTrap fr), keep := true } := by
  unfold eretIssue
  simp only [hfr, hinh, Bool.not_true, Bool.false_eq_true, if_false]
  cases c.partialIssue with
  | some t => rfl
  | none => exact if_congr (by simp [beyond57]) rfl rfl

/-- The group of a word that issues, in a state whose groups differ in waits and marks only. -/
theorem State.group_of_bareGroups {s u : State} {k : Nat} {g : Group} (hbare : u.bareGroups = s.bareGroups) (hg : s.group? k = some g) :
    ∃ g', u.group? k = some g' ∧ g'.bare = g.bare := by
  have hmap := State.group_bare hbare k
  rw [hg, Option.map_some, Option.map_eq_some_iff] at hmap
  exact hmap

end Sys2Proof.Machine
open Sys2Proof Sys2Proof.Machine

/-- Settles O28: ERET traps, ends the workgroup, or sets each thread from its frame. -/
theorem returnFromHandler : Obligations.ReturnFromHandler := by
  intro x s c h
  obtain ⟨rfl, -⟩ := State.issues_ctx h
  obtain ⟨hw, hla⟩ := State.issues_units h
  refine ⟨fun hinh => issueWord_of_error h ?_, fun fr hinh hfr => ?_⟩
  · unfold eretIssue
    split
    · rfl
    · exact if_pos (by simp [hinh])
  have hsem := eretIssue_of hfr hinh
  refine ⟨fun hidle => ?_, fun hall hbad => ?_, fun hall hgood => ?_⟩
  · obtain ⟨m, hm, hmask⟩ := Ctx.partialIssue_of_idle hidle
    rw [hm] at hsem
    exact ⟨m, issueWord_of_error h hsem, hmask⟩
  · rw [Ctx.partialIssue_eq_none fun h hl => not_not.1 fun ha => hall h ⟨hl, ha⟩] at hsem
    exact ⟨_, issueWord_of_keep h (hsem.trans (if_pos hbad)) rfl, State.endWorkgroup_ends hw hla ..⟩
  · rw [Ctx.partialIssue_eq_none fun h hl => not_not.1 fun ha => hall h ⟨hl, ha⟩] at hsem
    obtain ⟨g, hg, hbare⟩ := State.group_of_bareGroups c.bareGroups_entryFreed (State.issues_group h)
    have hdeferred : g.deferred = c.g.deferred := (congrArg Group.deferred hbare :)
    have hepc : g.epc = c.g.epc := (congrArg Group.epc hbare :)
    have hflag : g.stepFlag = c.g.stepFlag := (congrArg Group.stepFlag hbare :)
    refine ⟨_, g.leaveTrap fr, issueWord_of_keep h (hsem.trans (if_neg hgood)) rfl, State.group_mod_self hg rfl, rfl, rfl,
      (congrArg Group.blv hbare :), rfl, (congrArg Group.vregs hbare :), (congrArg Group.sregs hbare :), ?_, hflag, ?_⟩
    · rw [← hdeferred, ← hflag]
      exact congrArg (fr.step ||| ·) (if_congr (by simp) rfl rfl)
    · intro k y f z hy hf hz
      have hth := Group.thread_bare hbare k
      rw [hy, Option.map_some, Option.map_eq_some_iff] at hth
      obtain ⟨t, ht, hty⟩ := hth
      have hexited : t.exited = y.exited := (congrArg Thread.exited hty :)
      obtain ⟨a, ha⟩ := Group.leaveTrap_thread ht hf
      obtain rfl := Option.some.inj (ha.symm.trans hz)
      refine ⟨fun he => ?_, fun he => ?_⟩
      · rw [Thread.restore_exited f _ (hexited.trans he)]
        exact ⟨hexited.trans he, (congrArg Thread.pc hty :)⟩
      · rw [Thread.restore_live f _ (hexited.trans he), Group.resumePc, hdeferred, hepc, ← f.awaitsSlot_iff]
        refine ⟨rfl, rfl, rfl, rfl, rfl, rfl, (congrArg Thread.preds hty :), (congrArg Thread.fpstat hty :), (congrArg Thread.key0 hty :),
          (congrArg Thread.key1 hty :), fun hno => ⟨if_neg hno, if_neg hno⟩, fun hyes => ⟨if_pos hyes, if_pos hyes⟩⟩

end

section
/-! # The operand log's instructions (O29) -/

namespace Sys2Proof.Machine

/-! ## Logged lanes that are dropped (R194) -/

/-- Groups, operations and functions are all that a drop changes. -/
theorem State.dropLogged_frame (s : State) (vf : Nat) (o : MemOp) :
    { s.dropLogged vf o with groups := s.groups, ops := s.ops, funcs := s.funcs } = s := by
  have hpend := foldl_keeps (fun u : State => { u with groups := [] }) (fun u l => rfl)
    (f := fun s (l : LaneReq) => s.clearPendLane o.gid o.id l.lane) (o.lanes.filter LaneReq.isLogged) s
  unfold State.dropLogged
  cases o.fid <;> exact congrArg (fun u : State => { u with groups := s.groups, ops := s.ops, funcs := s.funcs }) hpend

/-- The pending marks of some lanes of an operation are cleared in its group. -/
theorem State.clearPendLanes_group {s : State} {gid : Nat} {g : Group} (hg : s.group? gid = some g) (id : Nat) (ls : List LaneReq) :
    ∃ g', (ls.foldl (fun s l => s.clearPendLane gid id l.lane) s).group? gid = some g' ∧ { g' with pend := g.pend } = g ∧
      ∀ p ∈ g'.pend, p.op = id → ∀ l ∈ ls, laneIn p.lanes l.lane = false := by
  induction ls using List.reverseRecOn with
  | nil => exact ⟨g, hg, rfl, fun p _ _ l hl => by cases hl⟩
  | append_singleton ls a ih =>
    obtain ⟨g', hg', hframe, hclear⟩ := ih
    rw [List.foldl_append]
    refine ⟨_, State.group_mod_self hg' rfl, hframe, fun p hp hop l hl => ?_⟩
    obtain ⟨q, hq, rfl⟩ := List.mem_map.1 hp
    split_ifs at hop ⊢ with hid
    · rcases List.mem_append.1 hl with hl | hl
      · have hq := hclear q hq hid l hl
        simp only [laneIn] at hq
        simp [laneIn, hq]
      · rw [List.mem_singleton.1 hl]
        exact laneIn_without ..
    · exact absurd hop hid

/-- The group of an operation that keeps the lanes that are not logged. -/
def Group.afterDrop (g : Group) (o : MemOp) (now : Nat) : Group :=
  { g with
    pend := if o.lanes.filter (fun l => !l.isLogged) = [] then g.pend.filter (fun p => p.op != o.id) else g.pend
    wakeTick := now
    threads := g.threads.map (fun t => if t.wait = .opDone o.id then { t with wait := .none } else t) }

/-- No lane that was logged is awaited in the group of an operation once they are dropped. -/
theorem State.dropLogged_group {s : State} {o : MemOp} {g : Group} (hg : s.group? o.gid = some g) (vf : Nat) :
    ∃ g', (s.dropLogged vf o).group? o.gid = some g' ∧ { g' with pend := g.pend, wakeTick := g.wakeTick, threads := g.threads } = g ∧
      ∀ p ∈ g'.pend, p.op = o.id → ∀ l ∈ o.lanes, l.isLogged = true → laneIn p.lanes l.lane = false := by
  obtain ⟨g', hg', hframe, hclear⟩ := State.clearPendLanes_group hg o.id (o.lanes.filter LaneReq.isLogged)
  have hdrop : ∃ g'', (s.dropLogged vf o).group? o.gid = some g'' ∧
      { g'' with pend := g'.pend, wakeTick := g'.wakeTick, threads := g'.threads } = g' ∧
      ∀ p ∈ g''.pend, p ∈ g'.pend := by
    have hsub (now : Nat) : ∀ p ∈ (g'.afterDrop o now).pend, p ∈ g'.pend := by
      intro p hp
      unfold Group.afterDrop at hp
      split_ifs at hp
      · exact (List.mem_filter.1 hp).1
      · exact hp
    unfold State.dropLogged
    cases o.fid <;> exact ⟨_, State.group_mod_self (f := fun g => g.afterDrop o _) hg' rfl, rfl, hsub _⟩
  obtain ⟨g'', hg'', hframe', hsub⟩ := hdrop
  refine ⟨g'', hg'', ?_, fun p hp hop l hl hlog => hclear p (hsub p hp) hop l (List.mem_filter.2 ⟨hl, hlog⟩)⟩
  have := congrArg (fun x : Group => { x with pend := g.pend, wakeTick := g.wakeTick, threads := g.threads }) hframe'
  exact this.trans (congrArg (fun x : Group => { x with wakeTick := g.wakeTick, threads := g.threads }) hframe)

theorem State.dropLogged_others (s : State) (vf : Nat) (o : MemOp) {k : Nat} (hk : k ≠ o.gid) :
    (s.dropLogged vf o).group? k = s.group? k := by
  have hmod (s : State) (f : Group → Group) : (s.modGroup o.gid f).group? k = s.group? k := (s.modGroup_onlyGroup o.gid f).2 k hk
  have hpend := foldl_keeps (State.group? · k) (fun s l => hmod s _) (f := fun s (l : LaneReq) => s.clearPendLane o.gid o.id l.lane)
    (o.lanes.filter LaneReq.isLogged) s
  unfold State.dropLogged
  cases o.fid <;> exact (hmod _ _).trans hpend

/-- Operations of other identifiers stay; of its own, the lanes that were not logged. -/
theorem State.mem_ops_dropLogged (s : State) (vf : Nat) (o p : MemOp) :
    (p.id ≠ o.id → (p ∈ (s.dropLogged vf o).ops ↔ p ∈ s.ops)) ∧
      (p ∈ (s.dropLogged vf o).ops → p.id = o.id → p.lanes = o.lanes.filter (fun l => !l.isLogged)) := by
  rw [State.ops_dropLogged]
  split_ifs
  · simp only [List.mem_filter, bne_iff_ne]
    exact ⟨fun hne => and_iff_left hne, fun hp hid => absurd hid hp.2⟩
  · refine ⟨fun hne => ⟨fun hp => ?_, fun hp => List.mem_map.2 ⟨p, hp, if_neg hne⟩⟩, fun hp hid => ?_⟩
    · obtain ⟨x, hx, rfl⟩ := List.mem_map.1 hp
      split_ifs at hne ⊢ with hid
      · exact absurd hid hne
      · exact hx
    · obtain ⟨x, hx, rfl⟩ := List.mem_map.1 hp
      split_ifs at hid ⊢ with hx'
      · rfl
      · exact absurd hid hx'

/-- A record that has been closed is open no more (R374). -/
theorem State.closeFid_closed {s : State} {vf : Nat} {fid : W32} {f : Func} (hf : (s.closeFid vf fid).func? vf = some f) :
    ∀ e ∈ f.openFids, e.1 ≠ fid := by
  rw [State.closeFid, State.func_modFunc, if_pos rfl, Option.map_eq_some_iff] at hf
  obtain ⟨x, -, rfl⟩ := hf
  exact fun e he => by simpa using (List.mem_filter.1 he).2

theorem State.dropLogged_closed {s : State} {vf : Nat} {o : MemOp} {fid : W32} {f : Func} (hfid : o.fid = some fid)
    (hf : (s.dropLogged vf o).func? vf = some f) : ∀ e ∈ f.openFids, e.1 ≠ fid := by
  refine State.closeFid_closed (s := (o.lanes.filter LaneReq.isLogged).foldl (fun s l => s.clearPendLane o.gid o.id l.lane) s)
    (vf := vf) (Eq.trans ?_ hf)
  unfold State.dropLogged
  rw [hfid]
  rfl

/-! ## OPREPLAY and OPDROP -/

/-- The entry that A names, where the group holds one such entry. -/
theorem Ctx.entryNamed_of {c : Ctx} {o : MemOp} (hmem : o ∈ c.s.ops) (hgid : o.gid = c.g.gid) (hlog : o.isLogged = true)
    (hentry : o.entry = (c.uval 1).toNat % 32)
    (honly : ∀ p ∈ c.s.ops, p.gid = c.g.gid → p.isLogged = true → p.entry = (c.uval 1).toNat % 32 → p = o) : c.entryNamed = some o := by
  unfold Ctx.entryNamed
  cases hfind : c.s.ops.find? (fun o => o.gid == c.g.gid && o.isLogged && o.entry == (c.uval 1).toNat % 32) with
  | none => exact absurd (List.find?_eq_none.1 hfind o hmem) (by simp [hgid, hlog, hentry])
  | some p =>
    obtain ⟨⟨hpg, hpl⟩, hpe⟩ : (p.gid = c.g.gid ∧ p.isLogged = true) ∧ p.entry = (c.uval 1).toNat % 32 := by
      simpa using List.find?_some hfind
    rw [honly p (List.mem_of_find?_eq_some hfind) hpg hpl hpe]

theorem Ctx.entryNamed_eq_none {c : Ctx}
    (hno : ∀ o, ¬(o ∈ c.s.ops ∧ o.gid = c.g.gid ∧ o.isLogged = true ∧ o.entry = (c.uval 1).toNat % 32)) : c.entryNamed = none :=
  List.find?_eq_none.2 fun o ho => by
    have := hno o
    simp only [ho, true_and] at this
    simpa [and_assoc] using this

/-- Group level and a missing entry are refused. -/
theorem Ctx.onEntry_refused {c : Ctx} (f : MemOp → State) (hact : c.act ≠ [])
    (h : c.g.lvl = 0 ∨ c.entryNamed = none) : c.onEntry f = .error c.privilege := by
  unfold Ctx.onEntry
  rw [if_neg hact]
  split_ifs with hlvl
  · rfl
  · rw [h.resolve_left hlvl]

theorem Ctx.onEntry_of {c : Ctx} {o : MemOp} (f : MemOp → State) (hact : c.act ≠ []) (hlvl : c.g.lvl ≠ 0) (ho : c.entryNamed = some o) :
    c.onEntry f = .ok { s := f o } := by
  unfold Ctx.onEntry
  rw [if_neg hact, if_neg hlvl, ho]

/-! ## Logged lanes that are performed again -/

/-- The state with the record of an operation closed, which OPREPLAY and OPDROP do alike. -/
def Ctx.closedFor (c : Ctx) (o : MemOp) : State :=
  match o.fid with
  | some fid => c.s.closeFid c.la.vf fid
  | none => c.s

theorem Ctx.closedFor_of {c : Ctx} {o : MemOp} {fid : W32} (h : o.fid = some fid) : c.closedFor o = c.s.closeFid c.la.vf fid := by
  rw [Ctx.closedFor, h]

theorem Ctx.closedFor_frame (c : Ctx) (o : MemOp) : { c.closedFor o with funcs := c.s.funcs } = c.s := by
  unfold Ctx.closedFor
  split <;> rfl

/-- What OPREPLAY leaves: its threads wait and the logged lanes are to be performed again. -/
def Ctx.replayed (c : Ctx) (o : MemOp) : State :=
  ((c.closedFor o).modGroup c.g.gid (fun g => g.modThreads c.act.contains (fun _ t => { t with wait := .opDone o.id }))).reopenLogged
    o.id (fun _ => true)

theorem State.reopenLogged_all {s : State} {id : Nat} {p : MemOp} (hp : p ∈ (s.reopenLogged id (fun _ => true)).ops)
    (hid : p.id = id) : p.isLogged = false ∧ p.log = .replay := by
  unfold State.reopenLogged State.modOp at hp
  obtain ⟨x, -, rfl⟩ := List.mem_map.1 hp
  split_ifs at hid ⊢ with hx
  · refine ⟨?_, rfl⟩
    rw [MemOp.isLogged, List.any_map, List.any_eq_false]
    intro l _
    cases hl : l.isLogged
    · simp [hl]
    · simp only [Function.comp, hl, Bool.and_true, if_true]
      exact Bool.false_ne_true
  · exact absurd hid hx

end Sys2Proof.Machine
open Sys2Proof Sys2Proof.Machine

/-- R194: what each word refuses, and what it does to the entry that it names. -/
theorem operandLogInstructions : Statements.OperandLogInstructions := by
  intro x s c held refused idle
  have hrefused {i : Instr} {sem : Ctx → Except TrapInfo Res} {f : MemOp → State} (hexec : exec i s = done s (issueWord i sem s))
      (hsem : sem c = c.onEntry f) : refused i := by
    intro h hact hno
    obtain ⟨rfl, -⟩ := State.issues_ctx h
    rw [hexec]
    refine issueWord_of_error h (hsem.trans (Ctx.onEntry_refused f hact (hno.imp_right fun hno => ?_)))
    exact Ctx.entryNamed_eq_none hno
  have hidle {i : Instr} {sem : Ctx → Except TrapInfo Res} {f : MemOp → State} (hexec : exec i s = done s (issueWord i sem s))
      (hsem : sem c = c.onEntry f) : idle i := by
    intro h hact
    rw [hexec]
    exact issueWord_of_idle h (hsem.trans (if_pos hact))
  refine ⟨hrefused rfl rfl, hrefused rfl rfl, hidle rfl rfl, hidle rfl rfl, ?_⟩
  rintro o ⟨hmem, hgid, hlog, hentry⟩ honly hlvl hact
  refine ⟨fun h => ?_, fun h => ?_⟩
  · obtain ⟨rfl, -⟩ := State.issues_ctx h
    have hnamed := Ctx.entryNamed_of hmem hgid hlog hentry fun p hp hpg hpl hpe => honly p ⟨hp, hpg, hpl, hpe⟩
    obtain ⟨g, hg, hframe, hclear⟩ := State.dropLogged_group (hgid ▸ State.issues_group h) c.la.vf
    rw [hgid] at hg
    have hfields := c.s.dropLogged_frame c.la.vf o
    have hr : c.Completable { s := c.s.dropLogged c.la.vf o } :=
      ⟨rfl, (congrArg State.fuses hfields :), by
        rw [hg, State.issues_group h]
        exact congrArg some (congrArg Group.stepPath hframe :)⟩
    refine ⟨_, _, issueWord_of_ok h (Ctx.onEntry_of _ hact hlvl hnamed) hr, Ctx.completes_group hg, (congrArg Group.vregs hframe :),
      (congrArg Group.sregs hframe :), hfields, fun k hk => ?_, fun p => (c.s.mem_ops_dropLogged c.la.vf o p).1,
      fun p => (c.s.mem_ops_dropLogged c.la.vf o p).2, hclear, fun fid f hfid hf => State.dropLogged_closed hfid hf⟩
    rw [(c.completes_onlyGroup _).2 k hk]
    exact State.dropLogged_others _ _ _ (hgid ▸ hk)
  · obtain ⟨rfl, -⟩ := State.issues_ctx h
    have hnamed := Ctx.entryNamed_of hmem hgid hlog hentry fun p hp hpg hpl hpe => honly p ⟨hp, hpg, hpl, hpe⟩
    have hg : (c.replayed o).group? c.g.gid = some (c.g.modThreads c.act.contains (fun _ t => { t with wait := .opDone o.id })) :=
      State.group_mod_self (s := c.closedFor o) ((congrArg (fun u : State => u.group? c.g.gid) (c.closedFor_frame o) :).trans
        (State.issues_group h)) rfl
    have hr : c.Completable { s := c.replayed o } :=
      ⟨rfl, (congrArg State.fuses (c.closedFor_frame o) :), by rw [hg, State.issues_group h]; rfl⟩
    refine ⟨_, _, issueWord_of_ok h (Ctx.onEntry_of _ hact hlvl hnamed) hr, Ctx.completes_group hg, fun p hp hid => ?_,
      fun k hk y hy => ?_, fun fid f hfid hf => ?_⟩
    · exact State.reopenLogged_all hp hid
    · obtain ⟨hpath, -, hlive⟩ := Ctx.mem_act hk
      rw [Group.modThreads_getElem?, Group.modThreads_getElem?, Option.map_map, Option.map_eq_some_iff] at hy
      obtain ⟨z, hz, rfl⟩ := hy
      simp only [Function.comp, List.contains_iff_mem.2 hk, hpath, if_true]
      rw [c.advance_live _ k (x := { z with wait := .opDone o.id }) (hlive z hz)]
    · refine State.closeFid_closed (s := c.s) (vf := c.la.vf) (Eq.trans ?_ hf)
      rw [← c.closedFor_of hfid]
      rfl

/-- R422: outside a handler every pending trap may be taken, and the one made first is. -/
theorem deferredTrapsInOrder : Statements.DeferredTrapsInOrder := by
  intro s gid g d hg hframe hlive hopen hstopped hretired hd hfirst
  have hnext : g.nextTrap = some d := by
    have hall : g.traps.filter g.trapDue = g.traps := List.filter_eq_self.2 fun t _ => by rw [Group.trapDue, hframe]
    rw [Group.nextTrap, hall]
    exact earliest_eq_some hd hfirst
  have htake : s.takeDeferred gid = ((s.modGroup gid (fun g => { g with traps := g.traps.filter (fun e => e != d) })).modOp d.op
      (fun o => { o with log := .handler })).takeTrap gid 
        { cause := d.cause.toNat, epc := d.epc, faddr := d.faddr, finfo := d.finfo, deferred := d.path == 0, path := d.path, entry := d.entry } := by
    unfold State.takeDeferred
    simp only [hg, if_neg hlive, hopen, hstopped, hretired, hnext]
    rfl
  exact congrArg (done s) htake

/-- Settles O29: OPREPLAY and OPDROP on the entry that they name, and the order of deferred traps. -/
theorem operandLogAndDeferredTraps : Obligations.OperandLogAndDeferredTraps :=
  ⟨operandLogInstructions, deferredTrapsInOrder⟩

end

section
/-! # A CWAIT of a doubled identifier (O45)

CWAIT_COMPLETE acts on every group that bears the identifier, each by its own commands. The statement lets nothing happen while a
command of the first such group is not DONE; a second one whose commands are all DONE goes on all the same. -/

namespace Sys2Proof.Machine

/-- The threads of a group of 8 wait for all of the commands issued before tick 5; D names no register. -/
def allWaiting : List Thread := List.replicate 8 { Thread.start 0x10004 with wait := .cwait 3 none 0x1FF 5 }

/-- The slot of a CPY, queued at tick 0 and not yet DONE. -/
def queuedSlot : CmdSlot :=
  ⟨1, 1, 0, 0, 0, 0x10000, .cpy (.ofWord 0), 0, 0, 0, 0, 0, none, false, none, false, 0, none, 0, none, none, false, none⟩

/-- Two groups of one identifier wait for their commands: the first has one that is queued, the second has none. -/
def State.twinWaits : State :=
  { State.reset.loadedWith 8 0 with
    groups := [{ loadGroup 8 with threads := allWaiting, cmds := [queuedSlot] }, { loadGroup 8 with threads := allWaiting }] }

/-- The second group's wait ends. -/
theorem twinWaits_second_goes_on : lastWait (exec (.cwaitComplete 4 3) State.twinWaits) = some .none := by decide +kernel

end Sys2Proof.Machine

open Sys2Proof Sys2Proof.Machine

/-- Refutes O45: with a command of the first group of the identifier queued, CWAIT_COMPLETE is said to leave the machine as it is;
in `twinWaits` it lets the second group's threads go on. The statement has no premise that keeps identifiers apart. -/
theorem not_engineCommands : ¬ Obligations.EngineCommands := by
  intro ⟨_, _, hwait⟩
  obtain ⟨hstays, _⟩ := hwait State.twinWaits 3 5 none 0x1FF { loadGroup 8 with threads := allWaiting, cmds := [queuedSlot] } rfl
    (by decide +kernel) fun y hy a b n hw => by
      obtain rfl := List.eq_of_mem_replicate hy
      cases hw
      exact ⟨rfl, rfl, rfl⟩
  have hnext := hstays ⟨queuedSlot, List.mem_singleton_self _, by decide, by decide⟩
  have hgone := twinWaits_second_goes_on
  rw [show (4 : Nat) = ({ loadGroup 8 with threads := allWaiting, cmds := [queuedSlot] } : Group).gid from rfl, hnext] at hgone
  exact absurd hgone (by decide +kernel)

end

section
/-! # System registers (O27) -/

namespace Sys2Proof.Machine

/-! ## Levels (R191) -/

theorem level_cases (l : BitVec 2) : l = 0 ∨ l = 1 ∨ l = 2 ∨ l = 3 := by
  revert l
  decide

/-- Only the trap registers, TVEC and OPLOG are hidden, and those at group level. -/
theorem sysAccess_eq_zero (l : BitVec 2) (n : Nat) :
    sysAccess l.toNat n = 0 ↔ l = 0 ∧ (n = 1 ∨ n = 2 ∨ n = 3 ∨ n = 4 ∨ n = 5 ∨ n = 6) := by
  obtain rfl | rfl | rfl | rfl := level_cases l <;>
    simp only [sysAccess, List.mem_cons, List.not_mem_nil, or_false] <;> grind

/-- What a level may write. -/
theorem sysAccess_lt_two (l : BitVec 2) (n : Nat) :
    let open0 : Prop := n = 0x009 ∨ n = 0x090 ∨ (0x040 ≤ n ∧ n ≤ 0x067)
    let open1 : Prop := open0 ∨ n = 0 ∨ n = 1 ∨ n = 2 ∨ n = 4 ∨ n = 5 ∨ n = 8 ∨ (0x070 ≤ n ∧ n ≤ 0x07F)
    let open2 : Prop := open1 ∨ n = 3 ∨ n = 0x020 ∨ n = 0x080
    sysAccess l.toNat n < 2 ↔ ¬(if l = 0 then open0 else if l = 1 then open1 else open2) := by
  obtain rfl | rfl | rfl | rfl := level_cases l <;>
    simp only [sysAccess, List.mem_cons, List.not_mem_nil, or_false] <;> grind

/-! ## The words that registers are read as -/

theorem boolNat_mul (n : Nat) (b : Bool) : n * boolNat b = if b then n else 0 := by
  cases b <;> simp [boolNat]

theorem Group.statusWord_eq (g : Group) :
    g.statusWord = BitVec.ofNat 64 (g.lvl.toNat + 4 * g.blv.toNat + (if g.stepFlag then 64 else 0)
      + (if g.deferred then 128 else 0) + if g.inh then 256 else 0) := by
  simp only [Group.statusWord, boolNat_mul]

/-- The bits of the entries of some operations. -/
theorem getLsbD_foldl_entry (l : List MemOp) (m : W32) {e : Nat} (he : e < 32) :
    (l.foldl (fun m o => m ||| ((1 : W32) <<< o.entry)) m).getLsbD e = true ↔ m.getLsbD e = true ∨ ∃ o ∈ l, o.entry = e := by
  induction l generalizing m with
  | nil => simp
  | cons o l ih =>
    rw [List.foldl_cons, ih]
    have hbit : ((1 : W32) <<< o.entry).getLsbD e = true ↔ o.entry = e := by
      simp only [BitVec.getLsbD_shiftLeft, he, decide_true, Bool.true_and, Bool.and_eq_true, Bool.not_eq_true', decide_eq_false_iff_not]
      rw [show (1 : W32) = 1#32 from rfl, BitVec.getLsbD_one]
      simp only [decide_eq_true_eq, Nat.zero_lt_succ, Bool.and_eq_true, true_and]
      omega
    simp only [BitVec.getLsbD_or, Bool.or_eq_true, hbit, List.mem_cons, exists_eq_or_imp, or_assoc]

/-- OPLOG: a bit for each entry that the group holds, and TENT and TV above them (R376). -/
theorem State.oplogWord_spec (s : State) (g : Group) :
    (∀ e, e < 32 → ((s.oplogWord g).getLsbD e = true ↔ ∃ o ∈ s.ops, o.gid = g.gid ∧ o.isLogged = true ∧ o.entry = e)) ∧
      (s.oplogWord g).toNat / 2 ^ 32 = g.oplogTent.toNat + if g.oplogTv then 128 else 0 := by
  unfold State.oplogWord
  generalize hheld : (s.ops.filter (fun o => o.gid == g.gid && o.isLogged)).foldl
    (fun m o => m ||| ((1 : W32) <<< o.entry)) 0 = held
  have hword : held.toNat + 2 ^ 32 * g.oplogTent.toNat + 2 ^ 39 * boolNat g.oplogTv =
      2 ^ 32 * (g.oplogTent.toNat + if g.oplogTv then 128 else 0) + held.toNat := by
    rw [← boolNat_mul]
    omega
  have hlt := held.isLt
  have htent : g.oplogTent.toNat < 32 := g.oplogTent.isLt
  refine ⟨fun e he => ?_, ?_⟩
  · rw [BitVec.getLsbD_ofNat, hword, Nat.testBit_two_pow_mul_add _ hlt, if_pos he, decide_eq_true (show e < 64 by omega), Bool.true_and]
    have hbit := getLsbD_foldl_entry (s.ops.filter (fun o => o.gid == g.gid && o.isLogged)) 0 he
    rw [hheld] at hbit
    refine hbit.trans ?_
    simp [and_assoc]
  · rw [BitVec.toNat_ofNat, hword]
    split_ifs <;> omega

theorem idsWord_toNat {core : Nat} (h : core < 256) :
    (idsWord core).toNat = core + 2 ^ 8 * (core / 64) + 2 ^ 10 * (core / 4) + 2 ^ 16 * (core % 4) + 2 ^ 32 := by
  rw [idsWord, BitVec.toNat_ofNat, dieOf, quadOf, Nat.mod_eq_of_lt h]
  omega

theorem State.partIdWord_toNat {s : State} {part : Nat} {p : Partition} (hp : s.part? part = some p) (hpart : part < 64)
    (hparent : p.parent < 64) :
    (s.partIdWord part).toNat = part + 2 ^ 8 * p.parent + if p.parent = part then 0 else 2 ^ 15 := by
  simp only [State.partIdWord, hp, Option.map_some, Option.getD_some, Nat.mod_eq_of_lt hpart, Nat.mod_eq_of_lt hparent, boolNat_mul,
    BitVec.toNat_ofNat, bne_iff_ne, ne_eq, ite_not]
  split_ifs <;> omega

theorem capWord_toNat {a b c d e : Nat} (ha : a < 256) (hb : b < 256) (hc : c < 256) (hd : d < 256) (he : e < 256) :
    (capWord [a, b, c, d, e]).toNat = a + 2 ^ 8 * b + 2 ^ 16 * c + 2 ^ 24 * d + 2 ^ 32 * e := by
  simp only [capWord, List.map_cons, List.map_nil, leNat, byteOf, BitVec.toNat_ofNat]
  omega

theorem Ctx.sysRead_oplog (c : Ctx) (h : Nat) : c.sysRead 0x006 h = c.s.oplogWord c.g := rfl

theorem Ctx.sysRead_ids (c : Ctx) (h : Nat) : c.sysRead 0x018 h = idsWord c.core := rfl

theorem Ctx.sysRead_partId {c : Ctx} {a : AsidCtx} (ha : c.s.asid? c.g.asid.toNat = some a) (h : Nat) :
    c.sysRead 0x021 h = c.s.partIdWord a.part :=
  congrArg (fun o : Option AsidCtx => c.s.partIdWord ((o.map AsidCtx.part).getD c.la.part)) ha

theorem Ctx.sysRead_cap {c : Ctx} {l : List Nat} (hcap : c.s.fuses.mxcap[c.core / 4]? = some l) (h : Nat) :
    c.sysRead 0x030 h = capWord l :=
  congrArg (fun o : Option (List Nat) => capWord (o.getD [])) hcap

/-! ## What a write keeps of a word -/

theorem toNat_and_low {w : Nat} (v m : BitVec w) {k : Nat} (hm : m.toNat = 2 ^ k - 1) : (v &&& m).toNat = v.toNat % 2 ^ k := by
  rw [BitVec.toNat_and, hm, Nat.and_two_pow_sub_one_eq_mod]

theorem fpctl_masked (v : W64) : v.setWidth 32 &&& 0x1F = (v.setWidth 5).setWidth 32 := by
  apply BitVec.eq_of_toNat_eq
  rw [toNat_and_low (k := 5) _ _ rfl, BitVec.toNat_setWidth, BitVec.toNat_setWidth, BitVec.toNat_setWidth]
  omega

theorem tsh_masked (v : W64) : v.setWidth 32 &&& 0x3FFFF = (v.setWidth 18).setWidth 32 := by
  apply BitVec.eq_of_toNat_eq
  rw [toNat_and_low (k := 18) _ _ rfl, BitVec.toNat_setWidth, BitVec.toNat_setWidth, BitVec.toNat_setWidth]
  omega

theorem viewcur_masked (v : W64) : v &&& 0x3FFFFFFFFF = (v.setWidth 38).setWidth 64 := by
  apply BitVec.eq_of_toNat_eq
  rw [toNat_and_low (k := 38) _ _ rfl, BitVec.toNat_setWidth, BitVec.toNat_setWidth]
  omega

theorem leaseLen_masked (v : W64) : leaseLen (v &&& 0x1FFF) = BitVec.ofNat 13 (max 8 (min 8000 (v.toNat % 2 ^ 13))) := by
  rw [leaseLen, toNat_and_low (k := 13) _ _ rfl]
  congr 1
  omega

/-! ## CV and QB -/

/-- A write of CV stands, whatever multiply it sets off (R295). -/
theorem Ctx.write_cv {s : State} {i : Instr} {c : Ctx} (h : s.issues i = some c) (cv : Nat) (v : W64) :
    ∃ g, ((c.s.modGroup c.g.gid (fun g => { g with cvs := g.cvs.set cv v })).emptied c.g.gid cv).group? c.g.gid = some g ∧
      g.cvs.get cv = v ∧ g.stepPath = c.g.stepPath := by
  obtain ⟨rfl, -⟩ := State.issues_ctx h
  obtain ⟨g, hg, hbare⟩ := State.group_of_bareGroups (State.bareGroups_emptied _ c.g.gid cv)
    (State.group_mod_self (f := fun g => { g with cvs := g.cvs.set cv v }) (State.issues_group h) rfl)
  have hcvs : g.cvs = c.g.cvs.set cv v := (congrArg Group.cvs hbare :)
  exact ⟨g, hg, by rw [hcvs, Cells.get_set_self], (congrArg Group.stepPath hbare :)⟩

/-- The place of a queue's slots is all that is recorded with its register. -/
theorem State.placeQueue_cluster {s : State} {cid : Nat} {k : Cluster} (hk : s.cluster? cid = some k) (w : Workgroup) (q : Nat) (v : W64) :
    ∃ k', (s.placeQueue w q v).cluster? cid = some k' ∧ { k' with qslots := k.qslots } = k := by
  unfold State.placeQueue
  dsimp only
  split
  · exact ⟨k, hk, rfl⟩
  · rw [State.cluster_modCluster]
    split_ifs with hcid
    · subst hcid
      rw [hk]
      exact ⟨_, rfl, congrArg (fun x => { k with cid := x }) (State.cluster_key hk).symm⟩
    · exact ⟨k, hk, rfl⟩

theorem State.placeQueue_frame (s : State) (w : Workgroup) (q : Nat) (v : W64) :
    { s.placeQueue w q v with clusters := s.clusters } = s := by
  unfold State.placeQueue
  dsimp only
  split <;> rfl

/-- What a write of QBq leaves. -/
def Ctx.writtenQb (c : Ctx) (q : Nat) (v : W64) : State :=
  (c.s.modCluster c.w.cid (fun k => k.rewriteQb q v (c.s.cycle 0))).placeQueue c.w q v

theorem Ctx.writtenQb_frame (c : Ctx) (q : Nat) (v : W64) : { c.writtenQb q v with clusters := c.s.clusters } = c.s :=
  (congrArg (fun s : State => { s with clusters := c.s.clusters })
    (State.placeQueue_frame (c.s.modCluster c.w.cid (fun k => k.rewriteQb q v (c.s.cycle 0))) c.w q v) :)

/-- A write of QBq stands. -/
theorem Ctx.write_qb {c : Ctx} {k : Cluster} {q : Nat} (hk : c.s.cluster? c.w.cid = some k) (hq : q < k.qbs.length) (v : W64) :
    ∃ k', (c.writtenQb q v).cluster? c.w.cid = some k' ∧ k'.qbs[q]? = some v := by
  have hwrite : (c.s.modCluster c.w.cid (fun k => k.rewriteQb q v (c.s.cycle 0))).cluster? c.w.cid =
      some { k.rewriteQb q v (c.s.cycle 0) with cid := c.w.cid } := by
    rw [State.cluster_modCluster, if_pos rfl, hk, Option.map_some]
  obtain ⟨k', hk', hframe⟩ := State.placeQueue_cluster hwrite c.w q v
  refine ⟨k', hk', ?_⟩
  have hqbs : k'.qbs = modNth k.qbs q (fun _ => v) := (congrArg Cluster.qbs hframe :)
  rw [hqbs, modNth, List.getElem?_mapIdx, List.getElem?_eq_getElem hq, Option.map_some, if_pos rfl]

end Sys2Proof.Machine

open Sys2Proof Sys2Proof.Machine

/-- R193: what each register reads as. -/
theorem systemRegisterReads : Statements.SystemRegisterReads := by
  intro x s c h n hidden
  obtain ⟨rfl, -⟩ := State.issues_ctx h
  refine ⟨fun hact => issueWord_of_idle h (if_pos hact), fun hact hhid => ?_, fun hact hopen => ?_⟩
  · exact issueWord_of_error h ((if_neg hact).trans (if_pos ((sysAccess_eq_zero ..).2 hhid)))
  · refine ⟨c.sysRead n, issueWord_of_modGroup h ((if_neg hact).trans (if_neg (mt (sysAccess_eq_zero ..).1 hopen)))
      (Group.writeDest_stepPath ..), fun k => ?_⟩
    generalize n = n
    refine ⟨?_, ?_, ?_, ?_, ?_, ?_, ?_, ?_, ?_, ?_, ?_, ?_, ?_, ?_, ?_, ?_, ?_, ?_, ?_, ?_⟩
    · rintro rfl
      exact c.g.statusWord_eq
    · rintro rfl; rfl
    · rintro rfl; rfl
    · rintro rfl; rfl
    · rintro rfl; rfl
    · rintro rfl; rfl
    · rintro rfl
      rw [c.sysRead_oplog]
      exact c.s.oplogWord_spec c.g
    · rintro rfl; rfl
    · rintro rfl t ht
      exact congrArg (fun o : Option Thread => ((o.map Thread.fpstat).getD 0).setWidth 64) ht
    · rintro rfl; rfl
    · rintro rfl; rfl
    · rintro rfl
      rw [c.sysRead_ids]
      exact idsWord_toNat
    · rintro rfl; rfl
    · rintro rfl a p ha hp hpart hparent
      rw [Ctx.sysRead_partId ha, State.partIdWord_toNat hp hpart hparent]
    · rintro rfl m64 m32 m16 m8 m4 hcap h64 h32 h16 h8 h4
      rw [Ctx.sysRead_cap hcap, capWord_toNat h64 h32 h16 h8 h4]
    · exact fun hlo hhi => if_pos ⟨hlo, hhi⟩
    · exact fun hlo hhi => (if_neg (by omega)).trans (if_pos ⟨hlo, hhi⟩)
    · intro hlo hhi q hq
      refine ((if_neg (by omega)).trans ((if_neg (by omega)).trans (if_pos ⟨hlo, hhi⟩))).trans ?_
      rw [Ctx.qb, hq]
      rfl
    · rintro rfl a ha
      exact congrArg (fun o : Option AsidCtx => ((o.map AsidCtx.len).getD 0).setWidth 64) ha
    · rintro rfl; rfl

/-- R191, R193: what a write of each register leaves. -/
theorem systemRegisterWrites : Statements.SystemRegisterWrites := by
  intro x s c h n v open0 open1 open2 may is grp
  have hlevel := sysAccess_lt_two c.g.lvl n
  obtain ⟨rfl, -⟩ := State.issues_ctx h
  refine ⟨fun hact => issueWord_of_idle h (if_pos hact), fun hact hno => ?_, fun hact hmay => ?_⟩
  · exact issueWord_of_error h ((if_neg hact).trans (if_pos (hlevel.2 hno)))
  have hmay' : ¬sysAccess c.g.lvl.toNat n < 2 := fun hlt => hlevel.1 hlt hmay
  have hsem (h9 : n ≠ 0x009) : mtsrIssue x c = .ok { s := c.sysWrite n v } :=
    (if_neg hact).trans ((if_neg hmay').trans (if_neg h9))
  have hstate {r : State} (h9 : n ≠ 0x009) (hn : c.sysWrite n v = r) (hfuses : r.fuses = c.s.fuses) (hgroups : r.groups = c.s.groups) :
      is r :=
    issueWord_of_ok h (hn ▸ hsem h9) ⟨rfl, hfuses, congrArg (fun l => (l.find? (fun g : Group => g.gid == c.g.gid)).map Group.stepPath) hgroups⟩
  have hgroup {f : Group → Group} (h9 : n ≠ 0x009) (hn : c.sysWrite n v = grp f) (hstep : (f c.g).stepPath = c.g.stepPath) : is (grp f) :=
    issueWord_of_ok h (hn ▸ hsem h9) (Ctx.completable_modGroup h rfl rfl rfl rfl hstep)
  have hfpstat (h9 : n = 0x009) : is (c.withThreads (fun h t => { t with fpstat := (c.val 1 h).setWidth 5 })) :=
    issueWord_of_ok h ((if_neg hact).trans ((if_neg hmay').trans (if_pos h9))) (Ctx.completable_modGroup h rfl rfl rfl rfl rfl)
  clear_value n
  refine ⟨?_, ?_, ?_, ?_, ?_, ?_, ?_, ?_, ?_, ?_, ?_, ?_, ?_, ?_⟩
  · rintro rfl
    exact hgroup (by decide) rfl rfl
  · rintro rfl
    exact hgroup (by decide) rfl rfl
  · rintro rfl
    exact hgroup (by decide) rfl rfl
  · rintro rfl
    exact hstate (by decide) rfl rfl rfl
  · rintro rfl
    exact hgroup (by decide) rfl rfl
  · rintro rfl
    exact hgroup (by decide) rfl rfl
  · rintro rfl
    rw [← fpctl_masked]
    exact hstate (by decide) rfl rfl rfl
  · exact hfpstat
  · rintro rfl
    exact hgroup (by decide) rfl rfl
  · intro hlo hhi
    rw [← tsh_masked]
    exact hstate (by omega) (if_pos ⟨hlo, hhi⟩) rfl rfl
  · intro hlo hhi
    obtain ⟨g, hg, hcv, hstep⟩ := Ctx.write_cv h (n - 0x060) v
    have hn : c.sysWrite n v = (grp (fun g => { g with cvs := g.cvs.set (n - 0x060) v })).emptied c.g.gid (n - 0x060) :=
      (if_neg (by omega)).trans (if_pos ⟨hlo, hhi⟩)
    exact ⟨_, _, issueWord_of_effect h (hn ▸ hsem (by omega)) rfl (by rw [hg, State.issues_group h]; exact congrArg some hstep),
      Ctx.completes_group hg, hcv⟩
  · intro hlo hhi k hk hlen
    have hn : c.sysWrite n v = c.writtenQb (n - 0x070) (v &&& qRwMask) :=
      (if_neg (by omega)).trans ((if_neg (by omega)).trans (if_pos ⟨hlo, hhi⟩))
    obtain ⟨k', hk', hqbs⟩ := Ctx.write_qb hk hlen (v &&& qRwMask)
    have hframe := c.writtenQb_frame (n - 0x070) (v &&& qRwMask)
    have hr := hstate (by omega) hn (congrArg State.fuses hframe :) (congrArg State.groups hframe :)
    exact ⟨_, k', hr, hk', hqbs⟩
  · rintro rfl
    rw [← leaseLen_masked]
    exact hstate (by decide) rfl rfl rfl
  · rintro rfl
    rw [← viewcur_masked]
    exact hgroup (by decide) rfl rfl

/-- Settles O27: what MFSR reads and what MTSR writes, register by register. -/
theorem systemRegisters : Obligations.SystemRegisters := ⟨systemRegisterReads, systemRegisterWrites⟩

end

section
/-! # Migration (O43) -/

namespace Sys2Proof.Machine

/-! ## Landing slots (R392) -/

/-- The value at the least element that has one, of a list in rising order. -/
theorem findSome?_least {α : Type} {f : Nat → Option α} {l : List Nat} (hl : l.Pairwise (· < ·)) {x : Nat} {b : α} (hx : x ∈ l)
    (hb : f x = some b) (hmin : ∀ y ∈ l, y < x → f y = none) : l.findSome? f = some b := by
  induction l with
  | nil => cases hx
  | cons a l ih =>
    obtain ⟨hhead, htail⟩ := List.pairwise_cons.1 hl
    rcases List.mem_cons.1 hx with rfl | hx
    · rw [List.findSome?_cons, hb]
    · rw [List.findSome?_cons, hmin a List.mem_cons_self (hhead x hx)]
      exact ih htail hx fun y hy => hmin y (List.mem_cons_of_mem _ hy)

/-- Landing slot k of a core is free. -/
def State.slotOpen (s : State) (core k : Nat) : Prop :=
  k < 4 ∧ ∀ x ∈ s.groups, x.retired = false → x.landing ≠ some ⟨core, k⟩

theorem State.slotOpen_iff (s : State) (core k : Nat) :
    s.slotOpen core k ↔ k < 4 ∧ (!s.groups.any (fun g => !g.retired && g.landing = some ⟨core, k⟩)) = true := by
  simp [State.slotOpen]

theorem State.landingSlot_eq_some {s : State} {core k : Nat} (hk : s.slotOpen core k) (hmin : ∀ j, s.slotOpen core j → k ≤ j) :
    s.landingSlot core = some k := by
  obtain ⟨hlt, hopen⟩ := (s.slotOpen_iff core k).1 hk
  refine List.find?_range_eq_some.2 ⟨hopen, List.mem_range.2 hlt, fun j hj => ?_⟩
  by_contra hbusy
  have := hmin j ((s.slotOpen_iff core j).2 ⟨by omega, by simpa using hbusy⟩)
  omega

theorem State.landingSlot_eq_none {s : State} {core : Nat} (hno : ∀ k, ¬s.slotOpen core k) : s.landingSlot core = none :=
  List.find?_eq_none.2 fun k hk hopen => hno k ((s.slotOpen_iff core k).2 ⟨List.mem_range.1 hk, hopen⟩)

/-- A core of a die of the partition where groups may land. -/
theorem State.mem_landingCores {s : State} {die part core : Nat} :
    core ∈ (s.dieCores die part).filter s.edgeOpen ↔
      core / 64 = die ∧ s.coreInPart core part = true ∧ s.edgeOpen core = true := by
  simp only [State.dieCores, List.mem_filter, List.mem_map, List.mem_range, and_assoc]
  refine and_congr_left fun _ => ⟨?_, fun h => ⟨core % 64, by omega, by omega⟩⟩
  rintro ⟨k, hk, rfl⟩
  omega

theorem State.dieCores_sorted (s : State) (die part : Nat) : (s.dieCores die part).Pairwise (· < ·) :=
  (List.Pairwise.map _ (fun a b h => by omega) List.pairwise_lt_range).filter _

/-- Slot k of a core is one that a group that waits for the die may take. -/
def State.landable (s : State) (die part core k : Nat) : Prop :=
  core / 64 = die ∧ s.coreInPart core part = true ∧ s.edgeOpen core = true ∧ s.slotOpen core k

/-- The first landing slot of a die. -/
def State.dieSlot (s : State) (die part : Nat) : Option Landing :=
  ((s.dieCores die part).filter s.edgeOpen).findSome? (fun c => (s.landingSlot c).map (fun k => ⟨c, k⟩))

theorem State.dieSlot_eq_some {s : State} {die part core k : Nat} (hk : s.landable die part core k)
    (hmin : ∀ c j, s.landable die part c j → core < c ∨ core = c ∧ k ≤ j) : s.dieSlot die part = some ⟨core, k⟩ := by
  obtain ⟨hdie, hpart, hopen, hslot⟩ := hk
  refine findSome?_least ((s.dieCores_sorted die part).filter _) (State.mem_landingCores.2 ⟨hdie, hpart, hopen⟩) ?_ fun c hc hlt => ?_
  · rw [State.landingSlot_eq_some hslot fun j hj => ?_]
    · rfl
    · rcases hmin core j ⟨hdie, hpart, hopen, hj⟩ with h | h <;> omega
  · obtain ⟨hdie, hpart, hopen⟩ := State.mem_landingCores.1 hc
    rw [State.landingSlot_eq_none fun j hj => ?_]
    · rfl
    · rcases hmin c j ⟨hdie, hpart, hopen, hj⟩ with h | h <;> omega

theorem State.dieSlot_eq_none {s : State} {die part : Nat} (hno : ∀ core k, ¬s.landable die part core k) : s.dieSlot die part = none :=
  List.findSome?_eq_none_iff.2 fun c hc => by
    obtain ⟨hdie, hpart, hopen⟩ := State.mem_landingCores.1 hc
    rw [State.landingSlot_eq_none fun j hj => hno c j ⟨hdie, hpart, hopen, hj⟩]
    rfl

/-- Nobody who comes before a group waits for its die. -/
def State.firstFor (s : State) (g : Group) (part die : Nat) (since : W64) : Prop :=
  ∀ x ∈ s.groups, x.gid ≠ g.gid → ∀ t, s.slotWait x = some (part, die, t) → s.waitsBefore x g t since = false

theorem State.slotFor_of {s : State} {g : Group} {part die : Nat} {since : W64} (hw : s.slotWait g = some (part, die, since)) :
    (¬s.firstFor g part die since ∨ s.cycle (s.waitCore g) ≤ since → s.slotFor g = none) ∧
      (s.firstFor g part die since → since < s.cycle (s.waitCore g) → s.slotFor g = s.dieSlot die part) := by
  have hfirst : (!s.groups.any (fun x => x.gid != g.gid && match s.slotWait x with
      | some (p, d, t) => p == part && d == die && s.waitsBefore x g t since
      | none => false)) = true ↔ s.firstFor g part die since := by
    rw [Bool.not_eq_true', List.any_eq_false]
    refine forall₂_congr fun x _ => ?_
    rw [Bool.and_eq_true, bne_iff_ne, not_and]
    refine imp_congr_right fun _ => ?_
    rcases s.slotWait x with _ | ⟨p, d, t⟩
    · simp
    · simp only [Bool.and_eq_true, beq_iff_eq, Option.some.injEq, Prod.mk.injEq, not_and, Bool.not_eq_true]
      exact ⟨by rintro h t ⟨rfl, rfl, rfl⟩; exact h ⟨rfl, rfl⟩, by rintro h ⟨rfl, rfl⟩; exact h t ⟨rfl, rfl, rfl⟩⟩
  unfold State.slotFor
  rw [hw]
  dsimp only
  refine ⟨fun h => if_neg fun hboth => ?_, fun hf hlt => if_pos ?_⟩
  · obtain ⟨hf, hlt⟩ := Bool.and_eq_true_iff.1 hboth
    rcases h with h | h
    · exact h (hfirst.1 hf)
    · exact absurd (of_decide_eq_true hlt) (BitVec.not_lt.2 h)
  · exact Bool.and_eq_true_iff.2 ⟨hfirst.2 hf, decide_eq_true hlt⟩

/-! ## The wait in MIGRATE -/

/-- What a thread that lives waits for in MIGRATE. -/
def Thread.migrating (t : Thread) : Option (Nat × W64 × Option W64) :=
  match t.wait with
  | .migrate tok ea q => if t.exited then none else some (tok, ea, q)
  | _ => none

/-- A thread in MIGRATE begins to wait for a landing slot. -/
def Thread.queuedAt (now : W64) (t : Thread) : Thread :=
  match t.wait with
  | .migrate tok ea _ => { t with wait := .migrate tok ea (some now) }
  | _ => t

theorem Group.migrateWait_eq (g : Group) : g.migrateWait = g.threads.findSome? Thread.migrating := rfl

theorem Thread.migrating_queuedAt (now : W64) (t : Thread) :
    (t.queuedAt now).migrating = t.migrating.map (fun m => (m.1, m.2.1, some now)) := by
  unfold Thread.queuedAt Thread.migrating
  cases hwait : t.wait <;> simp only [hwait, Option.map_none]
  split_ifs <;> rfl

/-- A group whose MIGRATE begins to wait for a landing slot. -/
def Group.queuedAt (now : W64) (g : Group) : Group := { g with threads := g.threads.map (Thread.queuedAt now) }

theorem Group.migrateWait_queuedAt (g : Group) (now : W64) :
    (g.queuedAt now).migrateWait =
      g.migrateWait.map (fun m => (m.1, m.2.1, some now)) := by
  simp only [Group.migrateWait_eq, Group.queuedAt, List.findSome?_map, List.map_findSome?]
  exact congrArg (fun f => g.threads.findSome? f) (funext (Thread.migrating_queuedAt now))

/-- What MIGRATE_LAND waits for first: the group's earlier accesses, and a slot edge that stops it. -/
def State.landReady (s : State) (g : Group) (tok : Nat) (queued : Option W64) : Prop :=
  (queued ≠ none ∨ s.readsDone g tok = true ∧ s.writesDone g tok 3 = true ∧ ∀ o ∈ s.ops, o.gid = g.gid → o.isLogged = false) ∧
    s.unstopped g = true

theorem State.landReady_iff (s : State) (g : Group) (tok : Nat) (queued : Option W64) :
    s.landReady g tok queued ↔ ¬(!(queued.isSome || (s.readsDone g tok && s.writesDone g tok 3 &&
      !s.ops.any (fun o => o.gid == g.gid && o.isLogged))) || !s.unstopped g) = true := by
  cases queued <;> simp [State.landReady, and_assoc]

/-- MIGRATE_LAND of a waiting group whose address leads to a die. -/
theorem State.migrateStep_of {s : State} {g : Group} {w : Workgroup} {tok home die : Nat} {ea : W64} {queued : Option W64}
    (hg : s.group? g.gid = some g) (hw : s.wg? g.wid = some w) (hhome : w.core = some home)
    (hwait : g.migrateWait = some (tok, ea, queued)) (hdie : s.homeDie g.asid.toNat ea.toNat = some die) :
    let goesOn := s.modGroup g.gid Group.migrateDone
    (¬s.landReady g tok queued → s.migrateStep g.gid = s) ∧
    (s.landReady g tok queued → s.migrateStep g.gid =
      if die = home / 64 then (if g.landing.isNone then goesOn else goesOn.moveGroup g.gid home none)
      else if die = s.groupDie g then goesOn
      else if queued.isNone then
        s.modGroup g.gid (Group.queuedAt (s.cycle (s.waitCore g)))
      else match s.slotFor g with
        | some l => goesOn.moveGroup g.gid l.core (some l)
        | none => s) := by
  have hready := s.landReady_iff g tok queued
  unfold State.migrateStep
  rw [hg]
  dsimp only
  rw [hwait, hw]
  dsimp only
  rw [hhome, hdie]
  exact ⟨fun hno => if_pos (not_not.1 (mt hready.2 hno)), fun hyes => if_neg (hready.1 hyes)⟩

/-! ## Where a group goes -/

theorem State.moveGroup_frame (s : State) (gid core : Nat) (l : Option Landing) :
    { s.moveGroup gid core l with groups := s.groups, ops := s.ops } = s := rfl

/-- A group as it is when it has moved to another core (R203, R392). -/
def Group.movedAt (g : Group) (l : Option Landing) (now : W64) : Group :=
  { g with landing := l, landDie := none, tier := .pending, tierSince := now, passed := 0 }

theorem State.moveGroup_groups (s : State) (gid core : Nat) (l : Option Landing) :
    (s.moveGroup gid core l).groups = (s.modGroup gid (fun g => g.movedAt l (s.cycle core))).groups := rfl

theorem State.moveGroup_group {s : State} {gid : Nat} {g : Group} (hg : s.group? gid = some g) (core : Nat) (l : Option Landing) :
    (s.moveGroup gid core l).group? gid = some (g.movedAt l (s.cycle core)) :=
  State.group_mod_self (f := fun g => g.movedAt l (s.cycle core)) hg rfl

theorem State.moveGroup_others (s : State) (gid core : Nat) (l : Option Landing) {k : Nat} (hk : k ≠ gid) :
    (s.moveGroup gid core l).group? k = s.group? k :=
  (s.modGroup_onlyGroup gid (fun g => g.movedAt l (s.cycle core))).2 k hk

theorem State.moveGroup_op {s : State} {gid core n : Nat} {l : Option Landing} {o p : MemOp} (ho : s.ops[n]? = some o)
    (hp : (s.moveGroup gid core l).ops[n]? = some p) : p = if o.gid = gid then { o with core := core, ipart := 4 } else o := by
  have hops : (s.moveGroup gid core l).ops =
    s.ops.map (fun o => if o.gid = gid then { o with core := core, ipart := 4 } else o) := rfl
  rw [hops, List.getElem?_map, ho] at hp
  exact (Option.some.inj hp).symm

/-- A change of a group that keeps its single step. -/
theorem State.stepPath_modGroup {f : Group → Group} (hf : ∀ g, (f g).stepPath = g.stepPath) (s : State) (k j : Nat) :
    ((s.modGroup k f).group? j).map Group.stepPath = (s.group? j).map Group.stepPath := by
  rw [State.group_mod]
  split_ifs with hj
  · subst hj
    rw [Option.map_map]
    exact congrArg (fun F => (s.group? j).map F) (funext hf)
  · rfl

/-- What MIGRATE_LAND can do: nothing, end the wait, with a move or without, or begin to wait for a landing slot. -/
theorem State.migrateStep_cases (s : State) (gid : Nat) :
    s.migrateStep gid = s ∨ s.migrateStep gid = s.modGroup gid Group.migrateDone ∨
      (∃ core l, s.migrateStep gid = (s.modGroup gid Group.migrateDone).moveGroup gid core l) ∨
      ∃ now, s.migrateStep gid = s.modGroup gid (Group.queuedAt now) := by
  unfold State.migrateStep
  split
  · exact .inl rfl
  split
  · split
    · dsimp only
      split_ifs
      · exact .inl rfl
      · exact .inr (.inl rfl)
      · exact .inr (.inr (.inl ⟨_, _, rfl⟩))
      · exact .inr (.inl rfl)
      · exact .inr (.inr (.inr ⟨_, rfl⟩))
      · split
        · exact .inr (.inr (.inl ⟨_, _, rfl⟩))
        · exact .inl rfl
    · exact .inl rfl
  · exact .inl rfl

/-- Groups and operations are all that MIGRATE_LAND changes. -/
theorem State.migrateStep_frame (s : State) (gid : Nat) : { s.migrateStep gid with groups := s.groups, ops := s.ops } = s := by
  obtain h | h | ⟨_, _, h⟩ | ⟨_, h⟩ := s.migrateStep_cases gid <;> rw [h]
  · rfl
  · rfl
  · rfl

theorem State.migrateStep_stepPath (s : State) (gid k : Nat) :
    ((s.migrateStep gid).group? k).map Group.stepPath = (s.group? k).map Group.stepPath := by
  have hdone := State.stepPath_modGroup (f := Group.migrateDone) (fun _ => rfl) s gid k
  obtain h | h | ⟨core, l, h⟩ | ⟨now, h⟩ := s.migrateStep_cases gid <;> rw [h]
  · exact hdone
  · exact (State.stepPath_modGroup (f := fun g => g.movedAt l (s.cycle core)) (fun _ => rfl) (s.modGroup gid Group.migrateDone) gid k).trans
      hdone
  · exact State.stepPath_modGroup (f := Group.queuedAt now) (fun _ => rfl) ..

/-- What a group in MIGRATE waits for a landing slot with. -/
theorem State.slotWait_of {s : State} {g : Group} {w : Workgroup} {la : Launch} {tok die : Nat} {ea since : W64}
    (hw : s.wg? g.wid = some w) (hla : s.launch? w.lid = some la) (hwait : g.migrateWait = some (tok, ea, some since))
    (hdie : s.homeDie g.asid.toNat ea.toNat = some die) (hopen : s.unstopped g = true) (hretired : g.retired = false)
    (hstopped : g.stopped = false) (hland : g.landDie = none) : s.slotWait g = some (la.part, die, since) := by
  have hcore : w.core.any s.edgeOpen = true := by
    rw [State.unstopped, hw] at hopen
    exact (Bool.and_eq_true_iff.1 hopen).2
  unfold State.slotWait
  rw [hw]
  dsimp only
  rw [hla]
  dsimp only
  rw [hretired, hstopped, hcore, hland]
  dsimp only
  rw [hwait]
  dsimp only
  rw [hopen, hdie]
  rfl

theorem State.fused_eq_self {t s : State} (h : t.fuses = s.fuses) : t.fused s = t :=
  congrArg (fun f => { t with fuses := f }) h.symm

/-- The issuing group with its active threads in MIGRATE. -/
def Ctx.migratingTo (c : Ctx) (ea : W64) (g : Group) : Group :=
  g.modThreads c.act.contains (fun _ t => { t with wait := .migrate c.s.tick ea none })

/-- MIGRATE to an address, once its group may leave (R182). -/
def Ctx.migrateTo (c : Ctx) (ea : W64) : Except TrapInfo Res :=
  if beyond57 ea then .error (c.trap 0x08 0 ea)
  else
    match c.s.homeDie c.g.asid.toNat ea.toNat with
    | none => .error (c.trap 0x08 1 ea)
    | some die =>
      if (c.s.dieCores die c.la.part).isEmpty then .error (c.trap 0x15)
      else .ok { s := ({ c.s with tick := c.s.tick + 1 }.modGroup c.g.gid (c.migratingTo ea)).migrateStep c.g.gid }

theorem State.dieCores_eq_nil {s : State} {die part : Nat} (h : ∀ k, k < 64 → s.coreInPart (64 * die + k) part = false) :
    s.dieCores die part = [] :=
  List.filter_eq_nil_iff.2 fun c hc => by
    obtain ⟨k, hk, rfl⟩ := List.mem_map.1 hc
    rw [h k (List.mem_range.1 hk)]
    exact Bool.false_ne_true

end Sys2Proof.Machine

open Sys2Proof Sys2Proof.Machine

/-- Settles O43: what MIGRATE refuses, where MIGRATE_LAND brings a group, and PRIOWG. -/
theorem migration : Obligations.Migration := by
  refine ⟨fun x s c h => ?_, fun s g w la tok home die ea queued hg hw hla hhome hwait hdie hlt => ?_, fun s gid core l g hg => ?_,
    fun x s c h => ?_⟩
  · obtain ⟨rfl, -⟩ := State.issues_ctx h
    intro ea traps all
    have htraps {t : TrapInfo} (hsem : migrateIssue c = .error t) : traps t := issueWord_of_error h hsem
    have hopen (hinh : c.g.inh = false) (hall : all) : migrateIssue c = c.migrateTo ea := by
      unfold migrateIssue
      rw [hinh, Ctx.partialIssue_eq_none hall]
      rfl
    refine ⟨fun hinh => htraps (if_pos hinh), fun hinh hidle => ?_, fun hinh hall hfar => htraps ?_, fun hinh hall hnear hdie => htraps ?_,
      fun die hinh hall hnear hdie => ⟨fun hno => htraps ?_, fun hsome => ?_⟩⟩
    · obtain ⟨k, hk, hkact⟩ := not_forall₂.1 hidle
      obtain ⟨m, hm, -⟩ := Ctx.partialIssue_of_idle ⟨k, hk, hkact⟩
      refine ⟨m, htraps ?_⟩
      unfold migrateIssue
      rw [hinh, hm]
      rfl
    · exact (hopen hinh hall).trans (if_pos (decide_eq_true hfar))
    · rw [hopen hinh hall, Ctx.migrateTo, if_neg (by simpa [beyond57] using hnear), hdie]
    · rw [hopen hinh hall, Ctx.migrateTo, if_neg (by simpa [beyond57] using hnear), hdie]
      dsimp only
      rw [State.dieCores_eq_nil hno]
      rfl
    · have hcores : ¬(c.s.dieCores die c.la.part).isEmpty = true := by
        obtain ⟨k, hk, hcore⟩ := hsome
        rw [List.isEmpty_iff]
        exact List.ne_nil_of_mem (List.mem_filter.2 ⟨List.mem_map_of_mem (List.mem_range.2 hk), hcore⟩)
      have hsem := hopen hinh hall
      rw [Ctx.migrateTo, if_neg (by simpa [beyond57] using hnear), hdie] at hsem
      have hframe := State.migrateStep_frame
      refine issueWord_of_ok h (hsem.trans (if_neg hcores)) ⟨rfl, (congrArg State.fuses (hframe _ _) :), ?_⟩
      exact (State.migrateStep_stepPath ..).trans
        (State.stepPath_modGroup (f := c.migratingTo ea) (fun _ => rfl) { c.s with tick := c.s.tick + 1 } c.g.gid c.g.gid)
  · intro ready is goesOn now free
    obtain ⟨hstay, hgo⟩ := State.migrateStep_of hg hw hhome hwait hdie
    have his {t : State} (ht : s.migrateStep g.gid = t) (hfuses : t.fuses = s.fuses) : is t :=
      (congrArg (done s) ht).trans (congrArg Host.Outcome.next (State.fused_eq_self hfuses))
    refine ⟨fun hno => his (hstay hno) rfl, fun hr hd hl => his ?_ rfl, fun hr hd hl => his ?_ rfl, fun hr hd hs => his ?_ rfl,
      fun hr hd hs hq => ?_, fun since hr hd hs hq hretired hstopped hland => ?_⟩
    · rw [hgo hr, if_pos hd, hl]
      rfl
    · rw [hgo hr, if_pos hd, if_neg (by simpa using hl)]
    · rw [hgo hr, if_neg hd, if_pos hs]
    · refine ⟨_, _, his ((hgo hr).trans ?_) ?_, s.modGroup_onlyGroup g.gid (Group.queuedAt now), State.group_mod_self hg rfl, rfl, ?_⟩
      · rw [if_neg hd, if_neg hs, hq]
        rfl
      · rfl
      · rw [Group.migrateWait_queuedAt, hwait]
        rfl
    · subst hq
      intro first
      have hslot := s.slotFor_of (State.slotWait_of hw hla hwait hdie hr.2 hretired hstopped hland)
      have hland : s.migrateStep g.gid = match s.slotFor g with
          | some l => goesOn.moveGroup g.gid l.core (some l)
          | none => s := by
        rw [hgo hr, if_neg hd, if_neg hs]
        rfl
      refine ⟨fun hno => his ?_ rfl, fun hf hlt core k hk hmin => his ?_ rfl⟩
      · have hnone : s.slotFor g = none := by
          rw [← or_assoc] at hno
          rcases hno with hno | hno
          · exact hslot.1 hno
          · by_cases hearly : ¬first ∨ now ≤ since
            · exact hslot.1 hearly
            · obtain ⟨hf, hlt⟩ := not_or.1 hearly
              rw [hslot.2 (not_not.1 hf) (BitVec.not_le.1 hlt)]
              exact State.dieSlot_eq_none hno
        rw [hland, hnone]
      · have hsome : s.slotFor g = some ⟨core, k⟩ := by
          rw [hslot.2 hf hlt]
          exact State.dieSlot_eq_some hk hmin
        rw [hland, hsome]
  · exact ⟨s.moveGroup_frame gid core l, fun k hk => s.moveGroup_others gid core l hk, State.moveGroup_group hg core l,
      fun n o p => State.moveGroup_op⟩
  · obtain ⟨rfl, -⟩ := State.issues_ctx h
    exact issueWord_of_active h rfl ⟨rfl, rfl, rfl⟩

end

section
/-! # Tasks (O44) -/

namespace Sys2Proof.Machine

/-! ## An operation is left outstanding -/

/-- The lowest active lane of a kind. -/
theorem Ctx.find?_act {c : Ctx} {p : Nat → Bool} {h : Nat} (hm : h ∈ c.act) (hp : p h = true) (hlow : ∀ k ∈ c.act, k < h → ¬p k = true) :
    c.act.find? p = some h := by
  obtain ⟨before, after, hact⟩ := List.append_of_mem hm
  have hsorted := hact ▸ c.act_sorted
  refine List.find?_eq_some_iff_append.2 ⟨hp, before, after, hact, fun k hk => ?_⟩
  have hlt : k < h := (List.pairwise_append.1 hsorted).2.2 k hk h List.mem_cons_self
  simpa using hlow k (hact ▸ List.mem_append_left _ hk) hlt

/-- The mark that an operation leaves on its destinations. -/
def Group.awaiting (id : Nat) (dests : List (Nat × W64)) (g : Group) : Group :=
  { g with pend := g.pend ++ dests.map (fun d => ⟨id, d.1, d.2⟩) }

theorem Ctx.issueOp_fuses (c : Ctx) (lanes : List LaneReq) (dests : List (Nat × W64)) : (c.issueOp lanes dests).fuses = c.s.fuses := by
  unfold Ctx.issueOp
  split <;> rfl

theorem Ctx.issueOp_stepPath (c : Ctx) (lanes : List LaneReq) (dests : List (Nat × W64)) (k : Nat) :
    ((c.issueOp lanes dests).group? k).map Group.stepPath = (c.s.group? k).map Group.stepPath := by
  unfold Ctx.issueOp
  split
  · rfl
  · exact State.stepPath_modGroup (f := Group.awaiting c.s.tick dests) (fun _ => rfl) c.s c.g.gid k

theorem Ctx.completable_issueOp (c : Ctx) (lanes : List LaneReq) (dests : List (Nat × W64)) :
    c.Completable { s := c.issueOp lanes dests } :=
  ⟨rfl, c.issueOp_fuses lanes dests, c.issueOp_stepPath lanes dests _⟩

/-! ## LAUNCH -/

/-- A record at a lane's address would end above 2^57. -/
def Ctx.recordHigh (c : Ctx) (h : Nat) : Bool := 2 ^ 57 < (c.val 1 h).toNat + 160

theorem launchIssue_of_high {c : Ctx} {h : Nat} (x : EForm) (hm : h ∈ c.act) (hhigh : c.recordHigh h = true)
    (hlow : ∀ k ∈ c.act, k < h → ¬c.recordHigh k = true) : launchIssue x c = .error (c.trap 0x08 0 (c.val 1 h)) := by
  have hfind : (c.act.map (fun h => (h, c.val 1 h))).find? (fun p => 2 ^ 57 < p.2.toNat + 160) = some (h, c.val 1 h) := by
    rw [List.find?_map]
    exact congrArg (Option.map _) (Ctx.find?_act (p := c.recordHigh) hm hhigh hlow)
  unfold launchIssue
  dsimp only
  rw [hfind]
  rfl

/-- A LAUNCH is outstanding: a lane per active thread, with the address of its record. -/
def Ctx.launched (c : Ctx) (x : EForm) : State :=
  c.issueOp (c.act.map (fun h => LaneReq.mk h (c.val 1 h) 0 0 c.g.viewcur [] .todo)) (if x.d = 0x1FF then [] else [(x.d.toNat, c.actMask)])

theorem launchIssue_of_low {c : Ctx} (x : EForm) (hlow : ∀ h ∈ c.act, ¬c.recordHigh h = true) :
    launchIssue x c = .ok { s := c.launched x } := by
  have hfind : (c.act.map (fun h => (h, c.val 1 h))).find? (fun p => 2 ^ 57 < p.2.toNat + 160) = none := by
    rw [List.find?_map]
    exact congrArg (Option.map _) (List.find?_eq_none.2 hlow)
  unfold launchIssue
  dsimp only
  rw [hfind, List.map_map]
  rfl

/-! ## A task enters the queue -/

theorem State.beyondOps_hostMem (s : State) (m : Cells 8) : ({ s with hostMem := m } : State).beyondOps = s.beyondOps := rfl

theorem State.beyondOps_putLaunch (s : State) (vf : Nat) (e : W32 × Nat × W64) : (s.putLaunch vf e).beyondOps = s.beyondOps := by
  unfold State.putLaunch
  split
  · rfl
  · rw [State.beyondOps_signal, State.beyondOps_modFunc]
    exact State.beyondOps_hostMem ..

theorem State.beyondOps_putLaunches (vf : Nat) (l : List (W32 × Nat × W64)) (s : State) :
    (State.putLaunches vf l s).beyondOps = s.beyondOps := by
  induction l generalizing s with
  | nil => rfl
  | cons e l ih =>
    unfold State.putLaunches
    split
    · rfl
    · rw [ih, State.beyondOps_putLaunch]

theorem State.beyondOps_launchEntry (s : State) (vf : Nat) (id : W32) (status : Nat) (user : W64) :
    (s.launchEntry vf id status user).beyondOps = s.beyondOps := by
  unfold State.launchEntry
  split
  · rfl
  · split
    · exact State.beyondOps_putLaunches ..
    · rfl

theorem State.beyondOps_wakeCreator (s : State) (creator : Option Nat) : (s.wakeCreator creator).beyondOps = s.beyondOps := by
  unfold State.wakeCreator
  split <;> rfl

/-- The id that the next task of a VF takes. -/
def State.nextTask (s : State) (vf : Nat) : Option W32 := (s.func? vf).map Func.nextId

theorem State.nextTask_modFunc {f : Func → Func} (hf : ∀ x, (f x).nextId = x.nextId) (s : State) (k vf : Nat) :
    (s.modFunc k f).nextTask vf = s.nextTask vf := by
  rw [State.nextTask, State.func_modFunc, State.nextTask]
  split_ifs with h
  · subst h
    rw [Option.map_map]
    exact congrArg (fun F => (s.func? vf).map F) (funext hf)
  · rfl

theorem State.nextTask_hostMem (s : State) (m : Cells 8) (vf : Nat) : ({ s with hostMem := m } : State).nextTask vf = s.nextTask vf := rfl

theorem State.nextTask_signal (s : State) (fn v vf : Nat) : (s.signal fn v).nextTask vf = s.nextTask vf := rfl

theorem State.nextTask_putLaunch (s : State) (k vf : Nat) (e : W32 × Nat × W64) : (s.putLaunch k e).nextTask vf = s.nextTask vf := by
  unfold State.putLaunch
  split
  · rfl
  · rw [State.nextTask_signal, State.nextTask_modFunc (f := fun f => { f with lcPi := f.lcPi + 1 }) fun _ => rfl]
    exact State.nextTask_hostMem ..

theorem State.nextTask_putLaunches (k vf : Nat) (l : List (W32 × Nat × W64)) (s : State) :
    (State.putLaunches k l s).nextTask vf = s.nextTask vf := by
  induction l generalizing s with
  | nil => exact State.nextTask_modFunc (f := fun f => { f with lcHeld := [] }) (fun _ => rfl) s k vf
  | cons e l ih =>
    unfold State.putLaunches
    split
    · exact State.nextTask_modFunc (f := fun f => { f with lcHeld := e :: l }) (fun _ => rfl) s k vf
    · rw [ih, State.nextTask_putLaunch]

theorem State.nextTask_launchEntry (s : State) (k vf : Nat) (id : W32) (status : Nat) (user : W64) :
    (s.launchEntry k id status user).nextTask vf = s.nextTask vf := by
  unfold State.launchEntry
  split
  · rfl
  · split
    · exact State.nextTask_putLaunches ..
    · rfl

theorem State.nextTask_wakeCreator (s : State) (creator : Option Nat) (vf : Nat) : (s.wakeCreator creator).nextTask vf = s.nextTask vf := by
  unfold State.wakeCreator
  split <;> rfl

/-- A task has left the queue with a status. -/
def State.taskLeft (s : State) (vf : Nat) (id : W32) (status : Nat) (creator : Option Nat) : State :=
  { s with
    queue := s.queue.filter (fun x => !(x.vf == vf && x.id == id))
    done := ⟨vf, id, BitVec.ofNat 8 status, creator, s.tick⟩ :: s.done.filter (fun d => !(d.vf == vf && d.id == id)) }

/-- A task that completes leaves the queue, and its status stands first among the tasks that are done; ids go on. -/
theorem State.finishTask_spec {s : State} {vf : Nat} {id : W32} (hin : ∃ e ∈ s.queue, e.vf = vf ∧ e.id = id) (status hostStatus : Nat)
    (silent : Bool) :
    let t := s.finishTask vf id status hostStatus silent
    t.queue = s.queue.filter (fun x => !(x.vf == vf && x.id == id)) ∧
      (∃ d rest, t.done = d :: rest ∧ d.vf = vf ∧ d.id = id ∧ d.status = BitVec.ofNat 8 status) ∧ ∀ k, t.nextTask k = s.nextTask k := by
  have hsome : (s.queue.find? (fun e => e.vf == vf && e.id == id)).isSome = true := by
    obtain ⟨e, he, hvf, hid⟩ := hin
    rw [List.find?_isSome]
    exact ⟨e, he, by simp [hvf, hid]⟩
  obtain ⟨e, he⟩ := Option.isSome_iff_exists.1 hsome
  unfold State.finishTask
  rw [he]
  dsimp only
  split
  · have hkeep := (State.beyondOps_launchEntry _ vf id hostStatus e.record.user).trans (State.beyondOps_wakeCreator (s.taskLeft vf id status e.creator) e.creator)
    exact ⟨(congrArg State.queue hkeep :), ⟨_, _, (congrArg State.done hkeep :), rfl, rfl, rfl⟩, fun k =>
      (State.nextTask_launchEntry ..).trans (State.nextTask_wakeCreator ..)⟩
  · have hkeep := State.beyondOps_wakeCreator (s.taskLeft vf id status e.creator) e.creator
    exact ⟨(congrArg State.queue hkeep :), ⟨_, _, (congrArg State.done hkeep :), rfl, rfl, rfl⟩, fun k => State.nextTask_wakeCreator ..⟩

/-- The status of the task that took the last id, once it is the first of those that are done. -/
theorem State.taskStatus_of_done {s : State} {vf : Nat} {id : W32} {d : TaskDone} {rest : List TaskDone}
    (hnext : s.nextTask vf = some (id + 1)) (hqueue : ∀ e ∈ s.queue, ¬(e.vf = vf ∧ e.id = id)) (hdone : s.done = d :: rest)
    (hvf : d.vf = vf) (hid : d.id = id) : s.taskStatus vf id = some d.status.toNat := by
  obtain ⟨f, hf, hfn⟩ := Option.map_eq_some_iff.1 hnext
  have hage : (f.nextId - id).toNat = 1 := by
    rw [hfn, show id + 1 - id = 1 by bv_omega]
    rfl
  have hgone : s.queue.any (fun e => e.vf == vf && e.id == id) = false := by
    rw [List.any_eq_false]
    exact fun e he => by simpa using hqueue e he
  unfold State.taskStatus
  rw [hf]
  dsimp only
  rw [hage, hgone, hdone, List.find?_cons_of_pos (by simp [hvf, hid])]
  rfl

/-- The queue entry of a new task, ordered after the tasks whose declared ranges meet its own (R180, R383). -/
def State.newEntry (s : State) (vf level : Nat) (id : W32) (r : LaunchRec) (creator : Option Nat) : QEntry :=
  ⟨vf, id, level, r, if r.malformed then [] else (s.queue.filter (fun e => e.vf == vf && r.orderedAfter e.record)).map (·.id), s.cycle 0,
    false, creator, if r.fromHost then maxT s.dmaW s.dmaLr else 0, false⟩

/-- The queue with one more task of a VF, whose next task takes the id after it. -/
def State.taskQueued (s : State) (vf level : Nat) (id : W32) (r : LaunchRec) (creator : Option Nat) : State :=
  { s with queue := s.queue ++ [s.newEntry vf level id r creator] }.modFunc vf (fun f => { f with nextId := id + 1 })

theorem State.addTask_of {s : State} {vf : Nat} {f : Func} (hf : s.func? vf = some f) (level : Nat) (r : LaunchRec) (creator : Option Nat) :
    s.addTask vf level r creator = (if r.malformed then (s.taskQueued vf level f.nextId r creator).finishTask vf f.nextId 3 3 false
      else s.taskQueued vf level f.nextId r creator, f.nextId) := by
  unfold State.addTask
  rw [hf]
  rfl

theorem State.nextTask_taskQueued {s : State} {vf : Nat} {f : Func} (hf : s.func? vf = some f) (level : Nat) (id : W32) (r : LaunchRec)
    (creator : Option Nat) : (s.taskQueued vf level id r creator).nextTask vf = some (id + 1) := by
  rw [State.nextTask, State.taskQueued, State.func_modFunc, if_pos rfl, Option.map_map]
  exact congrArg (Option.map (fun _ : Func => id + 1)) hf

/-! ## LAUNCH_ENTRY_GRANT -/

theorem State.tryLaunch_of {s : State} {id lane : Nat} {o : MemOp} {x : EForm} {l : LaneReq} {g : Group} {w : Workgroup} {la : Launch}
    (ho : s.op? id = some o) (hi : o.instr = .launch x) (hl : o.lane? lane = some l) (hg : s.group? o.gid = some g)
    (hw : s.wg? g.wid = some w) (hla : s.launch? w.lid = some la) (hlog : l.isLogged = false) (hres : s.resident o.gid = true)
    (hshut : s.shutLane o l = false) :
    (s.launchBlocked o l = true → s.tryLaunch id lane = s) ∧
    ∀ s1 bs, s.launchBlocked o l = false → s.releaseOk o = true → s.needsWalk o.asid.toNat l.addr.toNat = false →
      s.engineReadAll o.asid.toNat l.addr.toNat 160 = .ok (s1, bs, false) → s.tryLaunch id lane =
        if !s1.queueFree la.vf || s.launchWaits o l then
          (s1.modOp id (fun o => { o with lanes := o.lanes.map (fun y => if y.lane = lane then { y with stage := .waiting } else y) })).freeEntry id
        else
          let a := s1.addTask la.vf (x.cmd.toNat % 8) (parseTask s1 bs la.record.asid la.fpctl l.view la.record.tvec) (some o.gid)
          (if x.d = 0x1FF then a.1
            else a.1.modGroup o.gid (fun g => g.deliver false x.d.toNat lane (a.2.setWidth 64))).laneDone o.gid id lane := by
  unfold State.tryLaunch
  rw [ho]
  dsimp only
  rw [hi, hl, hg]
  dsimp only
  rw [hw, Option.bind_some, hla]
  dsimp only
  rw [hlog, hres, hshut]
  refine ⟨fun hb => ?_, fun s1 bs hb hrel hwalk hread => ?_⟩
  · rw [hb]
    rfl
  · rw [hb, hrel, hwalk, hread]
    rfl

/-! ## TWAIT -/

/-- What a fold leaves where some of its steps write one value and no other step writes there. -/
theorem foldl_written {α β γ : Type} {f : β → α → β} {read : β → γ} {v : γ} (writes : α → Prop) {l : List α}
    (hyes : ∀ b, ∀ p ∈ l, writes p → read (f b p) = v) (hno : ∀ b, ∀ p ∈ l, ¬writes p → read (f b p) = read b)
    (hex : ∃ p ∈ l, writes p) (b : β) : read (l.foldl f b) = v := by
  induction l using List.reverseRecOn with
  | nil => obtain ⟨p, hp, -⟩ := hex; cases hp
  | append_singleton l a ih =>
    have ha : a ∈ l ++ [a] := List.mem_append_right _ (List.mem_singleton_self _)
    rw [List.foldl_append, List.foldl_cons, List.foldl_nil]
    by_cases hw : writes a
    · exact hyes _ a ha hw
    · rw [hno _ a ha hw]
      refine ih (fun b p hp => hyes b p (List.mem_append_left _ hp)) (fun b p hp => hno b p (List.mem_append_left _ hp)) ?_
      obtain ⟨p, hp, hwp⟩ := hex
      rcases List.mem_append.1 hp with hp | hp
      · exact ⟨p, hp, hwp⟩
      · exact absurd (List.mem_singleton.1 hp ▸ hwp) hw

/-- The greatest key of a list. -/
theorem foldl_max_eq {α : Type} (key : α → Nat) {v : Nat} (l : List α) (m : Nat) (hm : m ≤ v) (hl : ∀ p ∈ l, key p ≤ v)
    (hv : v = m ∨ ∃ p ∈ l, key p = v) : l.foldl (fun m p => max m (key p)) m = v := by
  induction l generalizing m with
  | nil => simpa [eq_comm] using hv
  | cons a l ih =>
    have ha := hl a List.mem_cons_self
    refine ih (max m (key a)) (max_le hm ha) (fun p hp => hl p (List.mem_cons_of_mem _ hp)) ?_
    rcases hv with hv | ⟨p, hp, hkey⟩
    · exact .inl (by omega)
    · rcases List.mem_cons.1 hp with rfl | hp
      · exact .inl (by omega)
      · exact .inr ⟨p, hp, hkey⟩

theorem Group.mem_twaits {g : Group} {tok h : Nat} {id : W32} {d : BitVec 9} :
    (h, id, d) ∈ g.twaits tok ↔ ∃ y, g.threads[h]? = some y ∧ y.wait = .twait tok id d := by
  unfold Group.twaits
  rw [List.mem_filterMap]
  constructor
  · rintro ⟨⟨y, k⟩, hy, hsome⟩
    cases hw : y.wait <;> simp only [hw, reduceCtorEq] at hsome
    split_ifs at hsome with htok
    cases hsome
    exact ⟨y, List.mem_zipIdx_iff_getElem?.1 hy, by rw [hw, htok]⟩
  · rintro ⟨y, hy, hw⟩
    exact ⟨(y, h), List.mem_zipIdx_iff_getElem?.2 hy, by simp [hw]⟩

/-- A lane of a completed TWAIT receives its task's status, or an s register the largest of all (R181). -/
def Group.putStatus (most : Nat) (g : Group) (p : Nat × Nat × BitVec 9) : Group :=
  if p.2.2.toNat < 0x100 then g.setVreg p.1 p.2.2.toNat (BitVec.ofNat 32 p.2.1)
  else if p.2.2.toNat < 0x140 then g.setSreg (p.2.2.toNat - 0x100) (BitVec.ofNat 64 most)
  else g

/-- A group but for its registers and the marks on bad ones. -/
def Group.noRegs (g : Group) : Group := { g with vregs := [], sregs := [], badV := [], badS := [] }

/-- Registers are all that the statuses change. -/
theorem Group.noRegs_putStatus (most : Nat) (g : Group) (p : Nat × Nat × BitVec 9) : (g.putStatus most p).noRegs = g.noRegs := by
  unfold Group.putStatus
  split_ifs <;> rfl

theorem Group.noRegs_putStatuses (most : Nat) (sts : List (Nat × Nat × BitVec 9)) (g : Group) :
    (sts.foldl (Group.putStatus most) g).noRegs = g.noRegs :=
  foldl_keeps Group.noRegs (fun g p => Group.noRegs_putStatus most g p) sts g

theorem Group.vreg_putStatus (most : Nat) (g : Group) (p : Nat × Nat × BitVec 9) (h : Nat) {n : Nat} (hn : n < 0x100) :
    (g.putStatus most p).vreg h n = if p.1 = h ∧ p.2.2.toNat = n then BitVec.ofNat 32 p.2.1 else g.vreg h n := by
  unfold Group.putStatus
  by_cases hv : p.2.2.toNat < 0x100
  · rw [if_pos hv]
    refine (Cells.get_set ..).trans (if_congr ?_ rfl rfl)
    omega
  · rw [if_neg hv, if_neg (c := p.1 = h ∧ _) (by omega)]
    split_ifs <;> rfl

theorem Group.sreg_putStatus (most : Nat) (g : Group) (p : Nat × Nat × BitVec 9) {n : Nat} (hn : n < 0x40) :
    (g.putStatus most p).sreg n = if p.2.2.toNat = 0x100 + n then BitVec.ofNat 64 most else g.sreg n := by
  unfold Group.putStatus
  by_cases hv : p.2.2.toNat < 0x100
  · rw [if_pos hv, if_neg (by omega)]
    rfl
  · rw [if_neg hv]
    by_cases hs : p.2.2.toNat < 0x140
    · rw [if_pos hs]
      refine (Cells.get_set ..).trans (if_congr ?_ rfl rfl)
      omega
    · rw [if_neg hs, if_neg (by omega)]

/-- Register n of a lane holds the status of the task that the lane waited for there. -/
theorem Group.vreg_putStatuses {most h st : Nat} {d : BitVec 9} {sts : List (Nat × Nat × BitVec 9)} (hin : (h, st, d) ∈ sts)
    (honly : ∀ p ∈ sts, p.1 = h → p = (h, st, d)) (hd : d.toNat < 0x100) (g : Group) :
    (sts.foldl (Group.putStatus most) g).vreg h d.toNat = BitVec.ofNat 32 st := by
  refine foldl_written (fun p : Nat × Nat × BitVec 9 => p.1 = h ∧ p.2.2.toNat = d.toNat) (read := fun g : Group => g.vreg h d.toNat)
    (fun g p hp hw => ?_) (fun g p _ hw => ?_) ⟨_, hin, rfl, rfl⟩ g
  · obtain rfl := honly p hp hw.1
    exact (g.vreg_putStatus most _ h hd).trans (if_pos ⟨rfl, rfl⟩)
  · exact (g.vreg_putStatus most p h hd).trans (if_neg hw)

theorem Group.sreg_putStatuses {most h st : Nat} {d : BitVec 9} {sts : List (Nat × Nat × BitVec 9)} (hin : (h, st, d) ∈ sts)
    (hlo : 0x100 ≤ d.toNat) (hhi : d.toNat < 0x140) (g : Group) :
    (sts.foldl (Group.putStatus most) g).sreg (d.toNat - 0x100) = BitVec.ofNat 64 most := by
  have hn : d.toNat - 0x100 < 0x40 := by omega
  refine foldl_written (fun p : Nat × Nat × BitVec 9 => p.2.2.toNat = 0x100 + (d.toNat - 0x100))
    (read := fun g : Group => g.sreg (d.toNat - 0x100)) (fun g p _ hw => ?_) (fun g p _ hw => ?_) ⟨_, hin, ?_⟩ g
  · exact (g.sreg_putStatus most p hn).trans (if_pos hw)
  · exact (g.sreg_putStatus most p hn).trans (if_neg hw)
  · show d.toNat = _
    omega

/-- A thread that waits under a token. -/
def Wait.twaitsFor (tok : Nat) : Wait → Bool
  | .twait t _ _ => t == tok
  | _ => false

theorem Wait.twaitsFor_iff {w : Wait} {tok : Nat} : w.twaitsFor tok = true ↔ ∃ id d, w = .twait tok id d := by
  cases w <;> simp [Wait.twaitsFor]

/-- A group when its TWAIT completes. -/
def Group.twaited (g : Group) (tok most : Nat) (sts : List (Nat × Nat × BitVec 9)) : Group :=
  (sts.foldl (Group.putStatus most) g).endWait (Wait.twaitsFor tok) tok

theorem Group.twaited_pend (g : Group) (tok most : Nat) (sts : List (Nat × Nat × BitVec 9)) :
    (g.twaited tok most sts).pend = g.pend.filter (fun p => p.op != tok) :=
  (congrArg (fun x : Group => x.pend.filter (fun p => p.op != tok)) (Group.noRegs_putStatuses most sts g) :)

theorem Group.twaited_thread {g : Group} {h : Nat} {y : Thread} (hy : g.threads[h]? = some y) (tok most : Nat)
    (sts : List (Nat × Nat × BitVec 9)) :
    (g.twaited tok most sts).threads[h]? = some (if y.wait.twaitsFor tok then { y with wait := .none } else y) := by
  have hthreads : (sts.foldl (Group.putStatus most) g).threads = g.threads := (congrArg Group.threads (Group.noRegs_putStatuses most sts g) :)
  rw [Group.twaited, Group.endWait, hthreads, List.getElem?_map, hy]
  rfl

/-- The tasks that threads wait for under a token, with those statuses that are known. -/
def State.statuses (s : State) (g : Group) (la : Launch) (tok : Nat) : List (Nat × Nat × BitVec 9) :=
  (g.twaits tok).filterMap (fun p => (s.taskStatus la.vf p.2.1).map (fun st => (p.1, st, p.2.2)))

theorem State.mem_statuses {s : State} {g : Group} {la : Launch} {tok h st : Nat} {d : BitVec 9} :
    (h, st, d) ∈ s.statuses g la tok ↔
      ∃ y id, g.threads[h]? = some y ∧ y.wait = .twait tok id d ∧ s.taskStatus la.vf id = some st := by
  unfold State.statuses
  rw [List.mem_filterMap]
  constructor
  · rintro ⟨⟨k, id, e⟩, hin, hst⟩
    obtain ⟨x, hx, heq⟩ := Option.map_eq_some_iff.1 hst
    cases heq
    obtain ⟨y, hy, hw⟩ := Group.mem_twaits.1 hin
    exact ⟨y, id, hy, hw, hx⟩
  · rintro ⟨y, id, hy, hw, hst⟩
    exact ⟨(h, id, d), Group.mem_twaits.2 ⟨y, hy, hw⟩, by simp [hst]⟩

/-- A lane has one status. -/
theorem State.statuses_unique {s : State} {g : Group} {la : Launch} {tok h st : Nat} {d : BitVec 9}
    (hin : (h, st, d) ∈ s.statuses g la tok) {p : Nat × Nat × BitVec 9} (hp : p ∈ s.statuses g la tok) (hh : p.1 = h) : p = (h, st, d) := by
  obtain ⟨k, st', d'⟩ := p
  obtain rfl : k = h := hh
  obtain ⟨y, id, hy, hw, hst⟩ := State.mem_statuses.1 hin
  obtain ⟨y', id', hy', hw', hst'⟩ := State.mem_statuses.1 hp
  obtain rfl := Option.some.inj (hy.symm.trans hy')
  obtain ⟨-, rfl, rfl⟩ := Wait.twait.inj (hw.symm.trans hw')
  obtain rfl := Option.some.inj (hst.symm.trans hst')
  rfl

/-- Every task that is waited for has completed. -/
theorem State.statuses_length (s : State) (g : Group) (la : Launch) (tok : Nat) :
    (s.statuses g la tok).length < (g.twaits tok).length ↔
      ∃ y ∈ g.threads, ∃ id d, y.wait = .twait tok id d ∧ s.taskStatus la.vf id = none := by
  rw [State.statuses, List.length_filterMap_eq_countP, List.countP_lt_length_iff]
  constructor
  · rintro ⟨⟨h, id, d⟩, hin, hnone⟩
    obtain ⟨y, hy, hw⟩ := Group.mem_twaits.1 hin
    exact ⟨y, List.mem_of_getElem? hy, id, d, hw, by simpa using hnone⟩
  · rintro ⟨y, hy, id, d, hw, hnone⟩
    obtain ⟨h, hy⟩ := List.mem_iff_getElem?.1 hy
    exact ⟨(h, id, d), Group.mem_twaits.2 ⟨y, hy, hw⟩, by simp [hnone]⟩

theorem Group.twaits_ne_nil {g : Group} {tok : Nat} (hex : ∃ y ∈ g.threads, ∃ id d, y.wait = .twait tok id d) : g.twaits tok ≠ [] := by
  obtain ⟨y, hy, id, d, hw⟩ := hex
  obtain ⟨h, hy⟩ := List.mem_iff_getElem?.1 hy
  exact List.ne_nil_of_mem (Group.mem_twaits.2 ⟨y, hy, hw⟩)

theorem State.twaitDone_of {s : State} {gid tok : Nat} {g : Group} {w : Workgroup} {la : Launch} (hg : s.group? gid = some g)
    (hw : s.wg? g.wid = some w) (hla : s.launch? w.lid = some la) :
    s.twaitDone gid tok = if g.twaits tok = [] || (s.statuses g la tok).length < (g.twaits tok).length then s
      else s.modGroup gid (fun x =>
        x.twaited tok ((s.statuses g la tok).foldl (fun m p => max m p.2.1) 0) (s.statuses g la tok)) := by
  unfold State.twaitDone
  rw [hg]
  dsimp only
  rw [hw, Option.bind_some, hla]
  rfl

/-- TWAIT_COMPLETE does nothing, or changes its group only, whose single step stays. -/
theorem State.twaitDone_cases (s : State) (gid tok : Nat) :
    s.twaitDone gid tok = s ∨ ∃ most sts, s.twaitDone gid tok = s.modGroup gid (fun x => x.twaited tok most sts) := by
  unfold State.twaitDone
  split
  · exact .inl rfl
  split
  · exact .inl rfl
  dsimp only
  split_ifs
  · exact .inl rfl
  · exact .inr ⟨_, _, rfl⟩

theorem Group.twaited_stepPath (g : Group) (tok most : Nat) (sts : List (Nat × Nat × BitVec 9)) :
    (g.twaited tok most sts).stepPath = g.stepPath :=
  (congrArg Group.stepPath (Group.noRegs_putStatuses most sts g) :)

/-- The issuing group in TWAIT: its active threads wait, and the destination is pending. -/
def Ctx.twaitMarked (c : Ctx) (x : XForm) (g : Group) : Group :=
  { g.modThreads c.act.contains (fun h t => { t with wait := .twait c.s.tick ((c.val 1 h).setWidth 32) x.d }) with
    pend := g.pend ++ (if x.d.toNat < 0x100 then [⟨c.s.tick, x.d.toNat, c.actMask⟩]
      else if x.d.toNat < 0x140 then [⟨c.s.tick, x.d.toNat, 1⟩] else []) }

def Ctx.twaiting (c : Ctx) (x : XForm) : State := { c.s with tick := c.s.tick + 1 }.modGroup c.g.gid (c.twaitMarked x)

end Sys2Proof.Machine

open Sys2Proof Sys2Proof.Machine

/-- R179, R180, R385, R386: LAUNCH, LAUNCH_ENTRY_GRANT and the task that enters the queue. -/
theorem tasksLaunch : Statements.TasksLaunch := by
  refine ⟨fun x s c h => ?_, fun s s1 id lane o x l g w la bs ho hi hl hg hw hla hlog hres hshut => ?_, fun s vf level r cr f hf => ?_⟩
  · obtain ⟨rfl, -⟩ := State.issues_ctx h
    refine ⟨fun k hk hhigh hlow => issueWord_of_error h (launchIssue_of_high x hk (decide_eq_true hhigh) ?_), fun hlow =>
      issueWord_of_ok h (launchIssue_of_low x ?_) (c.completable_issueOp _ _)⟩
    · exact fun j hj hlt => mt of_decide_eq_true (hlow j hj hlt)
    · exact fun j hj => mt of_decide_eq_true (hlow j hj)
  · obtain ⟨hstay, hgo⟩ := State.tryLaunch_of ho hi hl hg hw hla hlog hres hshut
    refine ⟨fun hb => congrArg (done s) (hstay hb), fun hb hrel hwalk hread => ?_⟩
    have hgo := hgo s1 bs hb hrel hwalk hread
    refine ⟨fun hfull => congrArg (done s) (hgo.trans (if_pos ?_)), fun hfree hfirst => congrArg (done s) (hgo.trans (if_neg ?_))⟩
    · rcases hfull with hfull | hfull
      · rw [hfull]; rfl
      · rw [hfull, Bool.or_true]
    · rw [hfree, hfirst]
      exact Bool.false_ne_true
  · intro a
    have ha : a = _ := State.addTask_of hf level r cr
    have hnext := State.nextTask_taskQueued hf level f.nextId r cr
    have hentry : s.newEntry vf level f.nextId r cr ∈ (s.taskQueued vf level f.nextId r cr).queue :=
      List.mem_append_right _ (List.mem_singleton_self _)
    obtain ⟨hqueue, ⟨d, rest, hdone, hvf, hid, hstatus⟩, hkeep⟩ :=
      State.finishTask_spec (vf := vf) (id := f.nextId) ⟨_, hentry, rfl, rfl⟩ 3 3 false
    rw [ha]
    refine ⟨rfl, ?_, fun hgood => ?_, fun hbad => ?_⟩
    · have hnext' : (if r.malformed then (s.taskQueued vf level f.nextId r cr).finishTask vf f.nextId 3 3 false
          else s.taskQueued vf level f.nextId r cr).nextTask vf = some (f.nextId + 1) := by
        split
        · rw [hkeep, hnext]
        · exact hnext
      exact Option.map_eq_some_iff.1 hnext'
    · dsimp only
      rw [if_neg (by rw [hgood]; exact Bool.false_ne_true)]
      simp only [State.taskQueued, State.newEntry, hgood]
      rfl
    · dsimp only
      rw [if_pos hbad, State.taskStatus_of_done ((hkeep vf).trans hnext) ?_ hdone hvf hid, hstatus]
      · rfl
      · intro e he
        rw [hqueue] at he
        simpa [imp_iff_not_or] using (List.mem_filter.1 he).2

/-- R181, R195: TWAIT, and the completion of its tasks. -/
theorem tasksAwaited : Statements.TasksAwaited := by
  refine ⟨fun x s c h => ?_, fun s tok g w la hg hw hla => ?_⟩
  · obtain ⟨rfl, -⟩ := State.issues_ctx h
    refine issueWord_of_active h rfl ⟨rfl, ?_, ?_⟩
    · obtain hsame | ⟨most, sts, hmod⟩ := State.twaitDone_cases (c.twaiting x) c.g.gid c.s.tick
      · exact (congrArg State.fuses hsame :)
      · exact (congrArg State.fuses hmod :)
    · have hwaiting := State.stepPath_modGroup (f := c.twaitMarked x) (fun _ => rfl) { c.s with tick := c.s.tick + 1 } c.g.gid c.g.gid
      obtain hsame | ⟨most, sts, hmod⟩ := State.twaitDone_cases (c.twaiting x) c.g.gid c.s.tick
      · exact (congrArg (fun u : State => (u.group? c.g.gid).map Group.stepPath) hsame).trans hwaiting
      · exact (congrArg (fun u : State => (u.group? c.g.gid).map Group.stepPath) hmod).trans
          ((State.stepPath_modGroup (fun y => y.twaited_stepPath c.s.tick most sts) (c.twaiting x) c.g.gid c.g.gid).trans hwaiting)
  · intro waits
    have hdone := State.twaitDone_of (tok := tok) hg hw hla
    refine ⟨fun hopen => congrArg (done s) (hdone.trans (if_pos ?_)), fun hex hall => ?_⟩
    · obtain ⟨y, hy, id, d, hwait, hnone⟩ := hopen
      rw [Bool.or_eq_true, decide_eq_true_eq, decide_eq_true_eq]
      exact .inr ((s.statuses_length g la tok).2 ⟨y, hy, id, d, hwait, hnone⟩)
    · have hgo : ¬(g.twaits tok = [] || (s.statuses g la tok).length < (g.twaits tok).length) = true := by
        rw [Bool.or_eq_true, decide_eq_true_eq, decide_eq_true_eq, not_or]
        refine ⟨Group.twaits_ne_nil hex, fun hlt => ?_⟩
        obtain ⟨y, hy, id, d, hwait, hnone⟩ := (s.statuses_length g la tok).1 hlt
        exact hall y hy id d hwait hnone
      have hkeep := Group.noRegs_putStatuses ((s.statuses g la tok).foldl (fun m p => max m p.2.1) 0) (s.statuses g la tok) g
      refine ⟨_, _, congrArg (done s) (hdone.trans (if_neg hgo)), s.modGroup_onlyGroup _ _,
        State.group_mod_self hg (congrArg Group.gid hkeep :), fun p => ?_, fun h y z hy hz => ?_⟩
      · rw [Group.twaited_pend, List.mem_filter, bne_iff_ne]
      · rw [Group.twaited_thread hy] at hz
        obtain rfl := Option.some.inj hz
        refine ⟨fun hno => if_neg fun hwaits => ?_, fun id d st hwait hst => ⟨if_pos (Wait.twaitsFor_iff.2 ⟨id, d, hwait⟩), ?_, ?_⟩⟩
        · obtain ⟨id, d, hwait⟩ := Wait.twaitsFor_iff.1 hwaits
          exact hno id d hwait
        · have hin := State.mem_statuses.2 ⟨y, id, hy, hwait, hst⟩
          intro hd
          exact Group.vreg_putStatuses hin (fun p hp hh => State.statuses_unique hin hp hh) hd g
        · have hin := State.mem_statuses.2 ⟨y, id, hy, hwait, hst⟩
          intro hlo hhi hmax
          have hmost : (s.statuses g la tok).foldl (fun m p => max m p.2.1) 0 = st := by
            refine foldl_max_eq (fun p : Nat × Nat × BitVec 9 => p.2.1) _ 0 (Nat.zero_le _) (fun p hp => ?_) (.inr ⟨_, hin, rfl⟩)
            obtain ⟨y', id', hy', hwait', hst'⟩ := State.mem_statuses.1 hp
            exact hmax y' (List.mem_of_getElem? hy') id' p.2.2 p.2.1 hwait' hst'
          have hs := Group.sreg_putStatuses (most := st) hin hlo hhi g
          rw [hmost]
          exact hs

/-- Settles O44: LAUNCH and its tasks, and the waits for them. -/
theorem tasksLaunchAndComplete : Obligations.TasksLaunchAndComplete := ⟨tasksLaunch, tasksAwaited⟩

end

section
/-! # Barriers (O41) -/

namespace Sys2Proof.Machine

/-! ## A barrier of a workgroup (R169) -/

/-- Barrier k of a workgroup of the machine is there, and is b. -/
structure State.HasBarrier (s : State) (w : Workgroup) (k : Nat) (b : Barrier) : Prop where
  wg : s.wg? w.wid = some w
  bound : k < 21
  own : k < 16 → w.bars[k]? = some b
  shared : 16 ≤ k → k < 20 → ∃ cl, s.cluster? w.cid = some cl ∧ cl.cbars[k - 16]? = some b
  step : k = 20 → ∃ la, s.launch? w.lid = some la ∧ la.sstep = b

theorem State.HasBarrier.eq {s : State} {w : Workgroup} {k : Nat} {b : Barrier} (h : s.HasBarrier w k b) : s.barrier w k = b := by
  unfold State.barrier
  split_ifs with h16 h20
  · rw [h.own h16]
    rfl
  · obtain ⟨cl, hcl, hb⟩ := h.shared (by omega) h20
    rw [hcl, Option.bind_some, hb]
    rfl
  · obtain ⟨la, hla, hb⟩ := h.step (by have := h.bound; omega)
    rw [hla]
    exact hb

/-- A barrier survives where workgroups, clusters and launches do. -/
theorem State.HasBarrier.congr {s t : State} {w : Workgroup} {k : Nat} {b : Barrier} (h : s.HasBarrier w k b) (hwgs : t.wgs = s.wgs)
    (hclusters : t.clusters = s.clusters) (hlaunches : t.launches = s.launches) : t.HasBarrier w k b where
  wg := (congrArg (fun l : List Workgroup => l.find? (fun x : Workgroup => x.wid == w.wid)) hwgs).trans h.wg
  bound := h.bound
  own := h.own
  shared h16 h20 := by
    obtain ⟨cl, hcl, hb⟩ := h.shared h16 h20
    exact ⟨cl, (congrArg (fun l : List Cluster => l.find? (fun x : Cluster => x.cid == w.cid)) hclusters).trans hcl, hb⟩
  step h20 := by
    obtain ⟨la, hla, hb⟩ := h.step h20
    exact ⟨la, (congrArg (fun l : List Launch => l.find? (fun x : Launch => x.lid == w.lid)) hlaunches).trans hla, hb⟩

theorem getElem?_modNth {α : Type} {l : List α} {k : Nat} {x : α} (h : l[k]? = some x) (f : α → α) : (modNth l k f)[k]? = some (f x) := by
  rw [modNth, List.getElem?_mapIdx, h, Option.map_some, if_pos rfl]

/-- Workgroups, clusters and launches are all that a barrier's change touches. -/
theorem State.modBarrier_frame (s : State) (w : Workgroup) (k : Nat) (f : Barrier → Barrier) :
    { s.modBarrier w k f with wgs := s.wgs, clusters := s.clusters, launches := s.launches } = s := by
  unfold State.modBarrier
  split_ifs <;> rfl

/-- The barrier of a workgroup after its change; the workgroup keeps its units. -/
theorem State.HasBarrier.mod {s : State} {w : Workgroup} {k : Nat} {b : Barrier} (h : s.HasBarrier w k b) (f : Barrier → Barrier) :
    ∃ w', (s.modBarrier w k f).HasBarrier w' k (f b) ∧ { w' with bars := w.bars } = w := by
  unfold State.modBarrier
  split_ifs with h16 h20
  · refine ⟨{ w with bars := modNth w.bars k f }, ⟨?_, h.bound, fun _ => getElem?_modNth (h.own h16) f, fun _ _ => by omega,
      fun _ => by omega⟩, rfl⟩
    rw [State.wg_modWg, if_pos rfl, h.wg]
    rfl
  · obtain ⟨cl, hcl, hb⟩ := h.shared (by omega) h20
    refine ⟨w, ⟨h.wg, h.bound, fun _ => by omega, fun _ _ => ⟨{ cl with cbars := modNth cl.cbars (k - 16) f, cid := w.cid }, ?_,
      getElem?_modNth hb f⟩, fun _ => by omega⟩, rfl⟩
    rw [State.cluster_modCluster, if_pos rfl, hcl]
    rfl
  · obtain ⟨la, hla, rfl⟩ := h.step (by have := h.bound; omega)
    refine ⟨w, ⟨h.wg, h.bound, fun _ => by omega, fun _ _ => by omega, fun _ => ⟨{ la with sstep := f la.sstep, lid := w.lid }, ?_, rfl⟩⟩, rfl⟩
    rw [State.launch_modLaunch, if_pos rfl, hla]
    rfl

/-! ## Arrivals (R169, R170) -/

/-- A barrier with the marks of a group that has not arrived. -/
def Barrier.marked (gid n : Nat) (mask : W64) (b : Barrier) : Barrier :=
  { b with
    marks := match b.marks.find? (fun m => m.1 == gid) with
      | some _ => b.marks.map (fun m => if m.1 = gid then (gid, m.2 ||| mask) else m)
      | none => b.marks ++ [(gid, mask)]
    firstN := if b.firstN.any (fun e => e.1 == gid) then b.firstN else b.firstN ++ [(gid, n)] }

/-- A barrier at which a group has arrived in the open phase. -/
def Barrier.arrivedAt (gid n tok : Nat) (b : Barrier) : Barrier :=
  { b with
    marks := b.marks.filter (fun m => m.1 != gid)
    firstN := b.firstN.filter (fun e => e.1 != gid)
    arrived := b.arrived ++ [(gid, tok)]
    count := if b.count.isNone then some n else b.count }

/-- A barrier knows nothing of a group in its open phase. -/
structure Barrier.Without (b : Barrier) (gid : Nat) : Prop where
  marks : ∀ m ∈ b.marks, m.1 ≠ gid
  firstN : ∀ m ∈ b.firstN, m.1 ≠ gid
  arrived : ∀ m ∈ b.arrived, m.1 ≠ gid

theorem Barrier.Without.marked {b : Barrier} {gid : Nat} (h : b.Without gid) (n : Nat) (mask : W64) :
    b.marked gid n mask = { b with marks := b.marks ++ [(gid, mask)], firstN := b.firstN ++ [(gid, n)] } := by
  have hmarks : b.marks.find? (fun m => m.1 == gid) = none := List.find?_eq_none.2 fun m hm => by simpa using h.marks m hm
  have hfirst : b.firstN.any (fun e => e.1 == gid) = false := List.any_eq_false.2 fun m hm => by simpa using h.firstN m hm
  rw [Barrier.marked, hmarks, hfirst]
  rfl

theorem filter_append_self {α : Type} {l : List (Nat × α)} {gid : Nat} (h : ∀ m ∈ l, m.1 ≠ gid) (x : α) :
    (l ++ [(gid, x)]).filter (fun m => m.1 != gid) = l := by
  rw [List.filter_append, List.filter_eq_self.2 fun m hm => by simpa using h m hm]
  simp

/-- The open phase with a group's arrival: the first one fixes its count. -/
theorem Barrier.Without.arrives {b : Barrier} {gid : Nat} (h : b.Without gid) (n tok : Nat) (mask : W64) :
    (b.marked gid n mask).arrivedAt gid n tok = { b with arrived := b.arrived ++ [(gid, tok)], count := some (b.count.getD n) } := by
  rw [h.marked, Barrier.arrivedAt]
  dsimp only
  rw [filter_append_self h.marks, filter_append_self h.firstN]
  cases b.count <;> rfl

/-- A group with the threads of a mask waiting at a barrier, and its destination pending. -/
def Group.atBar (tok k : Nat) (mask : W64) (d : BitVec 9) (g : Group) : Group :=
  let g := g.modThreads (laneIn mask) (fun _ t => { t with wait := .bar tok k none d })
  if d = 0x1FF then g else { g with pend := g.pend ++ [⟨tok, d.toNat, 1⟩] }

/-- A thread whose wait at a barrier is for a phase, once its group has arrived. -/
def Thread.settled (k phase : Nat) (t : Thread) : Thread :=
  match t.wait with
  | .bar tk j none d => if j = k then { t with wait := .bar tk j (some phase) d } else t
  | _ => t

/-- A group that has arrived: the waits of its threads are for the phase in which it did. -/
def Group.settledAt (k phase : Nat) (g : Group) : Group := g.mapThreads (Thread.settled k phase)

/-- Every live thread of a group has arrived, in the open phase. -/
theorem State.checkArrival_of {s : State} {gid k n : Nat} {g : Group} {w : Workgroup} {b : Barrier} {mask : W64} (hg : s.group? gid = some g)
    (hw : s.wg? g.wid = some w) (hb : s.barrier w k = b) (hmark : b.marks.find? (fun m => m.1 == gid) = some (gid, mask))
    (hall : g.live.all (laneIn mask) = true) (hfirst : b.firstN.find? (fun e => e.1 == gid) = some (gid, n))
    (hopen : b.arrived.any (fun a => a.1 == gid) = false) (last : W64) :
    s.checkArrival gid k last =
      ({ s with tick := s.tick + 1 }.modBarrier w k (Barrier.arrivedAt gid n s.tick)).modGroup gid (Group.settledAt k b.phase) := by
  unfold State.checkArrival
  rw [hg]
  dsimp only
  rw [hw]
  dsimp only
  rw [hb, hmark]
  dsimp only
  rw [hall, hfirst, hopen]
  rfl

/-- The state in which a group has marked its threads at a barrier. -/
def State.marking (s : State) (w : Workgroup) (gid k n : Nat) (mask : W64) : State :=
  { s with tick := s.tick + 1 }.modBarrier w k (Barrier.marked gid n mask)

def State.awaiting (s : State) (w : Workgroup) (gid k n : Nat) (mask : W64) (waits : Bool) (d : BitVec 9) : State :=
  if waits then (s.marking w gid k n mask).modGroup gid (Group.atBar s.tick k mask d) else s.marking w gid k n mask

theorem State.arrive_eq (s : State) (w : Workgroup) (gid k n : Nat) (mask : W64) (waits : Bool) (d : BitVec 9) :
    s.arrive w gid k n mask waits d = (s.awaiting w gid k n mask waits d).checkArrival gid k (if waits then 0 else mask) := rfl

/-- The group of an arrival while its threads wait. -/
def Group.waiting (g : Group) (tok k : Nat) (mask : W64) (waits : Bool) (d : BitVec 9) : Group :=
  if waits then g.atBar tok k mask d else g

theorem Group.atBar_frame (tok k : Nat) (mask : W64) (d : BitVec 9) (g : Group) :
    { g.atBar tok k mask d with threads := g.threads, pend := g.pend } = g := by
  unfold Group.atBar
  dsimp only
  split_ifs <;> rfl

theorem Group.waiting_frame (g : Group) (tok k : Nat) (mask : W64) (waits : Bool) (d : BitVec 9) :
    { g.waiting tok k mask waits d with threads := g.threads, pend := g.pend } = g := by
  cases waits
  · rfl
  · exact g.atBar_frame tok k mask d

/-- Groups and the units with barriers are all that an arrival changes. -/
theorem State.awaiting_frame (s : State) (w : Workgroup) (gid k n : Nat) (mask : W64) (waits : Bool) (d : BitVec 9) :
    { s.awaiting w gid k n mask waits d with
      wgs := s.wgs, clusters := s.clusters, launches := s.launches, groups := s.groups, tick := s.tick } = s := by
  have hframe := State.modBarrier_frame { s with tick := s.tick + 1 } w k (Barrier.marked gid n mask)
  unfold State.awaiting
  split_ifs <;> exact congrArg (fun u : State => { u with groups := s.groups, tick := s.tick }) hframe

theorem State.group_awaiting {s : State} {gid : Nat} {g : Group} (hg : s.group? gid = some g) (w : Workgroup) (k n : Nat) (mask : W64)
    (waits : Bool) (d : BitVec 9) :
    (s.awaiting w gid k n mask waits d).group? gid = some (g.waiting s.tick k mask waits d) := by
  have hframe := State.modBarrier_frame { s with tick := s.tick + 1 } w k (Barrier.marked gid n mask)
  have hmark : (s.marking w gid k n mask).group? gid = some g := (congrArg (fun u : State => u.group? gid) hframe :).trans hg
  cases waits
  · exact hmark
  · exact State.group_mod_self hmark (congrArg Group.gid (g.atBar_frame s.tick k mask d) :)

theorem Group.mem_live {g : Group} {h : Nat} : h ∈ g.live ↔ ∃ t, g.threads[h]? = some t ∧ t.exited = false := by
  simp only [Group.live, List.mem_filter, List.mem_range]
  constructor
  · rintro ⟨hlt, hx⟩
    rw [List.getElem?_eq_getElem hlt] at hx
    exact ⟨_, List.getElem?_eq_getElem hlt, by simpa using hx⟩
  · rintro ⟨t, ht, hx⟩
    obtain ⟨hlt, -⟩ := List.getElem?_eq_some_iff.1 ht
    exact ⟨hlt, by rw [ht]; simp [hx]⟩

/-- The thread of a lane while its group's arrival waits. -/
theorem Group.waiting_thread (g : Group) (tok k : Nat) (mask : W64) (waits : Bool) (d : BitVec 9) (h : Nat) :
    (g.waiting tok k mask waits d).threads[h]? =
      (g.threads[h]?).map (fun t => if waits && laneIn mask h then { t with wait := .bar tok k none d } else t) := by
  have hthreads : (g.atBar tok k mask d).threads =
      (g.modThreads (laneIn mask) (fun _ t => { t with wait := .bar tok k none d })).threads := by
    unfold Group.atBar
    dsimp only
    split_ifs <;> rfl
  cases waits
  · exact Option.map_id'.symm
  · exact (congrArg (fun l : List Thread => l[h]?) hthreads).trans (Group.modThreads_getElem? ..)

theorem Group.live_waiting (g : Group) (tok k : Nat) (mask : W64) (waits : Bool) (d : BitVec 9) {h : Nat}
    (hm : h ∈ (g.waiting tok k mask waits d).live) : h ∈ g.live := by
  obtain ⟨t, ht, hx⟩ := Group.mem_live.1 hm
  rw [Group.waiting_thread, Option.map_eq_some_iff] at ht
  obtain ⟨y, hy, rfl⟩ := ht
  refine Group.mem_live.2 ⟨y, hy, ?_⟩
  split_ifs at hx <;> exact hx

theorem find?_append_self {α : Type} {l : List (Nat × α)} {gid : Nat} (h : ∀ m ∈ l, m.1 ≠ gid) (x : α) :
    (l ++ [(gid, x)]).find? (fun m => m.1 == gid) = some (gid, x) := by
  rw [List.find?_append, List.find?_eq_none.2 fun m hm => by simpa using h m hm]
  simp

theorem Group.settledAt_thread (g : Group) (k phase h : Nat) :
    (g.settledAt k phase).threads[h]? = (g.threads[h]?).map (Thread.settled k phase) := List.getElem?_map ..

/-- A thread that did not wait before its arrival: what it waits for once its group has arrived. -/
theorem Thread.settled_arrival {y : Thread} (hy : y.wait = .none) (tok k phase : Nat) (waits : Bool) (d : BitVec 9) :
    (if waits && true then { y with wait := .bar tok k none d } else y : Thread).settled k phase =
      { y with wait := if waits then .bar tok k (some phase) d else .none } := by
  cases waits
  · simp only [Bool.false_and, Bool.false_eq_true, if_false, Thread.settled, hy]
    rw [← hy]
  · simp [Thread.settled]

theorem Group.pend_waiting (g : Group) (tok k : Nat) (mask : W64) {d : BitVec 9} (hd : d ≠ 0x1FF) :
    ⟨tok, d.toNat, 1⟩ ∈ (g.waiting tok k mask true d).pend := by
  have hpend : (g.waiting tok k mask true d).pend = g.pend ++ [⟨tok, d.toNat, 1⟩] := by
    rw [Group.waiting, if_pos rfl, Group.atBar, if_neg hd]
    rfl
  rw [hpend]
  exact List.mem_append_right _ (List.mem_singleton_self _)

/-- Every thread of a group that has not arrived in the open phase arrives at a barrier: what its machine is then. -/
theorem State.arrive_spec {s : State} {w : Workgroup} {g : Group} {k : Nat} {b : Barrier} (hb : s.HasBarrier w k b)
    (hg : s.group? g.gid = some g) (hwid : g.wid = w.wid) (hno : b.Without g.gid) {mask : W64} (hall : ∀ h ∈ g.live, laneIn mask h = true)
    (n : Nat) (waits : Bool) (d : BitVec 9) :
    let t := s.arrive w g.gid k n mask waits d
    (∃ w', t.HasBarrier w' k { b with arrived := b.arrived ++ [(g.gid, s.tick + 1)], count := some (b.count.getD n) } ∧
      { w' with bars := w.bars } = w) ∧
    t.group? g.gid = some ((g.waiting s.tick k mask waits d).settledAt k b.phase) ∧ t.fuses = s.fuses := by
  intro t
  have hframe := s.awaiting_frame w g.gid k n mask waits d
  obtain ⟨w₁, hb₁, hw₁⟩ := (hb.congr (t := { s with tick := s.tick + 1 }) rfl rfl rfl).mod (Barrier.marked g.gid n mask)
  have hbar : (s.awaiting w g.gid k n mask waits d).HasBarrier w₁ k (b.marked g.gid n mask) := by
    cases waits <;> exact hb₁.congr rfl rfl rfl
  have htick : (s.awaiting w g.gid k n mask waits d).tick = s.tick + 1 := by
    have hmark := State.modBarrier_frame { s with tick := s.tick + 1 } w k (Barrier.marked g.gid n mask)
    cases waits <;> exact (congrArg State.tick hmark :)
  have hg₁ := State.group_awaiting hg w k n mask waits d
  have hwid₁ : (g.waiting s.tick k mask waits d).wid = w₁.wid :=
    (congrArg Group.wid (g.waiting_frame s.tick k mask waits d) :).trans (hwid.trans (congrArg Workgroup.wid hw₁ :).symm)
  have hcheck := State.checkArrival_of (n := n) hg₁ (hwid₁ ▸ hbar.wg) hbar.eq (hno.marked n mask ▸ find?_append_self hno.marks mask)
    (List.all_eq_true.2 fun h hm => hall h (g.live_waiting s.tick k mask waits d hm)) (hno.marked n mask ▸ find?_append_self hno.firstN n)
    (List.any_eq_false.2 fun m hm => by simpa using hno.arrived m hm) (if waits then 0 else mask)
  rw [htick] at hcheck
  have ht : t = _ := (s.arrive_eq w g.gid k n mask waits d).trans hcheck
  obtain ⟨w₂, hb₂, hw₂⟩ := (hbar.congr (t := { s.awaiting w g.gid k n mask waits d with tick := s.tick + 1 + 1 }) rfl rfl rfl).mod
    (Barrier.arrivedAt g.gid n (s.tick + 1))
  have hmod := State.modBarrier_frame { s.awaiting w g.gid k n mask waits d with tick := s.tick + 1 + 1 } w₁ k
    (Barrier.arrivedAt g.gid n (s.tick + 1))
  rw [hno.arrives] at hb₂
  rw [ht]
  refine ⟨⟨w₂, hb₂.congr rfl rfl rfl, ?_⟩, ?_, ?_⟩
  · exact (congrArg (fun x : Workgroup => { x with bars := w.bars }) hw₂ :).trans hw₁
  · exact State.group_mod_self (f := Group.settledAt k b.phase) ((congrArg (fun u : State => u.group? g.gid) hmod :).trans hg₁) rfl
  · exact (congrArg State.fuses hmod :).trans (congrArg State.fuses hframe :)

/-! ## BARW -/

/-- The issuing group with its active threads waiting for a phase of a barrier. -/
def Ctx.barWait (c : Ctx) (k p : Nat) (g : Group) : Group :=
  g.modThreads c.act.contains (fun _ t => { t with wait := .bar c.s.tick k (some p) 0x1FF })

def Ctx.barWaiting (c : Ctx) (k p : Nat) : State := { c.s with tick := c.s.tick + 1 }.modGroup c.g.gid (c.barWait k p)

theorem barwIssue_eq (k : Nat) (c : Ctx) :
    barwIssue k c = .ok (if (c.s.barrier c.w k).next.any (fun e => e.1 == c.g.gid) then { s := c.barWaiting k ((c.s.barrier c.w k).phase + 1) }
      else if (c.s.barrier c.w k).arrived.any (fun a => a.1 == c.g.gid) then { s := c.barWaiting k (c.s.barrier c.w k).phase }
      else { s := c.s }) := by
  unfold barwIssue
  dsimp only
  split_ifs <;> rfl

/-! ## Phases (R170 to R172) -/

theorem State.barrierMet_iff (s : State) (w : Workgroup) (k : Nat) :
    let b := s.barrier w k
    let here (g : Group) : Bool := b.arrived.any (fun a => a.1 == g.gid)
    let live := s.groups.filter (fun g => !g.retired && s.atBarrier w k g)
    s.barrierMet w k = true ↔ ∃ n, b.count = some n ∧ (n = 0 → ∀ g ∈ live, here g = true) ∧
      (n ≠ 0 → n ≤ (live.filter here).length) ∧
      ∀ g ∈ live, ∀ a, b.arrived.find? (fun a => a.1 == g.gid) = some a → s.arrivalDone g k a.2 = true := by
  intro b here live
  have hdone (g : Group) : (match b.arrived.find? (fun a => a.1 == g.gid) with
      | some a => s.arrivalDone g k a.2
      | none => true) = true ↔ ∀ a, b.arrived.find? (fun a => a.1 == g.gid) = some a → s.arrivalDone g k a.2 = true := by
    cases b.arrived.find? (fun a => a.1 == g.gid) <;> simp
  have hmet : s.barrierMet w k = match b.count with
      | none => false
      | some n => (if n = 0 then live.all here else n ≤ (live.filter here).length) &&
          live.all (fun g => match b.arrived.find? (fun a => a.1 == g.gid) with
            | some a => s.arrivalDone g k a.2
            | none => true) := rfl
  rw [hmet]
  cases b.count with
  | none => simp
  | some n =>
    dsimp only
    rw [Bool.and_eq_true, List.all_eq_true]
    simp only [hdone, Option.some.injEq, exists_eq_left']
    refine (and_congr_left' ?_).trans and_assoc
    split_ifs with hn
    · simp [hn]
    · simp [hn]

/-- The machine once the open phase of a barrier has ended, if it may (R170 to R172). -/
def State.opened (s : State) (w : Workgroup) (k : Nat) : State :=
  if s.barrierMet w k then
    if k < 20 then s.modBarrier w k Barrier.advance
    else (s.modBarrier w k Barrier.advance).modLaunch w.lid (fun l => { l with superstep := l.superstep + 1 })
  else s

theorem State.barrierStep_eq (s : State) (w : Workgroup) (k : Nat) : s.barrierStep w k = (s.opened w k).releaseBar w k := by
  unfold State.barrierStep State.opened
  split_ifs <;> rfl

/-- A launch whose barrier stays as it was. -/
theorem State.HasBarrier.modLaunch {s : State} {w : Workgroup} {k : Nat} {b : Barrier} (h : s.HasBarrier w k b) {f : Launch → Launch}
    (hf : ∀ l, (f l).sstep = l.sstep) : (s.modLaunch w.lid f).HasBarrier w k b where
  wg := h.wg
  bound := h.bound
  own := h.own
  shared := h.shared
  step h20 := by
    obtain ⟨la, hla, hb⟩ := h.step h20
    refine ⟨{ f la with lid := w.lid }, ?_, (hf la).trans hb⟩
    rw [State.launch_modLaunch, if_pos rfl, hla]
    rfl

/-- The barrier of a workgroup once its phase has ended, if it may. -/
theorem State.HasBarrier.opened {s : State} {w : Workgroup} {k : Nat} {b : Barrier} (h : s.HasBarrier w k b) :
    ∃ w', (s.opened w k).HasBarrier w' k (if s.barrierMet w k then b.advance else b) ∧ { w' with bars := w.bars } = w := by
  unfold State.opened
  split_ifs
  · exact h.mod Barrier.advance
  · obtain ⟨w', hb, hw⟩ := h.mod Barrier.advance
    refine ⟨w', ?_, hw⟩
    have hlid : w'.lid = w.lid := (congrArg Workgroup.lid hw :)
    rw [← hlid]
    exact hb.modLaunch (f := fun l => { l with superstep := l.superstep + 1 }) fun _ => rfl
  · exact ⟨w, h, rfl⟩

theorem State.opened_frame (s : State) (w : Workgroup) (k : Nat) :
    { s.opened w k with wgs := s.wgs, clusters := s.clusters, launches := s.launches } = s := by
  have hframe := s.modBarrier_frame w k Barrier.advance
  unfold State.opened
  split_ifs
  · exact hframe
  · exact (congrArg (fun u : State => { u with launches := s.launches }) hframe :)
  · rfl

theorem State.opened_wgs (s : State) (w : Workgroup) {k : Nat} (hk : ¬k < 16) : (s.opened w k).wgs = s.wgs := by
  unfold State.opened State.modBarrier
  split_ifs <;> rfl

theorem State.atBarrier_opened (s : State) (w : Workgroup) (k : Nat) (g : Group) : (s.opened w k).atBarrier w k g = s.atBarrier w k g := by
  unfold State.atBarrier
  split_ifs with hk
  · rfl
  · have hwg : (s.opened w k).wg? g.wid = s.wg? g.wid :=
      congrArg (fun l : List Workgroup => l.find? (fun x : Workgroup => x.wid == g.wid)) (s.opened_wgs w hk)
    rw [hwg]
  · have hwg : (s.opened w k).wg? g.wid = s.wg? g.wid :=
      congrArg (fun l : List Workgroup => l.find? (fun x : Workgroup => x.wid == g.wid)) (s.opened_wgs w hk)
    rw [hwg]

/-! ## Release -/

theorem Thread.overdue_iff {t : Thread} {k phase : Nat} :
    t.overdue k phase = true ↔ ∃ tok p d, t.wait = .bar tok k (some p) d ∧ p < phase := by
  unfold Thread.overdue
  constructor
  · intro h
    split at h
    next tok j p d hw =>
      obtain ⟨rfl, hlt⟩ : j = k ∧ p < phase := by simpa using h
      exact ⟨tok, p, d, hw, hlt⟩
    next => cases h
  · rintro ⟨tok, p, d, hw, hlt⟩
    rw [hw]
    simp [hlt]

/-- The superstep counter goes to the register that a released SSTEP names (R172). -/
def Group.takeStep (v : W32) (g : Group) (t : Thread) : Group :=
  match t.wait with
  | .bar tok _ _ d =>
    if d = 0x1FF then g
    else { (g.setSreg (d.toNat - 0x100) (v.setWidth 64)) with pend := g.pend.filter (fun p => p.op != tok) }
  | _ => g

/-- The groups that wait at barriers, and their registers, are all that a release changes. -/
def Group.stepless (g : Group) : Group := { g with sregs := [], badS := [], pend := [] }

theorem Group.stepless_takeStep (v : W32) (g : Group) (t : Thread) : (g.takeStep v t).stepless = g.stepless := by
  unfold Group.takeStep
  split
  · split <;> rfl
  · rfl

theorem Group.takeStep_bar {v : W32} {t : Thread} {tok j : Nat} {p : Option Nat} {d : BitVec 9} (hw : t.wait = .bar tok j p d) (g : Group) (n : Nat) :
    (g.takeStep v t).sreg n = if d ≠ 0x1FF ∧ d.toNat - 0x100 = n then v.setWidth 64 else g.sreg n := by
  unfold Group.takeStep
  rw [hw]
  dsimp only
  by_cases hd : d = 0x1FF
  · rw [if_pos hd, if_neg fun h => h.1 hd]
  · rw [if_neg hd]
    refine (Cells.get_set ..).trans (if_congr ⟨fun h => ⟨hd, h.symm⟩, fun h => h.2.symm⟩ rfl rfl)

theorem Group.releaseBar_frame (g : Group) (k phase : Nat) (v : W32) :
    { g.releaseBar k phase v with threads := g.threads, frame := g.frame, sregs := g.sregs, badS := g.badS, pend := g.pend } = g :=
  congrArg (fun x : Group => { x with threads := g.threads, frame := g.frame, sregs := g.sregs, badS := g.badS, pend := g.pend })
    (foldl_keeps Group.stepless (fun g t => Group.stepless_takeStep v g t) (g.threads.filter (fun t => t.overdue k phase)) g)

/-- A thread is released when its phase has ended. -/
def Thread.releasedAt (k phase : Nat) (t : Thread) : Thread := if t.overdue k phase then { t with wait := .none } else t

theorem Group.releaseBar_thread {g : Group} {h : Nat} {y : Thread} (hy : g.threads[h]? = some y) (k phase : Nat) (v : W32) :
    (g.releaseBar k phase v).threads[h]? = some (y.releasedAt k phase) := by
  have hkeep := foldl_keeps Group.stepless (fun g t => Group.stepless_takeStep v g t) (g.threads.filter (fun t => t.overdue k phase)) g
  have hthreads : (g.releaseBar k phase v).threads = g.threads.map (Thread.releasedAt k phase) :=
    (congrArg (fun x : Group => x.threads.map (Thread.releasedAt k phase)) hkeep :)
  rw [hthreads, List.getElem?_map, hy]
  rfl

/-- A released SSTEP's register holds the superstep counter. -/
theorem Group.releaseBar_sreg {g : Group} {y : Thread} {k phase tok p : Nat} {d : BitVec 9} (hy : y ∈ g.threads)
    (hw : y.wait = .bar tok k (some p) d) (hlate : p < phase) (hd : d ≠ 0x1FF) (v : W32) :
    (g.releaseBar k phase v).sreg (d.toNat - 0x100) = v.setWidth 64 := by
  have hin : y ∈ g.threads.filter (fun t => t.overdue k phase) :=
    List.mem_filter.2 ⟨hy, Thread.overdue_iff.2 ⟨tok, p, d, hw, hlate⟩⟩
  refine foldl_written (fun t : Thread => ∃ tok p e, t.wait = .bar tok k (some p) e ∧ e ≠ 0x1FF ∧ e.toNat - 0x100 = d.toNat - 0x100)
    (f := Group.takeStep v) (read := fun g : Group => g.sreg (d.toNat - 0x100)) (fun g t _ ht => ?_) (fun g t ht hno => ?_)
    ⟨y, hin, tok, p, d, hw, hd, rfl⟩ g
  · obtain ⟨tok, p, e, hw, he⟩ := ht
    exact (Group.takeStep_bar hw g _).trans (if_pos he)
  · obtain ⟨tok, p, e, hw, -⟩ := Thread.overdue_iff.1 (List.mem_filter.1 ht).2
    exact (Group.takeStep_bar hw g _).trans (if_neg fun he => hno ⟨tok, p, e, hw, he⟩)

/-- Release changes the groups that count at the barrier, each by itself. -/
theorem State.releaseBar_group {s : State} {w : Workgroup} {k : Nat} {g : Group} (hg : s.group? g.gid = some g)
    (hat : s.atBarrier w k g = true) :
    (s.releaseBar w k).group? g.gid = some (g.releaseBar k (s.barrier ((s.wg? w.wid).getD w) k).phase
      (((s.launch? w.lid).map (·.superstep)).getD 0)) := by
  have hgid (x : Group) : (if s.atBarrier w k x then x.releaseBar k (s.barrier ((s.wg? w.wid).getD w) k).phase
      (((s.launch? w.lid).map (·.superstep)).getD 0) else x).gid = x.gid := by
    split_ifs
    · exact (congrArg Group.gid (x.releaseBar_frame k _ _) :)
    · rfl
  have hfind := find_mapGroups hgid s.groups g.gid
  refine hfind.trans ((congrArg (Option.map _) hg).trans ?_)
  exact congrArg some (if_pos hat)

/-- The superstep counter goes on with the phase of SSTEP (R172). -/
theorem State.opened_superstep {s : State} {w : Workgroup} {la : Launch} {k : Nat} (hla : s.launch? w.lid = some la)
    (hmet : s.barrierMet w k = true) (hk : 20 ≤ k) :
    ∃ l, (s.opened w k).launch? w.lid = some l ∧ l.superstep = la.superstep + 1 := by
  have h16 : ¬k < 16 := by omega
  have h20 : ¬k < 20 := by omega
  rw [State.opened, if_pos hmet, if_neg h20, State.modBarrier, if_neg h16, if_neg h20, State.launch_modLaunch, if_pos rfl,
    State.launch_modLaunch, if_pos rfl, hla]
  exact ⟨_, rfl, rfl⟩

/-- A workgroup has its 16 barriers, the 4 of its cluster, and its launch's. -/
theorem State.hasBarrier_of {s : State} {w : Workgroup} {la : Launch} {cl : Cluster} {k : Nat} (hw : s.wg? w.wid = some w)
    (hla : s.launch? w.lid = some la) (hcl : s.cluster? w.cid = some cl) (hbars : w.bars.length = 16) (hcbars : cl.cbars.length = 4)
    (hk : k < 21) : s.HasBarrier w k (s.barrier w k) where
  wg := hw
  bound := hk
  own h16 := by
    rw [State.barrier, if_pos h16, List.getElem?_eq_getElem (by omega)]
    rfl
  shared h16 h20 := by
    refine ⟨cl, hcl, ?_⟩
    rw [State.barrier, if_neg (by omega), if_pos h20, hcl, Option.bind_some, List.getElem?_eq_getElem (by omega)]
    rfl
  step h20 := by
    refine ⟨la, hla, ?_⟩
    rw [State.barrier, if_neg (by omega), if_neg (by omega), hla]
    rfl

/-- The event of a barrier looks at it for one of the workgroups that it belongs to. -/
theorem exec_barrierStep {s : State} {w : Workgroup} {e : Instr × Nat} (hw : s.wg? w.wid = some w) (hk : e.2 < 21)
    (hown : e.2 < 16 → e.1 = .barrierPhaseComplete w.wid e.2)
    (hshared : 16 ≤ e.2 → e.2 < 20 → e.1 = .cbarPhaseComplete w.cid (e.2 - 16) ∧ s.wgs.find? (fun x => x.cid == w.cid) = some w)
    (hstep : e.2 = 20 → e.1 = .sstepRelease w.lid ∧ s.wgs.find? (fun x => x.lid == w.lid) = some w) :
    exec e.1 s = .next ((s.barrierStep w e.2).fused s) := by
  obtain ⟨i, k⟩ := e
  dsimp only at *
  by_cases h16 : k < 16
  · obtain rfl := hown h16
    refine congrArg (done s) (?_ : (match s.wg? w.wid with
      | some w => if k < 16 then s.barrierStep w k else s
      | none => s) = _)
    rw [hw]
    exact if_pos h16
  by_cases h20 : k < 20
  · obtain ⟨rfl, hfind⟩ := hshared (by omega) h20
    refine congrArg (done s) (?_ : (match s.wgs.find? (fun x => x.cid == w.cid) with
      | some w => if k - 16 < 4 then s.barrierStep w (16 + (k - 16)) else s
      | none => s) = _)
    rw [hfind]
    dsimp only
    rw [if_pos (by omega), show 16 + (k - 16) = k by omega]
  · obtain rfl : k = 20 := by omega
    obtain ⟨rfl, hfind⟩ := hstep rfl
    refine congrArg (done s) (?_ : (match s.wgs.find? (fun x => x.lid == w.lid) with
      | some w => s.barrierStep w 20
      | none => s) = _)
    rw [hfind]

end Sys2Proof.Machine

open Sys2Proof Sys2Proof.Machine

/-- R169 to R172: the arrivals at barriers, and the waits for their phases. -/
theorem barrierArrivals : Statements.BarrierArrivals := by
  refine ⟨?_, ?_, ?_⟩
  · intro x s c b e he h hact hall
    have hword : e.2.1 < 21 ∧ (e.2.2.2.2 ≠ 0x1FF → e.2.2.2.1 = true) ∧ ∀ s, exec e.1 s = done s (issueWord e.1 (arriveIssue e.2.1 e.2.2.1 e.2.2.2.1 e.2.2.2.2) s) := by
      simp only [List.mem_cons, List.not_mem_nil, or_false] at he
      obtain rfl | rfl | rfl | rfl := he
      · exact ⟨by dsimp only; omega, fun hd => absurd rfl hd, fun _ => rfl⟩
      · exact ⟨by dsimp only; omega, fun hd => absurd rfl hd, fun _ => rfl⟩
      · exact ⟨by dsimp only; omega, fun hd => absurd rfl hd, fun _ => rfl⟩
      · exact ⟨by dsimp only; omega, fun _ => rfl, fun _ => rfl⟩
    clear he
    obtain ⟨i, k, n, waits, d⟩ := e
    dsimp only at h hword ⊢
    obtain ⟨hk, hdest, hexec⟩ := hword
    intro hown hshared hstep hmarks hfirst harrived
    obtain ⟨hw, hla⟩ := State.issues_units h
    obtain ⟨rfl, -⟩ := State.issues_ctx h
    have hwid := State.wg_key hw
    have hbar : c.s.HasBarrier c.w k b := ⟨hwid ▸ hw, hk, hown, hshared, fun h20 => ⟨c.la, hla, hstep h20⟩⟩
    obtain ⟨⟨w', hbar', hw'⟩, hgroup, hfuses⟩ := State.arrive_spec hbar (State.issues_group h) hwid.symm ⟨hmarks, hfirst, harrived⟩
      (mask := c.actMask) (fun k hk => (c.laneIn_actMask k).2 (hall k hk)) n waits d
    have hframe := c.g.waiting_frame c.s.tick k c.actMask waits d
    have hr : c.Completable { s := c.s.arrive c.w c.g.gid k n c.actMask waits d } := by
      refine ⟨rfl, hfuses, ?_⟩
      rw [hgroup, State.issues_group h]
      exact congrArg some (congrArg Group.stepPath hframe :)
    have hwg : w'.wid = c.w.wid := (congrArg Workgroup.wid hw' :)
    refine ⟨_, w', _, (hexec c.s).trans (issueWord_of_ok h (if_neg hact) hr), hwg ▸ hbar'.wg, Ctx.completes_group hgroup,
      (hbar'.congr rfl rfl rfl).eq, fun hd => ?_, (congrArg Group.vregs hframe :), (congrArg Group.sregs hframe :),
      fun l y z hl hy hz hwait => ?_⟩
    · obtain rfl := hdest hd
      exact c.g.pend_waiting c.s.tick k c.actMask hd
    · obtain ⟨hpath, -, hlive⟩ := Ctx.mem_act hl
      rw [Group.modThreads_getElem?, Group.settledAt_thread, Group.waiting_thread, hy, Option.map_some, Option.map_some, Option.map_some,
        (c.laneIn_actMask l).2 hl, Thread.settled_arrival hwait, if_pos hpath,
        c.advance_live _ l (x := { y with wait := if waits then .bar c.s.tick k (some b.phase) d else .none }) (hlive y hy)] at hz
      obtain rfl := Option.some.inj hz
      exact ⟨rfl, rfl⟩
  · intro x i hi s c h hact
    have hidle {i : Instr} {k n : Nat} {waits : Bool} {d : BitVec 9} (h : s.issues i = some c)
        (hexec : exec i s = done s (issueWord i (arriveIssue k n waits d) s)) : exec i s = .next (c.completes { s := s }) :=
      hexec.trans (issueWord_of_idle h (if_pos hact))
    simp only [List.mem_cons, List.not_mem_nil, or_false] at hi
    obtain rfl | rfl | rfl | rfl := hi
    · exact hidle h rfl
    · exact hidle h rfl
    · exact hidle h rfl
    · exact hidle h rfl
  · intro x s c h
    obtain ⟨rfl, -⟩ := State.issues_ctx h
    have hwaits (p : Nat) : c.Completable { s := c.barWaiting (x.imm.toNat % 16) p } :=
      Ctx.completable_modGroup (t := { c.s with tick := c.s.tick + 1 }) (f := c.barWait (x.imm.toNat % 16) p) h rfl rfl rfl rfl rfl
    have hsem := barwIssue_eq (x.imm.toNat % 16) c
    refine (issueWord_of_ok h hsem ?_).trans ?_
    · split_ifs
      · exact hwaits _
      · exact hwaits _
      · exact c.completable_plain
    · rfl

/-- R170 to R172: when a phase is complete, and what its end leaves. -/
theorem barrierPhases : Statements.BarrierPhases := by
  refine ⟨State.barrierMet_iff, ?_⟩
  intro s w la cl e hw hla hcl hbars hcbars hk hown hshared hstep k b
  have hexec : exec e.1 s = .next (((s.opened w k).releaseBar w k).fused s) := by
    rw [← State.barrierStep_eq]
    exact exec_barrierStep hw hk hown hshared hstep
  have hbar : s.HasBarrier w k b := State.hasBarrier_of hw hla hcl hbars hcbars hk
  obtain ⟨w', hopen, hw'⟩ := hbar.opened
  have hwg' : w'.wid = w.wid := (congrArg Workgroup.wid hw' :)
  have hphase : (s.opened w k).barrier (((s.opened w k).wg? w.wid).getD w) k = if s.barrierMet w k then b.advance else b := by
    rw [← hwg', hopen.wg]
    exact hopen.eq
  have hdone := (hopen.congr (t := ((s.opened w k).releaseBar w k).fused s) rfl rfl rfl).eq
  refine ⟨_, w', hexec, hwg' ▸ hopen.wg, fun hno => ?_, fun hyes => ⟨?_, fun h20 => ?_⟩, fun g hg hat => ?_⟩
  · rw [hdone, hno]
    rfl
  · rw [hdone, hyes]
    rfl
  · obtain ⟨l, hl, hl'⟩ := State.opened_superstep hla hyes (by omega)
    exact ⟨l, hl, hl'⟩
  · refine ⟨_, State.releaseBar_group ?_ ?_, g.releaseBar_frame .., fun h y z hy hz => ?_⟩
    · exact (congrArg (fun u : State => u.group? g.gid) (s.opened_frame w k) :).trans hg
    · rw [State.atBarrier_opened, hat]
    · rw [Group.releaseBar_thread hy] at hz
      obtain rfl := Option.some.inj hz
      have hlate (tok p : Nat) (d : BitVec 9) (hwait : y.wait = .bar tok k (some p) d) :
          p < ((s.opened w k).barrier (((s.opened w k).wg? w.wid).getD w) k).phase ↔ p < b.phase ∨ p = b.phase ∧ s.barrierMet w k = true := by
        rw [hphase]
        split_ifs with hmet
        · exact (Nat.lt_succ_iff_lt_or_eq).trans (by simp [hmet])
        · simp [hmet]
      refine ⟨fun hno => if_neg fun hover => ?_, fun tok p d hwait => ⟨fun hno => if_neg fun hover => ?_, fun hp => ⟨if_pos ?_, fun hd l hl => ?_⟩⟩⟩
      · obtain ⟨tok, p, d, hwait, -⟩ := Thread.overdue_iff.1 hover
        exact hno tok p d hwait
      · obtain ⟨tok', p', d', hwait', hlt⟩ := Thread.overdue_iff.1 hover
        obtain ⟨-, -, hp, -⟩ := Wait.bar.inj (hwait.symm.trans hwait')
        obtain rfl := Option.some.inj hp
        exact hno ((hlate tok p d hwait).1 hlt)
      · exact Thread.overdue_iff.2 ⟨tok, p, d, hwait, (hlate tok p d hwait).2 hp⟩
      · have hl' : (s.opened w k).launch? w.lid = some l := hl
        rw [hl']
        exact Group.releaseBar_sreg (List.mem_of_getElem? hy) hwait ((hlate tok p d hwait).2 hp) hd _

/-- Settles O41: arrivals and waits at barriers, and the ends of their phases. -/
theorem barriers : Obligations.Barriers := ⟨barrierArrivals, barrierPhases⟩

end

section
/-! # Queues (O42): the instructions -/

namespace Sys2Proof.Machine

/-! ## Allowances and slots of a queue (R174, R387) -/

/-- An allowance that has been set, and the others, which stand. -/
theorem Cluster.allowance_setAllow (c : Cluster) (q gid n k : Nat) :
    (c.setAllow q gid n).allowance q k = if k = gid then n else c.allowance q k := by
  have hqb : (c.setAllow q gid n).qb q = c.qb q := rfl
  have hallow : (c.setAllow q gid n).allow = (q, gid, n) :: c.allow.filter (fun a => !(a.1 == q && a.2.1 == gid)) := rfl
  unfold Cluster.allowance
  rw [hqb, hallow]
  split_ifs with hk
  · subst hk
    rw [List.find?_cons_of_pos (by simp)]
  · rw [List.find?_cons_of_neg (by simp [Ne.symm hk]), List.find?_filter]
    have hsame : (fun a : Nat × Nat × Nat => decide ((!(a.1 == q && a.2.1 == gid)) = true ∧ (a.1 == q && a.2.1 == k) = true)) =
        fun a => a.1 == q && a.2.1 == k := by
      funext a
      rw [Bool.eq_iff_iff]
      simp only [decide_eq_true_eq, Bool.not_eq_true', Bool.and_eq_true, Bool.and_eq_false_iff, beq_iff_eq,
        beq_eq_false_iff_ne]
      omega
    rw [hsame]

/-- A cluster but for its allowances. -/
def Cluster.unallowed (c : Cluster) : Cluster := { c with allow := [] }

/-- Every group of a list has its allowance at the limit of a queue. -/
def Cluster.allowAll (c : Cluster) (q : Nat) (v : W64) (gids : List Nat) : Cluster :=
  gids.foldl (fun c gid => c.setAllow q gid (qLimit v)) c

theorem Cluster.unallowed_allowAll (c : Cluster) (q : Nat) (v : W64) (gids : List Nat) : (c.allowAll q v gids).unallowed = c.unallowed :=
  foldl_keeps Cluster.unallowed (f := fun (c : Cluster) gid => c.setAllow q gid (qLimit v)) (fun _ _ => rfl) gids c

theorem Cluster.allowance_allowAll (c : Cluster) (q : Nat) (v : W64) {gids : List Nat} {gid : Nat} (hm : gid ∈ gids) :
    (c.allowAll q v gids).allowance q gid = qLimit v :=
  foldl_written (fun k : Nat => k = gid) (f := fun (c : Cluster) gid => c.setAllow q gid (qLimit v)) (read := fun c : Cluster => c.allowance q gid)
    (fun c k _ hk => (c.allowance_setAllow q k (qLimit v) gid).trans (if_pos hk.symm))
    (fun c k _ hk => (c.allowance_setAllow q k (qLimit v) gid).trans (if_neg (Ne.symm hk))) ⟨gid, hm, rfl⟩ c

theorem Cluster.qb_setQb (c : Cluster) {q : Nat} (hq : q < c.qbs.length) (v : W64) (j : Nat) :
    (c.setQb q v).qb j = if j = q then v else c.qb j := by
  simp only [Cluster.qb, Cluster.setQb, modNth, List.getElem?_mapIdx]
  split_ifs with hj
  · subst hj
    rw [List.getElem?_eq_getElem hq]
    rfl
  · exact congrArg (fun o : Option W64 => o.getD 0) Option.map_id'

/-- The bit of a declared queue. -/
theorem declared_bit : (2 : W64) ^ 63 = 1#64 <<< 63 := by
  apply BitVec.eq_of_toNat_eq
  rw [BitVec.toNat_pow]
  rfl

/-- A cluster with a queue declared anew (R175). -/
def Cluster.declared (c : Cluster) (gids : List Nat) (q : Nat) (v : W64) : Cluster :=
  let c := (c.setQb q (v ||| (1#64 <<< 63))).allowAll q v gids
  { c with pushers := modNth c.pushers q (fun _ => []), qslots := c.qslots.filter (fun e => e.1 != q) }

/-- The groups of a workgroup's cluster. -/
def State.clusterGids (s : State) (w : Workgroup) : List Nat := (s.groups.filter (fun g => s.atBarrier w 16 g)).map (·.gid)

/-- The machine after QDECL (R175). -/
def Ctx.declares (c : Ctx) (q : Nat) (v : W64) : State :=
  (c.s.modCluster c.w.cid (fun cl => cl.declared (c.s.clusterGids c.w) q v)).placeQueue c.w q v

/-- The range that a descriptor gives for a queue's slots. -/
def Ctx.queuePlace (c : Ctx) (d : W64) : Option (Nat × Nat) := c.s.scratchTarget c.w (qAddr d) ((qNs d + 1) * qBytes d)

/-- A descriptor that describes no queue in a scratchpad (R176). -/
def Ctx.descBad (c : Ctx) (d : W64) : Prop :=
  d &&& ~~~0x00003F3F0F3FFFFF ≠ 0 ∨ qNs d = 0 ∨ ¬16 ∣ (qAddr d).toNat ∨ c.queuePlace d = none

theorem qdeclIssue_of {x : XForm} {c : Ctx} {cl : Cluster} (hcl : c.s.cluster? c.w.cid = some cl) (hact : c.act ≠ []) :
    let q := x.imm.toNat % 16
    (qDcl (cl.qb q) = true → qCnt (cl.qb q) ≠ 0 → qdeclIssue x c = .error (queueFault c q 1)) ∧
    (qDcl (cl.qb q) = false ∨ qCnt (cl.qb q) = 0 → c.descBad (c.uval 1) → qdeclIssue x c = .error (queueFault c q 2)) ∧
    (qDcl (cl.qb q) = false ∨ qCnt (cl.qb q) = 0 → ¬c.descBad (c.uval 1) → qdeclIssue x c = .ok { s := c.declares q (c.uval 1) }) := by
  intro q
  obtain ⟨h, t, hcons⟩ := List.exists_cons_of_ne_nil hact
  have hbusy : (qDcl (cl.qb q) && qCnt (cl.qb q) != 0) = true ↔ ¬(qDcl (cl.qb q) = false ∨ qCnt (cl.qb q) = 0) := by
    simp
  have hbad : (c.uval 1 &&& ~~~qDescMask != 0 || qNs (c.uval 1) = 0 || (qAddr (c.uval 1)).toNat % 16 != 0
      || (c.s.scratchTarget c.w (qAddr (c.uval 1)) ((qNs (c.uval 1) + 1) * qBytes (c.uval 1))).isNone) = true ↔ c.descBad (c.uval 1) := by
    simp only [Ctx.descBad, Ctx.queuePlace, qDescMask, Bool.or_eq_true, bne_iff_ne, decide_eq_true_eq, Option.isNone_iff_eq_none, or_assoc,
      Nat.dvd_iff_mod_eq_zero]
  unfold qdeclIssue
  rw [hcons, hcl]
  dsimp only
  refine ⟨fun hdcl hcnt => if_pos (hbusy.2 (by simp [hdcl, hcnt])), fun hfree hb => (if_neg fun h => hbusy.1 h hfree).trans (if_pos (hbad.2 hb)),
    fun hfree hb => (if_neg fun h => hbusy.1 h hfree).trans ((if_neg (mt hbad.1 hb)).trans ?_)⟩
  rw [State.cluster_key hcl]
  rfl

/-- A cluster with a queue's slots at a place. -/
def Cluster.slotsAt (c : Cluster) (q : Nat) (at' : Nat × Nat) : Cluster :=
  { c with qslots := (q, at') :: c.qslots.filter (fun e => e.1 != q) }

theorem Cluster.find?_slotsAt (c : Cluster) (q : Nat) (at' : Nat × Nat) :
    (c.slotsAt q at').qslots.find? (fun e => e.1 == q) = some (q, at') := by
  rw [Cluster.slotsAt]
  exact List.find?_cons_of_pos (by simp)

/-- A queue without slots takes those that its register names (R174). -/
theorem State.placeQueue_fresh {s : State} {w : Workgroup} {k : Cluster} {q : Nat} {v : W64} {at' : Nat × Nat}
    (hk : s.cluster? w.cid = some k) (hno : k.qslots.find? (fun e => e.1 == q) = none)
    (hat : s.scratchTarget w (qAddr v) ((qNs v + 1) * qBytes v) = some at') :
    s.placeQueue w q v = s.modCluster w.cid (fun c => c.slotsAt q at') := by
  have hhome : (if (qAddr v).getLsbD 21 then w else w) = w := ite_self _
  unfold State.placeQueue
  rw [hk, Option.bind_some, hno]
  dsimp only [Option.map_none, Option.bind_none, Option.getD_none]
  rw [hhome, hat]
  rfl

/-- QDECL of a good descriptor: the register, the allowances and the slots (R175). -/
theorem Ctx.declares_spec {c : Ctx} {cl : Cluster} {q : Nat} {v : W64} (hcl : c.s.cluster? c.w.cid = some cl) (hq : q < cl.qbs.length)
    (hgood : ¬c.descBad v) :
    { c.declares q v with clusters := c.s.clusters } = c.s ∧ ∃ cl', (c.declares q v).cluster? c.w.cid = some cl' ∧
      (∀ j, cl'.qb j = if j = q then v ||| (1#64 <<< 63) else cl.qb j) ∧
      (∀ gid ∈ c.s.clusterGids c.w, cl'.allowance q gid = qLimit v) ∧
      (cl'.qslots.find? (fun e => e.1 == q)).map (·.2) = c.queuePlace v := by
  refine ⟨(congrArg (fun u : State => { u with clusters := c.s.clusters }) (State.placeQueue_frame
    (c.s.modCluster c.w.cid (fun cl => cl.declared (c.s.clusterGids c.w) q v)) c.w q v) :), ?_⟩
  have hplaced : c.queuePlace v ≠ none := fun hnone => hgood (.inr (.inr (.inr hnone)))
  obtain ⟨at', hat⟩ := Option.ne_none_iff_exists'.1 hplaced
  have hdecl : (c.s.modCluster c.w.cid (fun cl => cl.declared (c.s.clusterGids c.w) q v)).cluster? c.w.cid =
      some { cl.declared (c.s.clusterGids c.w) q v with cid := c.w.cid } := by
    rw [State.cluster_modCluster, if_pos rfl, hcl, Option.map_some]
  have hno : (cl.declared (c.s.clusterGids c.w) q v).qslots.find? (fun e => e.1 == q) = none :=
    List.find?_eq_none.2 fun e he => by simpa using (List.mem_filter.1 he).2
  have hplace := State.placeQueue_fresh hdecl hno hat
  have hkeep := Cluster.unallowed_allowAll (cl.setQb q (v ||| (1#64 <<< 63))) q v (c.s.clusterGids c.w)
  have hcluster : (c.declares q v).cluster? c.w.cid =
      some { (cl.declared (c.s.clusterGids c.w) q v).slotsAt q at' with cid := c.w.cid } := by
    refine (congrArg (fun u : State => u.cluster? c.w.cid) hplace).trans ?_
    rw [State.cluster_modCluster, if_pos rfl, hdecl]
    rfl
  refine ⟨_, hcluster, fun j => ?_, fun gid hgid => ?_, ?_⟩
  · exact (congrArg (fun x : Cluster => x.qb j) hkeep :).trans (cl.qb_setQb hq _ j)
  · exact Cluster.allowance_allowAll (cl.setQb q (v ||| (1#64 <<< 63))) q v hgid
  · rw [hat]
    exact congrArg (Option.map (fun e : Nat × Nat × Nat => e.2)) (Cluster.find?_slotsAt _ q at')

/-! ## QTRY, QPUSH and QPOP (R175, R176) -/

theorem qtryIssue_of {x : XForm} {c : Ctx} {cl : Cluster} (hcl : c.s.cluster? c.w.cid = some cl) (hact : c.act ≠ []) :
    let q := x.imm.toNat % 16
    qtryIssue x c = if !qDcl (cl.qb q) then .error (queueFault c q 0) else .ok { s := c.s.modGroup c.g.gid (fun g =>
      g.writeDest false x.d.toNat (c.act.map (fun h =>
        (h, BitVec.ofNat 64 (qCnt (cl.qb q) + 2 ^ 8 * (cl.allowance q c.g.gid % 128) + 2 ^ 16))))) } := by
  obtain ⟨h, t, hcons⟩ := List.exists_cons_of_ne_nil hact
  intro q
  unfold qtryIssue
  rw [hcl, hcons]
  rfl

/-- The slots of a queue need registers that the running variant does not have. -/
def Ctx.slotShort (c : Ctx) (v : W64) (base : Nat) : Prop := c.vd.regs ≤ base + (qBytes v / 4 - 1) / c.g.width

theorem queueErr_of {c : Ctx} {cl : Cluster} (hcl : c.s.cluster? c.w.cid = some cl) (q base : Nat) :
    (qDcl (cl.qb q) = false → queueErr c q base = some (queueFault c q 0)) ∧
    (qDcl (cl.qb q) = true → c.slotShort (cl.qb q) base → queueErr c q base = some (queueFault c q 3)) ∧
    (qDcl (cl.qb q) = true → ¬c.slotShort (cl.qb q) base → queueErr c q base = none) := by
  unfold queueErr
  rw [hcl]
  dsimp only
  refine ⟨fun hdcl => ?_, fun hdcl hshort => ?_, fun hdcl hfits => ?_⟩
  · rw [hdcl]
    rfl
  · rw [hdcl]
    exact if_pos hshort
  · rw [hdcl]
    exact if_neg hfits

/-- A queue operation has been issued: its group changes, and the next tick is another's. -/
def Ctx.queueing (c : Ctx) (f : Group → Group) : State := { c.s with tick := c.s.tick + 1 }.modGroup c.g.gid f

theorem Ctx.completable_queueing {s : State} {i : Instr} {c : Ctx} (h : s.issues i = some c) {f : Group → Group}
    (hf : (f c.g).stepPath = c.g.stepPath) : c.Completable { s := c.queueing f } := by
  obtain ⟨rfl, -⟩ := State.issues_ctx h
  exact Ctx.completable_modGroup (t := { c.s with tick := c.s.tick + 1 }) (f := f) h rfl rfl rfl rfl hf

/-- The words of the longest slot, from a register on (R175). -/
def Ctx.slotWords (c : Ctx) (a : Nat) : List W32 := (List.range 64).map (fun j => c.g.vreg (j % c.g.width) (a + j / c.g.width))

/-- The issuing group with its active threads in QPUSH. -/
def Ctx.pushing (c : Ctx) (q : Nat) (a : Nat) (g : Group) : Group :=
  g.modThreads c.act.contains (fun _ t => { t with wait := .qpush c.s.tick q a (c.s.cycle c.core) (c.slotWords a) })

theorem qpushIssue_of {x : XForm} {c : Ctx} (hact : c.act ≠ []) :
    qpushIssue x c = match queueErr c (x.imm.toNat % 16) x.a.toNat with
      | some t => .error t
      | none => .ok { s := c.queueing (c.pushing (x.imm.toNat % 16) x.a.toNat) } := by
  unfold qpushIssue
  rw [if_neg hact]
  dsimp only
  cases queueErr c (x.imm.toNat % 16) x.a.toNat with
  | some t => rfl
  | none =>
    dsimp only
    rw [slotRegs, List.map_map]
    rfl

/-- The issuing group with its active threads in QPOP, its registers pending for n words. -/
def Ctx.popping (c : Ctx) (q : Nat) (d : BitVec 9) (n : Nat) (g : Group) : Group :=
  { g.modThreads c.act.contains (fun _ t => { t with wait := .qpop c.s.tick q (c.s.cycle c.core) d }) with
    pend := g.pend ++ ((slotRegs c.g.width d.toNat n).filter (fun p => c.act.contains p.1)).map
      (fun p => ⟨c.s.tick, p.2, (1 : W64) <<< p.1⟩) }

theorem qpopIssue_of {x : XForm} {c : Ctx} {cl : Cluster} (hcl : c.s.cluster? c.w.cid = some cl) (hact : c.act ≠ []) :
    qpopIssue x c = match queueErr c (x.imm.toNat % 16) x.d.toNat with
      | some t => .error t
      | none => .ok { s := c.queueing (c.popping (x.imm.toNat % 16) x.d (qBytes (cl.qb (x.imm.toNat % 16)) / 4)) } := by
  have hqb : c.qb (x.imm.toNat % 16) = cl.qb (x.imm.toNat % 16) := by
    rw [Ctx.qb, hcl]
    rfl
  unfold qpopIssue
  rw [if_neg hact]
  dsimp only
  rw [hqb]
  rfl

theorem Ctx.mem_pend_popping {c : Ctx} {q n : Nat} {d : BitVec 9} {g : Group} {p : Pend} :
    p ∈ (c.popping q d n g).pend ↔ p ∈ g.pend ∨ ∃ j, j < n ∧ j % c.g.width ∈ c.act ∧
      p = ⟨c.s.tick, d.toNat + j / c.g.width, 1 <<< (j % c.g.width)⟩ := by
  have hpend : (c.popping q d n g).pend = g.pend ++ ((slotRegs c.g.width d.toNat n).filter (fun p => c.act.contains p.1)).map
      (fun p => ⟨c.s.tick, p.2, (1 : W64) <<< p.1⟩) := rfl
  rw [hpend, List.mem_append, List.mem_map]
  refine or_congr_right ⟨?_, ?_⟩
  · rintro ⟨r, hr, rfl⟩
    obtain ⟨hr, hin⟩ := List.mem_filter.1 hr
    obtain ⟨j, hj, rfl⟩ := List.mem_map.1 hr
    exact ⟨j, List.mem_range.1 hj, List.contains_iff_mem.1 hin, rfl⟩
  · rintro ⟨j, hj, hin, rfl⟩
    exact ⟨(j % c.g.width, d.toNat + j / c.g.width), List.mem_filter.2 ⟨List.mem_map_of_mem (List.mem_range.2 hj),
      List.contains_iff_mem.2 hin⟩, rfl⟩

end Sys2Proof.Machine

open Sys2Proof Sys2Proof.Machine

/-- R174 to R176, R387: what the queue instructions refuse, and what they leave. -/
theorem queueInstructions : Statements.QueueInstructions := by
  intro x s c cl hcl hact hlen q v d place bad fault short
  refine ⟨fun h => ?_, fun h => ?_, fun h => ?_, fun h => ?_⟩
  · obtain ⟨rfl, -⟩ := State.issues_ctx h
    obtain ⟨hbusy, hbad, hgood⟩ := qdeclIssue_of (x := x) hcl hact
    refine ⟨fun hdcl hcnt => issueWord_of_error h (hbusy hdcl hcnt), fun hfree hb => issueWord_of_error h (hbad hfree hb),
      fun hfree hb => ?_⟩
    obtain ⟨hframe, cl', hcl', hqb, hallow, hslots⟩ := Ctx.declares_spec hcl hlen hb
    have hr : c.Completable { s := c.declares q d } :=
      ⟨rfl, (congrArg State.fuses hframe :), (congrArg (fun u : State => (u.group? c.g.gid).map Group.stepPath) hframe :)⟩
    refine ⟨_, cl', issueWord_of_ok h (hgood hfree hb) hr, hcl', ?_, fun g hg hat => ?_, hslots, fun j hj =>
      (hqb j).trans (if_neg hj), ?_⟩
    · rw [hqb q, if_pos rfl, declared_bit]
    · exact hallow _ (List.mem_map_of_mem (List.mem_filter.2 ⟨hg, hat⟩))
    · exact (congrArg (fun u : State => (c.completes { s := u }).groups) hframe :)
  · obtain ⟨rfl, -⟩ := State.issues_ctx h
    have hsem := qtryIssue_of (x := x) hcl hact
    refine ⟨fun hdcl => issueWord_of_error h (hsem.trans (if_pos ?_)), fun hdcl => issueWord_of_modGroup h (hsem.trans (if_neg ?_))
      (Group.writeDest_stepPath ..)⟩
    · exact congrArg (!·) hdcl
    · exact Bool.eq_false_iff.1 (congrArg (!·) hdcl)
  · obtain ⟨rfl, -⟩ := State.issues_ctx h
    obtain ⟨hundcl, hshort, hfits⟩ := queueErr_of hcl q x.a.toNat
    have hsem := qpushIssue_of (x := x) hact
    refine ⟨fun hdcl => issueWord_of_error h ?_, fun hdcl hs => issueWord_of_error h ?_, fun hdcl hs => issueWord_of_ok h ?_ ?_⟩
    · rw [hsem, hundcl hdcl]
      rfl
    · rw [hsem, hshort hdcl hs]
      rfl
    · rw [hsem, hfits hdcl hs]
      rfl
    · exact Ctx.completable_queueing h rfl
  · obtain ⟨rfl, -⟩ := State.issues_ctx h
    obtain ⟨hundcl, hshort, hfits⟩ := queueErr_of hcl q x.d.toNat
    have hsem := qpopIssue_of (x := x) hcl hact
    refine ⟨fun hdcl => issueWord_of_error h ?_, fun hdcl hs => issueWord_of_error h ?_, fun hdcl hs =>
      ⟨c.popping q x.d (qBytes v / 4), issueWord_of_ok h ?_ ?_, fun g => ⟨rfl, fun l y z hy hz => ?_, fun p => Ctx.mem_pend_popping⟩⟩⟩
    · rw [hsem, hundcl hdcl]
      rfl
    · rw [hsem, hshort hdcl hs]
      rfl
    · rw [hsem, hfits hdcl hs]
      rfl
    · exact Ctx.completable_queueing h rfl
    · have hthread : (c.popping q x.d (qBytes v / 4) g).threads[l]? = _ := Group.modThreads_getElem? ..
      rw [hthread, hy, Option.map_some] at hz
      obtain rfl := Option.some.inj hz
      exact if_congr List.contains_iff_mem rfl rfl

end

section
/-! # Queues (O42): waiters proceed -/

namespace Sys2Proof.Machine

/-! ## Waiters in order (R175, R387) -/

/-- A waiter that no other of its kind precedes. -/
theorem earliest_filter {ws : List QueueWait} {ok : QueueWait → Bool} {p : QueueWait} (hp : p ∈ ws) (hok : ok p = true)
    (hmin : ∀ r ∈ ws, ok r = true → p.key ≤ r.key ∧ (r.key = p.key → r = p)) : earliest (·.key) (ws.filter ok) = some p := by
  refine earliest_eq_some (List.mem_filter.2 ⟨hp, hok⟩) fun r hr hne => ?_
  obtain ⟨hr, hrok⟩ := List.mem_filter.1 hr
  obtain ⟨hle, heq⟩ := hmin r hr hrok
  exact lt_of_le_of_ne hle fun h => hne (heq h.symm)

/-- Every waiter suits a queue. -/
theorem earliest_misfit_none {s : State} {v : W64} {ws : List QueueWait} (hsuit : ∀ r ∈ ws, s.waitFault v r = none) :
    earliest (·.key) (ws.filter (fun p => (s.waitFault v p).isSome)) = none := by
  rw [List.filter_eq_nil_iff.2 fun r hr => by simp [hsuit r hr]]
  rfl

/-- The fault of a waiter that a queue does not suit (R387). -/
theorem State.waitFault_of_misfit {s : State} {v : W64} {p : QueueWait} (h : s.waitFault v p ≠ none) :
    s.waitFault v p = some (if v.getLsbD 63 then 3 else 5) := by
  have hdcl : qDcl v = v.getLsbD 63 := rfl
  unfold State.waitFault at h ⊢
  cases hv : v.getLsbD 63
  · rw [hdcl, hv]
    rfl
  · rw [hdcl, hv] at h ⊢
    by_cases hfit : (s.group? p.gid).any (fun g => !s.slotFits g p.reg v) = true
    · simp [hfit]
    · exact absurd (if_neg hfit) h

/-- A cluster whose queue was not written in this cycle. -/
theorem State.open_cluster {s : State} {cid q : Nat} {c : Cluster} (hcl : s.cluster? cid = some c) (hset : s.justSet c q = false) :
    (s.cluster? cid).filter (fun c => !s.justSet c q) = some c := by
  rw [hcl, Option.filter_some, hset]
  rfl

theorem State.set_cluster {s : State} {cid q : Nat} {c : Cluster} (hcl : s.cluster? cid = some c) (hset : s.justSet c q = true) :
    (s.cluster? cid).filter (fun c => !s.justSet c q) = none := by
  rw [hcl, Option.filter_some, hset]
  rfl

/-! ## Groups that go on -/

theorem Group.endWait_thread (g : Group) (p : Wait → Bool) (tok h : Nat) :
    (g.endWait p tok).threads[h]? = (g.threads[h]?).map (fun t => if p t.wait then { t with wait := .none } else t) :=
  List.getElem?_map ..

theorem Group.mem_pend_endWait {g : Group} {p : Wait → Bool} {tok : Nat} {x : Pend} :
    x ∈ (g.endWait p tok).pend ↔ x ∈ g.pend ∧ x.op ≠ tok := by
  rw [Group.endWait, List.mem_filter, bne_iff_ne]

theorem getElem?_modNth_map {α : Type} (l : List α) (k : Nat) (f : α → α) : (modNth l k f)[k]? = (l[k]?).map f := by
  rw [modNth, List.getElem?_mapIdx]
  exact congrArg (fun F => (l[k]?).map F) (funext fun x => if_pos rfl)

/-! ## A push (R175) -/

/-- The register, the pusher's allowance and the list of pushers after a push. -/
def Cluster.pushed (c : Cluster) (q : Nat) (v : W64) (gid : Nat) : Cluster :=
  let c := (c.setQb q (qWith v (qCnt v + 1) (qHead v))).setAllow q gid (c.allowance q gid - 1)
  { c with pushers := modNth c.pushers q (fun l => l ++ [gid]) }

/-- The bytes of a waiter's words that a slot takes. -/
def QueueWait.slotBytes (p : QueueWait) (v : W64) : List Byte := (p.words.take (qBytes v / 4)).flatMap (fun w => natBytes 4 w.toNat)

/-- A push into the next slot of a queue. -/
def State.pushedBy (s : State) (cid q wid off : Nat) (v : W64) (p : QueueWait) : State :=
  ((s.scratchWrite wid (off + (qHead v + qCnt v) % (qNs v + 1) * qBytes v) (p.slotBytes v)).modCluster cid
    (fun c => c.pushed q v p.gid)).modGroup p.gid (fun g => g.endWait (queueWait p.tok) p.tok)

theorem State.pushStep_set {s : State} {cid q : Nat} {c : Cluster} (hcl : s.cluster? cid = some c) (hset : s.justSet c q = true) :
    s.pushStep cid q = s := by
  unfold State.pushStep
  rw [State.set_cluster hcl hset]

theorem State.pushStep_misfit {s : State} {cid q : Nat} {c : Cluster} {p : QueueWait} (hcl : s.cluster? cid = some c)
    (hset : s.justSet c q = false)
    (hp : earliest (·.key) ((s.pushWaits cid q).filter (fun p => (s.waitFault (c.qb q) p).isSome)) = some p) :
    s.pushStep cid q = s.queueTrap p.gid p.tok 0x0E (BitVec.ofNat 32 (q + 16 * (s.waitFault (c.qb q) p).getD 5)) := by
  unfold State.pushStep
  rw [State.open_cluster hcl hset]
  dsimp only
  rw [hp]

theorem State.pushStep_full {s : State} {cid q : Nat} {c : Cluster} (hcl : s.cluster? cid = some c) (hset : s.justSet c q = false)
    (hsuit : ∀ r ∈ s.pushWaits cid q, s.waitFault (c.qb q) r = none) (hfull : qCnt (c.qb q) = qNs (c.qb q) + 1) :
    s.pushStep cid q = s := by
  unfold State.pushStep
  rw [State.open_cluster hcl hset]
  dsimp only
  rw [earliest_misfit_none hsuit]
  exact if_pos hfull

theorem State.pushStep_push {s : State} {cid q wid off : Nat} {c : Cluster} {g : Group} {p : QueueWait} (hcl : s.cluster? cid = some c)
    (hset : s.justSet c q = false) (hg : s.group? p.gid = some g) (hslots : c.qslots.find? (fun e => e.1 == q) = some (q, wid, off))
    (hsuit : ∀ r ∈ s.pushWaits cid q, s.waitFault (c.qb q) r = none)
    (hp : earliest (·.key) ((s.pushWaits cid q).filter (fun p => c.allowance q p.gid != 0)) = some p)
    (hroom : qCnt (c.qb q) ≠ qNs (c.qb q) + 1) (hdone : s.writesDone g p.tok 2 = true) :
    s.pushStep cid q = s.pushedBy cid q wid off (c.qb q) p := by
  unfold State.pushStep
  rw [State.open_cluster hcl hset]
  dsimp only
  rw [earliest_misfit_none hsuit]
  dsimp only
  rw [if_neg hroom, hp, hslots]
  dsimp only
  rw [hg]
  dsimp only
  rw [hdone]
  rfl

/-! ## A pop (R175) -/

/-- The register and the list of pushers after a pop. -/
def Cluster.slotTaken (c : Cluster) (q : Nat) (v : W64) : Cluster :=
  let c := c.setQb q (qWith v (qCnt v - 1) ((qHead v + 1) % (qNs v + 1)))
  { c with pushers := modNth c.pushers q (·.tail) }

/-- The allowance of the oldest pusher returns with its slot. -/
def Cluster.popped (c : Cluster) (q : Nat) (v : W64) : Cluster :=
  match (c.pushers[q]?).bind (·.head?) with
  | some p => (c.slotTaken q v).setAllow q p ((c.slotTaken q v).allowance q p + 1)
  | none => c.slotTaken q v

/-- The lanes of a group that wait under a token. -/
def Group.queueLanes (g : Group) (tok : Nat) : List Nat :=
  (List.range g.threads.length).filter (fun h => (g.threads[h]?).any (fun t => queueWait tok t.wait))

/-- A word of a slot goes to its lane, if that waits. -/
def Group.takeWord (lanes : List Nat) (bs : List Byte) (g : Group) (e : (Nat × Nat) × Nat) : Group :=
  if lanes.contains e.1.1 then g.setVreg e.1.1 e.1.2 (BitVec.ofNat 32 (fieldAt bs (4 * e.2) 4)) else g

/-- A group that receives the n words of a slot from a register on. -/
def Group.takeSlot (g : Group) (lanes : List Nat) (bs : List Byte) (width reg n : Nat) : Group :=
  (slotRegs width reg n).zipIdx.foldl (Group.takeWord lanes bs) g

/-- A pop of the oldest slot of a queue. -/
def State.poppedBy (s : State) (cid q wid off : Nat) (v : W64) (g : Group) (p : QueueWait) : State :=
  (s.modGroup p.gid (fun x => (x.takeSlot (g.queueLanes p.tok) (s.scratchBytes wid (off + qHead v * qBytes v) (qBytes v)) g.width p.reg
    (qBytes v / 4)).endWait (queueWait p.tok) p.tok)).modCluster cid (fun c => c.popped q v)

theorem State.popStep_set {s : State} {cid q : Nat} {c : Cluster} (hcl : s.cluster? cid = some c) (hset : s.justSet c q = true) :
    s.popStep cid q = s := by
  unfold State.popStep
  rw [State.set_cluster hcl hset]

theorem State.popStep_misfit {s : State} {cid q : Nat} {c : Cluster} {p : QueueWait} (hcl : s.cluster? cid = some c)
    (hset : s.justSet c q = false)
    (hp : earliest (·.key) ((s.popWaits cid q).filter (fun p => (s.waitFault (c.qb q) p).isSome)) = some p) :
    s.popStep cid q = s.queueTrap p.gid p.tok 0x0E (BitVec.ofNat 32 (q + 16 * (s.waitFault (c.qb q) p).getD 5)) := by
  unfold State.popStep
  rw [State.open_cluster hcl hset]
  dsimp only
  rw [hp]

theorem State.popStep_empty {s : State} {cid q : Nat} {c : Cluster} (hcl : s.cluster? cid = some c) (hset : s.justSet c q = false)
    (hsuit : ∀ r ∈ s.popWaits cid q, s.waitFault (c.qb q) r = none) (hempty : qCnt (c.qb q) = 0) : s.popStep cid q = s := by
  unfold State.popStep
  rw [State.open_cluster hcl hset]
  dsimp only
  rw [earliest_misfit_none hsuit]
  exact if_pos hempty

theorem State.popStep_pop {s : State} {cid q wid off : Nat} {c : Cluster} {g : Group} {p : QueueWait} (hcl : s.cluster? cid = some c)
    (hset : s.justSet c q = false) (hg : s.group? p.gid = some g) (hslots : c.qslots.find? (fun e => e.1 == q) = some (q, wid, off))
    (hsuit : ∀ r ∈ s.popWaits cid q, s.waitFault (c.qb q) r = none) (hp : earliest (·.key) (s.popWaits cid q) = some p)
    (hfull : qCnt (c.qb q) ≠ 0) :
    s.popStep cid q = if s.oldestBad c q then s.queueTrap p.gid p.tok 0x14 1 else s.poppedBy cid q wid off (c.qb q) g p := by
  unfold State.popStep
  rw [State.open_cluster hcl hset]
  dsimp only
  rw [earliest_misfit_none hsuit]
  dsimp only
  rw [if_neg hfull, hp, hslots]
  dsimp only
  rw [hg]
  rfl

/-! ## What a proceeding leaves -/

/-- CNT and HEAD are all that a move of a queue changes of its register. -/
theorem qWith_low (v : W64) (cnt head : Nat) : (qWith v cnt head).toNat % 2 ^ 48 = v.toNat % 2 ^ 48 := by
  have hlow : (qWith v cnt head).setWidth 48 = v.setWidth 48 := by
    apply BitVec.eq_of_getLsbD_eq
    intro i hi
    have h48 : i < 48 := hi
    have h54 : i < 54 := by omega
    simp only [qWith, BitVec.getLsbD_setWidth, BitVec.getLsbD_or, BitVec.getLsbD_and, BitVec.getLsbD_not, BitVec.getLsbD_shiftLeft,
      decide_eq_true h48, decide_eq_true h54, decide_eq_true (show i < 64 by omega)]
    simp
  rw [← BitVec.toNat_setWidth, ← BitVec.toNat_setWidth, hlow]

theorem qLimit_qWith (v : W64) (cnt head : Nat) : qLimit (qWith v cnt head) = qLimit v := by
  have hlow := qWith_low v cnt head
  have halw : qAlw (qWith v cnt head) = qAlw v := by
    simp only [qAlw, bits]
    omega
  have hns : qNs (qWith v cnt head) = qNs v := by
    simp only [qNs, bits]
    omega
  rw [qLimit, qLimit, halw, hns]

theorem Cluster.allowance_congr {c d : Cluster} {q : Nat} (hallow : c.allow = d.allow) (hlimit : qLimit (c.qb q) = qLimit (d.qb q)) (k : Nat) :
    c.allowance q k = d.allowance q k := by
  rw [Cluster.allowance, Cluster.allowance, hallow, hlimit]

theorem Cluster.pushed_spec (c : Cluster) {q : Nat} (hq : q < c.qbs.length) (v : W64) (gid : Nat) :
    (c.pushed q v gid).qb q = qWith v (qCnt v + 1) (qHead v) ∧ (c.pushed q v gid).allowance q gid = c.allowance q gid - 1 ∧
      (c.pushed q v gid).pushers[q]? = (c.pushers[q]?).map (· ++ [gid]) :=
  ⟨(c.qb_setQb hq _ q).trans (if_pos rfl), (Cluster.allowance_setAllow _ q gid _ gid).trans (if_pos rfl), getElem?_modNth_map ..⟩

theorem Cluster.qb_slotTaken (c : Cluster) {q : Nat} (hq : q < c.qbs.length) :
    (c.slotTaken q (c.qb q)).qb q = qWith (c.qb q) (qCnt (c.qb q) - 1) ((qHead (c.qb q) + 1) % (qNs (c.qb q) + 1)) :=
  (c.qb_setQb hq _ q).trans (if_pos rfl)

theorem Cluster.allowance_slotTaken (c : Cluster) {q : Nat} (hq : q < c.qbs.length) (k : Nat) :
    (c.slotTaken q (c.qb q)).allowance q k = c.allowance q k :=
  Cluster.allowance_congr (c := c.slotTaken q (c.qb q)) (d := c) rfl (by rw [c.qb_slotTaken hq, qLimit_qWith]) k

theorem Cluster.popped_spec (c : Cluster) {q : Nat} (hq : q < c.qbs.length) :
    (c.popped q (c.qb q)).qb q = qWith (c.qb q) (qCnt (c.qb q) - 1) ((qHead (c.qb q) + 1) % (qNs (c.qb q) + 1)) ∧
      (c.popped q (c.qb q)).pushers[q]? = (c.pushers[q]?).map (·.tail) ∧
      ∀ k, (c.pushers[q]?).bind (·.head?) = some k → (c.popped q (c.qb q)).allowance q k = c.allowance q k + 1 := by
  have hpushers := getElem?_modNth_map c.pushers q List.tail
  unfold Cluster.popped
  cases (c.pushers[q]?).bind (·.head?) with
  | none => exact ⟨c.qb_slotTaken hq, hpushers, fun k hk => by cases hk⟩
  | some k =>
    refine ⟨c.qb_slotTaken hq, hpushers, fun j hj => ?_⟩
    obtain rfl := Option.some.inj hj
    rw [Cluster.allowance_setAllow, if_pos rfl, c.allowance_slotTaken hq]

/-- A group but for its v registers. -/
def Group.noVregs (g : Group) : Group := { g with vregs := [], badV := [] }

theorem Group.noVregs_takeSlot (g : Group) (lanes : List Nat) (bs : List Byte) (width reg n : Nat) :
    (g.takeSlot lanes bs width reg n).noVregs = g.noVregs :=
  foldl_keeps Group.noVregs (f := Group.takeWord lanes bs)
    (fun g e => by
      unfold Group.takeWord
      split_ifs <;> rfl) _ g

theorem mem_slotWords {width reg n : Nat} {e : (Nat × Nat) × Nat} :
    e ∈ (slotRegs width reg n).zipIdx ↔ ∃ j, j < n ∧ e = ((j % width, reg + j / width), j) := by
  obtain ⟨r, j⟩ := e
  rw [List.mem_zipIdx_iff_getElem?, slotRegs, List.getElem?_map]
  constructor
  · intro h
    obtain ⟨i, hi, rfl⟩ := Option.map_eq_some_iff.1 h
    obtain ⟨hlt, hij⟩ := List.getElem?_eq_some_iff.1 hi
    rw [List.getElem_range] at hij
    have hij : j = i := hij
    exact ⟨j, by simpa using hlt, by rw [hij]⟩
  · rintro ⟨i, hi, heq⟩
    cases heq
    rw [List.getElem?_range hi]
    rfl

/-- Steps of a fold that write nothing there. -/
theorem foldl_unwritten {α β γ : Type} {f : β → α → β} {read : β → γ} {l : List α} (hno : ∀ b, ∀ p ∈ l, read (f b p) = read b) (b : β) :
    read (l.foldl f b) = read b := by
  induction l generalizing b with
  | nil => rfl
  | cons a l ih => rw [List.foldl_cons, ih fun b p hp => hno b p (List.mem_cons_of_mem _ hp), hno b a List.mem_cons_self]

theorem Group.vreg_takeWord (lanes : List Nat) (bs : List Byte) (g : Group) (e : (Nat × Nat) × Nat) (h n : Nat) :
    (g.takeWord lanes bs e).vreg h n = if e.1.1 ∈ lanes ∧ h * 256 + n = e.1.1 * 256 + e.1.2 then
      BitVec.ofNat 32 (fieldAt bs (4 * e.2) 4) else g.vreg h n := by
  unfold Group.takeWord
  by_cases hm : e.1.1 ∈ lanes
  · rw [if_pos (List.contains_iff_mem.2 hm)]
    exact (Cells.get_set ..).trans (if_congr (by simp [hm]) rfl rfl)
  · rw [if_neg (mt List.contains_iff_mem.1 hm), if_neg fun h => hm h.1]

/-- The words of a slot go to registers below 256. -/
theorem slotReg_lt {width reg n j : Nat} (hj : j < n) (hreg : reg + (n - 1) / width < 256) : reg + j / width < 256 :=
  lt_of_le_of_lt (Nat.add_le_add_left (Nat.div_le_div_right (by omega)) reg) hreg

/-- A lane and a register of it have one place in the register file. -/
theorem regKey_inj {a b x y : Nat} (hx : x < 256) (hy : y < 256) (h : a * 256 + x = b * 256 + y) : a = b ∧ x = y := by omega

/-- Word j of a slot goes to its register of the group, where its lane waits. -/
theorem Group.vreg_takeSlot {lanes : List Nat} {bs : List Byte} {width reg n j : Nat} (hj : j < n)
    (hreg : reg + (n - 1) / width < 256) (hm : j % width ∈ lanes) (g : Group) :
    (g.takeSlot lanes bs width reg n).vreg (j % width) (reg + j / width) = BitVec.ofNat 32 (fieldAt bs (4 * j) 4) := by
  refine foldl_written (fun e : (Nat × Nat) × Nat => e = ((j % width, reg + j / width), j)) (f := Group.takeWord lanes bs)
    (read := fun g : Group => g.vreg (j % width) (reg + j / width)) (fun g e _ he => ?_) (fun g e he hne => ?_)
    ⟨_, mem_slotWords.2 ⟨j, hj, rfl⟩, rfl⟩ g
  · subst he
    exact (g.vreg_takeWord lanes bs _ _ _).trans (if_pos ⟨hm, rfl⟩)
  · obtain ⟨i, hi, rfl⟩ := mem_slotWords.1 he
    refine (g.vreg_takeWord lanes bs _ _ _).trans (if_neg fun ⟨_, hkey⟩ => hne ?_)
    have hri := slotReg_lt hi hreg
    have hrj := slotReg_lt hj hreg
    obtain ⟨hmod, hsum⟩ := regKey_inj hri hrj hkey.symm
    have hdiv : i / width = j / width := Nat.add_left_cancel hsum
    have hmod : i % width = j % width := hmod
    have hij : i = j := by rw [← Nat.div_add_mod i width, hmod, hdiv, Nat.div_add_mod]
    rw [hij]

theorem Group.vreg_takeSlot_other {lanes : List Nat} {bs : List Byte} {width reg n h m : Nat} (hm : m < 256)
    (hreg : reg + (n - 1) / width < 256) (hno : h ∉ lanes ∨ ∀ j, j < n → ¬(h = j % width ∧ m = reg + j / width)) (g : Group) :
    (g.takeSlot lanes bs width reg n).vreg h m = g.vreg h m := by
  refine foldl_unwritten (f := Group.takeWord lanes bs) (read := fun g : Group => g.vreg h m) (fun g e he => ?_) g
  obtain ⟨i, hi, rfl⟩ := mem_slotWords.1 he
  refine (g.vreg_takeWord lanes bs _ _ _).trans (if_neg fun ⟨hin, hkey⟩ => ?_)
  have hri := slotReg_lt hi hreg
  obtain ⟨hh, hsum⟩ := regKey_inj hm hri hkey
  rcases hno with hno | hno
  · exact hno (hh ▸ hin)
  · exact hno i hi ⟨hh, hsum⟩

theorem Group.mem_queueLanes {g : Group} {tok h : Nat} :
    h ∈ g.queueLanes tok ↔ ∃ y, g.threads[h]? = some y ∧ queueWait tok y.wait = true := by
  rw [Group.queueLanes, List.mem_filter, List.mem_range, Option.any_eq_true]
  refine ⟨fun h => h.2, fun ⟨y, hy, hw⟩ => ⟨?_, y, hy, hw⟩⟩
  exact (List.getElem?_eq_some_iff.1 hy).1

/-- A group whose pop has taken a slot of these bytes. -/
def Group.served (g : Group) (p : QueueWait) (bs : List Byte) (n : Nat) : Group :=
  (g.takeSlot (g.queueLanes p.tok) bs g.width p.reg n).endWait (queueWait p.tok) p.tok

theorem Group.served_frame (g : Group) (p : QueueWait) (bs : List Byte) (n : Nat) :
    { g.served p bs n with threads := g.threads, pend := g.pend, vregs := g.vregs, badV := g.badV } = g :=
  (congrArg (fun x : Group => { x with threads := g.threads, pend := g.pend, vregs := g.vregs, badV := g.badV })
    (g.noVregs_takeSlot (g.queueLanes p.tok) bs g.width p.reg n) :)

theorem Group.mem_pend_served (g : Group) {p : QueueWait} {bs : List Byte} {n : Nat} {x : Pend} :
    x ∈ (g.served p bs n).pend ↔ x ∈ g.pend ∧ x.op ≠ p.tok := by
  have hpend : (g.takeSlot (g.queueLanes p.tok) bs g.width p.reg n).pend = g.pend :=
    (congrArg Group.pend (g.noVregs_takeSlot (g.queueLanes p.tok) bs g.width p.reg n) :)
  rw [Group.served, Group.mem_pend_endWait, hpend]

theorem Group.served_thread (g : Group) (p : QueueWait) (bs : List Byte) (n h : Nat) :
    (g.served p bs n).threads[h]? = (g.threads[h]?).map (fun t => if queueWait p.tok t.wait then { t with wait := .none } else t) := by
  have hthreads : (g.takeSlot (g.queueLanes p.tok) bs g.width p.reg n).threads = g.threads :=
    (congrArg Group.threads (g.noVregs_takeSlot (g.queueLanes p.tok) bs g.width p.reg n) :)
  rw [Group.served, Group.endWait_thread, hthreads]

theorem State.poppedBy_group (s : State) {g : Group} {p : QueueWait} (hg : s.group? p.gid = some g) (cid q wid off : Nat) (v : W64) :
    (s.poppedBy cid q wid off v g p).group? p.gid =
      some (g.served p (s.scratchBytes wid (off + qHead v * qBytes v) (qBytes v)) (qBytes v / 4)) :=
  State.group_mod_self (f := fun x => (x.takeSlot (g.queueLanes p.tok) (s.scratchBytes wid (off + qHead v * qBytes v) (qBytes v)) g.width
      p.reg (qBytes v / 4)).endWait (queueWait p.tok) p.tok) hg
    (congrArg Group.gid (g.noVregs_takeSlot (g.queueLanes p.tok) (s.scratchBytes wid (off + qHead v * qBytes v) (qBytes v)) g.width p.reg
      (qBytes v / 4)) :)

theorem State.poppedBy_cluster (s : State) (cid q wid off : Nat) (v : W64) (g : Group) (p : QueueWait) :
    (s.poppedBy cid q wid off v g p).cluster? cid = (s.cluster? cid).map (fun c => { c.popped q v with cid := cid }) := by
  rw [State.poppedBy, State.cluster_modCluster, if_pos rfl]
  rfl

end Sys2Proof.Machine

open Sys2Proof Sys2Proof.Machine

/-- R175, R196, R387: which waiter proceeds, and what it leaves. -/
theorem queuesProceed : Statements.QueuesProceed := by
  intro s cid q wid off c g p hcl hq hqp hg hgid
  refine ⟨fun hset => ⟨congrArg (done s) (State.pushStep_set hcl hset), congrArg (done s) (State.popStep_set hcl hset)⟩, fun hset => ?_⟩
  intro v slots first suits waited goes push pop
  have hg' : s.group? p.gid = some g := hgid ▸ hg
  refine ⟨fun hslots hsuit hfirst hroom hdone => ?_, fun hslots hsuit hfirst hfull hgood => ?_, fun hslots hsuit hfirst hfull hbad => ?_,
    fun hsuit hfull => congrArg (done s) (State.pushStep_full hcl hset hsuit hfull), fun hsuit hempty =>
    congrArg (done s) (State.popStep_empty hcl hset hsuit hempty), fun e he hfirst n hn => ?_⟩
  · obtain ⟨hp, hallow, hmin⟩ := hfirst
    have hfind := earliest_filter (ok := fun r => c.allowance q r.gid != 0) hp (by simpa using hallow) fun r hr hrok =>
      hmin r hr (by simpa using hrok)
    have hstep := State.pushStep_push hcl hset hg' hslots hsuit hfind hroom hdone
    obtain ⟨hqb, hallow, hpushers⟩ := c.pushed_spec hq v p.gid
    refine ⟨_, { c.pushed q v p.gid with cid := cid }, congrArg (done s) hstep, ?_, hqb, hgid ▸ hallow, hgid ▸ hpushers,
      ⟨g.endWait (queueWait p.tok) p.tok, hgid ▸ State.group_mod_self hg' rfl, fun x => Group.mem_pend_endWait, rfl, fun _ => rfl,
        fun h y z hy hz => ?_⟩, fun w hw => ?_⟩
    · have hcluster := State.cluster_modCluster
        (s.scratchWrite wid (off + (qHead v + qCnt v) % (qNs v + 1) * qBytes v) (p.slotBytes v)) cid (fun c => c.pushed q v p.gid) cid
      rw [if_pos rfl] at hcluster
      exact hcluster.trans (congrArg (Option.map _) hcl)
    · rw [Group.endWait_thread, hy] at hz
      exact (Option.some.inj hz).symm
    · have hwg := State.wg_modWg s wid
        (fun w => { w with scratch := w.scratch.setBytes (off + (qHead v + qCnt v) % (qNs v + 1) * qBytes v) (p.slotBytes v) }) wid
      rw [if_pos rfl, hw] at hwg
      exact ⟨_, hwg, rfl⟩
  · obtain ⟨hp, -, hmin⟩ := hfirst
    have hfind := earliest_eq_some hp fun r hr hne => lt_of_le_of_ne (hmin r hr trivial).1 fun h => hne ((hmin r hr trivial).2 h.symm)
    have hstep := (State.popStep_pop hcl hset hg' hslots hsuit hfind hfull).trans (if_neg (by rw [hgood]; exact Bool.false_ne_true))
    obtain ⟨hqb, hpushers, hallow⟩ := c.popped_spec hq
    have hgroup := s.poppedBy_group hg' cid q wid off v
    rw [hgid] at hgroup
    refine ⟨_, { c.popped q v with cid := cid }, congrArg (done s) hstep, ?_, hqb, hpushers, hallow, rfl,
      ⟨_, hgroup, fun x => g.mem_pend_served, g.served_frame .., fun hno => absurd trivial hno, fun h y z hy hz => ?_⟩,
      fun g' hg₂ hreg _ _ => ?_⟩
    · exact (s.poppedBy_cluster cid q wid off v g p).trans (congrArg (Option.map _) hcl)
    · rw [Group.served_thread, hy] at hz
      exact (Option.some.inj hz).symm
    · obtain rfl := Option.some.inj (hgroup.symm.trans hg₂)
      refine ⟨fun j hj hwait => Group.vreg_takeSlot hj hreg (Group.mem_queueLanes.2 hwait) g, fun h m hm hno =>
        Group.vreg_takeSlot_other hm hreg (hno.imp_left fun hno hin => hno (Group.mem_queueLanes.1 hin)) g⟩
  · obtain ⟨hp, -, hmin⟩ := hfirst
    have hfind := earliest_eq_some hp fun r hr hne => lt_of_le_of_ne (hmin r hr trivial).1 fun h => hne ((hmin r hr trivial).2 h.symm)
    have hstep := (State.popStep_pop hcl hset hg' hslots hsuit hfind hfull).trans (if_pos hbad)
    exact hgid ▸ congrArg (done s) hstep
  · obtain ⟨hp, hmisfit, hmin⟩ := hfirst
    have hsome (r : QueueWait) : (s.waitFault v r).isSome = true ↔ ¬suits r := Option.isSome_iff_ne_none
    have hfind := earliest_filter (ok := fun r => (s.waitFault v r).isSome) hp ((hsome p).2 hmisfit) fun r hr hrok =>
      hmin r hr ((hsome r).1 hrok)
    have hfault : (s.waitFault v p).getD 5 = n := by
      rw [State.waitFault_of_misfit hmisfit, hn]
      rfl
    simp only [List.mem_cons, List.not_mem_nil, or_false] at he
    obtain rfl | rfl := he
    · have hstep := State.pushStep_misfit hcl hset hfind
      rw [hfault, hgid] at hstep
      exact congrArg (done s) hstep
    · have hstep := State.popStep_misfit hcl hset hfind
      rw [hfault, hgid] at hstep
      exact congrArg (done s) hstep

end

section
/-! # Deques (O42) -/

namespace Sys2Proof.Machine

/-- The requests of a memory instruction (R150 to R158). -/
def Ctx.memReqs (c : Ctx) : List LaneReq :=
  c.memLanes.map (fun p => ⟨p.1, c.ea p.2, if c.sh.dsrc then c.wideVal 0 p.2 else c.wideVal 3 p.2, c.wideVal 0 p.2, c.viewField p.2, [], .todo⟩)

/-- The machine with a memory instruction's operation outstanding. -/
def Ctx.memIssued (c : Ctx) : State := c.issueOp c.memReqs (c.destPend (c.memLanes.map (·.1)))

/-- No lane of a memory instruction meets a fault or poison at its issue. -/
def Ctx.memClean (c : Ctx) : Prop := ∀ p ∈ c.memLanes, c.addrFault (c.ea p.2) = none ∧ c.meetsPoison (c.ea p.2) = false

theorem memIssue_of {c : Ctx} (hclean : c.memClean) : memIssue c = .ok { s := c.memIssued } := by
  have hfault : c.issueFault (c.memLanes.map (fun p => c.ea p.2)) = none := by
    rw [Ctx.issueFault, List.find?_eq_none.2]
    rintro a ha
    obtain ⟨p, hp, rfl⟩ := List.mem_map.1 ha
    simp [(hclean p hp).1]
  have hpoison : c.poisonTrap (c.memLanes.map (fun p => c.ea p.2)) = none := by
    rw [Ctx.poisonTrap, List.find?_eq_none.2]
    rintro a ha
    obtain ⟨p, hp, rfl⟩ := List.mem_map.1 ha
    simp [(hclean p hp).2]
  unfold memIssue
  dsimp only
  rw [hfault]
  dsimp only
  rw [hpoison]
  rfl

theorem Ctx.memLanes_eq_nil {c : Ctx} : c.memLanes = [] ↔ c.act = [] := by
  unfold Ctx.memLanes
  split_ifs
  · cases c.act <;> simp
  · exact List.map_eq_nil_iff

/-- The operation that a memory instruction leaves. -/
def Ctx.newOp (c : Ctx) (lanes : List LaneReq) : MemOp :=
  ⟨c.s.tick, c.g.gid, c.core, c.g.ipart, if c.i.loggable then ((c.s.freeEntries c.core c.g.ipart).head?).getD 0 else 32, c.pc, c.i, c.g.asid,
    c.i.isScratch, c.part.mask, false, lanes, none, .raised, c.s.cycle c.core, c.s.issue.id, c.s.issue.formed, []⟩

theorem Ctx.issueOp_ops {c : Ctx} {lanes : List LaneReq} (hne : lanes ≠ []) (dests : List (Nat × W64)) :
    (c.issueOp lanes dests).ops = c.s.ops ++ [c.newOp lanes] := by
  unfold Ctx.issueOp
  rw [if_neg hne]
  rfl

theorem Ctx.issueOp_group {c : Ctx} {g : Group} (hg : c.s.group? c.g.gid = some g) {lanes : List LaneReq} (hne : lanes ≠ [])
    (dests : List (Nat × W64)) : (c.issueOp lanes dests).group? c.g.gid = some (g.awaiting c.s.tick dests) := by
  unfold Ctx.issueOp
  rw [if_neg hne]
  exact State.group_mod_self (f := Group.awaiting c.s.tick dests) hg rfl

/-- A deque operation keeps in its requests the threads whose status predicate it writes (R178). -/
def Ctx.viewed (c : Ctx) (o : MemOp) : MemOp :=
  { o with lanes := o.lanes.map (fun l => { l with view := if c.i.scalar then c.actMask else (1 : W64) <<< l.lane }) }

/-- The machine with a deque operation outstanding. -/
def Ctx.dequeued (c : Ctx) (q : Nat) : State :=
  if q = 7 then c.memIssued.modOp c.s.tick c.viewed
  else (c.memIssued.modOp c.s.tick c.viewed).modGroup c.g.gid (Group.awaiting c.s.tick [(0x144 + q, c.actMask)])

theorem dequeIssue_of {x : XForm} {c : Ctx} (hclean : c.memClean) :
    dequeIssue x c = .ok { s := if c.act = [] then c.s else c.dequeued (x.imm.toNat % 8) } := by
  unfold dequeIssue
  rw [memIssue_of hclean]
  dsimp only
  by_cases hact : c.act = []
  · have hreqs : c.memReqs = [] := by rw [Ctx.memReqs, Ctx.memLanes_eq_nil.2 hact, List.map_nil]
    rw [if_pos hact, if_pos hact, Ctx.memIssued, hreqs]
    rfl
  · rw [if_neg hact, if_neg hact, Ctx.dequeued]
    by_cases hq : x.imm.toNat % 8 = 7
    · rw [if_pos hq, if_pos hq]
      rfl
    · rw [if_neg hq, if_neg hq]
      rfl

/-- The state but for its operations, groups and tick. -/
def State.opless (s : State) : State := { s with ops := [], groups := [], tick := 0 }

theorem State.opless_modOp (s : State) (k : Nat) (f : MemOp → MemOp) : (s.modOp k f).opless = s.opless := rfl

theorem State.opless_modGroup (s : State) (k : Nat) (f : Group → Group) : (s.modGroup k f).opless = s.opless := rfl

theorem Ctx.opless_issueOp (c : Ctx) (lanes : List LaneReq) (dests : List (Nat × W64)) : (c.issueOp lanes dests).opless = c.s.opless := by
  unfold Ctx.issueOp
  split_ifs <;> rfl

theorem Ctx.opless_dequeued (c : Ctx) (q : Nat) : (c.dequeued q).opless = c.s.opless := by
  unfold Ctx.dequeued
  split_ifs
  · rw [State.opless_modOp, Ctx.memIssued, Ctx.opless_issueOp]
  · rw [State.opless_modGroup, State.opless_modOp, Ctx.memIssued, Ctx.opless_issueOp]

/-- A change of the one operation of an identifier, the last. -/
theorem State.ops_modOp_last {s : State} {l : List MemOp} {o : MemOp} (hops : s.ops = l ++ [o]) (hfresh : ∀ p ∈ l, p.id ≠ o.id)
    {f : MemOp → MemOp} (hf : (f o).id = o.id) : (s.modOp o.id f).ops = l ++ [f o] := by
  have hlast : ({ f o with id := o.id } : MemOp) = f o := by rw [← hf]
  have hmod : (s.modOp o.id f).ops = s.ops.map (fun p => if p.id = o.id then { f p with id := o.id } else p) := rfl
  rw [hmod, hops, List.map_append, List.map_congr_left fun p hp => if_neg (hfresh p hp), List.map_id', List.map_singleton, if_pos rfl, hlast]

theorem Ctx.dequeued_ops {c : Ctx} (hact : c.act ≠ []) (hfresh : ∀ o ∈ c.s.ops, o.id ≠ c.s.tick) (q : Nat) :
    (c.dequeued q).ops = c.s.ops ++ [c.viewed (c.newOp c.memReqs)] := by
  have hne : c.memReqs ≠ [] := by
    rw [Ctx.memReqs, ne_eq, List.map_eq_nil_iff, Ctx.memLanes_eq_nil]
    exact hact
  have hops : (c.memIssued.modOp c.s.tick c.viewed).ops = c.s.ops ++ [c.viewed (c.newOp c.memReqs)] :=
    State.ops_modOp_last (o := c.newOp c.memReqs) (c.issueOp_ops hne _) hfresh rfl
  unfold Ctx.dequeued
  split_ifs
  · exact hops
  · rw [State.modGroup_ops, hops]

theorem Group.mem_awaiting {g : Group} {id : Nat} {dests : List (Nat × W64)} {d : Nat × W64} (hd : d ∈ dests) :
    ⟨id, d.1, d.2⟩ ∈ (g.awaiting id dests).pend :=
  List.mem_append_right _ (List.mem_map_of_mem (f := fun d : Nat × W64 => (⟨id, d.1, d.2⟩ : Pend)) hd)

theorem Group.awaiting_frame {g g₀ : Group} {id : Nat} {dests : List (Nat × W64)} (h : { g with pend := g₀.pend } = g₀) :
    { g.awaiting id dests with pend := g₀.pend } = g₀ := h

/-- The status predicate of a deque operation is pending too. -/
theorem Ctx.dequeued_group {c : Ctx} (hact : c.act ≠ []) (hg : c.s.group? c.g.gid = some c.g) (q : Nat) :
    ∃ g, (c.dequeued q).group? c.g.gid = some g ∧ { g with pend := c.g.pend } = c.g ∧
      (q ≠ 7 → ⟨c.s.tick, 0x144 + q, c.actMask⟩ ∈ g.pend) := by
  have hne : c.memReqs ≠ [] := by
    rw [Ctx.memReqs, ne_eq, List.map_eq_nil_iff, Ctx.memLanes_eq_nil]
    exact hact
  have hissued : c.memIssued.group? c.g.gid = some (c.g.awaiting c.s.tick (c.destPend (c.memLanes.map (·.1)))) :=
    Ctx.issueOp_group hg hne _
  generalize c.destPend (c.memLanes.map (·.1)) = dests at hissued
  unfold Ctx.dequeued
  generalize c.memIssued = u at hissued
  have hgroup : (u.modOp c.s.tick c.viewed).group? c.g.gid = some (c.g.awaiting c.s.tick dests) := hissued
  split_ifs with hq
  · exact ⟨_, hgroup, rfl, fun hne => absurd hq hne⟩
  · have hmarked := State.group_mod_self (f := Group.awaiting c.s.tick [(0x144 + q, c.actMask)]) hgroup rfl
    refine ⟨_, hmarked, ?_, fun _ => ?_⟩
    · exact Group.awaiting_frame (Group.awaiting_frame rfl)
    · exact Group.mem_awaiting (List.mem_singleton_self _)

end Sys2Proof.Machine

open Sys2Proof Sys2Proof.Machine

/-- R178, R388: a deque operation is outstanding. -/
theorem dequesIssue : Statements.DequesIssue := by
  intro x i hi s c h hfresh hclean
  have hexec : exec i s = done s (issueWord i (dequeIssue x) s) := by
    simp only [List.mem_cons, List.not_mem_nil, or_false] at hi
    obtain rfl | rfl | rfl := hi
    · rfl
    · rfl
    · rfl
  obtain ⟨rfl, rfl, -⟩ := State.issues_ctx h
  have hsem := dequeIssue_of (x := x) hclean
  refine ⟨fun hact => hexec.trans (issueWord_of_idle h (hsem.trans ?_)), fun hact => ?_⟩
  · rw [if_pos hact]
  · rw [if_neg hact] at hsem
    have hops := Ctx.dequeued_ops hact hfresh (x.imm.toNat % 8)
    have hframe := c.opless_dequeued (x.imm.toNat % 8)
    obtain ⟨g, hg, hgframe, hpend⟩ := Ctx.dequeued_group hact (State.issues_group h) (x.imm.toNat % 8)
    have hr : c.Completable { s := c.dequeued (x.imm.toNat % 8) } := by
      refine ⟨rfl, (congrArg State.fuses hframe :), ?_⟩
      rw [hg, State.issues_group h]
      exact congrArg some (congrArg Group.stepPath hgframe :)
    refine ⟨_, _, hexec.trans (issueWord_of_ok h hsem hr), hops, rfl, rfl, rfl, rfl, ?_, fun l hl => ?_, (congrArg State.hbm hframe :),
      (congrArg State.home hframe :), _, Ctx.completes_group hg, (congrArg Group.vregs hgframe :), (congrArg Group.sregs hgframe :), hpend⟩
    · have hlanes : (c.viewed (c.newOp c.memReqs)).lanes = c.memReqs.map (fun l => { l with
          view := if c.i.scalar then c.actMask else (1 : W64) <<< l.lane }) := rfl
      rw [hlanes, Ctx.memReqs, List.map_map, List.map_map]
      rfl
    · obtain ⟨k, -, rfl⟩ := List.mem_map.1 hl
      rfl

/-- Settles O42: the queue instructions, the waiters that proceed, and the deque instructions. -/
theorem queuesAndDeques : Obligations.QueuesAndDeques := ⟨queueInstructions, queuesProceed, dequesIssue⟩

end
